-- ==== Sys2Proof/Word.lean ====
section
/-! DEFINITION. The word types (R5, R6) and the plainest bit-field arithmetic over them. -/

namespace Sys2Proof

/-- A byte of memory. -/
abbrev Byte := BitVec 8

/-- A register: 64 bits wide (R6). -/
abbrev Word := BitVec 64

/-- A command word of a core: 32 bytes (R105). -/
abbrev CmdWord := BitVec 256

/-- The `len` bits of `v` from bit `lo` up. -/
def bitsOf (v lo len : Nat) : Nat := (v / 2 ^ lo) % 2 ^ len

/-- `v` with the `len` bits from bit `lo` up replaced by `x`. -/
def putBits (v lo len x : Nat) : Nat := v - bitsOf v lo len * 2 ^ lo + (x % 2 ^ len) * 2 ^ lo

/-- Bit `i` of `v`. -/
def bitAt (v i : Nat) : Bool := v.testBit i

/-- A Bool as a bit. -/
def b2n (b : Bool) : Nat := if b then 1 else 0

end Sys2Proof
end

