-- ==== Sys2Proof/Config.lean ====
section
/-! DEFINITION. What the package fixes for every run, and the free values: what the spec leaves open. A free value is a constant
with no body, applied to a plain number that the state counts up or to the operands it depends on; nothing can be proved of it. -/

namespace Sys2Proof.Config

/-- Units of the model's clock in a nanosecond: `BEAT_DTIME` counts 1/256 ns (R19). -/
def nsUnits : Nat := 256
/-- Units in a microsecond. -/
def usUnits : Nat := 256000
/-- Units in a millisecond. -/
def msUnits : Nat := 256000000
/-- Units in a second. -/
def secUnits : Nat := 256000000000

/-- Virtual stages of a package (03_stages_queues_versions.md). -/
def stages : Nat := 32
/-- Eloarun links of a package (R285). -/
def links : Nat := 24
/-- Global clusters a mask can name: 72 on each of eight die positions (R48). -/
def clusters : Nat := 576
/-- Physical cores of a cluster, of which 16 are active (R14). -/
def coresPerCluster : Nat := 18
/-- Records of the hub-die event queue (R369). -/
def eventQueue : Nat := 1024
/-- Registers that a transaction stages at most (R350). -/
def stagedMax : Nat := 1024
/-- Windows of a group FIFO (R79). -/
def windowFifo : Nat := 16
/-- Stash records that a stage holds at most (R91). -/
def stashRecords : Nat := 64
/-- Flits of a replay buffer and of a receive buffer (R290, R293). -/
def replayFlits : Nat := 8192
/-- Commands in flight in a ring at most (R356). -/
def ringInflight : Nat := 4096
/-- Aborts pending on a ring at most (R362). -/
def ringAborts : Nat := 64
/-- Host requests outstanding at the active bridge at most (R310). -/
def bridgeOutstanding : Nat := 1024

/-- A fresh 64-bit value that the spec leaves open; the argument is the state's own count of fresh values. -/
opaque freeWord : Nat → Word
/-- A fresh byte that the spec leaves open (a byte of an unknown state). -/
opaque freeByte : Nat → Byte

/-- The worst-case drift, ns, that the beat unit estimates after so many clock units of HOLDOVER (R28 gives no estimate). -/
opaque driftNs : Nat → Nat

/-- What the vector engine answers for an operation and an argument, taken where it lies within the stated error (R120). -/
opaque approx : Nat → Nat → BitVec 32
/-- GELU (Table 5-6) and its derivative: the spec gives no formula. -/
opaque gelu : Nat → Nat
opaque geluSlope : Nat → Nat
/-- Which partial sums a sum of no fixed order adds next (Table 5-6, R179). -/
opaque pick : Nat → Nat → Nat

/-- A power β^t as the Pour engine forms it: an FP32 word from the FP32 word of β and t (R239 gives no precision). -/
opaque betaPower : Nat → Nat → BitVec 32

/-- The value that the ROM extends into MR0 (R451): ROM version, life-cycle code and revocation fuses, in a form the spec does not give. -/
opaque romMeasure : Nat → Nat → BitVec 384
/-- Numbers of what the spec names without giving it a number: causes of reports, alarms, rails. -/
opaque openCode : Nat → Nat
/-- The DER bytes of the attestation key certificate (R453), and those of a signature by a key of the package (R446). -/
opaque attestCert : Nat → List Byte
opaque signature : Nat → BitVec 768
/-- Nalto's enterprise number, the UUID that a package serial gives, the MCTP versions reported (R371). -/
opaque iana : BitVec 32
opaque uuid : Nat → BitVec 128
opaque mctpVersions : BitVec 32
/-- Nalto's JEP106 manufacturer code (R441). -/
opaque jepCode : BitVec 11

end Sys2Proof.Config
end

