-- ==== Sys2Proof/Message.lean ====
section
/-! DEFINITION. What commands carry from outside: the contents of messages (02, 03, 12, 14) and of partner exchanges. -/

namespace Sys2Proof.Machine

/-- A period and landing change that awaits its beat (R43). -/
structure PendPeriod where
  period : Nat
  landing : Nat
  beat : Nat
deriving DecidableEq, Repr

/-- An announce message (R26): the best domain master the sender knows with its hop count, the best group master of its group,
and the sender's own serial and candidacy. -/
structure Announce where
  domain : Nat
  group : Nat
  best : Option Nat
  bestConfigured : Bool
  hops : Nat
  groupBest : Option Nat
  groupConfigured : Bool
  serial : Nat
  candidate : Bool
  groupCandidate : Bool
deriving DecidableEq, Repr

/-- A time message (R31, R32, R43): the egress stamp t1 and the domain's epoch, period, landing window, pending change and beat. -/
structure TimeMsg where
  domain : Nat
  master : Nat
  hops : Nat
  t1 : Nat
  epoch : Nat
  period : Nat
  landing : Nat
  pend : Option PendPeriod
  beat : Nat
  /-- domain time of the tick that opened the beat -/
  beatTick : Nat
deriving DecidableEq, Repr

/-- An event record (Table 14-13). -/
structure EventRec where
  seq : Nat
  code : Nat
  event : Nat
  inst : Nat
  time : Nat
  count : Nat
  forced : Bool
  lossBefore : Bool
  arg0 : Nat
  arg1 : Nat
deriving DecidableEq, Repr

/-- Direction of a phase. -/
inductive Dir where
  | fwd | bwd
deriving DecidableEq, Repr

/-- A host request (Table 12-8). -/
structure HostReq where
  tag : Nat
  op : Nat
  width32 : Bool
  addr : Nat
  len : Nat
  data : List Byte
  /-- the path of a PATH request: links left and links recorded (R309) -/
  path : List Nat
  back : List Nat
deriving DecidableEq, Repr

/-- A host response: TAG, STATUS and read data. -/
structure HostRsp where
  tag : Nat
  status : Nat
  data : List Byte
  back : List Nat
deriving DecidableEq, Repr

/-- The one sender of an inbound queue (R60). -/
structure Sender where
  node : Nat
  stage : Nat
  chan : Nat
  route : Nat
deriving DecidableEq, Repr

/-- A stage output as it reaches a queue: its target, its sender and the descriptor's fields with the payload's bytes (R55, Table 3-2). -/
structure Output where
  stage : Nat
  dir : Dir
  src : Sender
  last : Bool
  microBatch : Nat
  format : Nat
  step : Nat
  version : Nat
  bytes : Nat
  check : Nat
  scale : Nat
  data : List Byte
deriving DecidableEq, Repr

/-- What a message carries, by the chapter that owns its class. -/
inductive MsgBody where
  /-- BEAT class (02): link-local -/
  | announce (a : Announce)
  | time (m : TimeMsg)
  | delayRequest (t3 : Nat)
  | delayResponse (t4 : Nat)
  /-- CONTROL class: channel opens, answers, credits and releases (R60 to R62, R366) -/
  | chanOpen (stage queue fromStage chan route : Nat)
  | chanAnswer (stage chan result depth units used : Nat)
  | credit (stage chan n : Nat)
  | release (stage queue : Nat)
  | close (stage chan : Nat)
  /-- STAGE class: an output's payload and descriptor (R55) -/
  | output (o : Output)
  /-- any other class: the kind its chapter names, its header fields in that chapter's order, its data -/
  | fields (kind : Nat) (vals : List Nat) (data : List Byte)
  /-- HOST_REQ, HOST_RSP and EVENT (R309, R310, R367) -/
  | hostReq (r : HostReq)
  | hostRsp (r : HostRsp)
  | event (r : EventRec)
deriving DecidableEq, Repr

/-- A message (Table 12-5). -/
structure Msg where
  dest : Nat
  cls : Nat
  hops : Nat
  src : Nat
  len : Nat
  body : MsgBody
deriving DecidableEq, Repr

/-- What a partner exchange carries (R302). -/
structure Partner where
  serial : Nat
  node : Nat
  nodeValid : Bool
  domain : Nat
  link : Nat
  adapter : Bool
  revision : Nat
  shares : List Nat
deriving DecidableEq, Repr

/-- A flit that the port has put on the wire: the type (0 DATA, 1 IDLE, 2 NAK, 3 ALIGN) and its header fields (Table 12-3). -/
structure WireFlit where
  typ : Nat
  seq : Nat
  ack : Option Nat
  vc : Nat
  som : Bool
  eom : Bool
  cvc : Nat
  bytes : Nat
  credit : Nat
deriving DecidableEq, Repr

/-- What a lane's telemetry reads (R306): OMA in 0.01 dBm, bias in 10 µA, whether the bias is above 1.3 times its value at manufacture,
and whether the wavelength is beyond its grid tolerance. -/
structure LaneOptics where
  tx : Int
  rx : Int
  bias : Nat
  biasHigh : Bool
  offGrid : Bool
deriving DecidableEq, Repr

/-- What the line code finds when a line is read (R226). -/
inductive LineCheck where
  | clean | corrected | uncorrectable
deriving DecidableEq, Repr

/-- Statistics of a history slot for a step (R164); `amax` is a non-negative FP32 word. -/
structure Stats where
  amax : Nat := 0
  count : Nat := 0
  preNz : Nat := 0
  nonzero : Nat := 0
  underCur : Nat := 0
  underNext : Nat := 0
  sat : Nat := 0
  nonfinite : Bool := false
  /-- ladder position at which the conversions measured -/
  position : Nat := 0
deriving DecidableEq, Repr

/-- The header of a transmission between Crucibles (Table 11-2); its BYTES is the payload's length. -/
structure CruHeader where
  bucketId : Nat
  index : Nat
  flags : Nat
  format : Nat
  step : Nat
  sender : Nat
  dest : Nat
  member : Nat
  count : Nat
  elements : Nat
  sum : Nat
  abs : Nat
  sumC : Nat
  absC : Nat
deriving DecidableEq, Repr

/-- A step report (R274, R275): STALL by a bucket or by a missing child, NONFINITE, a blocking checksum failure, N2 as an FP64 word,
slot statistics by LAYER_ID and KIND. -/
structure StepReport where
  step : Nat
  stall : Bool
  missing : Bool
  nonfinite : Bool
  cksum : Bool
  n2 : Nat
  stats : List ((Nat × Nat) × Stats)
deriving DecidableEq, Repr

/-- A step's outcome (R276): the decision and its cause, the clip mode, c as an FP32 word, N as an FP64 word, the merged statistics. -/
structure Outcome where
  step : Nat
  commit : Bool
  cause : Nat
  perRegion : Bool
  clip : Nat
  norm : Nat
  stats : List ((Nat × Nat) × Stats)
deriving DecidableEq, Repr

/-- An expert header that has arrived with its rows (R210). -/
structure MoeHeader where
  stage : Nat
  table : Nat
  expert : Nat
  sender : Nat
  step : Nat
  microBatch : Nat
  dir : Dir
  count : Nat
  src : Sender
  /-- a wait has taken it -/
  used : Bool := false
deriving DecidableEq, Repr

/-- A firmware image as the package reads it from a flash slot (R448): its 512-byte header, its body, and whether the header's signature is
that of root key KEY_SLOT over bytes 0 to 415. -/
structure ImageRead where
  header : List Byte := []
  body : List Byte := []
  sigOk : Bool := false
deriving DecidableEq, Repr

/-- An entry of the repair ledger (Table 17-6): KIND, PLACE, cluster or pseudo-channel, LOCATION, SPARE, ORIGIN. -/
structure Repair where
  kind : Nat
  place : Nat
  where' : Nat
  location : Nat
  spare : Nat
  origin : Nat
deriving DecidableEq, Repr

/-- A regulated rail (R442, R472, Table 19-4). -/
inductive Rail where
  | die (d i : Nat)
  | stack (k : Nat)
  | hub | optics | guest
deriving DecidableEq, Repr

end Sys2Proof.Machine
end

