-- ==== Sys2Proof/Syntax.lean ====
section
/-! DEFINITION. The commands of the block: one constructor per row of the table of operations and events, in its order. A command that comes
about at a moment carries `dt`, the clock units (1/256 ns) that pass before it; what comes from outside the package (a message, a
reading, a verdict of a check that the model does not compute) is an operand. `found` says what the line code finds in lines that the
command reads. -/

namespace Sys2Proof

open Machine

inductive Instr where
  /-- TICK: Domain time crosses a beat boundary; the package raises tick n and BEAT_NUMBER advances (R20) -/
  | tick (dt : Nat)
  /-- TICK_NOTICE: 200 ns before a boundary the hub beat unit sends each compute die a tick notice carrying n and the target ACLK
  count, and the dies arm it (R23) -/
  | tickNotice (dt : Nat)
  /-- PHASE_LATE_START: A phase whose start conditions were unmet at the tick starts at the first moment before the work deadline
  at which they all hold (R37) -/
  | phaseLateStart (dt stage : Nat)
  /-- WORK_DEADLINE: The work deadline passes, and a phase not yet started gives up its slot for that beat (R37) -/
  | workDeadline (dt : Nat)
  /-- COMPUTE_END: Every core completes the last command of the phase, the phase's compute ends, and SLOT_LATE is set if that is
  after the deadline (R100) -/
  | computeEnd (dt stage cluster core : Nat)
  /-- OUTPUT_LANDED: The downstream queue writes the output's last byte and sets the descriptor valid, which ends the phase when
  every channel has landed (R38) -/
  | outputLanded (dt stage chan : Nat)
  /-- PHASE_HUNG: A phase still running HUNG_BEATS beats after its beat is declared hung, abandoned and its stage held (R41) -/
  | phaseHung (dt stage : Nat)
  /-- PERIOD_CHANGE: A committed period or landing change takes effect at tick n+8 and BEAT_PERIOD_CHANGE is raised (R43) -/
  | periodChange
  /-- ANNOUNCE_RECEIVE: An announce is received, and the package adopts the best master serial it names (R26) -/
  | announceReceive (dt link : Nat) (a : Announce)
  /-- ELECTION_END: The package's election view has stayed unchanged for four beats, so the election ends and roles and the epoch
  are settled (R26) -/
  | electionEnd (dt : Nat)
  /-- ELECTION_TIMEOUT: An election that has run for 10 s without a master raises BEAT_ALIGN_LOST once (R26) -/
  | electionTimeout (dt : Nat)
  /-- ACQUIRE_TIMEOUT: A package still ACQUIRING 10 s after entry raises BEAT_ALIGN_LOST once (R31) -/
  | acquireTimeout (dt : Nat)
  /-- TIME_MESSAGE_RECEIVE: A time message arrives on the uplink, and the offset is computed and then stepped, slewed or found too
  large (R32) -/
  | timeMessageReceive (dt link : Nat) (m : TimeMsg)
  /-- DELAY_REQUEST_SEND: Every 16 beats, and after a link retrain, the downstream package sends a delay request stamped t3 (R32) -/
  | delayRequestSend (dt : Nat)
  /-- DELAY_REQUEST_RECEIVE: The upstream port stamps t4 on the arriving delay request and returns it (R32) -/
  | delayRequestReceive (dt link t3 : Nat)
  /-- DELAY_RESPONSE_RECEIVE: The returned t4 arrives, and the path delay is recomputed (R32) -/
  | delayResponseReceive (dt link t4 : Nat)
  /-- HOLDOVER_ENTRY: No time message arrives for MISS beats, so the package switches uplink or enters HOLDOVER (R28) -/
  | holdoverEntry (dt : Nat)
  /-- REJOIN: A write of BEAT_CTRL.REJOIN asks for a step to the master's time at the next boundary of the master's beat (R45) -/
  | rejoin
  /-- REJOIN_STEP: At the next boundary of the master's beat the clock steps, or the REJOIN bit clears with no effect (R29) -/
  | rejoinStep (dt : Nat)
  /-- BEAT_ENABLE: A write of BEAT_CTRL.ENABLE starts FREE_RUN, or stops ticks and applies any pending period change (R45) -/
  | beatEnable (dt : Nat) (en : Bool)
  /-- REF_LOCK: The beat unit completes frequency and phase lock to the external reference and sets REF_LOCKED (R34) -/
  | refLock (dt : Nat) (off : Int)
  /-- REF_LOSS: A missing or displaced 1 PPS edge, or loss of the 25 MHz input, loses the reference (R35) -/
  | refLoss (dt : Nat)
  /-- SECOND_PULSE: In mode 2 the beat output pulses at each whole second of domain time (R36) -/
  | secondPulse (dt : Nat)
  /-- MICRO_BATCH_RECEIVE: A payload and its descriptor arrive at a queue and the CRC is checked (R55) -/
  | microBatchReceive (dt : Nat) (o : Output)
  /-- CREDIT_RECEIVE: A returned credit or release reaches the sending channel (R62) -/
  | creditReceive (dt stage chan n : Nat)
  /-- CHANNEL_OPEN_RECEIVE: A target queue receives an open and answers with its geometry, refuses a second sender, or reports
  that it is disabled (R60) -/
  | channelOpenReceive (dt stage : Nat) (d : Dir) (x : Sender)
  /-- CHANNEL_OPEN_ANSWER: The open's answer sets the channel's credits and OPEN state, or sets it DOWN; the stage becomes READY
  when every channel is open (R61) -/
  | channelOpenAnswer (dt stage chan result depth units used : Nat)
  /-- CHANNEL_OPEN_TIMEOUT: An open with no answer one beat after it was sent sets the channel DOWN (R61) -/
  | channelOpenTimeout (dt stage chan : Nat)
  /-- STAGE_DRAIN_DEADLINE: DRAIN_BEATS after the disable, a phase still running is abandoned and its credits and input entry are
  restored (R366) -/
  | stageDrainDeadline (dt stage : Nat)
  /-- STAGE_DISABLED: The drain ends, the stage becomes DISABLED, its windows and stash are cleared, and HAL_WIN_DISCARDED is
  raised (R87) -/
  | stageDisabled (dt stage : Nat)
  /-- FQ_PUSH: A write of STG_FQ_PUSH makes software-fed forward entries valid, or is discarded with STG_PUSH_OVERFLOW (R58) -/
  | fqPush (dt stage n : Nat)
  /-- QFLUSH_FORWARD: STG_QFLUSH bit 0 clears the forward queue of a DISABLED stage, and is otherwise refused (R59) -/
  | qflushForward (stage : Nat)
  /-- QFLUSH_BACKWARD: STG_QFLUSH bit 1 clears the backward queue of a DISABLED stage, and is otherwise refused (R59) -/
  | qflushBackward (stage : Nat)
  /-- HAL_HOLD: HAL_CTRL.HOLD stops the group from starting phases, or lets it start them again (R86) -/
  | halHold (dt stage : Nat) (b : Bool)
  /-- HAL_CLEAR: HAL_CTRL.CLEAR zeroes the stage counters at the next tick (R76) -/
  | halClear (stage : Nat)
  /-- WIN_ISSUE_STAGE: A write of HAL_WIN_ISSUE_A, or a 32-bit write of the lower half of HAL_WIN_ISSUE_B, stages an issue value
  (R78) -/
  | winIssueStage (stage : Nat) (regB : Bool) (half : Option Nat) (value : Nat)
  /-- WIN_PUSH: A 64-bit or upper-half write of HAL_WIN_ISSUE_B pushes the window, checks it, and queues or discards it (R79) -/
  | winPush (stage : Nat) (half : Option Nat) (value : Nat)
  /-- WIN_FLUSH: HAL_WIN_FLUSH removes the writing stage's waiting windows while that stage is DISABLED or its group is STOPPED
  (R87) -/
  | winFlush (stage : Nat)
  /-- LAYER_LIST_START: Once the layer is gathered for the phase's version, the sequencer starts the layer's list and sets
  predicates 7 to 15 and the replay point (R249) -/
  | layerListStart (dt cluster core : Nat)
  /-- NOP: The sequencer completes NOP at dispatch (R104) -/
  | nop (dt cluster core : Nat) (w : CmdWord)
  /-- SYNC: SYNC waits for every earlier command and its token, signals, and records a replay point when RPOINT is set (R104) -/
  | sync (dt cluster core : Nat) (w : CmdWord)
  /-- MMA: A matrix product streams A rows past the stationary B tile and adds each K-step into the accumulator slot (R98) -/
  | mma (dt cluster core : Nat) (w : CmdWord)
  /-- TRIM_WINDOW_END: A gap outlasts TRIM_WINDOW, and the array begins to ramp down (R123) -/
  | trimWindowEnd (dt cluster core : Nat)
  /-- RAMP_DOWN_STEP: At each 8-cycle interval of a ramp-down the level falls by one, and the array clock-gates at 0 (R123) -/
  | rampDownStep (dt cluster core : Nat)
  /-- ADD: The vector engine runs ADD (R120) -/
  | add (dt cluster core : Nat) (w : CmdWord)
  /-- MUL: The vector engine runs MUL (R120) -/
  | mul (dt cluster core : Nat) (w : CmdWord)
  /-- FMA: The vector engine runs FMA (R120) -/
  | fma (dt cluster core : Nat) (w : CmdWord)
  /-- MAX: The vector engine runs MAX (R120) -/
  | max (dt cluster core : Nat) (w : CmdWord)
  /-- MIN: The vector engine runs MIN (R120) -/
  | min (dt cluster core : Nat) (w : CmdWord)
  /-- EXP: The vector engine runs EXP at the T rate (R120) -/
  | exp (dt cluster core : Nat) (w : CmdWord)
  /-- LOG: The vector engine runs LOG at the T rate (R120) -/
  | log (dt cluster core : Nat) (w : CmdWord)
  /-- RCP: The vector engine runs RCP at the T rate (R120) -/
  | rcp (dt cluster core : Nat) (w : CmdWord)
  /-- RSQRT: The vector engine runs RSQRT at the T rate (R120) -/
  | rsqrt (dt cluster core : Nat) (w : CmdWord)
  /-- TANH: The vector engine runs TANH at the T rate (R120) -/
  | tanh (dt cluster core : Nat) (w : CmdWord)
  /-- GELU: The vector engine runs GELU at the T rate (R120) -/
  | gelu (dt cluster core : Nat) (w : CmdWord)
  /-- SILU: The vector engine runs SILU at the T rate (R120) -/
  | silu (dt cluster core : Nat) (w : CmdWord)
  /-- SIGMOID: The vector engine runs SIGMOID at the T rate (R120) -/
  | sigmoid (dt cluster core : Nat) (w : CmdWord)
  /-- CVT: CVT converts elements with a scale and rounding mode, or with AMAX set publishes the source's magnitude maximum (R161) -/
  | cvt (dt cluster core : Nat) (w : CmdWord)
  /-- MASK_BITS: MASK_BITS writes one mask bit per element (R120) -/
  | maskBits (dt cluster core : Nat) (w : CmdWord)
  /-- SIGN_BITS: SIGN_BITS writes one sign bit per element (R120) -/
  | signBits (dt cluster core : Nat) (w : CmdWord)
  /-- DERIV: DERIV forms a derivative times dy from a saved output, a pre-activation or mask bits (R188) -/
  | deriv (dt cluster core : Nat) (w : CmdWord)
  /-- ROWREDUCE: ROWREDUCE forms a row sum or row maximum (R120) -/
  | rowreduce (dt cluster core : Nat) (w : CmdWord)
  /-- RNG: RNG draws numbers from the counter-based Philox stream (R163) -/
  | rng (dt cluster core : Nat) (w : CmdWord)
  /-- AMAX_BARRIER_RELEASE: Every core has published AMAX_LAST for a slot, so the barrier sets the phase exponent and waiting
  conversions proceed (R173) -/
  | amaxBarrierRelease (dt stage slot : Nat)
  /-- ACC_DRAIN: ACC_DRAIN scales and converts a closed slot, writes it out and folds row statistics (R144) -/
  | accDrain (dt cluster core : Nat) (w : CmdWord)
  /-- ACC_LOAD: ACC_LOAD loads 32 FP32 rows into a slot, opening a group when OPEN is set (R147) -/
  | accLoad (dt cluster core : Nat) (w : CmdWord)
  /-- ACC_ZERO: ACC_ZERO zeroes a closed slot and clears its tile status (R147) -/
  | accZero (dt cluster core : Nat) (w : CmdWord)
  /-- ACC_GCFG: ACC_GCFG sets the spill interval of a closed group (R147) -/
  | accGcfg (dt cluster core : Nat) (w : CmdWord)
  /-- ACC_SPILL: ACC_SPILL forces a spill of every block of the group that has taken a K-step since its last spill (R137) -/
  | accSpill (dt cluster core : Nat) (w : CmdWord)
  /-- ACC_CLOSE: ACC_CLOSE applies END to every open element of the group (R147) -/
  | accClose (dt cluster core : Nat) (w : CmdWord)
  /-- ACC_DISCARD: ACC_DISCARD closes the group without collapse and zeroes its slot elements and Ladle pairs (R147) -/
  | accDiscard (dt cluster core : Nat) (w : CmdWord)
  /-- ACC_RS_STORE: ACC_RS_STORE writes a row-statistic entry and optionally resets it (R146) -/
  | accRsStore (dt cluster core : Nat) (w : CmdWord)
  /-- ACC_TS_STORE: ACC_TS_STORE writes a slot's tile status as one 8-byte word (R147) -/
  | accTsStore (dt cluster core : Nat) (w : CmdWord)
  /-- DM_LOAD: DM_LOAD moves rows from memory into local SRAM in the addressed mode (R230) -/
  | dmLoad (dt cluster core : Nat) (w : CmdWord) (found : List (Nat × LineCheck))
  /-- DM_STORE: DM_STORE moves rows from local SRAM to memory in the addressed mode (R230) -/
  | dmStore (dt cluster core : Nat) (w : CmdWord)
  /-- DM_LOCAL: DM_LOCAL copies between operand SRAM and cluster SRAM (R229) -/
  | dmLocal (dt cluster core : Nat) (w : CmdWord)
  /-- DM_OUTDESC: DM_OUTDESC sets the phase's output FORMAT, BYTES and SCALE (R233) -/
  | dmOutdesc (dt cluster core : Nat) (w : CmdWord)
  /-- PSET: PSET sets a predicate register by its FORM (R200) -/
  | pset (dt cluster core : Nat) (w : CmdWord)
  /-- SKIPGEN: SKIPGEN turns mask bits or zero values into row-block skip bytes (R203) -/
  | skipgen (dt cluster core : Nat) (w : CmdWord)
  /-- MOE_ROUTE: A core issues its routing choices for a table and waits for placement, or in backward replays the log (R209) -/
  | moeRoute (dt cluster core : Nat) (w : CmdWord)
  /-- MOE_PLACEMENT: Once every core has issued MOE_ROUTE, the unit places the tokens and sends the rows and headers (R209) -/
  | moePlacement (dt stage table : Nat)
  /-- MOE_WAIT: An owner core waits for every sender's header and rows for an expert (R211) -/
  | moeWait (dt cluster core : Nat) (w : CmdWord)
  /-- MOE_HEADER_RECEIVE: An expert header and its rows arrive at the owner, which zero-fills the region or detects an order
  mismatch (R210) -/
  | moeHeaderReceive (dt : Nat) (h : MoeHeader) (rows : List Byte)
  /-- MOE_WAIT_COMPLETE: All of an expert's senders have arrived, so MOE_WAIT writes skip bytes and sets PDST (R211) -/
  | moeWaitComplete (dt cluster core : Nat)
  /-- MOE_ARRIVE_DEADLINE: ARRIVE_US expires with headers missing, and the missing senders count as zero rows (R211) -/
  | moeArriveDeadline (dt cluster core : Nat)
  /-- MOE_RETURN: MOE_RETURN sends each sender's result rows back to it (R212) -/
  | moeReturn (dt cluster core : Nat) (w : CmdWord)
  /-- MOE_RETURN_RECEIVE: A returned expert result arrives at the sender, or is discarded as late (R212) -/
  | moeReturnReceive (dt stage table expert step microBatch : Nat) (d : Dir) (rows : List Byte)
  /-- MOE_COMBINE: A sending core waits for its tokens' returns in order to form their gate-weighted sums (R212) -/
  | moeCombine (dt cluster core : Nat) (w : CmdWord)
  /-- MOE_COMBINE_COMPLETE: Every awaited return is in, and MOE_COMBINE writes each token's weighted sum (R212) -/
  | moeCombineComplete (dt cluster core : Nat)
  /-- MOE_RETURN_DEADLINE: Returns missing at the deadline are marked MISSING and may block the step's commit (R212) -/
  | moeReturnDeadline (dt cluster core : Nat)
  /-- TIE_FOLD: Every use of a tie has ended its last backward, so the Pour engines start adding the use buffers (R193) -/
  | tieFold (dt tie : Nat)
  /-- TIE_FOLD_DONE: The fold completes and hands DEST to the Crucible as the tie's bucket (R193) -/
  | tieFoldDone (dt tie : Nat)
  /-- ASSAY_CHECK_DONE: The vector engine finishes recomputing a sampled MMA and reports any divergence under ACTION (R177) -/
  | assayCheckDone (dt cluster core : Nat) (upset : Bool)
  /-- WARM_FORCE: A write of NUM_WARM_FORCE with a slot index puts that slot into current-amax mode (R172) -/
  | warmForce (slot : Nat)
  /-- WARM_FORCE_ALL: NUM_WARM_FORCE.ALL puts every slot into current-amax mode (R172) -/
  | warmForceAll
  /-- SCRUB_READ: Patrol scrub reads and checks stack lines, correcting or poisoning them (R228) -/
  | scrubRead (dt stack offset : Nat) (found : LineCheck)
  /-- STACK_THERMAL: A stack temperature crossing 85, 93 or 90 °C changes the refresh rate or the request cap (R225) -/
  | stackThermal (dt stack temp : Nat)
  /-- POUR_REGION_DONE: An engine completes a region's update and writes its T, or stops it on poison or stack loss (R239) -/
  | pourRegionDone (dt stack : Nat) (found : List (Nat × LineCheck))
  /-- GATHER_REQUEST_RECEIVE: A member receives a fetch and serves it from version v, holds it, or answers ABSENT (R248) -/
  | gatherRequestReceive (dt node stage version offset len : Nat)
  /-- GATHER_WAIT_EXPIRE: A held fetch reaches WAIT_US without the version and is answered ABSENT (R248) -/
  | gatherWaitExpire (dt node stage : Nat)
  /-- GATHER_BLOCK_RECEIVE: A fetched 4 KiB block arrives, is checked, retried or refetched from ALT_NODE, and a layer is marked
  ready (R247) -/
  | gatherBlockReceive (dt stage version offset crc : Nat) (poisoned : Bool) (data : List Byte)
  /-- GATHER_ABSENT_RECEIVE: An ABSENT answer arrives; the engine asks ALT_NODE or fails the gather (R248) -/
  | gatherAbsentReceive (dt stage version offset : Nat)
  /-- CONTRIBUTION_READY: A package's bucket contribution for a step is complete, and it is summed, thinned and sent for admission
  (R257) -/
  | contributionReady (dt index step : Nat)
  /-- ADMISSION_REQUEST: An owner receives an admission request and grants a context or leaves the sender waiting (R259) -/
  | admissionRequest (dt node index step : Nat)
  /-- ADMISSION_GRANT: The sender receives a grant and transmits its contribution (R259) -/
  | admissionGrant (dt node index step : Nat)
  /-- CONTRIBUTION_RECEIVE: An owner checks an arriving contribution and adds it, holds it, refuses it or discards it (R260) -/
  | contributionReceive (dt : Nat) (h : CruHeader) (data : List Byte)
  /-- RING_PARTIAL_RECEIVE: A ring member receives a partial, checks it, adds its own contribution and forwards the result (R264) -/
  | ringPartialReceive (dt : Nat) (h : CruHeader) (data : List Byte)
  /-- SOFT_DEADLINE: At the soft deadline the owner adds a held backup copy for each missing primary (R270) -/
  | softDeadline (dt index : Nat)
  /-- HARD_LIMIT: A contributor still missing at the hard limit stalls the bucket and raises CRU_STEP_STALL (R272) -/
  | hardLimit (dt index : Nat)
  /-- RESULT_WRITE: Once its gradient array is free, the owner checks the reduction checksum and writes the rounded result into
  the Pour region (R267) -/
  | resultWrite (dt index : Nat)
  /-- OWN_REPORT_READY: Every owned bucket and hosted stage is done for the step, so the package's own report is ready (R274) -/
  | ownReportReady (dt step : Nat)
  /-- CHILD_REPORT_RECEIVE: A parent receives a child's step report, combines it and sends upward when all are in (R275) -/
  | childReportReceive (dt child : Nat) (r : StepReport)
  /-- TREE_LIMIT_EXPIRY: A report is missing LIMIT beats after the parent's own, so it sends with STALL and MISSING_CHILD (R275) -/
  | treeLimitExpiry (dt step : Nat)
  /-- STEP_DECIDE: The root has the complete report and the previous outcome has been sent, so it decides COMMIT or REJECT with a
  clip factor (R276) -/
  | stepDecide (dt step : Nat)
  /-- STEP_OUTCOME_RECEIVE: A package receives the outcome, forwards it, commits or rejects, and writes counters and the digest
  record (R278) -/
  | stepOutcomeReceive (dt : Nat) (o : Outcome)
  /-- DATA_FLIT_RECEIVE: A DATA flit is checked by CRC and sequence, and is accepted or triggers a NAK (R290) -/
  | dataFlitReceive (dt k : Nat) (f : WireFlit) (ok : Bool)
  /-- IDLE_FLIT_RECEIVE: An IDLE flit delivers its ACK and credit fields (R289) -/
  | idleFlitReceive (dt k : Nat) (f : WireFlit) (ok : Bool)
  /-- NAK_RECEIVE: A NAK makes the sender replay every unacknowledged flit, starting a fast retrain at the replay limit (R290) -/
  | nakReceive (dt k : Nat) (f : WireFlit) (ok : Bool)
  /-- ALIGN_RECEIVE: An ALIGN flit confirms codeword lock (R289) -/
  | alignReceive (dt k : Nat) (f : WireFlit) (ok : Bool)
  /-- FLIT_SEND: In each flit slot the sender picks a virtual channel by priority and credit, or sends ALIGN or IDLE (R294) -/
  | flitSend (dt k : Nat)
  /-- MESSAGE_RECEIVE: A whole message arrives, its HCRC is checked, and it is delivered locally or forwarded, or is discarded
  when out of hops or unroutable (R297) -/
  | messageReceive (dt k : Nat) (m : Msg) (ok : Bool)
  /-- TRAINING_START: A port with ENABLE set starts full training from DISABLED or DOWN (R302) -/
  | trainingStart (dt k : Nat)
  /-- PARTNER_EXCHANGE: The partner exchange arrives, and identity, revision, delay and host mode are checked (R302) -/
  | partnerExchange (dt k : Nat) (q : Partner) (delayNs : Nat)
  /-- LINK_UP: Training completes, credits are advertised and the link becomes UP (R302) -/
  | linkUp (dt k : Nat)
  /-- TRAINING_LIMIT: A training step misses its limit and the port goes DOWN (R302) -/
  | trainingLimit (dt k : Nat)
  /-- TRAINING_RESTART_TIMER: 5 s after going DOWN a port restarts full training (R302) -/
  | trainingRestartTimer (dt k : Nat)
  /-- LIGHT_DETECTED: A waiting DOWN port sees partner light on all 8 lanes and starts training at once (R302) -/
  | lightDetected (dt k : Nat)
  /-- CODEWORD_LOCK_LOSS: Loss of codeword lock on a lane starts a fast retrain (R303) -/
  | codewordLockLoss (dt k lane : Nat)
  /-- RETRAIN: LNK_CTRL.RETRAIN starts a fast retrain (R303) -/
  | retrain (k : Nat)
  /-- FAST_RETRAIN_DONE: A fast retrain completes, the link returns to UP and outstanding NAKs are replayed (R303) -/
  | fastRetrainDone (dt k : Nat) (shares : List Nat)
  /-- FAST_RETRAIN_TIMEOUT: A fast retrain longer than 10 ms ends DOWN with cause 7 (R303) -/
  | fastRetrainTimeout (dt k : Nat)
  /-- HEALTH_WINDOW: At the end of each 100 ms window the link's health is set to GOOD, MARGINAL or FAILING (R304) -/
  | healthWindow (dt k : Nat) (corr : List Nat) (uncorr : Nat)
  /-- LINK_DISABLE: A write of 0 to LNK_CTRL.ENABLE stops new messages entering the link (R305) -/
  | linkDisable (dt k : Nat)
  /-- LINK_DISABLE_COMPLETE: Outstanding flits are acknowledged or 100 µs passes, and the link goes DOWN with its lasers off
  (R305) -/
  | linkDisableComplete (dt k : Nat)
  /-- OPTICAL_TELEMETRY: Every 10 ms lane telemetry is refreshed and optical alarms are raised (R306) -/
  | opticalTelemetry (dt k : Nat) (lanes : List LaneOptics) (temp : Nat)
  /-- VC_STUCK: A virtual channel holding a ready flit without credit for 1 ms raises LNK_VC_STUCK (R294) -/
  | vcStuck (dt k v : Nat)
  /-- REG_RD: A host REG_RD request is routed and performed, and its response is returned (R309) -/
  | regRd (dt link src : Nat) (dest : Option Nat) (r : HostReq)
  /-- REG_WR: A host REG_WR request is routed and performed under its access code (R309) -/
  | regWr (dt link src : Nat) (dest : Option Nat) (r : HostReq)
  /-- MEM_RD: A host MEM_RD request reads package memory (R309) -/
  | memRd (dt link src : Nat) (dest : Option Nat) (r : HostReq) (found : List (Nat × LineCheck))
  /-- MEM_WR: A host MEM_WR request writes package memory (R309) -/
  | memWr (dt link src : Nat) (dest : Option Nat) (r : HostReq)
  /-- HOST_RESPONSE_RECEIVE: The bridge matches a response by TAG and delivers it to the host, or discards it as late (R310) -/
  | hostResponseReceive (dt : Nat) (rsp : HostRsp)
  /-- HOST_REQUEST_TIMEOUT: A request with no response after TIMEOUT_US is answered TIMEOUT (R310) -/
  | hostRequestTimeout (dt : Nat)
  /-- BRIDGE_ACTIVATE: LNK_HB_CTRL.ACTIVE makes a bridge forward requests to its group, or returns it to STANDBY (R308) -/
  | bridgeActivate (active : Bool)
  /-- EVENT_RECORD_SEND: A queued event record is sent as an EVENT message once its node is valid and routed (R369) -/
  | eventRecordSend (dt : Nat)
  /-- HEARTBEAT_SEND: Every 200 ns each die sends a heartbeat on every fabric path (R322) -/
  | heartbeatSend (dt die : Nat)
  /-- HEARTBEAT_MISSING: A heartbeat missing for 1 µs is reported, and the hub declares the die lost when every path is silent
  (R322) -/
  | heartbeatMissing (dt die path : Nat)
  /-- FENCE_RELEASE: 40 µs after the last heartbeat the fabric is released and FAB_DIE_FENCED is raised (R323) -/
  | fenceRelease (dt : Nat)
  /-- SOFTWARE_FENCE: FAB_DIE_CTRL.FENCE fences a die with cause SOFTWARE (R322) -/
  | softwareFence (dt die : Nat)
  /-- DIE_READMIT: FAB_DIE_CTRL.READMIT starts the re-admission of a fenced die (R327) -/
  | dieReadmit (dt die : Nat)
  /-- READMIT_STEP_DONE: A re-admission step completes, and the next step starts or the die returns to FENCED (R327) -/
  | readmitStepDone (dt die : Nat) (ok : Bool) (fails : List (Nat × Bool))
  /-- READMIT_ACTIVATE: At the next step boundary a WAIT_STEP die becomes ACTIVE (R327) -/
  | readmitActivate (dt die : Nat)
  /-- CAPABILITY_RECORD_RECEIVE: A die's capability record arrives, the offer and flit revisions are formed, and a die below the
  floor is fenced (R328) -/
  | capabilityRecordReceive (dt die gen rev : Nat) (words : List Nat)
  /-- SHROUD_TRAINING_DONE: A shroud finishes training or retraining and sends width beacons (R318) -/
  | shroudTrainingDone (dt shroud a b : Nat)
  /-- WIDTH_BEACON_SEND: Every 100 µs each side of a shroud sends its width beacon (R318) -/
  | widthBeaconSend (dt shroud : Nat)
  /-- WIDTH_BEACON_RECEIVE: The hub die compares beacons, records the agreed mask, retrains on a mismatch and marks the shroud
  DEGRADED when the rule calls for it (R319) -/
  | widthBeaconReceive (dt shroud : Nat)
  /-- SHROUD_RETRAIN: FAB_SHROUD_j_CTRL.RETRAIN retrains the shroud (R336) -/
  | shroudRetrain (shroud : Nat)
  /-- SHROUD_RESTORE: FAB_SHROUD_j_CTRL.RESTORE trains a DEGRADED shroud afresh and clears its history (R320) -/
  | shroudRestore (shroud : Nat)
  /-- GATE_POLICY_LOAD: GATE_CTRL.LOAD verifies the guest policy and either starts guest training or rejects it (R332) -/
  | gatePolicyLoad (sigOk : Bool)
  /-- GUEST_TRAINING_DONE: The guest link trains, and the guest's identity is checked against the policy (R335) -/
  | guestTrainingDone (dt vendor device : Nat) (measurement : List Byte)
  /-- GATE_CLOSE: GATE_CTRL.CLOSE closes the guest site (R335) -/
  | gateClose
  /-- GUEST_LINK_LOSS: Loss of the UCIe link closes the guest site (R335) -/
  | guestLinkLoss (dt : Nat)
  /-- GUEST_REG_RD: A guest REG_RD is checked against the policy and served or refused (R333) -/
  | guestRegRd (dt dest : Nat) (r : HostReq)
  /-- GUEST_REG_WR: A guest REG_WR is checked against the policy and served or refused (R333) -/
  | guestRegWr (dt dest : Nat) (r : HostReq)
  /-- GUEST_MEM_RD: A guest MEM_RD is checked against its windows and rate and served, held or refused (R333) -/
  | guestMemRd (dt dest : Nat) (r : HostReq) (found : List (Nat × LineCheck))
  /-- GUEST_MEM_WR: A guest MEM_WR is checked against its windows and performed whole per line, held or refused (R333) -/
  | guestMemWr (dt dest : Nat) (r : HostReq)
  /-- GUEST_EVENT: A guest OP 4 forwards up to 64 bytes as an event to LNK_HB_NODE (R331) -/
  | guestEvent (dt dest : Nat) (r : HostReq)
  /-- GATE_HELD_RELEASE: A guest request held by a token bucket proceeds once the bucket refills (R334) -/
  | gateHeldRelease (dt : Nat) (found : List (Nat × LineCheck))
  /-- POWER_MANAGER_INTERVAL: Every 100 µs the power manager lends unused allotment, sets duty caps and samples the guest rails
  (R17) -/
  | powerManagerInterval (dt watts millivolts deciamps hub optics guest : Nat) (wants : List (Nat × Nat))
  /-- THERMAL_INTERVAL: Every 100 µs each compute die's ACLK and duty cap are adjusted from its junction readings (R483) -/
  | thermalInterval (dt : Nat) (readings : List (Nat × Nat)) (badRails : List Nat)
  /-- THERMAL_TRIP: A compute die at 110 °C or a hub die at 105 °C trips, removing die power or making a FATAL report (R485) -/
  | thermalTrip (dt die : Nat)
  /-- STACK_OVERTEMP: A stack above 95 °C for 1 ms loses its rails, and its die is fenced (R485) -/
  | stackOvertemp (dt stack temp : Nat)
  /-- REGISTER_WRITE: A write to a register with no row of its own acts under its access code, staged or refused for RWT (R8) -/
  | registerWrite (requester addr len value : Nat)
  /-- TXN_BEGIN: A write of PKG_TXN_BEGIN opens a transaction for its requester (R349) -/
  | txnBegin (requester value : Nat)
  /-- TXN_COMMIT: A write of PKG_TXN_COMMIT by the owner starts validation (R351) -/
  | txnCommit (requester : Nat)
  /-- TXN_VALIDATION_DONE: Validation completes, and the transaction either fails and is discarded or is accepted and PENDING
  (R351) -/
  | txnValidationDone (dt : Nat)
  /-- TXN_ROLLBACK: A write of PKG_TXN_ROLLBACK discards every staged write (R353) -/
  | txnRollback
  /-- TXN_TIMEOUT: A transaction left OPEN for TIMEOUT_MS rolls back by itself (R353) -/
  | txnTimeout (dt : Nat)
  /-- IRQ_FORCE: A 1 written to IRQ_FORCE bit n raises event n as a FORCED record (R343) -/
  | irqForce (page value : Nat)
  /-- RING_DOORBELL: A write of DIE_RING_TAIL hands new descriptors to the ring, or halts it with BAD_TAIL (R354) -/
  | ringDoorbell (die value : Nat)
  /-- COMMAND_FETCH: The ring fetches a descriptor, checks its class, tag and fence, and starts it, rejects it or halts (R355) -/
  | commandFetch (dt die : Nat) (found : LineCheck)
  /-- RING_NOP: A ring NOP completes with no effect (R355) -/
  | ringNop (dt die tag : Nat)
  /-- COPY: COPY moves BYTES from SRC to DST in 64 KiB chunks (R360) -/
  | copy (dt die tag : Nat) (found : List (Nat × LineCheck))
  /-- FILL: FILL writes the repeated PATTERN over a range (R360) -/
  | fill (dt die tag : Nat)
  /-- CHECK: CHECK computes the CRC-32C of a range and optionally compares it with EXPECT (R360) -/
  | check (dt die tag : Nat) (found : List (Nat × LineCheck))
  /-- RUN: RUN executes one command list on a range of clusters of its die (R361) -/
  | run (dt die tag : Nat)
  /-- BIST: A BIST command asks for a field self-test of an isolated cluster or core (R433) -/
  | bist (dt die tag : Nat)
  /-- SNAP_CAPTURE: SNAP_CAPTURE asks for a Mould image of the first committed step at or after STEP (R412) -/
  | snapCapture (dt tag : Nat)
  /-- SNAP_RESTORE: SNAP_RESTORE starts the verify pass of a restore from an image (R416) -/
  | snapRestore (dt tag : Nat)
  /-- REWIND: REWIND checks that a rejected step may be repeated, and at the next tick resets the data position and the stream
  offset (R391) -/
  | rewind (dt tag : Nat)
  /-- COMMAND_COMPLETE: A ring command finishes and writes its completion record, waiting for space if needed (R358) -/
  | commandComplete (dt die tag : Nat)
  /-- CQ_STALL: A completion record that waits more than 100 µs for space raises DIE_CQ_STALL (R358) -/
  | cqStall (dt die : Nat)
  /-- CQ_HEAD_WRITE: A write of DIE_CQ_HEAD frees completion entries for waiting records (R358) -/
  | cqHeadWrite (die value : Nat)
  /-- COMMAND_ABORT: A write of DIE_ABORT aborts the tagged command if it is before its abort point, and writes the abort result
  (R363) -/
  | commandAbort (die value : Nat)
  /-- RING_RESUME: DIE_RING_CTRL.RESUME fetches the halted entry again (R356) -/
  | ringResume (die : Nat)
  /-- RING_RESET: DIE_RING_CTRL.RESET zeroes the indices of a DISABLED ring (R376) -/
  | ringReset (die : Nat)
  /-- RING_DRAIN_DEADLINE: At the drain deadline, commands before their abort point complete ABORTED_BY_DISABLE (R365) -/
  | ringDrainDeadline (dt die : Nat)
  /-- TELEMETRY_RECORD: At every PERIOD_BEATS-th tick a telemetry record is written to the ring (R373) -/
  | telemetryRecord (dt : Nat)
  /-- SET_ENDPOINT_ID: The MCTP control command Set Endpoint ID is answered (R371) -/
  | setEndpointId (dt eid : Nat)
  /-- GET_ENDPOINT_ID: The MCTP control command Get Endpoint ID is answered (R371) -/
  | getEndpointId (dt : Nat)
  /-- GET_ENDPOINT_UUID: Get Endpoint UUID returns a UUID formed from the package serial (R371) -/
  | getEndpointUuid (dt : Nat)
  /-- GET_MCTP_VERSION_SUPPORT: The MCTP control command Get MCTP Version Support is answered (R371) -/
  | getMctpVersionSupport (dt : Nat)
  /-- GET_MESSAGE_TYPE_SUPPORT: The MCTP control command Get Message Type Support is answered (R371) -/
  | getMessageTypeSupport (dt : Nat)
  /-- GET_VENDOR_DEFINED_MSG_SUPPORT: Get Vendor Defined Message Support returns Nalto's enterprise number (R371) -/
  | getVendorDefinedMsgSupport (dt : Nat)
  /-- GET_IDENTITY: The Nalto command GET_IDENTITY returns the serial, variant and fitting (R371) -/
  | getIdentity (dt : Nat)
  /-- GET_TELEMETRY: The Nalto command GET_TELEMETRY returns the newest telemetry record (R371) -/
  | getTelemetry (dt : Nat)
  /-- READ_ERRLOG: The Nalto command READ_ERRLOG returns error log entries (R371) -/
  | readErrlog (dt die first count : Nat)
  /-- GET_MEASUREMENTS: A report or certificate-chain request over MCTP or MGMT creates or continues the signed object (R456) -/
  | getMeasurements (dt : Nat) (peer : Option Nat) (body : List Byte)
  /-- READ_REG: The Nalto command READ_REG returns up to 16 registers of any page except SEC (R371) -/
  | readReg (dt : Nat) (regs : List Nat)
  /-- LOCKSTEP_MISMATCH: A sequencer lockstep mismatch is a core failure and starts a spare refill (R378) -/
  | lockstepMismatch (dt cluster core : Nat)
  /-- WATCHDOG_EXPIRY: A unit queue makes no progress for WDOG_CYCLES, which is a core failure (R379) -/
  | watchdogExpiry (dt cluster core : Nat)
  /-- CORE_ECC_ERROR: A two-bit error in core SRAM is a core failure; single-bit errors are corrected in place (R378) -/
  | coreEccError (dt cluster core : Nat) (double : Bool)
  /-- CLUSTER_ECC_ERROR: A two-bit cluster SRAM error refetches a command list or poisons the line (R378) -/
  | clusterEccError (dt cluster line : Nat) (double inList : Bool)
  /-- CORE_REPAIR_DONE: The spare catches up, dependants resume and the repair is reported (R385) -/
  | coreRepairDone (dt cluster : Nat)
  /-- QUEUED_FAULT_SERVE: When a refill ends, a queued compound fault is served with the next spare or retires the cluster (R387) -/
  | queuedFaultServe (dt cluster : Nat)
  /-- HUB_FATAL: A hub-die check fails FATAL and the package stops all work (R397) -/
  | hubFatal (dt cause : Nat)
  /-- ERR_LOG_HEAD_WRITE: A write of ERR_LOG_HEAD frees consumed log entries (R396) -/
  | errLogHeadWrite (die value : Nat)
  /-- ERR_FATAL_CLEAR: ERR_FATAL_CLEAR frees the fatal slots while FATAL is clear (R396) -/
  | errFatalClear (die : Nat)
  /-- ERR_INJECT: A write of ERR_INJECT logs a report of block ERR (R398) -/
  | errInject (die value : Nat)
  /-- CAPTURE_FREEZE_END: The frame is staged, the freeze ends and streaming begins (R409) -/
  | captureFreezeEnd (dt : Nat)
  /-- SECTION_READ_DONE: A section has been read and sent, which releases its holds; after the last, the directory and final
  header complete the image (R410) -/
  | sectionReadDone (dt : Nat) (found : List (Nat × LineCheck))
  /-- SNAPSHOT_RECEIVE: A buddy receives image data into its receive slot and raises SNAP_RECV_DONE when the slot is complete
  (R408) -/
  | snapshotReceive (dt node offset : Nat) (data : List Byte)
  /-- CAPTURE_NOTICE_RECEIVE: A capture notice arrives down the tree, and the package captures the named step or skips it (R415) -/
  | captureNoticeReceive (dt step : Nat)
  /-- RESTORE_VERIFY_DONE: The verify pass ends in a failure cause or starts the write pass (R417) -/
  | restoreVerifyDone (dt : Nat) (found : List (Nat × LineCheck)) (remote : Option (List Byte))
  /-- RESTORE_WRITE_DONE: The write pass completes and leaves the package restored to the captured step (R420) -/
  | restoreWriteDone (dt : Nat)
  /-- SNAP_CAD_EPOCH: A write of SNAP_CAD_EPOCH zeroes F and T_obs (R414) -/
  | snapCadEpoch
  /-- SNAP_FAIL_NOTE: A write of SNAP_FAIL_NOTE adds failures to F (R414) -/
  | snapFailNote (value : Nat)
  /-- POWER_GOOD: Power good starts a cold power-up: hub self-test, firmware verification, measurements and key derivation (R423) -/
  | powerGood (dt : Nat) (selfOk : Bool) (flash : List (Nat × (ImageRead × ImageRead))) (devcert : Option (List Byte))
  /-- DIE_POWER_UP: The hub die powers compute die d and its stacks, verifies and loads firmware and applies repairs (R423) -/
  | diePowerUp (dt die : Nat) (flash : List (Nat × (ImageRead × ImageRead)))
  /-- DIE_SELFTEST_DONE: A die's self-test ends, its cores are mapped and its shrouds train (R430) -/
  | dieSelftestDone (dt die : Nat) (fails : List (Nat × Bool)) (control : Nat) (stackOk : Bool) (repairs : List Repair)
  /-- DIE_BOOT_TIMEOUT: A die not done 5,500 ms after power good is powered off and left FENCED (R424) -/
  | dieBootTimeout (dt die : Nat)
  /-- PKG_READY: Every die and link has settled, so the feature offer is formed and PKG_STATUS.READY is set (R424) -/
  | pkgReady (dt : Nat)
  /-- RST_N_ASSERT: An assertion of RST_N of 1 ms or longer starts a package cold reset (R476) -/
  | rstNAssert (ns : Nat)
  /-- PWR_RESET_COLD: PWR_RESET.COLD with a valid KEY starts a package cold reset (R428) -/
  | pwrResetCold (value : Nat)
  /-- PWR_RESET_WARM: PWR_RESET.WARM with a valid KEY starts a warm reset, held while a ledger write runs (R428) -/
  | pwrResetWarm (value : Nat) (flash : List (Nat × (ImageRead × ImageRead)))
  /-- WARM_RESET_START: A warm reset held behind a ledger write proceeds when the write ends (R428) -/
  | warmResetStart (dt : Nat) (flash : List (Nat × (ImageRead × ImageRead)))
  /-- VIN_LOSS: VIN out of range for 20 µs removes every rail, as a cold reset (R471) -/
  | vinLoss
  /-- REFCLK_LOSS: REFCLK edges missing for 1 µs make a FATAL report (R475) -/
  | refclkLoss (dt : Nat)
  /-- RAIL_FAULT: A regulator fault removes a die's power and fences it, or is FATAL or closes the guest site (R442) -/
  | railFault (dt : Nat) (rail : Rail)
  /-- BIST_RUN_START: A BIST run starts once its die is free and the clock, voltage and thermal conditions hold (R434) -/
  | bistRunStart (dt die : Nat) (railOk : Bool)
  /-- BIST_WAIT_TIMEOUT: A run whose conditions stay unmet, or whose wave stays paused, for WAIT_MS ends FAILED (R434) -/
  | bistWaitTimeout (dt die : Nat)
  /-- BIST_RUN_DONE: A BIST run finishes, remaps or retires cores and the cluster, and updates the ledger (R435) -/
  | bistRunDone (dt die fails : Nat) (sramOk sramRepaired railOk : Bool)
  /-- LEDGER_WRITE_DONE: A ledger write is read back and takes force, or fails and leaves the older copy (R439) -/
  | ledgerWriteDone (dt : Nat) (ok : Bool)
  /-- NEW_NONCE: SEC_CTRL.NEW_NONCE fills SEC_NONCE with fresh random bytes (R460) -/
  | newNonce
  /-- TOKEN_RETURN: A submitted RETURN token is checked and schedules RETURNED at the next cold reset (R461) -/
  | tokenReturn (ownerOk naltoOk : Bool)
  /-- TOKEN_DEBUG: A submitted DEBUG token opens debug and extends MR0 (R461) -/
  | tokenDebug (ownerOk : Bool)
  /-- TOKEN_REVOKE: A submitted REVOKE token burns the revocation fuse of a root key (R461) -/
  | tokenRevoke (naltoOk : Bool)
  /-- TOKEN_DEPLOY: A submitted DEPLOY token schedules DEPLOYED at the next cold reset (R461) -/
  | tokenDeploy (ownerOk : Bool)
  /-- TOKEN_END: A submitted END token schedules ENDED at the next cold reset (R461) -/
  | tokenEnd (ownerOk naltoOk : Bool)
  /-- EXTEND: SEC_CTRL.EXTEND extends MR15 with the value in SEC_EXTEND (R451) -/
  | extend
  /-- HOST_REPORT_REQUEST: SEC_REPORT_ADDR.START asks for a measurement report at the given address (R456) -/
  | hostReportRequest (value : Nat)
  /-- REPORT_DONE: A report is signed and written, and SEC_REPORT_DONE is raised (R456) -/
  | reportDone (dt : Nat)
  /-- REPORT_HOLD_EXPIRY: A held report is discarded 1 s after its last read or write (R457) -/
  | reportHoldExpiry (dt : Nat)
  /-- ARB_ADVANCE: A write of SEC_ARB_CMD asks to advance an anti-rollback counter, or is refused (R458) -/
  | arbAdvance (value : Nat)
  /-- ARB_BURN_DONE: The counter fuses are burned and SEC_ARB_ADVANCED is raised (R458) -/
  | arbBurnDone (dt : Nat)
  /-- DBG_HALT: Debug command 0 halts the selected control core (R462) -/
  | dbgHalt
  /-- DBG_RESUME: Debug command 1 resumes the selected control core (R462) -/
  | dbgResume
  /-- DBG_READ_REG: Debug command 2 reads a control-core register into SEC_DBG_DATA (R462) -/
  | dbgReadReg (addr : Nat)
  /-- DBG_WRITE_REG: Debug command 3 writes a control-core register (R462) -/
  | dbgWriteReg (addr : Nat)
  /-- DBG_READ_MEM: Debug command 4 reads 8 bytes of control-core memory (R462) -/
  | dbgReadMem (addr : Nat)
  /-- DBG_WRITE_MEM: Debug command 5 writes 8 bytes of control-core memory (R462) -/
  | dbgWriteMem (addr : Nat)
  /-- RESERVED_OPCODE: A core's sequencer dispatches a command whose opcode lies outside the listed ranges, which is a command
  error that stops the core and holds the stage (R105) -/
  | reservedOpcode (dt cluster core : Nat) (w : CmdWord)
  /-- TOKEN_KIND_RESERVED: A token submitted with SEC_CTRL.SUBMIT whose KIND is not 1 to 5 is rejected with cause layout and
  raises SEC_TOKEN_REJECTED (R461) -/
  | tokenKindReserved
  /-- TEST_PORT_TCK: A TCK edge on the test port advances the IEEE 1149.1 TAP, or is held in Test-Logic-Reset where the life-cycle
  state forbids the port (R441) -/
  | testPortTck (rising tms tdi trstN : Bool)
deriving DecidableEq, Repr

end Sys2Proof
end

