-- ==== Sys2Proof/Decode.lean ====
section
/-! DEFINITION. The table of operations and events gives no row any bits: a command is not spelled by a word, so no word spells one. (The
words of a core's command list and of a ring descriptor, which do have bits, are read where they are fetched: Machine/Cores.lean,
Machine/Rings.lean.) -/

namespace Sys2Proof

/-- The command that a word of the table's bits spells: none, for no row has bits. -/
def decodeTableWord (_nbits _w : Nat) : Option Instr := none

end Sys2Proof
end

