-- ==== Sys2Proof/Machine/Regs.lean ====
section
/-! DEFINITION. The register map (R340, Table 14-1), the common header (R341, Table 14-2) and every block's register table,
with each register's access code (R8), its value at reset and the bits a write can reach (R7); then a name for every register
address and every field, as the manual names them. A per-instance name takes the page's instance (stage s, link k, stack k,
die d with 8 the hub die, global cluster c) and, for a numbered register, its number n. -/

namespace Sys2Proof.Machine

/-- The access codes of Table 0-3. -/
inductive Access where
  | ro | rw | rwt | w1c | w1s | wo
deriving DecidableEq, Repr

/-- One line of a register table: `count` registers from offset `off`, `stride` apart, the access code, the value at reset, the
writable bits. -/
structure RegDef where
  off : Nat
  count : Nat
  stride : Nat
  access : Access
  reset : Nat
  wmask : Nat
deriving DecidableEq, Repr

/-- A field of a register: the register's address, its lowest bit and its length. -/
structure Fld where
  addr : Nat
  lo : Nat
  len : Nat
deriving DecidableEq, Repr

/-- The block instances of Table 14-1; `die` and `err` take 8 for the hub die, `xe`, `acc` and `clu` the global cluster. -/
inductive Page where
  | pkg | die (d : Nat) | beat | err (d : Nat) | cru | num | bwd | moe | gather | pour | lnkPkg | fab | gate | pwr | bist | sec
  | stg (s : Nat) | hal (s : Nat) | lnk (k : Nat) | snap | xe (c : Nat) | acc (c : Nat) | clu (c : Nat) | mem (k : Nat) | pourStack (k : Nat)
deriving DecidableEq, Repr

/-- Base of compute die d's page group (Table 14-1). -/
def pageD (d : Nat) : Nat := 0x1000000 + d * 0x1000000
/-- The DIE page of die d, d = 8 for the hub die. -/
def pageDIE (d : Nat) : Nat := if d = 8 then 0x1000 else pageD d
/-- The ERR page of die d, d = 8 for the hub die. -/
def pageERR (d : Nat) : Nat := if d = 8 then 0x3000 else pageD d + 0x1000
/-- The XE page of global cluster c = 72d + i. -/
def pageXE (c : Nat) : Nat := pageD (c / 72) + 0x400000 + 0x1000 * (c % 72)
/-- The ACC page of global cluster c. -/
def pageACC (c : Nat) : Nat := pageD (c / 72) + 0x480000 + 0x1000 * (c % 72)
/-- The CLU page of global cluster c. -/
def pageCLU (c : Nat) : Nat := pageD (c / 72) + 0x500000 + 0x1000 * (c % 72)

/-- The address of a page (Table 14-1). -/
def Page.base : Page → Nat
  | .pkg => 0x0
  | .die d => pageDIE d
  | .beat => 0x2000
  | .stg s => 0x10000 + 0x1000 * s
  | .hal s => 0x30000 + 0x1000 * s
  | .xe c => pageXE c
  | .acc c => pageACC c
  | .clu c => pageCLU c
  | .num => 0x5000
  | .bwd => 0x6000
  | .moe => 0x7000
  | .mem k => 0x10000000 + 0x100000 * k
  | .pourStack k => 0x10001000 + 0x100000 * k
  | .pour => 0x9000
  | .gather => 0x8000
  | .cru => 0x4000
  | .lnkPkg => 0xA000
  | .lnk k => 0x50000 + 0x1000 * k
  | .fab => 0xB000
  | .gate => 0xC000
  | .pwr => 0xD000
  | .bist => 0xE000
  | .sec => 0xF000
  | .snap => 0x70000
  | .err d => pageERR d

/-- The block code of a page (Table 14-4). -/
def Page.code : Page → Nat
  | .pkg => 0x01
  | .die _ => 0x18
  | .beat => 0x02
  | .stg _ => 0x04
  | .hal _ => 0x03
  | .xe _ => 0x05
  | .acc _ => 0x07
  | .clu _ => 0x17
  | .num => 0x08
  | .bwd => 0x09
  | .moe => 0x0A
  | .mem _ => 0x0B
  | .pourStack _ => 0x0C
  | .pour => 0x0C
  | .gather => 0x0D
  | .cru => 0x0E
  | .lnkPkg => 0x0F
  | .lnk _ => 0x0F
  | .fab => 0x10
  | .gate => 0x11
  | .pwr => 0x13
  | .bist => 0x14
  | .sec => 0x12
  | .snap => 0x16
  | .err _ => 0x15

/-- The instance number of a page (Table 14-1). -/
def Page.inst : Page → Nat
  | .pkg => 0
  | .die d => d
  | .beat => 0
  | .stg s => s
  | .hal s => s
  | .xe c => c
  | .acc c => c
  | .clu c => c
  | .num => 0
  | .bwd => 0
  | .moe => 0
  | .mem k => k
  | .pourStack k => k
  | .pour => 32
  | .gather => 0
  | .cru => 0
  | .lnkPkg => 24
  | .lnk k => k
  | .fab => 0
  | .gate => 0
  | .pwr => 0
  | .bist => 0
  | .sec => 0
  | .snap => 0
  | .err d => d

/-- How many events the block numbers (Table 14-4, R399, R400, R422, R442, R444, R463). -/
def Page.events : Page → Nat
  | .pkg => 3
  | .die _ => 2
  | .beat => 8
  | .stg _ => 9
  | .hal _ => 8
  | .xe _ => 1
  | .acc _ => 0
  | .clu _ => 2
  | .num => 5
  | .bwd => 1
  | .moe => 4
  | .mem _ => 2
  | .pourStack _ => 3
  | .pour => 3
  | .gather => 1
  | .cru => 5
  | .lnkPkg => 10
  | .lnk _ => 10
  | .fab => 4
  | .gate => 4
  | .pwr => 6
  | .bist => 3
  | .sec => 6
  | .snap => 7
  | .err _ => 2

/-- The page that holds an address, by Table 14-1; none outside every listed page (R340). -/
def pageAt (a : Nat) : Option Page :=
  let pg := a / 0x1000
  if 0x100000000 ≤ a then none
  else if pg < 0x10 then
    [Page.pkg, .die 8, .beat, .err 8, .cru, .num, .bwd, .moe, .gather, .pour, .lnkPkg, .fab, .gate, .pwr, .bist, .sec][pg]?
  else if pg < 0x30 then some (.stg (pg - 0x10))
  else if pg < 0x50 then some (.hal (pg - 0x30))
  else if pg < 0x68 then some (.lnk (pg - 0x50))
  else if pg = 0x70 then some .snap
  else if 0x1000 ≤ pg && pg < 0x9000 then
    let d := pg / 0x1000 - 1
    let q := pg % 0x1000
    if q = 0 then some (.die d)
    else if q = 1 then some (.err d)
    else if 0x400 ≤ q && q < 0x448 then some (.xe (72 * d + (q - 0x400)))
    else if 0x480 ≤ q && q < 0x4C8 then some (.acc (72 * d + (q - 0x480)))
    else if 0x500 ≤ q && q < 0x548 then some (.clu (72 * d + (q - 0x500)))
    else none
  else if 0x10000 ≤ pg && pg < 0x12000 then
    let k := (pg - 0x10000) / 0x100
    if pg % 0x100 = 0 then some (.mem k)
    else if pg % 0x100 = 1 then some (.pourStack k)
    else none
  else none

/-- The common header (Table 14-2); `CTRL`'s reset and writable bits differ per page (R341, R342) and stand in `Page.regs`. -/
def hdrRegs : List RegDef :=
  [⟨0x000, 1, 8, .ro, 0, 0⟩, ⟨0x008, 1, 8, .ro, 0, 0⟩, ⟨0x010, 4, 8, .ro, 0, 0⟩, ⟨0x058, 1, 8, .ro, 0, 0⟩, ⟨0x078, 1, 8, .w1c, 0, 7⟩,
   ⟨0x080, 1, 8, .ro, 0, 0⟩]

/-- The register table of the PKG page (14_control_interface.md R374). -/
def pkgRegs : List RegDef :=
  [⟨0x100, 1, 0x8, .ro, 0x0, 0x0⟩,
   ⟨0x108, 1, 0x8, .ro, 0x0, 0x0⟩,
   ⟨0x110, 1, 0x8, .ro, 0x0, 0x0⟩,
   ⟨0x118, 1, 0x8, .ro, 0x0, 0x0⟩,
   ⟨0x120, 4, 0x8, .ro, 0x0, 0x0⟩,
   ⟨0x140, 1, 0x8, .wo, 0x0, 0xFFFF⟩,
   ⟨0x148, 1, 0x8, .wo, 0x0, 0xFFFFFFFFFFFFFFFF⟩,
   ⟨0x150, 1, 0x8, .wo, 0x0, 0xFFFFFFFFFFFFFFFF⟩,
   ⟨0x158, 1, 0x8, .ro, 0x0, 0x0⟩,
   ⟨0x160, 1, 0x8, .ro, 0x0, 0x0⟩,
   ⟨0x168, 1, 0x8, .ro, 0x0, 0x0⟩,
   ⟨0x170, 1, 0x8, .rw, 0x3E8, 0xFFFF⟩,
   ⟨0x178, 1, 0x8, .ro, 0x0, 0x0⟩,
   ⟨0x180, 1, 0x8, .ro, 0x0, 0x0⟩,
   ⟨0x188, 1, 0x8, .ro, 0x0, 0x0⟩,
   ⟨0x190, 1, 0x8, .ro, 0x0, 0x0⟩,
   ⟨0x198, 1, 0x8, .rwt, 0x0, 0xFFFFFFFFF000⟩,
   ⟨0x1A0, 1, 0x8, .rwt, 0x40000, 0xFFFFF⟩,
   ⟨0x1A8, 1, 0x8, .ro, 0x0, 0x0⟩,
   ⟨0x1B0, 1, 0x8, .ro, 0x0, 0x0⟩]

/-- The register table of the DIE page (14_control_interface.md R376). -/
def dieRegs : List RegDef :=
  [⟨0x100, 1, 0x8, .rwt, 0x0, 0xFFFFFFFFFFC0⟩,
   ⟨0x108, 1, 0x8, .rwt, 0x606, 0xF0F⟩,
   ⟨0x110, 1, 0x8, .rwt, 0x0, 0xFFFFFFFFFFC0⟩,
   ⟨0x118, 1, 0x8, .wo, 0x0, 0xFFFF⟩,
   ⟨0x120, 1, 0x8, .ro, 0x0, 0x0⟩,
   ⟨0x128, 1, 0x8, .rw, 0x0, 0xFFFF⟩,
   ⟨0x130, 1, 0x8, .ro, 0x0, 0x0⟩,
   ⟨0x138, 1, 0x8, .wo, 0x0, 0xFFFF⟩,
   ⟨0x140, 1, 0x8, .ro, 0x0, 0x0⟩,
   ⟨0x148, 1, 0x8, .w1s, 0x0, 0x3⟩,
   ⟨0x150, 1, 0x8, .ro, 0x0, 0x0⟩,
   ⟨0x158, 1, 0x8, .ro, 0x0, 0x0⟩,
   ⟨0x160, 1, 0x8, .ro, 0x0, 0x0⟩,
   ⟨0x168, 1, 0x8, .ro, 0x0, 0x0⟩]

/-- The register table of the BEAT page (02_beat_timing.md R44). -/
def beatRegs : List RegDef :=
  [⟨0x100, 1, 0x8, .rw, 0x0, 0x31F⟩,
   ⟨0x108, 1, 0x8, .ro, 0x0, 0x0⟩,
   ⟨0x110, 1, 0x8, .rwt, 0x61A8, 0xFFFFF⟩,
   ⟨0x118, 1, 0x8, .rwt, 0x64, 0x3FF⟩,
   ⟨0x120, 1, 0x8, .ro, 0x0, 0x0⟩,
   ⟨0x128, 1, 0x8, .ro, 0x0, 0x0⟩,
   ⟨0x130, 1, 0x8, .ro, 0x0, 0x0⟩,
   ⟨0x138, 1, 0x8, .rw, 0x0, 0xFFFFFF⟩,
   ⟨0x140, 1, 0x8, .ro, 0x0, 0x0⟩,
   ⟨0x148, 1, 0x8, .ro, 0x0, 0x0⟩,
   ⟨0x150, 1, 0x8, .ro, 0x1F, 0x0⟩,
   ⟨0x158, 1, 0x8, .ro, 0x0, 0x0⟩,
   ⟨0x160, 1, 0x8, .ro, 0x0, 0x0⟩,
   ⟨0x168, 1, 0x8, .rw, 0x3E80003, 0xFFFF000F⟩,
   ⟨0x170, 1, 0x8, .rw, 0x0, 0xFFFF0001⟩,
   ⟨0x178, 1, 0x8, .rw, 0x0, 0x3⟩,
   ⟨0x180, 1, 0x8, .rw, 0x4, 0xFF⟩,
   ⟨0x188, 1, 0x8, .rw, 0x0, 0xFFFFFFFFFFFF⟩,
   ⟨0x190, 1, 0x8, .ro, 0x0, 0x0⟩,
   ⟨0x198, 1, 0x8, .ro, 0x0, 0x0⟩,
   ⟨0x200, 24, 0x8, .rw, 0x0, 0xFFFF⟩]

/-- The register table of the STG page (03_stages_queues_versions.md R73). -/
def stgRegs : List RegDef :=
  [⟨0x100, 1, 0x8, .rwt, 0x0, 0x7⟩,
   ⟨0x108, 1, 0x8, .ro, 0x0, 0x0⟩,
   ⟨0x110, 9, 0x8, .rwt, 0x0, 0xFFFFFFFFFFFFFFFF⟩,
   ⟨0x158, 1, 0x8, .rwt, 0x0, 0xFFFFFFFFFFFFFC0⟩,
   ⟨0x160, 1, 0x8, .rwt, 0x0, 0xFFFFFFFFFFC0⟩,
   ⟨0x168, 1, 0x8, .rwt, 0x0, 0xFFFF007F⟩,
   ⟨0x170, 1, 0x8, .rwt, 0x0, 0xFFFFFFFFF000⟩,
   ⟨0x178, 1, 0x8, .ro, 0x0, 0x0⟩,
   ⟨0x180, 1, 0x8, .rwt, 0x0, 0xFFFFFFFFFFC0⟩,
   ⟨0x188, 1, 0x8, .rwt, 0x0, 0xFFFF007F⟩,
   ⟨0x190, 1, 0x8, .rwt, 0x0, 0xFFFFFFFFF000⟩,
   ⟨0x198, 1, 0x8, .ro, 0x0, 0x0⟩,
   ⟨0x1A0, 1, 0x8, .wo, 0x0, 0x7F⟩,
   ⟨0x1A8, 1, 0x8, .wo, 0x0, 0x3⟩,
   ⟨0x1B0, 1, 0x8, .rwt, 0x2, 0x37⟩,
   ⟨0x1B8, 1, 0x8, .rwt, 0x0, 0x1FFFFFFFFFF⟩,
   ⟨0x1C0, 4, 0x8, .rwt, 0x0, 0xFFFFFFFFF000⟩,
   ⟨0x1E0, 1, 0x8, .rwt, 0x0, 0xFFFFFFFFFFFF⟩,
   ⟨0x1E8, 1, 0x8, .ro, 0x0, 0x0⟩,
   ⟨0x1F0, 1, 0x8, .ro, 0x0, 0x0⟩,
   ⟨0x1F8, 1, 0x8, .ro, 0x0, 0x0⟩,
   ⟨0x200, 4, 0x20, .rwt, 0x0, 0x1F⟩,
   ⟨0x208, 4, 0x20, .rwt, 0x0, 0xFFF001F⟩,
   ⟨0x210, 4, 0x20, .rwt, 0x0, 0xFFFFFF⟩,
   ⟨0x218, 4, 0x20, .ro, 0x0, 0x0⟩,
   ⟨0x280, 4, 0x8, .ro, 0x0, 0x0⟩]

/-- The register table of the HAL page (03_stages_queues_versions.md R76, 04_schedule_execution.md R96). -/
def halRegs : List RegDef :=
  [⟨0x100, 1, 0x8, .rw, 0x0, 0x3⟩,
   ⟨0x108, 1, 0x8, .rwt, 0x0, 0x11F⟩,
   ⟨0x110, 1, 0x8, .wo, 0x0, 0xFFFFFFFFFFFFFFFF⟩,
   ⟨0x118, 1, 0x8, .wo, 0x0, 0xFFFFFFFFFFFFFFFF⟩,
   ⟨0x120, 1, 0x8, .ro, 0x0, 0x0⟩,
   ⟨0x128, 1, 0x8, .ro, 0x0, 0x0⟩,
   ⟨0x130, 1, 0x8, .ro, 0x0, 0x0⟩,
   ⟨0x138, 1, 0x8, .ro, 0x0, 0x0⟩,
   ⟨0x140, 1, 0x8, .wo, 0x0, 0x1⟩,
   ⟨0x148, 1, 0x8, .rwt, 0x0, 0xFFFFFFFFF000⟩,
   ⟨0x150, 1, 0x8, .rwt, 0x0, 0x1FFFFFFFFFF⟩,
   ⟨0x158, 1, 0x8, .rwt, 0x0, 0x1FFFFFFFFFF⟩,
   ⟨0x160, 1, 0x8, .rwt, 0x0, 0xFFFFFFFFFFC0⟩,
   ⟨0x168, 1, 0x8, .rwt, 0x0, 0xFFFFFFFFF000⟩,
   ⟨0x170, 1, 0x8, .ro, 0x0, 0x0⟩,
   ⟨0x178, 1, 0x8, .ro, 0x0, 0x0⟩,
   ⟨0x180, 1, 0x8, .ro, 0x0, 0x0⟩,
   ⟨0x188, 1, 0x8, .ro, 0x0, 0x0⟩,
   ⟨0x190, 1, 0x8, .ro, 0x0, 0x0⟩,
   ⟨0x200, 1, 0x8, .ro, 0x0, 0x0⟩,
   ⟨0x208, 16, 0x8, .ro, 0x0, 0x0⟩,
   ⟨0x288, 1, 0x8, .ro, 0x0, 0x0⟩,
   ⟨0x290, 1, 0x8, .ro, 0x0, 0x0⟩,
   ⟨0x298, 1, 0x8, .ro, 0x0, 0x0⟩,
   ⟨0x2A0, 1, 0x8, .ro, 0x0, 0x0⟩,
   ⟨0x2A8, 1, 0x8, .ro, 0x0, 0x0⟩,
   ⟨0x2B0, 1, 0x8, .ro, 0x0, 0x0⟩]

/-- The register table of the XE page (05_matrix_engine.md R127). -/
def xeRegs : List RegDef :=
  [⟨0x100, 1, 0x8, .rwt, 0x60, 0x7FF⟩,
   ⟨0x108, 1, 0x8, .ro, 0x0, 0x0⟩,
   ⟨0x110, 1, 0x8, .ro, 0x20, 0x0⟩,
   ⟨0x118, 1, 0x8, .ro, 0x0, 0x0⟩,
   ⟨0x120, 1, 0x8, .ro, 0x0, 0x0⟩,
   ⟨0x128, 1, 0x8, .ro, 0x0, 0x0⟩,
   ⟨0x130, 1, 0x8, .ro, 0x0, 0x0⟩,
   ⟨0x138, 1, 0x8, .ro, 0x0, 0x0⟩,
   ⟨0x140, 1, 0x8, .ro, 0x0, 0x0⟩,
   ⟨0x148, 1, 0x8, .ro, 0x0, 0x0⟩,
   ⟨0x150, 1, 0x8, .ro, 0x0, 0x0⟩,
   ⟨0x158, 1, 0x8, .ro, 0x0, 0x0⟩,
   ⟨0x160, 1, 0x8, .ro, 0x0, 0x0⟩,
   ⟨0x168, 1, 0x8, .ro, 0x0, 0x0⟩,
   ⟨0x170, 1, 0x8, .ro, 0x0, 0x0⟩]

/-- The register table of the ACC page (06_accumulation.md R150). -/
def accRegs : List RegDef :=
  [⟨0x100, 1, 0x8, .rwt, 0x10, 0x1FF⟩,
   ⟨0x108, 1, 0x8, .ro, 0x0, 0x0⟩,
   ⟨0x110, 1, 0x8, .ro, 0x0, 0x0⟩,
   ⟨0x118, 1, 0x8, .ro, 0x0, 0x0⟩,
   ⟨0x120, 1, 0x8, .ro, 0x0, 0x0⟩,
   ⟨0x128, 1, 0x8, .ro, 0x0, 0x0⟩,
   ⟨0x130, 1, 0x8, .ro, 0x0, 0x0⟩,
   ⟨0x138, 1, 0x8, .ro, 0x0, 0x0⟩,
   ⟨0x140, 1, 0x8, .ro, 0x0, 0x0⟩,
   ⟨0x148, 1, 0x8, .ro, 0x0, 0x0⟩]

/-- The register table of the CLU page (15_faults_recovery.md R400, 14_control_interface.md R372). -/
def cluRegs : List RegDef :=
  [⟨0x100, 1, 0x8, .rwt, 0x8CA02000, 0xFFFFFFFFFF⟩,
   ⟨0x108, 1, 0x8, .ro, 0x8, 0x0⟩,
   ⟨0x110, 1, 0x8, .ro, 0x0, 0x0⟩,
   ⟨0x118, 1, 0x8, .ro, 0x0, 0x0⟩,
   ⟨0x120, 1, 0x8, .ro, 0x0, 0x0⟩,
   ⟨0x128, 1, 0x8, .ro, 0x0, 0x0⟩,
   ⟨0x130, 1, 0x8, .ro, 0x0, 0x0⟩,
   ⟨0x138, 1, 0x8, .ro, 0x0, 0x0⟩,
   ⟨0x140, 1, 0x8, .ro, 0x0, 0x0⟩,
   ⟨0x148, 1, 0x8, .ro, 0x0, 0x0⟩,
   ⟨0x150, 1, 0x8, .ro, 0x0, 0x0⟩,
   ⟨0x158, 1, 0x8, .ro, 0x0, 0x0⟩,
   ⟨0x200, 1, 0x8, .ro, 0x0, 0x0⟩,
   ⟨0x208, 16, 0x8, .ro, 0x0, 0x0⟩,
   ⟨0x288, 1, 0x8, .ro, 0x0, 0x0⟩,
   ⟨0x290, 1, 0x8, .ro, 0x0, 0x0⟩]

/-- The register table of the NUM page (07_numerics.md R180). -/
def numRegs : List RegDef :=
  [⟨0x100, 1, 0x8, .rwt, 0xA071001, 0xF0FFF03⟩,
   ⟨0x108, 1, 0x8, .ro, 0x0, 0x0⟩,
   ⟨0x110, 1, 0x8, .rwt, 0x0, 0xFFFFFFFFFF00⟩,
   ⟨0x118, 1, 0x8, .rwt, 0x0, 0x1FFF⟩,
   ⟨0x120, 1, 0x8, .rwt, 0x0, 0xFFFFFFFFFFFFFFFF⟩,
   ⟨0x128, 1, 0x8, .rwt, 0x20, 0xFFFF⟩,
   ⟨0x130, 1, 0x8, .rwt, 0x1A, 0x3F⟩,
   ⟨0x138, 1, 0x8, .wo, 0x0, 0x10FFF⟩,
   ⟨0x140, 1, 0x8, .ro, 0x0, 0x0⟩,
   ⟨0x148, 1, 0x8, .ro, 0x0, 0x0⟩,
   ⟨0x150, 1, 0x8, .ro, 0x0, 0x0⟩,
   ⟨0x158, 1, 0x8, .ro, 0x0, 0x0⟩,
   ⟨0x160, 1, 0x8, .ro, 0x0, 0x0⟩,
   ⟨0x168, 1, 0x8, .ro, 0x0, 0x0⟩,
   ⟨0x170, 1, 0x8, .ro, 0x0, 0x0⟩,
   ⟨0x178, 1, 0x8, .ro, 0x0, 0x0⟩,
   ⟨0x180, 1, 0x8, .ro, 0x0, 0x0⟩,
   ⟨0x188, 1, 0x8, .ro, 0x0, 0x0⟩]

/-- The register table of the BWD page (08_backward_pass.md R197). -/
def bwdRegs : List RegDef :=
  [⟨0x100, 1, 0x8, .rwt, 0x0, 0x7F⟩,
   ⟨0x108, 1, 0x8, .ro, 0x0, 0x0⟩,
   ⟨0x110, 1, 0x8, .rwt, 0x0, 0xFFFFFFFFFFC0⟩,
   ⟨0x118, 1, 0x8, .ro, 0x0, 0x0⟩,
   ⟨0x120, 1, 0x8, .ro, 0x0, 0x0⟩,
   ⟨0x128, 1, 0x8, .ro, 0x0, 0x0⟩,
   ⟨0x130, 1, 0x8, .ro, 0x0, 0x0⟩,
   ⟨0x138, 1, 0x8, .ro, 0x0, 0x0⟩,
   ⟨0x140, 1, 0x8, .ro, 0x0, 0x0⟩,
   ⟨0x200, 32, 0x10, .rwt, 0x0, 0xFFFFFFFFF000⟩,
   ⟨0x208, 32, 0x10, .rwt, 0x0, 0x1FFFFFFFFFF⟩]

/-- The register table of the MOE page (09_conditional_computation.md R218). -/
def moeRegs : List RegDef :=
  [⟨0x100, 1, 0x8, .rwt, 0x10064, 0x3FFFF⟩,
   ⟨0x108, 1, 0x8, .ro, 0x0, 0x0⟩,
   ⟨0x110, 1, 0x8, .rwt, 0x0, 0xFFFFFFFFFFC0⟩,
   ⟨0x118, 1, 0x8, .rwt, 0x0, 0x7F⟩,
   ⟨0x120, 1, 0x8, .ro, 0x0, 0x0⟩,
   ⟨0x128, 1, 0x8, .ro, 0x0, 0x0⟩,
   ⟨0x130, 1, 0x8, .ro, 0x0, 0x0⟩,
   ⟨0x138, 1, 0x8, .ro, 0x0, 0x0⟩,
   ⟨0x140, 1, 0x8, .ro, 0x0, 0x0⟩,
   ⟨0x148, 1, 0x8, .ro, 0x0, 0x0⟩,
   ⟨0x150, 1, 0x8, .ro, 0x0, 0x0⟩,
   ⟨0x158, 1, 0x8, .ro, 0x0, 0x0⟩,
   ⟨0x160, 1, 0x8, .ro, 0x0, 0x0⟩,
   ⟨0x168, 1, 0x8, .ro, 0x0, 0x0⟩,
   ⟨0x170, 1, 0x8, .ro, 0x0, 0x0⟩,
   ⟨0x200, 32, 0x10, .rwt, 0x0, 0xFFFFFFFFF000⟩,
   ⟨0x208, 32, 0x10, .rwt, 0x0, 0x1FFFFFFFFFF⟩]

/-- The register table of the MEM page (10_memory_stacks.md R251). -/
def memRegs : List RegDef :=
  [⟨0x100, 1, 0x8, .rwt, 0x18, 0xFF⟩,
   ⟨0x108, 1, 0x8, .ro, 0x0, 0x0⟩,
   ⟨0x110, 1, 0x8, .rwt, 0x2020408, 0xFFFFFFFF⟩,
   ⟨0x118, 1, 0x8, .ro, 0x0, 0x0⟩,
   ⟨0x120, 1, 0x8, .ro, 0x0, 0x0⟩,
   ⟨0x128, 1, 0x8, .ro, 0x0, 0x0⟩,
   ⟨0x130, 1, 0x8, .ro, 0x0, 0x0⟩,
   ⟨0x138, 1, 0x8, .ro, 0x0, 0x0⟩,
   ⟨0x140, 1, 0x8, .ro, 0x0, 0x0⟩]

/-- The register table of the POURE page (10_memory_stacks.md R251). -/
def pourStackRegs : List RegDef :=
  [⟨0x100, 1, 0x8, .ro, 0x0, 0x0⟩,
   ⟨0x108, 1, 0x8, .ro, 0x0, 0x0⟩,
   ⟨0x110, 1, 0x8, .ro, 0x0, 0x0⟩,
   ⟨0x118, 1, 0x8, .ro, 0x0, 0x0⟩]

/-- The register table of the POUR page (10_memory_stacks.md R253). -/
def pourRegs : List RegDef :=
  [⟨0x100, 1, 0x8, .ro, 0x0, 0x0⟩,
   ⟨0x108, 1, 0x8, .rwt, 0x0, 0xFFFFFFFFFFC0⟩,
   ⟨0x110, 1, 0x8, .rwt, 0x0, 0xFFFF⟩,
   ⟨0x118, 1, 0x8, .rwt, 0x0, 0xFFFFFFFFFFC0⟩,
   ⟨0x120, 1, 0x8, .ro, 0x0, 0x0⟩,
   ⟨0x128, 1, 0x8, .ro, 0x0, 0x0⟩,
   ⟨0x130, 1, 0x8, .ro, 0x0, 0x0⟩,
   ⟨0x138, 1, 0x8, .ro, 0x0, 0x0⟩]

/-- The register table of the GATHER page (10_memory_stacks.md R253). -/
def gatherRegs : List RegDef :=
  [⟨0x100, 1, 0x8, .rwt, 0x807D0, 0xFFFFF⟩,
   ⟨0x108, 1, 0x8, .ro, 0x0, 0x0⟩,
   ⟨0x110, 1, 0x8, .ro, 0x0, 0x0⟩,
   ⟨0x118, 1, 0x8, .ro, 0x0, 0x0⟩,
   ⟨0x120, 1, 0x8, .ro, 0x0, 0x0⟩,
   ⟨0x128, 1, 0x8, .ro, 0x0, 0x0⟩,
   ⟨0x200, 32, 0x20, .rwt, 0x0, 0xFF3F7FFFFFFFFF⟩,
   ⟨0x208, 32, 0x20, .rwt, 0x0, 0xFFFFFFFFFFC0⟩,
   ⟨0x210, 32, 0x20, .ro, 0x0, 0x0⟩]

/-- The register table of the CRU page (11_gradient_reduction.md R283). -/
def cruRegs : List RegDef :=
  [⟨0x100, 1, 0x8, .rwt, 0x1804080802, 0x3F05FFFFFF⟩,
   ⟨0x108, 1, 0x8, .ro, 0x0, 0x0⟩,
   ⟨0x110, 1, 0x8, .rwt, 0x0, 0xFFFFFFFFFFC0⟩,
   ⟨0x118, 1, 0x8, .rwt, 0x0, 0x3FFF⟩,
   ⟨0x120, 1, 0x8, .rwt, 0x0, 0xFFFFFFFFF000⟩,
   ⟨0x128, 1, 0x8, .rwt, 0x0, 0x1FFFFFFFFFF⟩,
   ⟨0x130, 1, 0x8, .rwt, 0x0, 0xFFFFFFFFFFC0⟩,
   ⟨0x138, 1, 0x8, .rwt, 0x80000, 0xFF013F⟩,
   ⟨0x140, 1, 0x8, .rwt, 0x0, 0xFFFFFFFF⟩,
   ⟨0x148, 1, 0x8, .rwt, 0x0, 0xFFFFFFFFFFFFFFFF⟩,
   ⟨0x150, 1, 0x8, .rwt, 0x0, 0xFFFFFFFFFFFFFFFF⟩,
   ⟨0x158, 1, 0x8, .rwt, 0x0, 0xFFFFFFFFF000⟩,
   ⟨0x160, 9, 0x8, .rwt, 0x0, 0xFFFFFFFFFFFFFFFF⟩,
   ⟨0x1A8, 1, 0x8, .ro, 0x0, 0x0⟩,
   ⟨0x1B0, 1, 0x8, .ro, 0x0, 0x0⟩,
   ⟨0x1B8, 1, 0x8, .ro, 0x0, 0x0⟩,
   ⟨0x1C0, 1, 0x8, .ro, 0x0, 0x0⟩,
   ⟨0x1C8, 1, 0x8, .ro, 0x0, 0x0⟩,
   ⟨0x1D0, 1, 0x8, .ro, 0x0, 0x0⟩,
   ⟨0x1D8, 1, 0x8, .ro, 0x0, 0x0⟩,
   ⟨0x1E0, 1, 0x8, .ro, 0x0, 0x0⟩,
   ⟨0x1E8, 1, 0x8, .ro, 0x0, 0x0⟩,
   ⟨0x1F0, 1, 0x8, .ro, 0x0, 0x0⟩,
   ⟨0x1F8, 1, 0x8, .ro, 0x0, 0x0⟩,
   ⟨0x200, 1, 0x8, .ro, 0x0, 0x0⟩,
   ⟨0x208, 1, 0x8, .ro, 0x0, 0x0⟩,
   ⟨0x210, 1, 0x8, .ro, 0x0, 0x0⟩,
   ⟨0x218, 1, 0x8, .ro, 0x0, 0x0⟩,
   ⟨0x300, 32, 0x8, .rwt, 0x0, 0x8000FFFFFFFFFFC0⟩]

/-- The register table of the LNKP page (12_eloarun_links.md R312). -/
def lnkPkgRegs : List RegDef :=
  [⟨0x100, 1, 0x8, .rw, 0x0, 0x8FFF⟩,
   ⟨0x108, 1, 0x8, .rwt, 0x8, 0xF⟩,
   ⟨0x110, 1, 0x8, .rwt, 0x0, 0xFFFFFFFFF000⟩,
   ⟨0x118, 1, 0x8, .rw, 0x640000, 0xFFFF0001⟩,
   ⟨0x120, 1, 0x8, .ro, 0x0, 0x0⟩,
   ⟨0x128, 1, 0x8, .rw, 0x0, 0x8FFF⟩,
   ⟨0x130, 1, 0x8, .ro, 0x0, 0x0⟩,
   ⟨0x138, 1, 0x8, .ro, 0x0, 0x0⟩,
   ⟨0x140, 1, 0x8, .ro, 0x0, 0x0⟩,
   ⟨0x148, 1, 0x8, .ro, 0x0, 0x0⟩,
   ⟨0x150, 1, 0x8, .ro, 0x0, 0x0⟩,
   ⟨0x158, 1, 0x8, .ro, 0x0, 0x0⟩]

/-- The register table of the LNK page (12_eloarun_links.md R312). -/
def lnkRegs : List RegDef :=
  [⟨0x100, 1, 0x8, .rw, 0x1, 0x3⟩,
   ⟨0x108, 1, 0x8, .ro, 0x0, 0x0⟩,
   ⟨0x110, 1, 0x8, .ro, 0x0, 0x0⟩,
   ⟨0x118, 1, 0x8, .ro, 0x0, 0x0⟩,
   ⟨0x120, 1, 0x8, .ro, 0x0, 0x0⟩,
   ⟨0x128, 1, 0x8, .rwt, 0x710184802020401, 0xFFFFFFFFFFFFFFFF⟩,
   ⟨0x130, 1, 0x8, .rwt, 0x146822, 0xFFFFFF⟩,
   ⟨0x138, 1, 0x8, .rwt, 0x33E14005302, 0xFFFFFFFFFFFF⟩,
   ⟨0x140, 1, 0x8, .ro, 0x0, 0x0⟩,
   ⟨0x148, 1, 0x8, .ro, 0x0, 0x0⟩,
   ⟨0x150, 1, 0x8, .ro, 0x0, 0x0⟩,
   ⟨0x158, 1, 0x8, .ro, 0x0, 0x0⟩,
   ⟨0x160, 1, 0x8, .ro, 0x0, 0x0⟩,
   ⟨0x168, 1, 0x8, .ro, 0x0, 0x0⟩,
   ⟨0x170, 1, 0x8, .ro, 0x0, 0x0⟩,
   ⟨0x178, 1, 0x8, .ro, 0x0, 0x0⟩,
   ⟨0x180, 1, 0x8, .ro, 0x0, 0x0⟩,
   ⟨0x200, 8, 0x8, .ro, 0x0, 0x0⟩,
   ⟨0x240, 1, 0x8, .ro, 0x0, 0x0⟩]

/-- The register table of the FAB page (13_package_fabric.md R336). -/
def fabRegs : List RegDef :=
  [⟨0x100, 1, 0x8, .rwt, 0x3, 0xF⟩,
   ⟨0x108, 1, 0x8, .ro, 0x0, 0x0⟩,
   ⟨0x110, 1, 0x8, .w1s, 0x0, 0xFFFF⟩,
   ⟨0x118, 1, 0x8, .ro, 0x0, 0x0⟩,
   ⟨0x120, 1, 0x8, .ro, 0x0, 0x0⟩,
   ⟨0x128, 1, 0x8, .ro, 0x0, 0x0⟩,
   ⟨0x130, 1, 0x8, .ro, 0x0, 0x0⟩,
   ⟨0x138, 1, 0x8, .ro, 0x0, 0x0⟩,
   ⟨0x140, 1, 0x8, .ro, 0x0, 0x0⟩,
   ⟨0x148, 1, 0x8, .ro, 0x0, 0x0⟩,
   ⟨0x200, 12, 0x10, .ro, 0x0, 0x0⟩,
   ⟨0x208, 12, 0x10, .w1s, 0x0, 0x3⟩,
   ⟨0x300, 36, 0x8, .ro, 0x0, 0x0⟩]

/-- The register table of the GATE page (13_package_fabric.md R338). -/
def gateRegs : List RegDef :=
  [⟨0x100, 1, 0x8, .w1s, 0x0, 0x3⟩,
   ⟨0x108, 1, 0x8, .ro, 0x0, 0x0⟩,
   ⟨0x110, 1, 0x8, .rw, 0x0, 0xFFFFFFFFFFC0⟩,
   ⟨0x118, 1, 0x8, .ro, 0x0, 0x0⟩,
   ⟨0x120, 1, 0x8, .ro, 0x0, 0x0⟩,
   ⟨0x128, 1, 0x8, .ro, 0x0, 0x0⟩,
   ⟨0x130, 1, 0x8, .ro, 0x0, 0x0⟩,
   ⟨0x138, 1, 0x8, .ro, 0x0, 0x0⟩,
   ⟨0x140, 1, 0x8, .ro, 0x0, 0x0⟩,
   ⟨0x148, 1, 0x8, .ro, 0x0, 0x0⟩,
   ⟨0x150, 1, 0x8, .ro, 0x0, 0x0⟩,
   ⟨0x158, 1, 0x8, .ro, 0x0, 0x0⟩]

/-- The register table of the PWR page (17_bringup_bist.md R442). -/
def pwrRegs : List RegDef :=
  [⟨0x100, 1, 0x8, .ro, 0x0, 0x0⟩,
   ⟨0x108, 1, 0x8, .wo, 0x0, 0xFFFF0007⟩,
   ⟨0x110, 1, 0x8, .ro, 0x0, 0x0⟩,
   ⟨0x118, 1, 0x8, .ro, 0x0, 0x0⟩,
   ⟨0x120, 1, 0x8, .ro, 0x0, 0x0⟩,
   ⟨0x128, 1, 0x8, .ro, 0x0, 0x0⟩,
   ⟨0x130, 1, 0x8, .ro, 0x0, 0x0⟩,
   ⟨0x138, 1, 0x8, .ro, 0x0, 0x0⟩,
   ⟨0x140, 1, 0x8, .ro, 0x0, 0x0⟩,
   ⟨0x148, 1, 0x8, .ro, 0x0, 0x0⟩,
   ⟨0x150, 1, 0x8, .ro, 0x0, 0x0⟩,
   ⟨0x158, 1, 0x8, .ro, 0x0, 0x0⟩,
   ⟨0x160, 1, 0x8, .ro, 0x0, 0x0⟩,
   ⟨0x168, 1, 0x8, .ro, 0x0, 0x0⟩]

/-- The register table of the BIST page (17_bringup_bist.md R444). -/
def bistRegs : List RegDef :=
  [⟨0x100, 1, 0x8, .rwt, 0x3E80055, 0xFFFF00FF⟩,
   ⟨0x108, 1, 0x8, .ro, 0x0, 0x0⟩,
   ⟨0x110, 9, 0x8, .rwt, 0x0, 0xFFFFFFFFFFFFFFFF⟩,
   ⟨0x158, 1, 0x8, .ro, 0x0, 0x0⟩,
   ⟨0x160, 1, 0x8, .ro, 0x0, 0x0⟩,
   ⟨0x168, 1, 0x8, .ro, 0x0, 0x0⟩,
   ⟨0x170, 1, 0x8, .ro, 0x0, 0x0⟩,
   ⟨0x178, 1, 0x8, .ro, 0x0, 0x0⟩,
   ⟨0x180, 1, 0x8, .ro, 0x0, 0x0⟩]

/-- The register table of the SEC page (18_security.md R463). -/
def secRegs : List RegDef :=
  [⟨0x100, 1, 0x8, .ro, 0x0, 0x0⟩,
   ⟨0x108, 1, 0x8, .w1s, 0x0, 0x7⟩,
   ⟨0x110, 4, 0x8, .ro, 0x0, 0x0⟩,
   ⟨0x130, 1, 0x8, .rw, 0x0, 0xFFFFFFFFFFC0⟩,
   ⟨0x138, 1, 0x8, .ro, 0x0, 0x0⟩,
   ⟨0x140, 4, 0x8, .rw, 0x0, 0xFFFFFFFFFFFFFFFF⟩,
   ⟨0x160, 1, 0x8, .rw, 0x0, 0xFFFFFFFFFFFF⟩,
   ⟨0x168, 1, 0x8, .ro, 0x0, 0x0⟩,
   ⟨0x170, 1, 0x8, .wo, 0x0, 0xFFFF7F07⟩,
   ⟨0x178, 1, 0x8, .ro, 0x0, 0x0⟩,
   ⟨0x180, 1, 0x8, .ro, 0x0, 0x0⟩,
   ⟨0x188, 6, 0x8, .wo, 0x0, 0xFFFFFFFFFFFFFFFF⟩,
   ⟨0x1B8, 1, 0x8, .rw, 0x0, 0x7F⟩,
   ⟨0x1C0, 1, 0x8, .wo, 0x0, 0xFFFFFFFFFFFF0007⟩,
   ⟨0x1C8, 1, 0x8, .rw, 0x0, 0xFFFFFFFFFFFFFFFF⟩,
   ⟨0x1D0, 1, 0x8, .ro, 0x0, 0x0⟩,
   ⟨0x1D8, 1, 0x8, .ro, 0x0, 0x0⟩,
   ⟨0x1E0, 1, 0x8, .ro, 0x0, 0x0⟩,
   ⟨0x200, 96, 0x8, .ro, 0x0, 0x0⟩]

/-- The register table of the SNAP page (16_snapshot_restore.md R421). -/
def snapRegs : List RegDef :=
  [⟨0x100, 1, 0x8, .rwt, 0xFFFF00100000, 0xFFFFFFFF0013⟩,
   ⟨0x108, 1, 0x8, .ro, 0x0, 0x0⟩,
   ⟨0x110, 1, 0x8, .ro, 0x0, 0x0⟩,
   ⟨0x118, 1, 0x8, .rwt, 0xFFF, 0xFFFFFF000FFF⟩,
   ⟨0x120, 1, 0x8, .rwt, 0x0, 0xFFFFFFFFF000⟩,
   ⟨0x128, 1, 0x8, .rwt, 0x0, 0x1FFFFFFFFFF⟩,
   ⟨0x130, 1, 0x8, .rwt, 0x0, 0xFFFFFFFFF000⟩,
   ⟨0x138, 1, 0x8, .rwt, 0x0, 0x1FFFFFFFFFF⟩,
   ⟨0x140, 1, 0x8, .rwt, 0x0, 0x8FFF⟩,
   ⟨0x148, 1, 0x8, .rwt, 0x0, 0xFFFFFFFFF000⟩,
   ⟨0x150, 1, 0x8, .rwt, 0x0, 0x1FFFFFFFFFF⟩,
   ⟨0x158, 1, 0x8, .rw, 0x0, 0xF⟩,
   ⟨0x160, 1, 0x8, .ro, 0x0, 0x0⟩,
   ⟨0x168, 1, 0x8, .rwt, 0x0, 0xFFFFFFFFFFC0⟩,
   ⟨0x170, 1, 0x8, .rwt, 0x0, 0x1FF⟩,
   ⟨0x178, 1, 0x8, .rwt, 0xE10, 0xFFFFFFFF⟩,
   ⟨0x180, 1, 0x8, .wo, 0x0, 0xFFFFFFFFFFFFFFFF⟩,
   ⟨0x188, 1, 0x8, .wo, 0x0, 0xFF⟩,
   ⟨0x190, 1, 0x8, .ro, 0x0, 0x0⟩,
   ⟨0x198, 1, 0x8, .ro, 0x0, 0x0⟩,
   ⟨0x1A0, 1, 0x8, .ro, 0x0, 0x0⟩,
   ⟨0x1A8, 1, 0x8, .ro, 0x0, 0x0⟩,
   ⟨0x1B0, 1, 0x8, .ro, 0x0, 0x0⟩,
   ⟨0x1B8, 1, 0x8, .ro, 0x0, 0x0⟩,
   ⟨0x1C0, 1, 0x8, .ro, 0x0, 0x0⟩,
   ⟨0x1C8, 1, 0x8, .ro, 0x0, 0x0⟩,
   ⟨0x1D0, 1, 0x8, .ro, 0x0, 0x0⟩,
   ⟨0x1D8, 1, 0x8, .ro, 0x0, 0x0⟩,
   ⟨0x1E0, 1, 0x8, .ro, 0x0, 0x0⟩,
   ⟨0x200, 4, 0x10, .ro, 0x0, 0x0⟩,
   ⟨0x208, 4, 0x10, .ro, 0x0, 0x0⟩]

/-- The register table of the ERR page (15_faults_recovery.md R398). -/
def errRegs : List RegDef :=
  [⟨0x100, 1, 0x8, .ro, 0x0, 0x0⟩,
   ⟨0x108, 1, 0x8, .rw, 0x0, 0xFFFF⟩,
   ⟨0x110, 1, 0x8, .ro, 0x0, 0x0⟩,
   ⟨0x118, 1, 0x8, .rw, 0x0, 0x3FF⟩,
   ⟨0x120, 4, 0x8, .ro, 0x0, 0x0⟩,
   ⟨0x140, 1, 0x8, .ro, 0x0, 0x0⟩,
   ⟨0x148, 1, 0x8, .ro, 0x0, 0x0⟩,
   ⟨0x150, 1, 0x8, .ro, 0x0, 0x0⟩,
   ⟨0x158, 1, 0x8, .ro, 0x0, 0x0⟩,
   ⟨0x160, 1, 0x8, .w1s, 0x0, 0x1⟩,
   ⟨0x168, 1, 0x8, .wo, 0x0, 0xFFFF0003⟩,
   ⟨0x170, 1, 0x8, .ro, 0x0, 0x0⟩,
   ⟨0x178, 1, 0x8, .ro, 0x0, 0x0⟩,
   ⟨0x180, 1, 0x8, .ro, 0x0, 0x0⟩,
   ⟨0x188, 1, 0x8, .ro, 0x0, 0x0⟩]

/-- The block registers of a page. -/
def Page.blockRegs : Page → List RegDef
  | .pkg => pkgRegs
  | .die _ => dieRegs
  | .beat => beatRegs
  | .stg _ => stgRegs
  | .hal _ => halRegs
  | .xe _ => xeRegs
  | .acc _ => accRegs
  | .clu _ => cluRegs
  | .num => numRegs
  | .bwd => bwdRegs
  | .moe => moeRegs
  | .mem _ => memRegs
  | .pourStack _ => pourStackRegs
  | .pour => pourRegs
  | .gather => gatherRegs
  | .cru => cruRegs
  | .lnkPkg => lnkPkgRegs
  | .lnk _ => lnkRegs
  | .fab => fabRegs
  | .gate => gateRegs
  | .pwr => pwrRegs
  | .bist => bistRegs
  | .sec => secRegs
  | .snap => snapRegs
  | .err _ => errRegs

/-- Does the page have a function to enable (R341, R342): a DIE or an STG page. -/
def Page.hasFunction : Page → Bool
  | .die _ => true
  | .stg _ => true
  | _ => false

/-- Every register of a page: the common header and the block's own. `FEATURE_ACCEPT` is RWT in the PKG page and a mirror
elsewhere; an event number at or above the block's count is a reserved bit of the event registers (R343). -/
def Page.regs (g : Page) : List RegDef :=
  ⟨0x030, 4, 8, if g = .pkg then .rwt else .ro, 0, if g = .pkg then 0xFFFFFFFFFFFFFFFF else 0⟩
  :: ⟨0x050, 1, 8, .rwt, if g.hasFunction then 0x200 else 0,
      match g with
      | .die _ => 0xFF01
      | .stg _ => 0xFF01
      | _ => 0⟩
  :: ⟨0x060, 1, 8, .w1c, 0, 2 ^ g.events - 1⟩
  :: ⟨0x068, 1, 8, .rw, 2 ^ g.events - 1, 2 ^ g.events - 1⟩
  :: ⟨0x070, 1, 8, .w1s, 0, 2 ^ g.events - 1⟩
  :: (hdrRegs ++ g.blockRegs)

/-- The line of a register table that lists an offset. -/
def RegDef.lists (r : RegDef) (off : Nat) : Bool :=
  decide (r.off ≤ off) && decide (off < r.off + r.count * r.stride) && decide ((off - r.off) % r.stride = 0)

/-- The table line of the register at an address, if a page lists it. -/
def regAt (a : Nat) : Option RegDef :=
  match pageAt a with
  | none => none
  | some g => g.regs.find? (fun r => r.lists (a % 0x1000))

/-- The value a register has at reset, by its table; an unlisted offset reads zero (R340). -/
def regReset (a : Nat) : Nat :=
  match regAt a with
  | none => 0
  | some r => r.reset

/-! ### Common header names; each takes its page. -/
def BLOCK_ID (g : Page) : Nat := g.base
def BLOCK_VERSION (g : Page) : Nat := g.base + 0x8
def FEATURE_OFFER (g : Page) (n : Nat) : Nat := g.base + 0x10 + 8 * n
def FEATURE_ACCEPT (g : Page) (n : Nat) : Nat := g.base + 0x30 + 8 * n
def CTRL (g : Page) : Nat := g.base + 0x50
def STATUS (g : Page) : Nat := g.base + 0x58
def IRQ_STATUS (g : Page) : Nat := g.base + 0x60
def IRQ_ENABLE (g : Page) : Nat := g.base + 0x68
def IRQ_FORCE (g : Page) : Nat := g.base + 0x70
def ERR_SUMMARY (g : Page) : Nat := g.base + 0x78
def TXN_STATE (g : Page) : Nat := g.base + 0x80
def CTRL_ENABLE (g : Page) : Fld := ⟨CTRL g, 0, 1⟩
def CTRL_DRAIN_BEATS (g : Page) : Fld := ⟨CTRL g, 8, 8⟩
def STATUS_READY (g : Page) : Fld := ⟨STATUS g, 0, 1⟩
def TXN_STATE_STAGED (g : Page) : Fld := ⟨TXN_STATE g, 0, 1⟩
def TXN_STATE_FAILED_HERE (g : Page) : Fld := ⟨TXN_STATE g, 1, 1⟩
def TXN_STATE_OUTSIDE_WRITE (g : Page) : Fld := ⟨TXN_STATE g, 2, 1⟩


/-! ### PKG page registers (14_control_interface.md R374) -/
def PKG_SERIAL : Nat := 0x100
def PKG_VARIANT : Nat := 0x108
def PKG_FITTED : Nat := 0x110
def PKG_STATUS : Nat := 0x118
def PKG_FLOOR (n : Nat) : Nat := 0x120 + 0x8 * n
def PKG_TXN_BEGIN : Nat := 0x140
def PKG_TXN_COMMIT : Nat := 0x148
def PKG_TXN_ROLLBACK : Nat := 0x150
def PKG_TXN_STATUS : Nat := 0x158
def PKG_TXN_FAIL : Nat := 0x160
def PKG_TXN_APPLIED : Nat := 0x168
def PKG_TXN_CFG : Nat := 0x170
def PKG_TXN_ERRS : Nat := 0x178
def PKG_EVT_STATUS : Nat := 0x180
def PKG_EVT_SEQ : Nat := 0x188
def PKG_EVT_LOST : Nat := 0x190
def PKG_TEL_BASE : Nat := 0x198
def PKG_TEL_CFG : Nat := 0x1A0
def PKG_TEL_SEQ : Nat := 0x1A8
def PKG_MCTP_STATUS : Nat := 0x1B0

/-! ### DIE page registers (14_control_interface.md R376) -/
def DIE_RING_BASE (d : Nat) : Nat := pageDIE d + 0x100
def DIE_RING_CFG (d : Nat) : Nat := pageDIE d + 0x108
def DIE_CQ_BASE (d : Nat) : Nat := pageDIE d + 0x110
def DIE_RING_TAIL (d : Nat) : Nat := pageDIE d + 0x118
def DIE_RING_HEAD (d : Nat) : Nat := pageDIE d + 0x120
def DIE_CQ_HEAD (d : Nat) : Nat := pageDIE d + 0x128
def DIE_CQ_TAIL (d : Nat) : Nat := pageDIE d + 0x130
def DIE_ABORT (d : Nat) : Nat := pageDIE d + 0x138
def DIE_RING_STATUS (d : Nat) : Nat := pageDIE d + 0x140
def DIE_RING_CTRL (d : Nat) : Nat := pageDIE d + 0x148
def DIE_CMDS_DONE (d : Nat) : Nat := pageDIE d + 0x150
def DIE_CMDS_ABORTED (d : Nat) : Nat := pageDIE d + 0x158
def DIE_ABORT_IGNORED (d : Nat) : Nat := pageDIE d + 0x160
def DIE_CQ_WAIT_NS (d : Nat) : Nat := pageDIE d + 0x168

/-! ### BEAT page registers (02_beat_timing.md R44) -/
def BEAT_CTRL : Nat := 0x2100
def BEAT_STATUS : Nat := 0x2108
def BEAT_PERIOD : Nat := 0x2110
def BEAT_LANDING : Nat := 0x2118
def BEAT_NUMBER : Nat := 0x2120
def BEAT_DTIME : Nat := 0x2128
def BEAT_EPOCH : Nat := 0x2130
def BEAT_DOMAIN : Nat := 0x2138
def BEAT_MASTER_ID : Nat := 0x2140
def BEAT_GROUP_MASTER_ID : Nat := 0x2148
def BEAT_UPLINK : Nat := 0x2150
def BEAT_OFFSET : Nat := 0x2158
def BEAT_PATH_DELAY : Nat := 0x2160
def BEAT_HOLDOVER_CFG : Nat := 0x2168
def BEAT_REF_CFG : Nat := 0x2170
def BEAT_OUT_CFG : Nat := 0x2178
def BEAT_SLOT_CFG : Nat := 0x2180
def BEAT_TXN_TARGET : Nat := 0x2188
def BEAT_OVR_COUNT : Nat := 0x2190
def BEAT_OVR_LAST : Nat := 0x2198
def BEAT_ASYM (n : Nat) : Nat := 0x2200 + 0x8 * n

/-! ### STG page registers (03_stages_queues_versions.md R73) -/
def STG_CTRL (s : Nat) : Nat := 0x10000 + 0x1000 * s + 0x100
def STG_STATUS (s : Nat) : Nat := 0x10000 + 0x1000 * s + 0x108
def STG_CLUSTERS (s n : Nat) : Nat := 0x10000 + 0x1000 * s + 0x110 + 0x8 * n
def STG_LAYERS (s : Nat) : Nat := 0x10000 + 0x1000 * s + 0x158
def STG_FQ_BASE (s : Nat) : Nat := 0x10000 + 0x1000 * s + 0x160
def STG_FQ_CFG (s : Nat) : Nat := 0x10000 + 0x1000 * s + 0x168
def STG_FQ_PBASE (s : Nat) : Nat := 0x10000 + 0x1000 * s + 0x170
def STG_FQ_PTR (s : Nat) : Nat := 0x10000 + 0x1000 * s + 0x178
def STG_BQ_BASE (s : Nat) : Nat := 0x10000 + 0x1000 * s + 0x180
def STG_BQ_CFG (s : Nat) : Nat := 0x10000 + 0x1000 * s + 0x188
def STG_BQ_PBASE (s : Nat) : Nat := 0x10000 + 0x1000 * s + 0x190
def STG_BQ_PTR (s : Nat) : Nat := 0x10000 + 0x1000 * s + 0x198
def STG_FQ_PUSH (s : Nat) : Nat := 0x10000 + 0x1000 * s + 0x1A0
def STG_QFLUSH (s : Nat) : Nat := 0x10000 + 0x1000 * s + 0x1A8
def STG_VRING_CFG (s : Nat) : Nat := 0x10000 + 0x1000 * s + 0x1B0
def STG_VSLOT_BYTES (s : Nat) : Nat := 0x10000 + 0x1000 * s + 0x1B8
def STG_VSLOT (s n : Nat) : Nat := 0x10000 + 0x1000 * s + 0x1C0 + 0x8 * n
def STG_VRING_INIT (s : Nat) : Nat := 0x10000 + 0x1000 * s + 0x1E0
def STG_VRING_STATE (s : Nat) : Nat := 0x10000 + 0x1000 * s + 0x1E8
def STG_VINFO_01 (s : Nat) : Nat := 0x10000 + 0x1000 * s + 0x1F0
def STG_VINFO_23 (s : Nat) : Nat := 0x10000 + 0x1000 * s + 0x1F8
def STG_CH_CFG (s n : Nat) : Nat := 0x10000 + 0x1000 * s + 0x200 + 0x20 * n
def STG_CH_DEST (s n : Nat) : Nat := 0x10000 + 0x1000 * s + 0x208 + 0x20 * n
def STG_CH_LINKS (s n : Nat) : Nat := 0x10000 + 0x1000 * s + 0x210 + 0x20 * n
def STG_CH_STATE (s n : Nat) : Nat := 0x10000 + 0x1000 * s + 0x218 + 0x20 * n
def STG_VNUM (s n : Nat) : Nat := 0x10000 + 0x1000 * s + 0x280 + 0x8 * n

/-! ### HAL page registers (03_stages_queues_versions.md R76, 04_schedule_execution.md R96) -/
def HAL_CTRL (s : Nat) : Nat := 0x30000 + 0x1000 * s + 0x100
def HAL_SCHED_CFG (s : Nat) : Nat := 0x30000 + 0x1000 * s + 0x108
def HAL_WIN_ISSUE_A (s : Nat) : Nat := 0x30000 + 0x1000 * s + 0x110
def HAL_WIN_ISSUE_B (s : Nat) : Nat := 0x30000 + 0x1000 * s + 0x118
def HAL_WIN_STATUS (s : Nat) : Nat := 0x30000 + 0x1000 * s + 0x120
def HAL_WIN_CUR_A (s : Nat) : Nat := 0x30000 + 0x1000 * s + 0x128
def HAL_WIN_CUR_B (s : Nat) : Nat := 0x30000 + 0x1000 * s + 0x130
def HAL_WIN_DONE (s : Nat) : Nat := 0x30000 + 0x1000 * s + 0x138
def HAL_WIN_FLUSH (s : Nat) : Nat := 0x30000 + 0x1000 * s + 0x140
def HAL_STASH_BASE (s : Nat) : Nat := 0x30000 + 0x1000 * s + 0x148
def HAL_STASH_SIZE (s : Nat) : Nat := 0x30000 + 0x1000 * s + 0x150
def HAL_STASH_QUOTA (s : Nat) : Nat := 0x30000 + 0x1000 * s + 0x158
def HAL_SPOL_BASE (s : Nat) : Nat := 0x30000 + 0x1000 * s + 0x160
def HAL_STASH_DIR (s : Nat) : Nat := 0x30000 + 0x1000 * s + 0x168
def HAL_STASH_USED (s : Nat) : Nat := 0x30000 + 0x1000 * s + 0x170
def HAL_STASH_PEAK (s : Nat) : Nat := 0x30000 + 0x1000 * s + 0x178
def HAL_STASH_REEF_COUNT (s : Nat) : Nat := 0x30000 + 0x1000 * s + 0x180
def HAL_STASH_CKPT_COUNT (s : Nat) : Nat := 0x30000 + 0x1000 * s + 0x188
def HAL_STASH_STALL_COUNT (s : Nat) : Nat := 0x30000 + 0x1000 * s + 0x190
def HAL_BUSY (s : Nat) : Nat := 0x30000 + 0x1000 * s + 0x200
def HAL_IDLE (s n : Nat) : Nat := 0x30000 + 0x1000 * s + 0x208 + 0x8 * n
def HAL_LATE_COUNT (s : Nat) : Nat := 0x30000 + 0x1000 * s + 0x288
def HAL_OVR_COUNT (s : Nat) : Nat := 0x30000 + 0x1000 * s + 0x290
def HAL_PHASE_COUNT (s : Nat) : Nat := 0x30000 + 0x1000 * s + 0x298
def HAL_BEAT_REC_A (s : Nat) : Nat := 0x30000 + 0x1000 * s + 0x2A0
def HAL_BEAT_REC_B (s : Nat) : Nat := 0x30000 + 0x1000 * s + 0x2A8
def HAL_STAMP (s : Nat) : Nat := 0x30000 + 0x1000 * s + 0x2B0

/-! ### XE page registers (05_matrix_engine.md R127) -/
def XE_TRIM_CFG (c : Nat) : Nat := pageXE c + 0x100
def XE_STATUS (c : Nat) : Nat := pageXE c + 0x108
def XE_DUTY_CAP (c : Nat) : Nat := pageXE c + 0x110
def XE_WORK_CYCLES (c : Nat) : Nat := pageXE c + 0x118
def XE_MAC_UNITS (c : Nat) : Nat := pageXE c + 0x120
def XE_TRIM_CYCLES (c : Nat) : Nat := pageXE c + 0x128
def XE_TRIM_ENERGY (c : Nat) : Nat := pageXE c + 0x130
def XE_RAMP_LOSS (c : Nat) : Nat := pageXE c + 0x138
def XE_RAMP_STARTS (c : Nat) : Nat := pageXE c + 0x140
def XE_SKIP_CYCLES (c : Nat) : Nat := pageXE c + 0x148
def XE_PAIR_BROKEN (c : Nat) : Nat := pageXE c + 0x150
def XE_QUAD_SHORT (c : Nat) : Nat := pageXE c + 0x158
def XE_HALF_CONFLICT (c : Nat) : Nat := pageXE c + 0x160
def XE_CMD_ERR_COUNT (c : Nat) : Nat := pageXE c + 0x168
def XE_CMD_ERR_LAST (c : Nat) : Nat := pageXE c + 0x170

/-! ### ACC page registers (06_accumulation.md R150) -/
def ACC_CFG (c : Nat) : Nat := pageACC c + 0x100
def ACC_STATUS (c : Nat) : Nat := pageACC c + 0x108
def ACC_SPILLS (c : Nat) : Nat := pageACC c + 0x110
def ACC_COLLAPSES (c : Nat) : Nat := pageACC c + 0x118
def ACC_SPILL_STALL (c : Nat) : Nat := pageACC c + 0x120
def ACC_DRAINS (c : Nat) : Nat := pageACC c + 0x128
def ACC_LONG_SUM_COUNT (c : Nat) : Nat := pageACC c + 0x130
def ACC_LONG_LAST (c : Nat) : Nat := pageACC c + 0x138
def ACC_ORPHAN_COUNT (c : Nat) : Nat := pageACC c + 0x140
def ACC_TILE_LAST (c : Nat) : Nat := pageACC c + 0x148

/-! ### CLU page registers (15_faults_recovery.md R400, 14_control_interface.md R372) -/
def CLU_CFG (c : Nat) : Nat := pageCLU c + 0x100
def CLU_STATUS (c : Nat) : Nat := pageCLU c + 0x108
def CLU_CORE_MAP_0 (c : Nat) : Nat := pageCLU c + 0x110
def CLU_CORE_MAP_1 (c : Nat) : Nat := pageCLU c + 0x118
def CLU_CORE_RETIRES (c : Nat) : Nat := pageCLU c + 0x120
def CLU_REPLAYED_CMDS (c : Nat) : Nat := pageCLU c + 0x128
def CLU_RP_LONG (c : Nat) : Nat := pageCLU c + 0x130
def CLU_RP_REFUSED (c : Nat) : Nat := pageCLU c + 0x138
def CLU_MAP_EVICT (c : Nat) : Nat := pageCLU c + 0x140
def CLU_ECC_CORR (c : Nat) : Nat := pageCLU c + 0x148
def CLU_LAST (c : Nat) : Nat := pageCLU c + 0x150
def CLU_REFILL_RESTARTS (c : Nat) : Nat := pageCLU c + 0x158
def CLU_BUSY (c : Nat) : Nat := pageCLU c + 0x200
def CLU_IDLE (c n : Nat) : Nat := pageCLU c + 0x208 + 0x8 * n
def CLU_STAMP (c : Nat) : Nat := pageCLU c + 0x288
def CLU_RUN_CYCLES (c : Nat) : Nat := pageCLU c + 0x290

/-! ### NUM page registers (07_numerics.md R180) -/
def NUM_CFG : Nat := 0x5100
def NUM_STATUS : Nat := 0x5108
def NUM_HIST_BASE : Nat := 0x5110
def NUM_HIST_SLOTS : Nat := 0x5118
def NUM_SEED : Nat := 0x5120
def NUM_SILENT_CFG : Nat := 0x5128
def NUM_ASSAY_CFG : Nat := 0x5130
def NUM_WARM_FORCE : Nat := 0x5138
def NUM_SAT_COUNT : Nat := 0x5140
def NUM_NONFINITE_COUNT : Nat := 0x5148
def NUM_SCALE_CLAMP : Nat := 0x5150
def NUM_FMT_CHANGES : Nat := 0x5158
def NUM_SILENT_COUNT : Nat := 0x5160
def NUM_SILENT_LAST : Nat := 0x5168
def NUM_ASSAY_SAMPLES : Nat := 0x5170
def NUM_ASSAY_SKIPPED : Nat := 0x5178
def NUM_ASSAY_DIVERGE_COUNT : Nat := 0x5180
def NUM_ASSAY_LAST : Nat := 0x5188

/-! ### BWD page registers (08_backward_pass.md R197) -/
def BWD_CFG : Nat := 0x6100
def BWD_STATUS : Nat := 0x6108
def BWD_TIE_BASE : Nat := 0x6110
def BWD_FOLD_COUNT : Nat := 0x6118
def BWD_FOLD_LAST : Nat := 0x6120
def BWD_FOLD_WAIT : Nat := 0x6128
def BWD_RECOMP_COUNT : Nat := 0x6130
def BWD_MASK_DRAINS : Nat := 0x6138
def BWD_MASK_EXCLUDED : Nat := 0x6140
def BWD_RECOMP_BASE (n : Nat) : Nat := 0x6200 + 0x10 * n
def BWD_RECOMP_SIZE (n : Nat) : Nat := 0x6208 + 0x10 * n

/-! ### MOE page registers (09_conditional_computation.md R218) -/
def MOE_CFG : Nat := 0x7100
def MOE_STATUS : Nat := 0x7108
def MOE_TDIR_BASE : Nat := 0x7110
def MOE_TDIR_COUNT : Nat := 0x7118
def MOE_TOKENS : Nat := 0x7120
def MOE_REROUTED : Nat := 0x7128
def MOE_OVERFLOW : Nat := 0x7130
def MOE_BAD_CHOICE : Nat := 0x7138
def MOE_SENDER_MISSING_COUNT : Nat := 0x7140
def MOE_RETURN_MISSING_COUNT : Nat := 0x7148
def MOE_LATE_DISCARD : Nat := 0x7150
def MOE_WAIT_CYCLES : Nat := 0x7158
def MOE_GATE_SKIPS : Nat := 0x7160
def MOE_SKIPGEN_BLOCKS : Nat := 0x7168
def MOE_LAST : Nat := 0x7170
def MOE_LOG_BASE (n : Nat) : Nat := 0x7200 + 0x10 * n
def MOE_LOG_SLOT (n : Nat) : Nat := 0x7208 + 0x10 * n

/-! ### MEM page registers (10_memory_stacks.md R251) -/
def MEM_CFG (k : Nat) : Nat := 0x10000000 + 0x100000 * k + 0x100
def MEM_STATUS (k : Nat) : Nat := 0x10000000 + 0x100000 * k + 0x108
def MEM_ARB (k : Nat) : Nat := 0x10000000 + 0x100000 * k + 0x110
def MEM_READ_BYTES (k : Nat) : Nat := 0x10000000 + 0x100000 * k + 0x118
def MEM_WRITE_BYTES (k : Nat) : Nat := 0x10000000 + 0x100000 * k + 0x120
def MEM_CE_COUNT (k : Nat) : Nat := 0x10000000 + 0x100000 * k + 0x128
def MEM_UE_COUNT (k : Nat) : Nat := 0x10000000 + 0x100000 * k + 0x130
def MEM_UE_LAST (k : Nat) : Nat := 0x10000000 + 0x100000 * k + 0x138
def MEM_SCRUB_PASSES (k : Nat) : Nat := 0x10000000 + 0x100000 * k + 0x140

/-! ### POURE page registers (10_memory_stacks.md R251) -/
def POUR_ENG_STATUS (k : Nat) : Nat := 0x10001000 + 0x100000 * k + 0x100
def POUR_ENG_ELEMS (k : Nat) : Nat := 0x10001000 + 0x100000 * k + 0x108
def POUR_ENG_CYCLES (k : Nat) : Nat := 0x10001000 + 0x100000 * k + 0x110
def POUR_ENG_FOLDS (k : Nat) : Nat := 0x10001000 + 0x100000 * k + 0x118

/-! ### POUR page registers (10_memory_stacks.md R253) -/
def POUR_STATUS : Nat := 0x9100
def POUR_RTAB_BASE : Nat := 0x9108
def POUR_RTAB_COUNT : Nat := 0x9110
def POUR_HP_BASE : Nat := 0x9118
def POUR_LAST : Nat := 0x9120
def POUR_COUNT : Nat := 0x9128
def POUR_NONFINITE_ELEMS : Nat := 0x9130
def POUR_FROZEN_ELEMS : Nat := 0x9138

/-! ### GATHER page registers (10_memory_stacks.md R253) -/
def GATHER_CFG : Nat := 0x8100
def GATHER_STATUS : Nat := 0x8108
def GATHER_BYTES : Nat := 0x8110
def GATHER_REPL_BYTES : Nat := 0x8118
def GATHER_RETRIES : Nat := 0x8120
def GATHER_FAIL_COUNT : Nat := 0x8128
def GATHER_GRP (n : Nat) : Nat := 0x8200 + 0x20 * n
def GATHER_NODES (n : Nat) : Nat := 0x8208 + 0x20 * n
def GATHER_READY (n : Nat) : Nat := 0x8210 + 0x20 * n

/-! ### CRU page registers (11_gradient_reduction.md R283) -/
def CRU_CFG : Nat := 0x4100
def CRU_STATUS : Nat := 0x4108
def CRU_BTAB_BASE : Nat := 0x4110
def CRU_BTAB_COUNT : Nat := 0x4118
def CRU_RECV_BASE : Nat := 0x4120
def CRU_RECV_SIZE : Nat := 0x4128
def CRU_TREE_BASE : Nat := 0x4130
def CRU_TREE_CFG : Nat := 0x4138
def CRU_CLIP_MAX : Nat := 0x4140
def CRU_DIGEST_KEY_LO : Nat := 0x4148
def CRU_DIGEST_KEY_HI : Nat := 0x4150
def CRU_DLOG_BASE : Nat := 0x4158
def CRU_ADDERS (n : Nat) : Nat := 0x4160 + 0x8 * n
def CRU_STEP_LAST : Nat := 0x41A8
def CRU_NORM_LAST : Nat := 0x41B0
def CRU_CLIP_LAST : Nat := 0x41B8
def CRU_CKSUM_LAST : Nat := 0x41C0
def CRU_STEPS_ATTEMPTED : Nat := 0x41C8
def CRU_STEPS_COMMITTED : Nat := 0x41D0
def CRU_BUCKETS_DONE : Nat := 0x41D8
def CRU_BACKUP_USED_COUNT : Nat := 0x41E0
def CRU_DISCARDED : Nat := 0x41E8
def CRU_STALL_COUNT : Nat := 0x41F0
def CRU_CKSUM_XFER_FAIL : Nat := 0x41F8
def CRU_CKSUM_MISMATCH_COUNT : Nat := 0x4200
def CRU_TOPK_ENTRIES : Nat := 0x4208
def CRU_WINDOW_WAITS : Nat := 0x4210
def CRU_GRADBUF_WAITS : Nat := 0x4218
def CRU_BACKUP (n : Nat) : Nat := 0x4300 + 0x8 * n

/-! ### LNKP page registers (12_eloarun_links.md R312) -/
def LNK_NODE : Nat := 0xA100
def LNK_CFG : Nat := 0xA108
def LNK_RT_BASE : Nat := 0xA110
def LNK_HB_CTRL : Nat := 0xA118
def LNK_HB_STATUS : Nat := 0xA120
def LNK_HB_NODE : Nat := 0xA128
def LNK_UP : Nat := 0xA130
def LNK_FWD_BYTES : Nat := 0xA138
def LNK_NO_ROUTE : Nat := 0xA140
def LNK_HOP_EXPIRED : Nat := 0xA148
def LNK_HOST_REQS : Nat := 0xA150
def LNK_HOST_TIMEOUTS : Nat := 0xA158

/-! ### LNK page registers (12_eloarun_links.md R312) -/
def LNK_CTRL (k : Nat) : Nat := 0x50000 + 0x1000 * k + 0x100
def LNK_STATUS (k : Nat) : Nat := 0x50000 + 0x1000 * k + 0x108
def LNK_PARTNER (k : Nat) : Nat := 0x50000 + 0x1000 * k + 0x110
def LNK_PARTNER_SERIAL (k : Nat) : Nat := 0x50000 + 0x1000 * k + 0x118
def LNK_DELAY (k : Nat) : Nat := 0x50000 + 0x1000 * k + 0x120
def LNK_VC_CFG (k : Nat) : Nat := 0x50000 + 0x1000 * k + 0x128
def LNK_VC_WEIGHT (k : Nat) : Nat := 0x50000 + 0x1000 * k + 0x130
def LNK_HEALTH_CFG (k : Nat) : Nat := 0x50000 + 0x1000 * k + 0x138
def LNK_FLITS_TX (k : Nat) : Nat := 0x50000 + 0x1000 * k + 0x140
def LNK_FLITS_RX (k : Nat) : Nat := 0x50000 + 0x1000 * k + 0x148
def LNK_FEC_CORR (k : Nat) : Nat := 0x50000 + 0x1000 * k + 0x150
def LNK_FEC_UNCORR (k : Nat) : Nat := 0x50000 + 0x1000 * k + 0x158
def LNK_CRC_FAIL (k : Nat) : Nat := 0x50000 + 0x1000 * k + 0x160
def LNK_REPLAYED (k : Nat) : Nat := 0x50000 + 0x1000 * k + 0x168
def LNK_RETRAINS (k : Nat) : Nat := 0x50000 + 0x1000 * k + 0x170
def LNK_DOWNS (k : Nat) : Nat := 0x50000 + 0x1000 * k + 0x178
def LNK_MSGS_LOST (k : Nat) : Nat := 0x50000 + 0x1000 * k + 0x180
def LNK_OPT (k n : Nat) : Nat := 0x50000 + 0x1000 * k + 0x200 + 0x8 * n
def LNK_OPT_TEMP (k : Nat) : Nat := 0x50000 + 0x1000 * k + 0x240

/-! ### FAB page registers (13_package_fabric.md R336) -/
def FAB_CFG : Nat := 0xB100
def FAB_STATUS : Nat := 0xB108
def FAB_DIE_CTRL : Nat := 0xB110
def FAB_DIE_STATE : Nat := 0xB118
def FAB_GEN : Nat := 0xB120
def FAB_FENCE_LAST : Nat := 0xB128
def FAB_FENCE_COUNT : Nat := 0xB130
def FAB_MISMATCH_COUNT : Nat := 0xB138
def FAB_RETRAINS : Nat := 0xB140
def FAB_STAY_BYTES : Nat := 0xB148
def FAB_SHROUD_STATUS (n : Nat) : Nat := 0xB200 + 0x10 * n
def FAB_SHROUD_CTRL (n : Nat) : Nat := 0xB208 + 0x10 * n
def FAB_DIE_CAP (n : Nat) : Nat := 0xB300 + 0x8 * n

/-! ### GATE page registers (13_package_fabric.md R338) -/
def GATE_CTRL : Nat := 0xC100
def GATE_STATUS : Nat := 0xC108
def GATE_POLICY_BASE : Nat := 0xC110
def GATE_POLICY_SERIAL : Nat := 0xC118
def GATE_GUEST_ID : Nat := 0xC120
def GATE_REQS : Nat := 0xC128
def GATE_REFUSED_COUNT : Nat := 0xC130
def GATE_REFUSED_LAST : Nat := 0xC138
def GATE_HELD_NS : Nat := 0xC140
def GATE_BYTES_RD : Nat := 0xC148
def GATE_BYTES_WR : Nat := 0xC150
def GATE_POWER : Nat := 0xC158

/-! ### PWR page registers (17_bringup_bist.md R442) -/
def PWR_STATUS : Nat := 0xD100
def PWR_RESET : Nat := 0xD108
def PWR_BOOT_MS : Nat := 0xD110
def PWR_DIE_BOOT : Nat := 0xD118
def PWR_INPUT : Nat := 0xD120
def PWR_ENERGY : Nat := 0xD128
def PWR_ALLOT_0 : Nat := 0xD130
def PWR_ALLOT_1 : Nat := 0xD138
def PWR_THROTTLE_NS : Nat := 0xD140
def PWR_LEDGER_SEQ : Nat := 0xD148
def PWR_LEDGER_SKIPPED : Nat := 0xD150
def PWR_LEDGER_WRITES : Nat := 0xD158
def PWR_RAIL_FAULTS : Nat := 0xD160
def PWR_RAIL_LAST : Nat := 0xD168

/-! ### BIST page registers (17_bringup_bist.md R444) -/
def BIST_CFG : Nat := 0xE100
def BIST_STATUS : Nat := 0xE108
def BIST_ISOLATE (n : Nat) : Nat := 0xE110 + 0x8 * n
def BIST_RUNS : Nat := 0xE158
def BIST_PASSES : Nat := 0xE160
def BIST_FAILS : Nat := 0xE168
def BIST_LAST : Nat := 0xE170
def BIST_REPAIRS : Nat := 0xE178
def BIST_PAUSE_NS : Nat := 0xE180

/-! ### SEC page registers (18_security.md R463) -/
def SEC_STATUS : Nat := 0xF100
def SEC_CTRL : Nat := 0xF108
def SEC_NONCE (n : Nat) : Nat := 0xF110 + 0x8 * n
def SEC_TOKEN_BASE : Nat := 0xF130
def SEC_TOKEN_RESULT : Nat := 0xF138
def SEC_REQ_NONCE (n : Nat) : Nat := 0xF140 + 0x8 * n
def SEC_REPORT_ADDR : Nat := 0xF160
def SEC_REPORT_STATUS : Nat := 0xF168
def SEC_ARB_CMD : Nat := 0xF170
def SEC_ARB : Nat := 0xF178
def SEC_IMAGE_SLOTS : Nat := 0xF180
def SEC_EXTEND (n : Nat) : Nat := 0xF188 + 0x8 * n
def SEC_DBG_SEL : Nat := 0xF1B8
def SEC_DBG_CMD : Nat := 0xF1C0
def SEC_DBG_DATA : Nat := 0xF1C8
def SEC_REPORTS : Nat := 0xF1D0
def SEC_ARB_REFUSED : Nat := 0xF1D8
def SEC_DBG_REFUSED : Nat := 0xF1E0
def SEC_MR (n : Nat) : Nat := 0xF200 + 0x8 * n

/-! ### SNAP page registers (16_snapshot_restore.md R421) -/
def SNAP_CFG : Nat := 0x70100
def SNAP_STATUS : Nat := 0x70108
def SNAP_LAST : Nat := 0x70110
def SNAP_BUDDY : Nat := 0x70118
def SNAP_STAGE_BASE : Nat := 0x70120
def SNAP_STAGE_SIZE : Nat := 0x70128
def SNAP_LOCAL_BASE : Nat := 0x70130
def SNAP_LOCAL_SIZE : Nat := 0x70138
def SNAP_RECV_CFG : Nat := 0x70140
def SNAP_RECV_BASE : Nat := 0x70148
def SNAP_RECV_SIZE : Nat := 0x70150
def SNAP_SLOT_HOLD : Nat := 0x70158
def SNAP_SLOT_STATUS : Nat := 0x70160
def SNAP_EXTRA_BASE : Nat := 0x70168
def SNAP_EXTRA_COUNT : Nat := 0x70170
def SNAP_CAD_PRIOR : Nat := 0x70178
def SNAP_CAD_EPOCH : Nat := 0x70180
def SNAP_FAIL_NOTE : Nat := 0x70188
def SNAP_CAD_FAILS : Nat := 0x70190
def SNAP_CAD_MTBF : Nat := 0x70198
def SNAP_CAD_COST : Nat := 0x701A0
def SNAP_CAD_STEP_NS : Nat := 0x701A8
def SNAP_CAD_INTERVAL : Nat := 0x701B0
def SNAP_CAPTURES : Nat := 0x701B8
def SNAP_CAPTURE_FAILS : Nat := 0x701C0
def SNAP_RESTORES : Nat := 0x701C8
def SNAP_BYTES : Nat := 0x701D0
def SNAP_HOLD_NS : Nat := 0x701D8
def SNAP_CAD_SKIPPED : Nat := 0x701E0
def SNAP_POS_STEP (n : Nat) : Nat := 0x70200 + 0x10 * n
def SNAP_POS_START (n : Nat) : Nat := 0x70208 + 0x10 * n

/-! ### ERR page registers (15_faults_recovery.md R398) -/
def ERR_STATUS (d : Nat) : Nat := pageERR d + 0x100
def ERR_LOG_HEAD (d : Nat) : Nat := pageERR d + 0x108
def ERR_LOG_TAIL (d : Nat) : Nat := pageERR d + 0x110
def ERR_LOG_INDEX (d : Nat) : Nat := pageERR d + 0x118
def ERR_LOG_DATA (d n : Nat) : Nat := pageERR d + 0x120 + 0x8 * n
def ERR_LOST_CORR (d : Nat) : Nat := pageERR d + 0x140
def ERR_LOST_UNCORR (d : Nat) : Nat := pageERR d + 0x148
def ERR_LOST_FATAL (d : Nat) : Nat := pageERR d + 0x150
def ERR_COALESCED (d : Nat) : Nat := pageERR d + 0x158
def ERR_FATAL_CLEAR_REG (d : Nat) : Nat := pageERR d + 0x160
def ERR_INJECT_REG (d : Nat) : Nat := pageERR d + 0x168
def ERR_POS_DATA (d : Nat) : Nat := pageERR d + 0x170
def ERR_POS_START (d : Nat) : Nat := pageERR d + 0x178
def ERR_POS_STEP (d : Nat) : Nat := pageERR d + 0x180
def ERR_POS_STREAM (d : Nat) : Nat := pageERR d + 0x188

/-! ### Fields, from the manual's field tables -/
def BEAT_CTRL_ENABLE : Fld := ⟨BEAT_CTRL, 0, 1⟩
def BEAT_CTRL_CANDIDATE : Fld := ⟨BEAT_CTRL, 1, 1⟩
def BEAT_CTRL_GROUP_CANDIDATE : Fld := ⟨BEAT_CTRL, 2, 1⟩
def BEAT_CTRL_REF_REQUIRED : Fld := ⟨BEAT_CTRL, 3, 1⟩
def BEAT_CTRL_REJOIN : Fld := ⟨BEAT_CTRL, 4, 1⟩
def BEAT_CTRL_ROLE_MODE : Fld := ⟨BEAT_CTRL, 8, 2⟩
def BEAT_STATUS_STATE : Fld := ⟨BEAT_STATUS, 0, 3⟩
def BEAT_STATUS_ROLE : Fld := ⟨BEAT_STATUS, 4, 2⟩
def BEAT_STATUS_REF_LOCKED : Fld := ⟨BEAT_STATUS, 6, 1⟩
def BEAT_STATUS_PERIOD_PENDING : Fld := ⟨BEAT_STATUS, 7, 1⟩
def BEAT_STATUS_ELECTION : Fld := ⟨BEAT_STATUS, 8, 1⟩
def BEAT_STATUS_HOLDOVER_NS : Fld := ⟨BEAT_STATUS, 16, 16⟩
def BEAT_OVR_LAST_BEAT : Fld := ⟨BEAT_OVR_LAST, 0, 48⟩
def BEAT_OVR_LAST_STAGE : Fld := ⟨BEAT_OVR_LAST, 48, 5⟩
def BEAT_OVR_LAST_PHASE : Fld := ⟨BEAT_OVR_LAST, 53, 1⟩
def BEAT_OVR_LAST_CAUSE : Fld := ⟨BEAT_OVR_LAST, 54, 2⟩
def BEAT_OVR_LAST_MICRO_BATCH : Fld := ⟨BEAT_OVR_LAST, 56, 6⟩
def STG_CTRL_ENABLE (s : Nat) : Fld := ⟨STG_CTRL s, 0, 1⟩
def STG_CTRL_FIRST (s : Nat) : Fld := ⟨STG_CTRL s, 1, 1⟩
def STG_CTRL_FQ_SW_FEED (s : Nat) : Fld := ⟨STG_CTRL s, 2, 1⟩
def STG_STATUS_STATE (s : Nat) : Fld := ⟨STG_STATUS s, 0, 3⟩
def STG_STATUS_BIND_PENDING (s : Nat) : Fld := ⟨STG_STATUS s, 3, 1⟩
def STG_STATUS_HOME_DIE (s : Nat) : Fld := ⟨STG_STATUS s, 4, 3⟩
def STG_STATUS_HOLD_CAUSE (s : Nat) : Fld := ⟨STG_STATUS s, 8, 4⟩
def STG_FQ_CFG_DEPTH (s : Nat) : Fld := ⟨STG_FQ_CFG s, 0, 7⟩
def STG_BQ_CFG_DEPTH (s : Nat) : Fld := ⟨STG_BQ_CFG s, 0, 7⟩
def STG_FQ_CFG_SLOT_UNITS (s : Nat) : Fld := ⟨STG_FQ_CFG s, 16, 16⟩
def STG_BQ_CFG_SLOT_UNITS (s : Nat) : Fld := ⟨STG_BQ_CFG s, 16, 16⟩
def STG_FQ_PTR_HEAD (s : Nat) : Fld := ⟨STG_FQ_PTR s, 0, 6⟩
def STG_BQ_PTR_HEAD (s : Nat) : Fld := ⟨STG_BQ_PTR s, 0, 6⟩
def STG_FQ_PTR_TAIL (s : Nat) : Fld := ⟨STG_FQ_PTR s, 8, 6⟩
def STG_BQ_PTR_TAIL (s : Nat) : Fld := ⟨STG_BQ_PTR s, 8, 6⟩
def STG_FQ_PTR_VALID_COUNT (s : Nat) : Fld := ⟨STG_FQ_PTR s, 16, 7⟩
def STG_BQ_PTR_VALID_COUNT (s : Nat) : Fld := ⟨STG_BQ_PTR s, 16, 7⟩
def STG_FQ_PTR_HELD_COUNT (s : Nat) : Fld := ⟨STG_FQ_PTR s, 24, 7⟩
def STG_BQ_PTR_HELD_COUNT (s : Nat) : Fld := ⟨STG_BQ_PTR s, 24, 7⟩
def STG_CH_CFG_ENABLE (s n : Nat) : Fld := ⟨STG_CH_CFG s n, 0, 1⟩
def STG_CH_CFG_DIR (s n : Nat) : Fld := ⟨STG_CH_CFG s n, 1, 1⟩
def STG_CH_CFG_ROUTE (s n : Nat) : Fld := ⟨STG_CH_CFG s n, 2, 2⟩
def STG_CH_CFG_TARGET_Q (s n : Nat) : Fld := ⟨STG_CH_CFG s n, 4, 1⟩
def STG_CH_DEST_DEST_STAGE (s n : Nat) : Fld := ⟨STG_CH_DEST s n, 0, 5⟩
def STG_CH_DEST_DEST_NODE (s n : Nat) : Fld := ⟨STG_CH_DEST s n, 16, 12⟩
def STG_CH_STATE_CREDITS (s n : Nat) : Fld := ⟨STG_CH_STATE s n, 0, 7⟩
def STG_CH_STATE_STATE (s n : Nat) : Fld := ⟨STG_CH_STATE s n, 8, 2⟩
def STG_CH_STATE_PEER_DEPTH (s n : Nat) : Fld := ⟨STG_CH_STATE s n, 16, 7⟩
def STG_CH_STATE_PEER_SLOT_UNITS (s n : Nat) : Fld := ⟨STG_CH_STATE s n, 32, 16⟩
def HAL_BEAT_REC_A_BEAT (s : Nat) : Fld := ⟨HAL_BEAT_REC_A s, 0, 48⟩
def HAL_BEAT_REC_A_STARTED (s : Nat) : Fld := ⟨HAL_BEAT_REC_A s, 48, 1⟩
def HAL_BEAT_REC_A_PHASE (s : Nat) : Fld := ⟨HAL_BEAT_REC_A s, 49, 1⟩
def HAL_BEAT_REC_A_SLOT_LATE (s : Nat) : Fld := ⟨HAL_BEAT_REC_A s, 50, 1⟩
def HAL_BEAT_REC_A_OVERRUN (s : Nat) : Fld := ⟨HAL_BEAT_REC_A s, 51, 1⟩
def HAL_BEAT_REC_A_CAUSE (s : Nat) : Fld := ⟨HAL_BEAT_REC_A s, 52, 2⟩
def HAL_BEAT_REC_A_MICRO_BATCH (s : Nat) : Fld := ⟨HAL_BEAT_REC_A s, 56, 6⟩
def HAL_BEAT_REC_B_START_OFS (s : Nat) : Fld := ⟨HAL_BEAT_REC_B s, 0, 20⟩
def HAL_BEAT_REC_B_END_OFS (s : Nat) : Fld := ⟨HAL_BEAT_REC_B s, 20, 20⟩
def HAL_BEAT_REC_B_LAND_OFS (s : Nat) : Fld := ⟨HAL_BEAT_REC_B s, 40, 20⟩
def HAL_WIN_ISSUE_A_FWD_BASE (s : Nat) : Fld := ⟨HAL_WIN_ISSUE_A s, 0, 16⟩
def HAL_WIN_ISSUE_A_FWD_COUNT (s : Nat) : Fld := ⟨HAL_WIN_ISSUE_A s, 16, 7⟩
def HAL_WIN_ISSUE_A_BWD_BASE (s : Nat) : Fld := ⟨HAL_WIN_ISSUE_A s, 24, 16⟩
def HAL_WIN_ISSUE_A_BWD_COUNT (s : Nat) : Fld := ⟨HAL_WIN_ISSUE_A s, 40, 7⟩
def HAL_WIN_ISSUE_A_NOTIFY (s : Nat) : Fld := ⟨HAL_WIN_ISSUE_A s, 48, 1⟩
def HAL_WIN_ISSUE_A_CKPT_ALL (s : Nat) : Fld := ⟨HAL_WIN_ISSUE_A s, 49, 1⟩
def HAL_WIN_ISSUE_A_BWD_LAG (s : Nat) : Fld := ⟨HAL_WIN_ISSUE_A s, 50, 2⟩
def HAL_WIN_ISSUE_B_STEP (s : Nat) : Fld := ⟨HAL_WIN_ISSUE_B s, 0, 48⟩
def HAL_WIN_ISSUE_B_WIN_TAG (s : Nat) : Fld := ⟨HAL_WIN_ISSUE_B s, 48, 16⟩
def HAL_WIN_STATUS_STATE (s : Nat) : Fld := ⟨HAL_WIN_STATUS s, 0, 3⟩
def HAL_WIN_STATUS_STOP_CAUSE (s : Nat) : Fld := ⟨HAL_WIN_STATUS s, 4, 2⟩
def HAL_WIN_STATUS_FIFO_COUNT (s : Nat) : Fld := ⟨HAL_WIN_STATUS s, 8, 5⟩
def HAL_WIN_STATUS_POSITION (s : Nat) : Fld := ⟨HAL_WIN_STATUS s, 16, 7⟩
def HAL_WIN_STATUS_OWNER (s : Nat) : Fld := ⟨HAL_WIN_STATUS s, 24, 5⟩
def HAL_WIN_STATUS_STASH_LEVEL (s : Nat) : Fld := ⟨HAL_WIN_STATUS s, 32, 2⟩
def HAL_WIN_STATUS_WIN_TAG (s : Nat) : Fld := ⟨HAL_WIN_STATUS s, 48, 16⟩
def XE_STATUS_LIVE (c : Nat) : Fld := ⟨XE_STATUS c, 0, 18⟩
def XE_STATUS_RAMPING (c : Nat) : Fld := ⟨XE_STATUS c, 32, 18⟩
def XE_CMD_ERR_LAST_CAUSE (c : Nat) : Fld := ⟨XE_CMD_ERR_LAST c, 0, 8⟩
def XE_CMD_ERR_LAST_CORE (c : Nat) : Fld := ⟨XE_CMD_ERR_LAST c, 8, 5⟩
def XE_CMD_ERR_LAST_OPCODE (c : Nat) : Fld := ⟨XE_CMD_ERR_LAST c, 16, 8⟩
def XE_CMD_ERR_LAST_STAGE_LO (c : Nat) : Fld := ⟨XE_CMD_ERR_LAST c, 24, 4⟩
def XE_CMD_ERR_LAST_STAGE_HI (c : Nat) : Fld := ⟨XE_CMD_ERR_LAST c, 28, 1⟩
def XE_CMD_ERR_LAST_INDEX (c : Nat) : Fld := ⟨XE_CMD_ERR_LAST c, 32, 32⟩
def ACC_CFG_SPILL_S (c : Nat) : Fld := ⟨ACC_CFG c, 0, 9⟩
def ACC_LONG_LAST_SLOT (c : Nat) : Fld := ⟨ACC_LONG_LAST c, 0, 4⟩
def ACC_LONG_LAST_GROUP (c : Nat) : Fld := ⟨ACC_LONG_LAST c, 4, 3⟩
def ACC_LONG_LAST_CORE (c : Nat) : Fld := ⟨ACC_LONG_LAST c, 8, 5⟩
def ACC_LONG_LAST_STAGE (c : Nat) : Fld := ⟨ACC_LONG_LAST c, 16, 5⟩
def ACC_LONG_LAST_INDEX (c : Nat) : Fld := ⟨ACC_LONG_LAST c, 32, 32⟩
def NUM_CFG_MARGIN : Fld := ⟨NUM_CFG, 0, 2⟩
def NUM_CFG_WARM_STEPS : Fld := ⟨NUM_CFG, 8, 8⟩
def NUM_CFG_U_WIDEN : Fld := ⟨NUM_CFG, 16, 4⟩
def NUM_CFG_U_NARROW : Fld := ⟨NUM_CFG, 24, 4⟩
def NUM_ASSAY_CFG_RATE_LOG2 : Fld := ⟨NUM_ASSAY_CFG, 0, 4⟩
def NUM_ASSAY_CFG_ACTION : Fld := ⟨NUM_ASSAY_CFG, 4, 2⟩
def NUM_SILENT_LAST_SLOT : Fld := ⟨NUM_SILENT_LAST, 0, 12⟩
def NUM_SILENT_LAST_BACKSTOP : Fld := ⟨NUM_SILENT_LAST, 12, 1⟩
def NUM_SILENT_LAST_LAYER_ID : Fld := ⟨NUM_SILENT_LAST, 16, 16⟩
def NUM_SILENT_LAST_RUN : Fld := ⟨NUM_SILENT_LAST, 32, 32⟩
def NUM_ASSAY_LAST_CLUSTER : Fld := ⟨NUM_ASSAY_LAST, 0, 12⟩
def NUM_ASSAY_LAST_CORE : Fld := ⟨NUM_ASSAY_LAST, 12, 5⟩
def NUM_ASSAY_LAST_STAGE : Fld := ⟨NUM_ASSAY_LAST, 17, 5⟩
def NUM_ASSAY_LAST_STEP : Fld := ⟨NUM_ASSAY_LAST, 22, 42⟩
def BWD_CFG_TIES : Fld := ⟨BWD_CFG, 0, 7⟩
def BWD_FOLD_LAST_ENTRY : Fld := ⟨BWD_FOLD_LAST, 0, 6⟩
def BWD_FOLD_LAST_TIE_ID : Fld := ⟨BWD_FOLD_LAST, 8, 16⟩
def BWD_FOLD_LAST_DURATION : Fld := ⟨BWD_FOLD_LAST, 24, 16⟩
def BWD_FOLD_LAST_STEP : Fld := ⟨BWD_FOLD_LAST, 40, 24⟩
def MOE_CFG_ARRIVE_US : Fld := ⟨MOE_CFG, 0, 16⟩
def MOE_CFG_MISSING_ACTION : Fld := ⟨MOE_CFG, 16, 2⟩
def MOE_LAST_EVENT : Fld := ⟨MOE_LAST, 0, 4⟩
def MOE_LAST_TABLE : Fld := ⟨MOE_LAST, 4, 6⟩
def MOE_LAST_EXPERT : Fld := ⟨MOE_LAST, 10, 8⟩
def MOE_LAST_STAGE : Fld := ⟨MOE_LAST, 18, 5⟩
def MOE_LAST_NODE : Fld := ⟨MOE_LAST, 24, 12⟩
def MOE_LAST_STEP : Fld := ⟨MOE_LAST, 40, 24⟩
def MEM_STATUS_TRAINED (k : Nat) : Fld := ⟨MEM_STATUS k, 0, 1⟩
def MEM_STATUS_REFRESH_2X (k : Nat) : Fld := ⟨MEM_STATUS k, 1, 1⟩
def MEM_STATUS_THERMAL_CAP (k : Nat) : Fld := ⟨MEM_STATUS k, 2, 1⟩
def MEM_STATUS_TEMP (k : Nat) : Fld := ⟨MEM_STATUS k, 8, 8⟩
def MEM_UE_LAST_LINE (k : Nat) : Fld := ⟨MEM_UE_LAST k, 6, 30⟩
def MEM_UE_LAST_CLASS (k : Nat) : Fld := ⟨MEM_UE_LAST k, 36, 4⟩
def POUR_STATUS_BUSY : Fld := ⟨POUR_STATUS, 0, 1⟩
def POUR_STATUS_INCOMPLETE : Fld := ⟨POUR_STATUS, 1, 1⟩
def POUR_STATUS_BAD_REGION : Fld := ⟨POUR_STATUS, 16, 16⟩
def POUR_STATUS_ENGINES : Fld := ⟨POUR_STATUS, 32, 32⟩
def POUR_LAST_STEP : Fld := ⟨POUR_LAST, 0, 48⟩
def POUR_LAST_DURATION : Fld := ⟨POUR_LAST, 48, 16⟩
def GATHER_GRP_SHARD_UNITS (n : Nat) : Fld := ⟨GATHER_GRP n, 0, 32⟩
def GATHER_GRP_MEMBERS (n : Nat) : Fld := ⟨GATHER_GRP n, 32, 7⟩
def GATHER_GRP_SELF (n : Nat) : Fld := ⟨GATHER_GRP n, 40, 6⟩
def GATHER_GRP_REPL (n : Nat) : Fld := ⟨GATHER_GRP n, 48, 8⟩
def CRU_CFG_SOFT_BEATS : Fld := ⟨CRU_CFG, 0, 8⟩
def CRU_CFG_HARD_BEATS : Fld := ⟨CRU_CFG, 8, 8⟩
def CRU_CFG_DIRECT_MAX : Fld := ⟨CRU_CFG, 16, 8⟩
def CRU_CFG_CLIP_MODE : Fld := ⟨CRU_CFG, 24, 1⟩
def CRU_CFG_CKSUM_BLOCK : Fld := ⟨CRU_CFG, 26, 1⟩
def CRU_CFG_FRAC : Fld := ⟨CRU_CFG, 32, 6⟩
def CRU_TREE_CFG_CHILDREN : Fld := ⟨CRU_TREE_CFG, 0, 6⟩
def CRU_TREE_CFG_ROOT : Fld := ⟨CRU_TREE_CFG, 8, 1⟩
def CRU_TREE_CFG_LIMIT : Fld := ⟨CRU_TREE_CFG, 16, 8⟩
def CRU_STATUS_OPEN : Fld := ⟨CRU_STATUS, 0, 7⟩
def CRU_STATUS_BAD_BUCKET : Fld := ⟨CRU_STATUS, 16, 14⟩
def CRU_STATUS_STEP : Fld := ⟨CRU_STATUS, 32, 32⟩
def CRU_STEP_LAST_STEP : Fld := ⟨CRU_STEP_LAST, 0, 48⟩
def CRU_STEP_LAST_COMMIT : Fld := ⟨CRU_STEP_LAST, 48, 1⟩
def CRU_STEP_LAST_CAUSE : Fld := ⟨CRU_STEP_LAST, 52, 4⟩
def CRU_CKSUM_LAST_INDEX : Fld := ⟨CRU_CKSUM_LAST, 0, 14⟩
def CRU_CKSUM_LAST_STEP : Fld := ⟨CRU_CKSUM_LAST, 16, 24⟩
def CRU_CKSUM_LAST_DELTA : Fld := ⟨CRU_CKSUM_LAST, 40, 24⟩
def LNK_STATUS_STATE (k : Nat) : Fld := ⟨LNK_STATUS k, 0, 3⟩
def LNK_STATUS_HEALTH (k : Nat) : Fld := ⟨LNK_STATUS k, 4, 2⟩
def LNK_STATUS_HOST_MODE (k : Nat) : Fld := ⟨LNK_STATUS k, 6, 1⟩
def LNK_STATUS_DOWN_CAUSE (k : Nat) : Fld := ⟨LNK_STATUS k, 8, 4⟩
def LNK_STATUS_LANES_LOCKED (k : Nat) : Fld := ⟨LNK_STATUS k, 16, 8⟩
def LNK_STATUS_TRAIN_MS (k : Nat) : Fld := ⟨LNK_STATUS k, 32, 16⟩
def LNK_PARTNER_NODE (k : Nat) : Fld := ⟨LNK_PARTNER k, 0, 12⟩
def LNK_PARTNER_NODE_VALID (k : Nat) : Fld := ⟨LNK_PARTNER k, 12, 1⟩
def LNK_PARTNER_LINK (k : Nat) : Fld := ⟨LNK_PARTNER k, 16, 5⟩
def LNK_PARTNER_KIND (k : Nat) : Fld := ⟨LNK_PARTNER k, 24, 1⟩
def LNK_PARTNER_REVISION (k : Nat) : Fld := ⟨LNK_PARTNER k, 28, 4⟩
def LNK_PARTNER_DOMAIN (k : Nat) : Fld := ⟨LNK_PARTNER k, 32, 16⟩
def LNK_OPT_TX_OMA (k n : Nat) : Fld := ⟨LNK_OPT k n, 0, 16⟩
def LNK_OPT_RX_OMA (k n : Nat) : Fld := ⟨LNK_OPT k n, 16, 16⟩
def LNK_OPT_BIAS (k n : Nat) : Fld := ⟨LNK_OPT k n, 32, 16⟩
def LNK_OPT_CORR (k n : Nat) : Fld := ⟨LNK_OPT k n, 48, 16⟩
def LNK_HB_STATUS_ROLE : Fld := ⟨LNK_HB_STATUS, 0, 2⟩
def LNK_HB_STATUS_LINK0 : Fld := ⟨LNK_HB_STATUS, 2, 1⟩
def LNK_HB_STATUS_LINK1 : Fld := ⟨LNK_HB_STATUS, 3, 1⟩
def LNK_HB_STATUS_OUTSTANDING : Fld := ⟨LNK_HB_STATUS, 16, 11⟩
def FAB_STATUS_DEGRADED : Fld := ⟨FAB_STATUS, 0, 1⟩
def FAB_STATUS_DIE_MASK : Fld := ⟨FAB_STATUS, 8, 8⟩
def FAB_STATUS_DEGRADED_SHROUDS : Fld := ⟨FAB_STATUS, 16, 12⟩
def FAB_FENCE_LAST_DIE : Fld := ⟨FAB_FENCE_LAST, 0, 3⟩
def FAB_FENCE_LAST_CAUSE : Fld := ⟨FAB_FENCE_LAST, 4, 3⟩
def FAB_FENCE_LAST_STEP : Fld := ⟨FAB_FENCE_LAST, 8, 8⟩
def FAB_FENCE_LAST_LOST_COMPLETIONS : Fld := ⟨FAB_FENCE_LAST, 16, 16⟩
def FAB_FENCE_LAST_HELD_STAGES : Fld := ⟨FAB_FENCE_LAST, 32, 32⟩
def FAB_SHROUD_STATUS_MASK (n : Nat) : Fld := ⟨FAB_SHROUD_STATUS n, 0, 12⟩
def FAB_SHROUD_STATUS_WIDTH (n : Nat) : Fld := ⟨FAB_SHROUD_STATUS n, 12, 4⟩
def FAB_SHROUD_STATUS_STATE (n : Nat) : Fld := ⟨FAB_SHROUD_STATUS n, 16, 3⟩
def FAB_SHROUD_STATUS_MISMATCHES (n : Nat) : Fld := ⟨FAB_SHROUD_STATUS n, 20, 2⟩
def FAB_SHROUD_STATUS_REVISION (n : Nat) : Fld := ⟨FAB_SHROUD_STATUS n, 24, 4⟩
def FAB_SHROUD_STATUS_DEG_CAUSE (n : Nat) : Fld := ⟨FAB_SHROUD_STATUS n, 28, 3⟩
def GATE_STATUS_STATE : Fld := ⟨GATE_STATUS, 0, 3⟩
def GATE_STATUS_CAUSE : Fld := ⟨GATE_STATUS, 4, 4⟩
def GATE_REFUSED_LAST_ADDR : Fld := ⟨GATE_REFUSED_LAST, 0, 48⟩
def GATE_REFUSED_LAST_OP : Fld := ⟨GATE_REFUSED_LAST, 48, 4⟩
def GATE_REFUSED_LAST_REASON : Fld := ⟨GATE_REFUSED_LAST, 52, 4⟩
def PKG_VARIANT_VARIANT : Fld := ⟨PKG_VARIANT, 0, 4⟩
def PKG_VARIANT_POWER_CLASS : Fld := ⟨PKG_VARIANT, 8, 8⟩
def PKG_VARIANT_STEPPING : Fld := ⟨PKG_VARIANT, 16, 8⟩
def PKG_FITTED_DIES : Fld := ⟨PKG_FITTED, 0, 8⟩
def PKG_FITTED_GUEST : Fld := ⟨PKG_FITTED, 8, 1⟩
def PKG_FITTED_STACKS : Fld := ⟨PKG_FITTED, 32, 32⟩
def PKG_STATUS_NEGOTIATED : Fld := ⟨PKG_STATUS, 0, 1⟩
def PKG_STATUS_DEGRADED : Fld := ⟨PKG_STATUS, 1, 1⟩
def PKG_STATUS_READY : Fld := ⟨PKG_STATUS, 2, 1⟩
def PKG_TXN_STATUS_STATE : Fld := ⟨PKG_TXN_STATUS, 0, 3⟩
def PKG_TXN_STATUS_RESULT : Fld := ⟨PKG_TXN_STATUS, 4, 3⟩
def PKG_TXN_STATUS_STAGED : Fld := ⟨PKG_TXN_STATUS, 16, 11⟩
def PKG_TXN_STATUS_OWNER : Fld := ⟨PKG_TXN_STATUS, 32, 12⟩
def PKG_TXN_STATUS_COOKIE : Fld := ⟨PKG_TXN_STATUS, 48, 16⟩
def PKG_TXN_FAIL_ADDR : Fld := ⟨PKG_TXN_FAIL, 0, 32⟩
def PKG_TXN_FAIL_CAUSE : Fld := ⟨PKG_TXN_FAIL, 32, 8⟩
def DIE_RING_CFG_DEPTH_LOG2 (d : Nat) : Fld := ⟨DIE_RING_CFG d, 0, 4⟩
def DIE_RING_CFG_CQ_DEPTH_LOG2 (d : Nat) : Fld := ⟨DIE_RING_CFG d, 8, 4⟩
def DIE_RING_STATUS_STATE (d : Nat) : Fld := ⟨DIE_RING_STATUS d, 0, 2⟩
def DIE_RING_STATUS_HALT_CAUSE (d : Nat) : Fld := ⟨DIE_RING_STATUS d, 4, 4⟩
def DIE_RING_STATUS_INFLIGHT (d : Nat) : Fld := ⟨DIE_RING_STATUS d, 16, 13⟩
def DIE_RING_STATUS_ABORTS (d : Nat) : Fld := ⟨DIE_RING_STATUS d, 32, 7⟩
def ERR_STATUS_USED (d : Nat) : Fld := ⟨ERR_STATUS d, 0, 10⟩
def ERR_STATUS_FATAL_USED (d : Nat) : Fld := ⟨ERR_STATUS d, 16, 5⟩
def ERR_STATUS_FULL (d : Nat) : Fld := ⟨ERR_STATUS d, 24, 1⟩
def ERR_STATUS_FATAL (d : Nat) : Fld := ⟨ERR_STATUS d, 25, 1⟩
def CLU_STATUS_STATE (c : Nat) : Fld := ⟨CLU_STATUS c, 0, 2⟩
def CLU_STATUS_SPARES (c : Nat) : Fld := ⟨CLU_STATUS c, 2, 2⟩
def CLU_STATUS_QUEUED (c : Nat) : Fld := ⟨CLU_STATUS c, 4, 3⟩
def CLU_STATUS_RETIRED (c : Nat) : Fld := ⟨CLU_STATUS c, 12, 18⟩
def CLU_LAST_CORE (c : Nat) : Fld := ⟨CLU_LAST c, 0, 5⟩
def CLU_LAST_SPARE (c : Nat) : Fld := ⟨CLU_LAST c, 8, 5⟩
def CLU_LAST_POSITION (c : Nat) : Fld := ⟨CLU_LAST c, 16, 4⟩
def CLU_LAST_CAUSE (c : Nat) : Fld := ⟨CLU_LAST c, 20, 4⟩
def CLU_LAST_COMPOUND (c : Nat) : Fld := ⟨CLU_LAST c, 24, 1⟩
def CLU_LAST_RETIRED_CLUSTER (c : Nat) : Fld := ⟨CLU_LAST c, 25, 1⟩
def CLU_LAST_DURATION (c : Nat) : Fld := ⟨CLU_LAST c, 32, 16⟩
def SNAP_CFG_TARGET : Fld := ⟨SNAP_CFG, 0, 2⟩
def SNAP_CFG_CAD_ENABLE : Fld := ⟨SNAP_CFG, 4, 1⟩
def SNAP_CFG_MIN_STEPS : Fld := ⟨SNAP_CFG, 16, 16⟩
def SNAP_CFG_MAX_STEPS : Fld := ⟨SNAP_CFG, 32, 16⟩
def SNAP_STATUS_STATE : Fld := ⟨SNAP_STATUS, 0, 3⟩
def SNAP_STATUS_HOLDING : Fld := ⟨SNAP_STATUS, 3, 1⟩
def SNAP_STATUS_SECTION : Fld := ⟨SNAP_STATUS, 16, 16⟩
def SNAP_STATUS_STEP : Fld := ⟨SNAP_STATUS, 32, 32⟩
def SNAP_LAST_STEP : Fld := ⟨SNAP_LAST, 0, 48⟩
def SNAP_LAST_CAUSE : Fld := ⟨SNAP_LAST, 48, 8⟩
def SNAP_LAST_KIND : Fld := ⟨SNAP_LAST, 56, 1⟩
def SNAP_LAST_CADENCE : Fld := ⟨SNAP_LAST, 57, 1⟩
def SNAP_SLOT_STATUS_NEWEST_RECV : Fld := ⟨SNAP_SLOT_STATUS, 16, 1⟩
def SNAP_SLOT_STATUS_NEWEST_LOCAL : Fld := ⟨SNAP_SLOT_STATUS, 17, 1⟩
def PWR_STATUS_PHASE : Fld := ⟨PWR_STATUS, 0, 4⟩
def PWR_STATUS_LC_STATE : Fld := ⟨PWR_STATUS, 8, 3⟩
def PWR_STATUS_LEDGER : Fld := ⟨PWR_STATUS, 12, 2⟩
def PWR_STATUS_WARM_HELD : Fld := ⟨PWR_STATUS, 16, 1⟩
def BIST_LAST_DIE : Fld := ⟨BIST_LAST, 0, 3⟩
def BIST_LAST_CLUSTER : Fld := ⟨BIST_LAST, 8, 7⟩
def BIST_LAST_CORE : Fld := ⟨BIST_LAST, 16, 5⟩
def BIST_LAST_KIND : Fld := ⟨BIST_LAST, 21, 1⟩
def BIST_LAST_OUTCOME : Fld := ⟨BIST_LAST, 24, 4⟩
def BIST_LAST_CAUSE : Fld := ⟨BIST_LAST, 28, 4⟩
def BIST_LAST_FAIL_MASK : Fld := ⟨BIST_LAST, 32, 18⟩
def BIST_LAST_SPARES : Fld := ⟨BIST_LAST, 50, 2⟩
def SEC_STATUS_DEBUG_OPEN : Fld := ⟨SEC_STATUS, 0, 1⟩
def SEC_STATUS_NO_DEVCERT : Fld := ⟨SEC_STATUS, 1, 1⟩
def SEC_STATUS_BURNING : Fld := ⟨SEC_STATUS, 2, 1⟩
def SEC_STATUS_REVOKED : Fld := ⟨SEC_STATUS, 4, 4⟩
def SEC_STATUS_PENDING_LC : Fld := ⟨SEC_STATUS, 8, 3⟩
def SEC_TOKEN_RESULT_KIND : Fld := ⟨SEC_TOKEN_RESULT, 0, 3⟩
def SEC_TOKEN_RESULT_ACCEPTED : Fld := ⟨SEC_TOKEN_RESULT, 3, 1⟩
def SEC_TOKEN_RESULT_CAUSE : Fld := ⟨SEC_TOKEN_RESULT, 4, 4⟩
def BEAT_PERIOD_TICKS : Fld := ⟨BEAT_PERIOD, 0, 20⟩
def BEAT_LANDING_WINDOW : Fld := ⟨BEAT_LANDING, 0, 10⟩
def BEAT_DOMAIN_ID : Fld := ⟨BEAT_DOMAIN, 0, 16⟩
def BEAT_DOMAIN_GROUP : Fld := ⟨BEAT_DOMAIN, 16, 8⟩
def BEAT_UPLINK_LINK : Fld := ⟨BEAT_UPLINK, 0, 5⟩
def BEAT_UPLINK_HOPS : Fld := ⟨BEAT_UPLINK, 8, 4⟩
def BEAT_HOLDOVER_CFG_MISS : Fld := ⟨BEAT_HOLDOVER_CFG, 0, 4⟩
def BEAT_HOLDOVER_CFG_STEP_LIMIT : Fld := ⟨BEAT_HOLDOVER_CFG, 16, 16⟩
def BEAT_REF_CFG_ENABLE : Fld := ⟨BEAT_REF_CFG, 0, 1⟩
def BEAT_REF_CFG_DELAY_NS : Fld := ⟨BEAT_REF_CFG, 16, 16⟩
def BEAT_OUT_CFG_MODE : Fld := ⟨BEAT_OUT_CFG, 0, 2⟩
def BEAT_SLOT_CFG_HUNG_BEATS : Fld := ⟨BEAT_SLOT_CFG, 0, 8⟩
def STG_LAYERS_COUNT (s : Nat) : Fld := ⟨STG_LAYERS s, 48, 12⟩
def STG_VRING_CFG_DEPTH (s : Nat) : Fld := ⟨STG_VRING_CFG s, 0, 3⟩
def STG_VRING_CFG_STALE_MAX (s : Nat) : Fld := ⟨STG_VRING_CFG s, 4, 2⟩
def STG_VRING_STATE_RESOLVED_STEP (s : Nat) : Fld := ⟨STG_VRING_STATE s, 0, 48⟩
def STG_VRING_STATE_FLIP_DEFERRED (s : Nat) : Fld := ⟨STG_VRING_STATE s, 48, 1⟩
def HAL_CTRL_HOLD (s : Nat) : Fld := ⟨HAL_CTRL s, 0, 1⟩
def HAL_CTRL_CLEAR (s : Nat) : Fld := ⟨HAL_CTRL s, 1, 1⟩
def HAL_SCHED_CFG_LEADER (s : Nat) : Fld := ⟨HAL_SCHED_CFG s, 0, 5⟩
def HAL_SCHED_CFG_GROUPED (s : Nat) : Fld := ⟨HAL_SCHED_CFG s, 8, 1⟩
def HAL_STASH_USED_BYTES (s : Nat) : Fld := ⟨HAL_STASH_USED s, 0, 41⟩
def HAL_STASH_USED_RECORDS (s : Nat) : Fld := ⟨HAL_STASH_USED s, 56, 7⟩
def XE_TRIM_CFG_TRIM_WINDOW (c : Nat) : Fld := ⟨XE_TRIM_CFG c, 0, 11⟩
def XE_DUTY_CAP_CAP (c : Nat) : Fld := ⟨XE_DUTY_CAP c, 0, 6⟩
def NUM_STATUS_WARM_SLOTS : Fld := ⟨NUM_STATUS, 0, 13⟩
def NUM_WARM_FORCE_SLOT : Fld := ⟨NUM_WARM_FORCE, 0, 12⟩
def NUM_WARM_FORCE_ALL : Fld := ⟨NUM_WARM_FORCE, 16, 1⟩
def MEM_CFG_SCRUB_HOURS (k : Nat) : Fld := ⟨MEM_CFG k, 0, 8⟩
def POUR_ENG_STATUS_BUSY (k : Nat) : Fld := ⟨POUR_ENG_STATUS k, 0, 1⟩
def POUR_ENG_STATUS_FOLDING (k : Nat) : Fld := ⟨POUR_ENG_STATUS k, 1, 1⟩
def POUR_ENG_STATUS_REGION (k : Nat) : Fld := ⟨POUR_ENG_STATUS k, 16, 16⟩
def GATHER_CFG_WAIT_US : Fld := ⟨GATHER_CFG, 0, 16⟩
def GATHER_CFG_OUTSTANDING : Fld := ⟨GATHER_CFG, 16, 4⟩
def GATHER_READY_VERSION (n : Nat) : Fld := ⟨GATHER_READY n, 0, 48⟩
def GATHER_READY_READY_LAYERS (n : Nat) : Fld := ⟨GATHER_READY n, 48, 12⟩
def GATHER_READY_ALL (n : Nat) : Fld := ⟨GATHER_READY n, 63, 1⟩
def CRU_BACKUP_AS_BACKUP (n : Nat) : Fld := ⟨CRU_BACKUP n, 63, 1⟩
def LNK_NODE_NODE : Fld := ⟨LNK_NODE, 0, 12⟩
def LNK_NODE_VALID : Fld := ⟨LNK_NODE, 15, 1⟩
def LNK_CFG_HOP_LIMIT : Fld := ⟨LNK_CFG, 0, 4⟩
def LNK_HB_CTRL_ACTIVE : Fld := ⟨LNK_HB_CTRL, 0, 1⟩
def LNK_HB_CTRL_TIMEOUT_US : Fld := ⟨LNK_HB_CTRL, 16, 16⟩
def LNK_HB_NODE_NODE : Fld := ⟨LNK_HB_NODE, 0, 12⟩
def LNK_HB_NODE_VALID : Fld := ⟨LNK_HB_NODE, 15, 1⟩
def LNK_CTRL_ENABLE (k : Nat) : Fld := ⟨LNK_CTRL k, 0, 1⟩
def LNK_CTRL_RETRAIN (k : Nat) : Fld := ⟨LNK_CTRL k, 1, 1⟩
def LNK_DELAY_NS (k : Nat) : Fld := ⟨LNK_DELAY k, 0, 16⟩
def LNK_HEALTH_CFG_MARGINAL (k : Nat) : Fld := ⟨LNK_HEALTH_CFG k, 0, 24⟩
def LNK_HEALTH_CFG_FAILING (k : Nat) : Fld := ⟨LNK_HEALTH_CFG k, 24, 24⟩
def LNK_OPT_TEMP_TEMP (k : Nat) : Fld := ⟨LNK_OPT_TEMP k, 0, 8⟩
def FAB_CFG_MIN_WIDTH : Fld := ⟨FAB_CFG, 0, 4⟩
def FAB_DIE_CTRL_FENCE : Fld := ⟨FAB_DIE_CTRL, 0, 8⟩
def FAB_DIE_CTRL_READMIT : Fld := ⟨FAB_DIE_CTRL, 8, 8⟩
def GATE_CTRL_LOAD : Fld := ⟨GATE_CTRL, 0, 1⟩
def GATE_CTRL_CLOSE : Fld := ⟨GATE_CTRL, 1, 1⟩
def GATE_GUEST_ID_VENDOR : Fld := ⟨GATE_GUEST_ID, 0, 16⟩
def GATE_GUEST_ID_DEVICE : Fld := ⟨GATE_GUEST_ID, 16, 16⟩
def PKG_TXN_CFG_TIMEOUT_MS : Fld := ⟨PKG_TXN_CFG, 0, 16⟩
def PKG_EVT_STATUS_QUEUED : Fld := ⟨PKG_EVT_STATUS, 0, 11⟩
def PKG_EVT_STATUS_HELD : Fld := ⟨PKG_EVT_STATUS, 16, 1⟩
def PKG_TEL_CFG_PERIOD_BEATS : Fld := ⟨PKG_TEL_CFG, 0, 16⟩
def PKG_TEL_CFG_DEPTH_LOG2 : Fld := ⟨PKG_TEL_CFG, 16, 4⟩
def PKG_MCTP_STATUS_EID : Fld := ⟨PKG_MCTP_STATUS, 0, 8⟩
def PKG_MCTP_STATUS_ASSIGNED : Fld := ⟨PKG_MCTP_STATUS, 8, 1⟩
def PKG_MCTP_STATUS_IANA : Fld := ⟨PKG_MCTP_STATUS, 32, 32⟩
def CLU_CFG_WDOG_CYCLES (c : Nat) : Fld := ⟨CLU_CFG c, 0, 16⟩
def CLU_CFG_RP_LIMIT (c : Nat) : Fld := ⟨CLU_CFG c, 16, 24⟩
def SNAP_BUDDY_NODE : Fld := ⟨SNAP_BUDDY, 0, 12⟩
def SNAP_BUDDY_LINKS : Fld := ⟨SNAP_BUDDY, 24, 24⟩
def SNAP_RECV_CFG_SRC : Fld := ⟨SNAP_RECV_CFG, 0, 12⟩
def SNAP_RECV_CFG_VALID : Fld := ⟨SNAP_RECV_CFG, 15, 1⟩
def SNAP_CAD_INTERVAL_INTERVAL : Fld := ⟨SNAP_CAD_INTERVAL, 0, 16⟩
def SNAP_CAD_INTERVAL_SINCE : Fld := ⟨SNAP_CAD_INTERVAL, 16, 32⟩
def SNAP_SLOT_HOLD_RECV : Fld := ⟨SNAP_SLOT_HOLD, 0, 2⟩
def SNAP_SLOT_HOLD_LOCAL : Fld := ⟨SNAP_SLOT_HOLD, 2, 2⟩
def BIST_CFG_HEADROOM_C : Fld := ⟨BIST_CFG, 0, 8⟩
def BIST_CFG_WAIT_MS : Fld := ⟨BIST_CFG, 16, 16⟩
def BIST_STATUS_RUNNING : Fld := ⟨BIST_STATUS, 0, 8⟩
def BIST_STATUS_PAUSED : Fld := ⟨BIST_STATUS, 8, 8⟩
def PWR_BOOT_MS_HUB_FW : Fld := ⟨PWR_BOOT_MS, 0, 16⟩
def PWR_BOOT_MS_READY : Fld := ⟨PWR_BOOT_MS, 16, 16⟩
def PWR_INPUT_WATTS : Fld := ⟨PWR_INPUT, 0, 16⟩
def PWR_INPUT_MILLIVOLTS : Fld := ⟨PWR_INPUT, 16, 16⟩
def PWR_INPUT_DECIAMPS : Fld := ⟨PWR_INPUT, 32, 16⟩
def PWR_LEDGER_SEQ_SEQ : Fld := ⟨PWR_LEDGER_SEQ, 0, 32⟩
def PWR_LEDGER_SEQ_ENTRIES : Fld := ⟨PWR_LEDGER_SEQ, 32, 16⟩
def SEC_REPORT_ADDR_START : Fld := ⟨SEC_REPORT_ADDR, 0, 1⟩
def SEC_REPORT_ADDR_DIGESTS : Fld := ⟨SEC_REPORT_ADDR, 1, 4⟩
def SEC_REPORT_ADDR_GUEST : Fld := ⟨SEC_REPORT_ADDR, 5, 1⟩
def SEC_REPORT_STATUS_STATE : Fld := ⟨SEC_REPORT_STATUS, 0, 2⟩
def SEC_REPORT_STATUS_LENGTH : Fld := ⟨SEC_REPORT_STATUS, 16, 16⟩
def SEC_DBG_SEL_DIE : Fld := ⟨SEC_DBG_SEL, 0, 4⟩
def SEC_DBG_SEL_CORE : Fld := ⟨SEC_DBG_SEL, 4, 3⟩
def SEC_IMAGE_SLOTS_SLOTS : Fld := ⟨SEC_IMAGE_SLOTS, 0, 6⟩
/-- `FAB_DIE_STATE` of die d at [3d + 2:3d]. -/
def FAB_DIE_STATE_STATE (d : Nat) : Fld := ⟨FAB_DIE_STATE, 3 * d, 3⟩
/-- `FAB_GEN` of die d at [4d + 3:4d], 8 the hub die. -/
def FAB_GEN_OF (d : Nat) : Fld := ⟨FAB_GEN, 4 * d, 4⟩
/-- `PWR_DIE_BOOT` of die d at [4d + 3:4d]. -/
def PWR_DIE_BOOT_RESULT (d : Nat) : Fld := ⟨PWR_DIE_BOOT, 4 * d, 4⟩
/-- `PWR_ALLOT_0` and `_1`: allotment of die d at [16 (d mod 4) + 15:16 (d mod 4)]. -/
def PWR_ALLOT_OF (d : Nat) : Fld := ⟨if d < 4 then PWR_ALLOT_0 else PWR_ALLOT_1, 16 * (d % 4), 16⟩
/-- `SNAP_SLOT_STATUS` STATE_n at [4n + 2:4n]. -/
def SNAP_SLOT_STATE (n : Nat) : Fld := ⟨SNAP_SLOT_STATUS, 4 * n, 3⟩

/-! ### Event numbers (Table 14-4, R399, R400, R422, R442, R444, R463) -/
def EV_PKG_TXN_FAILED : Nat := 0
def EV_PKG_TXN_TIMEOUT : Nat := 1
def EV_PKG_EVT_LOST : Nat := 2
def EV_BEAT_ALIGN_LOST : Nat := 0
def EV_BEAT_HOLDOVER : Nat := 1
def EV_BEAT_MASTER_CHANGE : Nat := 2
def EV_BEAT_REF_LOCKED : Nat := 3
def EV_BEAT_REF_LOST : Nat := 4
def EV_BEAT_OVERRUN : Nat := 5
def EV_BEAT_SLOT_HUNG : Nat := 6
def EV_BEAT_PERIOD_CHANGE : Nat := 7
def EV_HAL_WIN_OVERFLOW : Nat := 0
def EV_HAL_WIN_INVALID : Nat := 1
def EV_HAL_WIN_DONE : Nat := 2
def EV_HAL_WIN_MISMATCH : Nat := 3
def EV_HAL_STASH_MISSING : Nat := 4
def EV_HAL_WIN_DISCARDED : Nat := 5
def EV_HAL_STASH_ESCALATE : Nat := 6
def EV_HAL_STASH_FULL : Nat := 7
def EV_STG_LAYER_INVALID : Nat := 0
def EV_STG_CHECK_FAIL : Nat := 1
def EV_STG_PUSH_OVERFLOW : Nat := 2
def EV_STG_FLUSH_REFUSED : Nat := 3
def EV_STG_CHAN_REFUSED : Nat := 4
def EV_STG_CHAN_MISMATCH : Nat := 5
def EV_STG_CHAN_DOWN : Nat := 6
def EV_STG_VERSION_ABSENT : Nat := 7
def EV_STG_VERSION_FLIP : Nat := 8
def EV_XE_CMD_INVALID : Nat := 0
def EV_NUM_HIST_INVALID : Nat := 0
def EV_NUM_WARM_START : Nat := 1
def EV_NUM_WARM_END : Nat := 2
def EV_NUM_LAYER_SILENT : Nat := 3
def EV_NUM_ASSAY_DIVERGE : Nat := 4
def EV_BWD_RECOMP_SPACE : Nat := 0
def EV_MOE_TABLE_INVALID : Nat := 0
def EV_MOE_ORDER_MISMATCH : Nat := 1
def EV_MOE_SENDER_MISSING : Nat := 2
def EV_MOE_RETURN_MISSING : Nat := 3
def EV_MEM_THERMAL_CAP : Nat := 0
def EV_MEM_UNCORRECTABLE : Nat := 1
def EV_POUR_NONFINITE : Nat := 0
def EV_POUR_FAIL : Nat := 1
def EV_POUR_DONE : Nat := 2
def EV_GATHER_FAIL : Nat := 0
def EV_CRU_BUCKET_REFUSED : Nat := 0
def EV_CRU_BACKUP_USED : Nat := 1
def EV_CRU_STEP_STALL : Nat := 2
def EV_CRU_STEP_REJECTED : Nat := 3
def EV_CRU_CKSUM_MISMATCH : Nat := 4
def EV_LNK_UP : Nat := 0
def EV_LNK_DOWN : Nat := 1
def EV_LNK_RETRAIN : Nat := 2
def EV_LNK_MARGINAL : Nat := 3
def EV_LNK_FAILING : Nat := 4
def EV_LNK_OPT_ALARM : Nat := 5
def EV_LNK_VC_STUCK : Nat := 6
def EV_LNK_NO_ROUTE : Nat := 7
def EV_LNK_NODE_CONFLICT : Nat := 8
def EV_LNK_HB_MISMATCH : Nat := 9
def EV_FAB_WIDTH_MISMATCH : Nat := 0
def EV_FAB_SHROUD_DEGRADED : Nat := 1
def EV_FAB_DIE_FENCED : Nat := 2
def EV_FAB_READMIT_FAILED : Nat := 3
def EV_GATE_POLICY_REJECTED : Nat := 0
def EV_GATE_REFUSED : Nat := 1
def EV_GATE_POWER : Nat := 2
def EV_GATE_CLOSED : Nat := 3
def EV_DIE_RING_HALT : Nat := 0
def EV_DIE_CQ_STALL : Nat := 1
def EV_ERR_LOG_FULL : Nat := 0
def EV_ERR_FATAL : Nat := 1
def EV_CLU_CORE_RETIRED : Nat := 0
def EV_CLU_RETIRED : Nat := 1
def EV_SNAP_CAPTURE_DONE : Nat := 0
def EV_SNAP_CAPTURE_FAILED : Nat := 1
def EV_SNAP_RESTORE_DONE : Nat := 2
def EV_SNAP_RESTORE_SKEW : Nat := 3
def EV_SNAP_RESTORE_FAILED : Nat := 4
def EV_SNAP_CAD_INTERVAL : Nat := 5
def EV_SNAP_RECV_DONE : Nat := 6
def EV_PWR_READY : Nat := 0
def EV_PWR_LEDGER_INVALID : Nat := 1
def EV_PWR_LEDGER_FULL : Nat := 2
def EV_PWR_LEDGER_WRITE_FAIL : Nat := 3
def EV_PWR_RAIL_FAULT : Nat := 4
def EV_PWR_DIE_BOOT_FAIL : Nat := 5
def EV_BIST_RUN_DONE : Nat := 0
def EV_BIST_RUN_FAILED : Nat := 1
def EV_BIST_WAVE_PAUSED : Nat := 2
def EV_SEC_IMAGE_FALLBACK : Nat := 0
def EV_SEC_TOKEN_REJECTED : Nat := 1
def EV_SEC_TOKEN_ACCEPTED : Nat := 2
def EV_SEC_ARB_ADVANCED : Nat := 3
def EV_SEC_REPORT_DONE : Nat := 4
def EV_SEC_DEBUG_OPEN : Nat := 5

end Sys2Proof.Machine
end

