-- ==== Sys2Proof/Machine/State.lean ====
section
/-! DEFINITION. The state of one package as plain data: the queue of waiting commands, the part (what outlives a cold reset: fuses and
board flash) and the package. Registers live in one sparse register file (`Package.regs`, cells at their addresses, absent cells
at their reset values of `Machine/Regs.lean`); what the spec gives beyond registers lives in the structures below. -/

namespace Sys2Proof.Machine

/-! ### The beat unit (02_beat_timing.md) -/

/-- What a package believes of its domain and group (R25, R26). -/
structure View where
  best : Option Nat := none
  bestConfigured : Bool := false
  hops : Nat := 0
  uplink : Option Nat := none
  groupBest : Option Nat := none
  groupConfigured : Bool := false
deriving DecidableEq, Repr

/-- The beat unit's state beside its registers. -/
structure BeatUnit where
  /-- domain time of the next tick, 1/256 ns, modulo 2^64 (R19, R20) -/
  nextTick : Nat := 0
  /-- domain time of the last tick -/
  lastTick : Nat := 0
  /-- the package holds an epoch (R31, R351) -/
  epochHeld : Bool := false
  /-- tick 0 of the epoch has come: `BEAT_NUMBER` advances only at later ticks -/
  ticked : Bool := false
  /-- the pending period change (R43) -/
  pend : Option PendPeriod := none
  /-- the election's view, the clock since which it stands, and since when the election runs (R26) -/
  view : View := {}
  viewSince : Nat := 0
  electionSince : Nat := 0
  lostRaised : Bool := false
  /-- the last announce of each link -/
  heard : List (Nat × Announce) := []
  /-- when ACQUIRING was entered, and whether its 10 s alarm is out (R31) -/
  acquiringSince : Nat := 0
  acquireRaised : Bool := false
  /-- the latest stamps (R32) -/
  t1 : Nat := 0
  t2 : Nat := 0
  t3 : Nat := 0
  t4 : Nat := 0
  /-- a delay measurement on the uplink is complete, and the offset has been stepped away (R31) -/
  measured : Bool := false
  stepped : Bool := false
  /-- beats since the last time message on the uplink (R28) -/
  silentBeats : Nat := 0
  /-- beats since the last delay request (R32) -/
  requestBeats : Nat := 0
  /-- consecutive offsets within ±10 ns (R31) -/
  goodRun : Nat := 0
  /-- offset still to be slewed away (R29), 1/256 ns -/
  slew : Int := 0
  /-- a step that awaits REJOIN: UNALIGNED's offset (R29) or a reference offset (R35) -/
  stepWaiting : Option Int := none
  /-- the last time message, kept for a rejoin -/
  lastMsg : Option TimeMsg := none
  /-- entry into HOLDOVER (R28) -/
  holdoverSince : Nat := 0
  /-- dies whose tick notice is armed, and the beat it names (R23) -/
  noticeDies : List Nat := []
  noticeBeat : Nat := 0
  /-- pulses sent on the beat output and the domain time of the last (R36) -/
  pulses : Nat := 0
  lastPulse : Nat := 0
  /-- domain time of the last whole-second pulse edge and of the last 1 PPS input edge -/
  lastRefEdge : Nat := 0
deriving DecidableEq, Repr

/-! ### Events (R343, R367 to R369) -/

/-- The hub die's event queue beside `PKG_EVT_*`. -/
structure EventQueue where
  recs : List EventRec := []
  /-- a record was lost since the last one sent -/
  lossPending : Bool := false
  /-- records lost since the last `PKG_EVT_LOST` -/
  lostSince : Nat := 0
deriving DecidableEq, Repr

/-! ### Transactions (R349 to R353) -/

/-- The open transaction beside `PKG_TXN_*`: the staged values in staging order by address, and its times. -/
structure Txn where
  staged : List (Nat × Nat) := []
  overflow : Bool := false
  openedAt : Nat := 0
  /-- the beat at whose tick a PENDING transaction applies, R42 -/
  target : Nat := 0
  /-- a feature accept has been committed since the last warm reset (R346) -/
  accepted : Bool := false
deriving DecidableEq, Repr

/-! ### Stages, queues, windows and the stash (03, 04) -/

/-- What an entry of a queue's ring is doing: valid and waiting, held by a running phase, or occupied after a failed check (R56). -/
inductive EntrySt where
  | valid | held | failed
deriving DecidableEq, Repr

/-- An inbound queue beside `STG_xQ_*`: the occupied entries in ring order, oldest first, and its sender. -/
structure Queue where
  entries : List (Nat × EntrySt) := []
  tail : Nat := 0
  sender : Option Sender := none
deriving DecidableEq, Repr

/-- A channel beside `STG_CHn_STATE`: when its open was sent. -/
structure Channel where
  openSent : Option Nat := none
deriving DecidableEq, Repr

/-- The output description that `DM_OUTDESC` sets (R233). -/
structure OutDesc where
  format : Nat
  bytes : Nat
  scale : Nat
deriving DecidableEq, Repr

/-- A condition that delays a phase's start (R37, R39, R63): which was met last decides an overrun's cause. -/
inductive StartCond where
  | input | other
deriving DecidableEq, Repr

/-- A running phase. -/
structure Phase where
  dir : Dir
  step : Nat
  microBatch : Nat
  /-- index of the phase within its half of the window -/
  index : Nat
  /-- window owner's tag -/
  winTag : Nat
  version : Nat
  beat : Nat
  /-- clock at the tick of its beat, at its start and at its compute end -/
  tickAt : Nat
  startAt : Nat
  endAt : Option Nat := none
  late : Bool := false
  lastCond : StartCond := .other
  /-- enabled channels of its direction, and those whose output has landed -/
  channels : List Nat := []
  landed : List Nat := []
  out : Option OutDesc := none
  /-- queue entry it consumes -/
  entry : Nat
  lastOfStep : Bool := false
  /-- the input payload (address, bytes) of the descriptor -/
  payload : Nat := 0
  bytes : Nat := 0
  format : Nat := 0
  scale : Nat := 0
  /-- overrun marks: the beat it was marked, its cause -/
  overrun : Option Nat := none
  hung : Bool := false
  /-- a command failed: it ends without output (R121) -/
  failed : Bool := false
  /-- stage-checkpoint recompute runs first (R189) -/
  recompute : Bool := false
  /-- position in the layer list of the next layer of the phase, and its commands begun -/
  layerPos : Nat := 0
  /-- output bytes stored so far under mode 4 (R230): byte offset and byte, offsets rising -/
  outBuf : List Host.Cell := []
  /-- Assay checks still owed before it ends (R177) -/
  assayOwed : Nat := 0
deriving DecidableEq, Repr

/-- A window (Table 4-1), with the stage it was pushed to. -/
structure Window where
  owner : Nat
  fwdBase : Nat
  fwdCount : Nat
  bwdBase : Nat
  bwdCount : Nat
  notify : Bool
  ckptAll : Bool
  lag : Nat
  step : Nat
  tag : Nat
deriving DecidableEq, Repr

/-- A slot group beside `HAL_WIN_STATUS` of its stages, held by its leader. -/
structure Group where
  fifo : List Window := []
  cur : Option Window := none
  /-- phases of the current window started and ended -/
  started : Nat := 0
  ended : Nat := 0
  /-- the current window has completed since the previous tick (R83) -/
  completed : Bool := false
  /-- level 2 of the current window: later forwards are checkpoint-only (R93); first uses already reported (R94) -/
  ckptOnly : Bool := false
  raised1 : Bool := false
  raised2 : Bool := false
deriving DecidableEq, Repr

/-- A stash record (R91, R92). -/
structure StashRec where
  step : Nat
  microBatch : Nat
  dirIndex : Nat
  base : Nat
  bytes : Nat
  version : Nat
  level : Nat
  stageCkpt : Bool
  inputCopy : Bool
  /-- start of the record, the bytes of its input copy, and the FP32 scale of that input -/
  start : Nat := 0
  copyBytes : Nat := 0
  inScale : Nat := 0
  complete : Bool := false
  freed : Bool := false
deriving DecidableEq, Repr

/-- A virtual stage beside its STG and HAL registers. -/
structure Stage where
  phase : Option Phase := none
  fq : Queue := {}
  bq : Queue := {}
  chans : List Channel := [{}, {}, {}, {}]
  /-- committed cluster masks that await a window boundary (R52), and the cluster set in effect -/
  bindPending : Bool := false
  clusters : List Nat := []
  /-- the Pour on the package completed for this version at this domain time and awaits its flip (R69) -/
  pourDone : Option (Nat × Nat) := none
  /-- the first step of each tag fixed by a FIRST stage (R67): step and version -/
  tag : Option (Nat × Nat) := none
  stash : List StashRec := []
  stashHead : Nat := 0
  stashStalled : Bool := false
  issueA : Nat := 0
  issueB : Nat := 0
  /-- layer entries already checked in the current window (R50) -/
  checked : List Nat := []
  clearAsked : Bool := false
  /-- drain (R51, R365, R366): tick count left, ENABLE committed again -/
  drainBeat : Nat := 0
  reopen : Bool := false
  /-- clock until which the input, and any other start condition, was last seen unmet (R39) -/
  inputUnmet : Nat := 0
  otherUnmet : Nat := 0
  /-- the next backward phase has been counted in `BWD_FOLD_WAIT` (R194) -/
  foldWaited : Bool := false
  /-- step of the last backward phase with LAST_OF_STEP that has ended (R193) -/
  lastBackward : Option Nat := none
  /-- a phase has started in the slot of the open beat, or the slot was given up to an unmet condition's cause (R37) -/
  slotUsed : Bool := false
  gaveUp : Option Nat := none
  /-- beat of the latest phase start -/
  lastStart : Option Nat := none
  /-- after a rejoin, wait for a window boundary (R29) -/
  resumeWait : Bool := false
  /-- clock units counted in the open beat, by idle cause 0 to 15 and 16 for busy (R71) -/
  acct : List Nat := []
  /-- shrunk by a cluster retirement at the next window boundary (R388) -/
  shrinkPending : Bool := false
  /-- abandoned until REWIND or disable: hold by recovery -/
  recovery : Bool := false
  /-- a restore has filled its version ring, and it has not been enabled since (R420) -/
  restored : Bool := false
deriving DecidableEq, Repr

/-! ### Messages and links (12_eloarun_links.md) -/


/-- A DATA flit kept for replay (R290). -/
structure TxFlit where
  seq : Nat
  vc : Nat
  som : Bool
  eom : Bool
  bytes : Nat
  resends : Nat
  msg : Msg
deriving DecidableEq, Repr

/-- The sending side of one virtual channel: waiting messages, flits of the front message already sent, SENT and FREED (R293), and
since when it has had no credit (R294). -/
structure VcTx where
  msgs : List Msg := []
  sentFlits : Nat := 0
  sent : Nat := 0
  freed : Nat := 0
  dryReported : Bool := false
deriving DecidableEq, Repr

/-- A link port beside its LNK page. -/
structure Link where
  nextSeq : Nat := 0
  accepted : Option Nat := none
  replay : List TxFlit := []
  /-- flits at the front of the replay buffer still to be resent -/
  toResend : Nat := 0
  vcs : List VcTx := [{}, {}, {}, {}, {}, {}, {}, {}]
  cvc : Nat := 0
  /-- credits freed per virtual channel at this receiver, modulo 2^16 -/
  freedHere : List Nat := [0, 0, 0, 0, 0, 0, 0, 0]
  /-- the receiver discards DATA since a failure or a gap; no NAK before this clock -/
  gap : Bool := false
  nakAfter : Nat := 0
  nakOwed : Bool := false
  /-- virtual channels with a message partly received -/
  partials : List Nat := []
  /-- flits sent since training, and the last flits put on the wire -/
  flitCount : Nat := 0
  lastFlit : Option WireFlit := none
  /-- weighted round-robin: channel served and turns left (R294) -/
  rrVc : Nat := 2
  rrLeft : Nat := 0
  /-- shares in force: this receiver's and the partner's (R293) -/
  shares : List Nat := []
  peerShares : List Nat := []
  partner : Option Partner := none
  exchanged : Bool := false
  trainStart : Nat := 0
  /-- the retrain's start; the last retrain caused by FAILING -/
  retrainStart : Nat := 0
  failingRetrain : Option Nat := none
  downAt : Nat := 0
  /-- ENABLE written 0: since when (R305) -/
  stopping : Option Nat := none
  lasersOn : Bool := false
  codewordLock : Bool := false
  /-- alarms in force per lane: list of (lane, cause) (R306) -/
  alarms : List (Nat × Nat) := []
deriving DecidableEq, Repr

/-- The package's links beside the package LNK page. -/
structure LinkUnit where
  ports : List (Nat × Link) := []
  /-- the route table in force (R299): node and mask, unlisted nodes empty -/
  routes : List (Nat × Nat) := []
  stagedRoutes : List (Nat × Nat) := []
  noRouteRaised : Option Nat := none
  lastDest : Nat := 0
  /-- a snapshot message of this package was lost on a link (R301, R411) -/
  snapLost : Bool := false
  /-- optical-engine or link firmware failed to verify: no port trains (R449) -/
  noFirmware : Bool := false
deriving DecidableEq, Repr

/-- A host request outstanding at the bridge: its TAG, target and issue time (R310). -/
structure Outstanding where
  tag : Nat
  dest : Nat
  issued : Nat
deriving DecidableEq, Repr

/-! ### Work shared by the families -/

/-- A tie fold that runs (R193, R194): the tie entry, its TIE_ID, the step, when it started, and the stages that hold a use. -/
structure Fold where
  tie : Nat
  tieId : Nat
  step : Nat
  startAt : Nat
  stages : List Nat
deriving DecidableEq, Repr

/-- A RUN command that holds clusters (R361). -/
structure RunJob where
  ring : Nat
  tag : Nat
  die : Nat
  first : Nat
  count : Nat
  layer : Nat
  list : Nat
  len : Nat
  startAt : Nat
  /-- an error of R121 ended it: the RESULT to report -/
  failed : Option Nat := none
  replayed : Bool := false
deriving DecidableEq, Repr

/-! ### Cores and clusters (05 to 09, 15) -/

/-- A command that the sequencer has dispatched and a unit queue holds, or that a wait holds: its word, its index within the phase, its
ordinal within its list and the predicate it read at dispatch (R199). -/
structure Held where
  word : CmdWord
  index : Nat
  ordinal : Nat
  pred : Bool
  /-- it has started (its WAIT token is taken) and waits for an event outside the core (R173, R209, R211, R212), since this clock -/
  since : Option Nat := none
deriving DecidableEq, Repr

/-- An accumulator slot (R129): its non-zero elements by 32m + n, the mask of open elements, and the held fields of its tile status
(Table 6-8). -/
structure AccSlot where
  elems : List (Nat × Nat) := []
  opened : Nat := 0
  group : Nat := 0
  longSum : Bool := false
  nonfinite : Bool := false
  sMinus1 : Nat := 0
  spills : Nat := 0
deriving DecidableEq, Repr

/-- An accumulation group: the slot it is bound to, its spill interval, and per block the K-steps since the last spill and the spills. -/
structure AccGroup where
  slot : Option Nat := none
  s : Nat := 16
  steps : List Nat := []
  spills : List Nat := []
deriving DecidableEq, Repr

/-- One sampled K-step sum: the array's FP32 sum, the recomputed one and the sum of magnitudes (R176, R177). -/
structure Sampled where
  n : Nat
  w : Nat
  s : Nat
deriving DecidableEq, Repr

/-- An unfinished Assay check in a core's buffer. -/
structure AssayJob where
  stage : Nat
  step : Nat
  sums : List Sampled
deriving DecidableEq, Repr

/-- An operand map entry (R382): the command that loaded the bytes and its destination rows (first byte, length). -/
structure MapEntry where
  word : CmdWord
  rows : List (Nat × Nat)
  /-- physical layer context of the load: position in the phase's layers -/
  layer : Nat
deriving DecidableEq, Repr

/-- What a replay point records (R381). -/
structure ReplayPoint where
  layerPos : Nat := 0
  index : Nat := 0
  ordinal : Nat := 0
  left : Nat := 0
  tokens : List (Nat × Nat) := []
  preds : Nat := 64
  maskWord : Nat := 0
  clock : Nat := 0
  /-- the core has passed RP_LIMIT cycles since, and `CLU_RP_LONG` has counted it (R385) -/
  long : Bool := false
deriving DecidableEq, Repr

/-- What the array of a core is doing (R122 to R125): gated or holding a level; running trim operations in a gap since a clock; ramping
down; ramping up. -/
inductive ArraySt where
  | idle | trim | down | up
deriving DecidableEq, Repr

/-- A core: its memories, its sequencer and its units. The sequencer's tokens and unlisted tokens are 0; predicates are bits 0 to 15. -/
structure Core where
  opMem : List Host.Cell := []
  /-- the phase whose state the core holds: 1 + stage (0 for a RUN) and the clock of its start -/
  serving : Option (Nat × Nat) := none
  slots : List (Nat × AccSlot) := []
  groups : List (Nat × AccGroup) := []
  /-- Ladle pairs by 1024g + 32m + n -/
  ladle : List (Nat × (Nat × Nat)) := []
  /-- row statistics (A, L) by 32·entry + row -/
  rowStats : List (Nat × (Nat × Nat)) := []
  tokens : List (Nat × Nat) := []
  preds : Nat := 64
  /-- the queues of the matrix engine, the accumulator, the vector engine and the data mover (R102) -/
  mx : List Held := []
  ac : List Held := []
  ve : List Held := []
  dm : List Held := []
  /-- a sequencer or dispatch command that stops dispatch, and the commands behind it -/
  seq : Option Held := none
  behind : List CmdWord := []
  /-- commands of the phase dispatched, ordinal within the list, commands of the list not yet given -/
  index : Nat := 0
  ordinal : Nat := 0
  left : Nat := 0
  /-- lists of the phase begun -/
  layerPos : Nat := 0
  /-- the layer's gate is false: the list completes without effect (R201) -/
  skip : Bool := false
  /-- stopped by a command error, by poison or by the retirement of its cluster; `failing` when it has failed, waits for its spare and
  would run otherwise (R387) -/
  stopped : Bool := false
  failing : Bool := false
  /-- the array: level, state, the clock of its last accounting, the clock at which its work ends, currents of its last work cycles in
  hundredths (cycles, current) -/
  level : Nat := 0
  array : ArraySt := .idle
  mark : Nat := 0
  busyUntil : Nat := 0
  recent : List (Nat × Nat) := []
  /-- cycles of the current 8-cycle interval of a ramp-up already run -/
  rampPart : Nat := 0
  /-- the M16 command with PAIR that waits for its second half and the clock at which its streaming ends (R110); the quadrants of an open
  QUAD group, their formats and the clock at which the group issues (R111) -/
  paired : Option CmdWord := none
  pairBy : Nat := 0
  quads : List Nat := []
  quadFmt : Nat := 0
  quadAt : Nat := 0
  assay : Option AssayJob := none
  /-- mask words taken in the running list (R195) -/
  maskWord : Nat := 0
  /-- slots whose last AMAX pass the core has published (R173) -/
  published : List Nat := []
  /-- slot statistics held until the next replay point (R384): slot, step, statistics -/
  heldStats : List (Nat × (Nat × Stats)) := []
  point : ReplayPoint := {}
  /-- commands since the replay point, and whether they are being replayed: how many effects recorded outside are to be repeated not -/
  since : List CmdWord := []
  replaying : Bool := false
  opMap : List MapEntry := []
deriving DecidableEq, Repr

/-- A refill of a cluster (R383, R387): failed core, spare, logical position, cause, detection clock, compound flag. -/
structure Refill where
  core : Nat
  spare : Nat
  position : Nat
  cause : Nat
  startAt : Nat
  compound : Bool
deriving DecidableEq, Repr

/-- A cluster beside its CLU, XE and ACC pages. -/
structure Cluster where
  sram : List Host.Cell := []
  /-- poisoned 64-byte lines of cluster SRAM (R378) -/
  poison : List Nat := []
  refill : Option Refill := none
  /-- faults that wait behind the refill: physical core, cause and detection clock, oldest first -/
  queued : List (Nat × (Nat × Nat)) := []
  /-- trim energy left over below a nanojoule: 125 pJ × 1/32 units -/
  trimRest : Nat := 0
  macRest : Nat := 0
  collapseRest : Nat := 0
  /-- spill interval and watchdog in force since the last phase start (R150, R400) -/
  rpLimit : Nat := 36000
  wdog : Nat := 8192
deriving DecidableEq, Repr

/-! ### The format selector (07_numerics.md) -/

/-- An AMAX barrier of a slot in a phase (R173): the largest publication so far, the cores that have published, and the phase exponent
once it has released. -/
structure Barrier where
  amax : Nat := 0
  cores : List (Nat × Nat) := []
  exponent : Option Int := none
deriving DecidableEq, Repr

/-- The selector's state beside the NUM page and the history table in memory. -/
structure NumUnit where
  /-- statistics of the package by slot: (step, statistics), steps not yet resolved -/
  stats : List (Nat × List (Nat × Stats)) := []
  /-- barriers of the running phases: (4096·stage + slot) -/
  barriers : List (Nat × Barrier) := []
  /-- slots that have entered current-amax mode, by step (R172) -/
  entered : List (Nat × Nat) := []
  /-- steps whose non-finite bit a dispatch unit or the Assay has set (R178, R212) -/
  nonfinite : List Nat := []
deriving DecidableEq, Repr

/-! ### Expert dispatch (09_conditional_computation.md) -/

/-- One core's MOE_ROUTE of a phase: the core, its command and its tokens' range. -/
structure RouteIssue where
  cluster : Nat
  core : Nat
  word : CmdWord
  base : Nat
  tokens : Nat
deriving DecidableEq, Repr

/-- A placement of token t at rank j (Table 9-5), with where its row returns. -/
structure Placement where
  token : Nat
  rank : Nat
  expert : Nat
  pos : Nat
  placed : Bool
  rerouted : Bool
  dropped : Bool
  missing : Bool := false
  /-- weight rank K_ROUTE -/
  last : Bool
deriving DecidableEq, Repr

/-- A table's routing in a stage's phase (R209): the issues, the placements once made, and the experts whose rows have come back or are
missing. -/
structure MoeRoute where
  issues : List RouteIssue := []
  placed : Bool := false
  places : List Placement := []
  returned : List Nat := []
  missing : List Nat := []
deriving DecidableEq, Repr

/-- Rows given up at a deadline: senders of an expert, or an expert's returns (R211, R212). -/
structure MoeMissing where
  stage : Nat
  table : Nat
  expert : Nat
  /-- the sender that is missing, or none for the expert's return -/
  sender : Option Nat
  step : Nat
  microBatch : Nat
  dir : Dir
deriving DecidableEq, Repr

/-- The expert dispatch units. -/
structure MoeUnit where
  /-- routings of running phases: stage, table, clock of the phase's start -/
  routes : List ((Nat × Nat × Nat) × MoeRoute) := []
  /-- tables checked: stage, table, clock of the phase's start -/
  checked : List (Nat × Nat × Nat) := []
  headers : List MoeHeader := []
  missing : List MoeMissing := []
  /-- returns sent: stage, table, expert, clock of the phase's start -/
  sent : List (Nat × Nat × Nat × Nat) := []
  /-- sender counts of a forward's owned experts, for its recompute: stage, step, micro-batch, table, expert, counts by sender -/
  counts : List ((Nat × Nat × Nat × Nat × Nat) × List Nat) := []
deriving DecidableEq, Repr

/-! ### Pour engines and parameter gather (10_memory_stacks.md) -/

/-- The Pour of a committed step (R236): its clip factor and mode, when it was handed over, the stages it covers, the regions still to run,
the stages of regions that an engine stopped (R243), and the hyperparameter entries as read (R238). -/
structure PourJob where
  step : Nat
  clip : Nat
  perRegion : Bool
  startAt : Nat
  stages : List Nat := []
  regions : List Nat
  failed : List Nat := []
  hp : List (Nat × List Byte) := []
deriving DecidableEq, Repr

/-- A block of at most 4 KiB that the gather engine fetches: layer-list index, owning member, offset in the slot, bytes; asked again of the
same member; asked of ALT_NODE. -/
structure GatherBlk where
  layer : Nat
  member : Nat
  ofs : Nat
  len : Nat
  again : Bool := false
  alt : Bool := false
deriving DecidableEq, Repr

/-- The gather of a stage (R247): the version, blocks to fetch, blocks in flight, layers not ready. -/
structure GatherSt where
  version : Nat := 0
  todo : List GatherBlk := []
  out : List GatherBlk := []
  notReady : List Nat := []
  /-- versions that a restore brought back and whose gathers wait for this one (R420) -/
  more : List Nat := []
deriving DecidableEq, Repr

/-- A fetch that this member holds for a version it does not yet hold (R248). -/
structure HeldFetch where
  node : Nat
  stage : Nat
  version : Nat
  ofs : Nat
  len : Nat
  since : Nat
deriving DecidableEq, Repr

/-! ### The Crucible (11_gradient_reduction.md) -/

/-- A transmission that waits at this sender for its admission (R259): the receiver's node and first-hop mask, header and payload. -/
structure Xmit where
  node : Nat
  mask : Nat
  header : CruHeader
  data : List Byte
deriving DecidableEq, Repr

/-- This package's own contribution to a bucket: FP32 values of the whole bucket, and of a thinned one the positions it sends. -/
structure OwnPart where
  bucket : Nat
  step : Nat
  vals : List Nat
  sent : Option (List Bool) := none
deriving DecidableEq, Repr

/-- A backup's copy that an owner holds (R270). -/
structure HeldCopy where
  member : Nat
  header : CruHeader
  data : List Byte
deriving DecidableEq, Repr

/-- A bucket context (R259): its bucket and step, the beat in which it first took a contribution, the FP32 accumulator of the owned range,
the members added, senders seen, copies held, the checksums of what was added, ring partials that wait for the own contribution. -/
structure BktCtx where
  bucket : Nat
  step : Nat
  openBeat : Option Nat := none
  acc : List Nat := []
  added : List Nat := []
  seen : List Nat := []
  held : List HeldCopy := []
  soft : Bool := false
  own : Option OwnPart := none
  sumC : Nat := 0
  absC : Nat := 0
  partials : List HeldCopy := []
  /-- its result has been counted as waiting for the gradient array (R267) -/
  gradWait : Bool := false
deriving DecidableEq, Repr

/-- An admission request that waits at this owner. -/
structure AdmWait where
  node : Nat
  bucket : Nat
  step : Nat
deriving DecidableEq, Repr

/-- What the package knows of a step that has not resolved. -/
structure StepAcct where
  stall : Bool := false
  nonfinite : Bool := false
  cksum : Bool := false
  n2 : Nat := 0
  /-- beat in which the own report became ready, and the report -/
  ready : Option (Nat × StepReport) := none
  /-- reports of children by tree entry, with the beat of their arrival, oldest first -/
  children : List (Nat × (Nat × StepReport)) := []
  /-- the combined report has gone to the parent; at the root it is complete and kept here -/
  sentUp : Option StepReport := none
  /-- digests: SENT and RECV with their counts (R281, R282) -/
  digSent : Nat := 0
  digRecv : Nat := 0
  nSent : Nat := 0
  nRecv : Nat := 0
deriving DecidableEq, Repr

/-- The Crucible beside the CRU page. -/
structure CruUnit where
  /-- contributions made, and results written or stalled, by bucket and step -/
  made : List (Nat × Nat) := []
  closed : List (Nat × Nat) := []
  outbox : List Xmit := []
  own : List OwnPart := []
  ctxs : List (Nat × BktCtx) := []
  waiting : List AdmWait := []
  steps : List (Nat × StepAcct) := []
  /-- outcomes that have come and whose step has not resolved yet, in step order -/
  outcomes : List Outcome := []
  /-- one more than the latest step whose outcome was sent or received, and than the latest resolved step -/
  decided : Nat := 0
  resolved : Nat := 0
  /-- the latest resolved step was rejected (R391) -/
  rejected : Bool := false
deriving DecidableEq, Repr
/-! ### Command rings and field self-test (14, 17) -/

/-- A command in flight (R356): its descriptor's fields, whether it has started, passed its point of Table 14-11, and how it has ended
(status, RESULT) before its record is written. -/
structure RingCmd where
  tag : Nat
  cls : Nat
  fence : Bool
  desc : List Byte
  started : Bool := false
  past : Bool := false
  done : Option (Nat × Nat) := none
  replayed : Bool := false
  errLogged : Bool := false
deriving DecidableEq, Repr

/-- A completion record that waits for space, since a clock (R358). -/
structure CqRec where
  tag : Nat
  status : Nat
  result : Nat
  cls : Nat
  abortResult : Bool
  replayed : Bool
  errLogged : Bool
  since : Nat
deriving DecidableEq, Repr

/-- A die's ring beside `DIE_*` (instance 8 the hub die). -/
structure RingSt where
  /-- the last tail written -/
  tail : Nat := 0
  inflight : List RingCmd := []
  /-- tags with an abort pending -/
  aborts : List Nat := []
  waiting : List CqRec := []
  stallAt : Option Nat := none
  /-- the drain deadline's beat; ENABLE committed again while DRAINING -/
  drainBeat : Nat := 0
  reopen : Bool := false
deriving DecidableEq, Repr

/-- A field BIST run of a die (R433 to R435): its command's tag, its unit, when it was asked for and started, the clock since which its
wave is paused. -/
structure BistRun where
  tag : Nat
  cluster : Nat
  core : Option Nat
  noRepair : Bool
  askedAt : Nat
  startAt : Option Nat := none
  pausedAt : Option Nat := none
deriving DecidableEq, Repr

/-- A REWIND that applies at the next tick (R391). -/
structure RewindJob where
  tag : Nat
  step : Nat
  next : Nat
deriving DecidableEq, Repr

/-! ### Snapshots (16) -/

/-- A section of an image (Table 16-1, Table 16-3): type, index, address restored to (0 for a frame section), its bytes while they are
frame bytes, and the memory ranges that a streamed section reads. -/
structure Section where
  typ : Nat
  index : Nat
  dest : Nat
  bytes : List Byte := []
  ranges : List (Nat × Nat) := []
  /-- a value that precedes the ranges in a POUR section: the region's T -/
  lead : List Byte := []
deriving DecidableEq, Repr

/-- A capture (R409 to R412). -/
structure Capture where
  /-- ring tag of its command; a cadence notice has none -/
  tag : Option Nat
  buddy : Bool
  /-- armed for the first committed step at or after this one; the step once frozen -/
  step : Nat
  slot : Nat := 0
  base : Nat := 0
  frozen : Bool := false
  streaming : Bool := false
  freezeAt : Nat := 0
  freezeUs : Nat := 0
  holdSince : Option Nat := none
  heldNs : Nat := 0
  header : List Byte := []
  /-- sections still to be sent, the directory so far, the next section's offset -/
  todo : List Section := []
  dir : List Byte := []
  offset : Nat := 0
  sections : Nat := 0
  /-- the dies whose stacks hold a section, the staged frame or the local slot (R411) -/
  dies : List Nat := []
deriving DecidableEq, Repr

/-- A restore (R416 to R420): its tag, the image's address, its source slot, and the command's options. -/
structure Restore where
  tag : Nat
  addr : Nat
  slot : Option Nat
  align : Nat
  skipHistory : Bool
  posAddr : Nat
  /-- source 0: the image comes from the buddy -/
  buddy : Bool := false
  /-- the image as the verify pass read it -/
  image : List Byte := []
  /-- verified: the resumed data position and the stream offset; the write pass then runs -/
  result : Option (Nat × Nat) := none
deriving DecidableEq, Repr

/-- The SNAP unit beside the SNAP page. -/
structure SnapUnit where
  capture : Option Capture := none
  restore : Option Restore := none
  /-- cadence (R414, R415): domain time of the last `SNAP_CAD_EPOCH`, step of the last notice, steps committed since it, a capture has been
  measured, domain times of the flips of the latest 17 committed steps, newest first -/
  epochAt : Nat := 0
  lastNotice : Nat := 0
  sinceNotice : Nat := 0
  measured : Bool := false
  /-- the latest committed step that has flipped and the one before it (R412), and the Riser swaps that wait for a section (R410) -/
  lastFlip : Option Nat := none
  prevFlip : Option Nat := none
  swaps : List (Nat × Nat) := []
  /-- the interval in force -/
  interval : Nat := 0
  flips : List Nat := []
  /-- `PKG_SERIAL` and CAP_STEP of images in the four slots are in memory; the slot each area's sender writes, and bytes received -/
  receiving : Option Nat := none
deriving DecidableEq, Repr

/-! ### Fabric, guest site, power, security, test port, management (13, 14, 17, 18) -/

/-- A shroud beside its FAB registers: the module masks that its two sides have trained, a beacon pair on its way to the hub die, the clocks
of its latest mismatches (newest first), and whether a retrain after a mismatch runs (R318 to R320). -/
structure Shroud where
  sides : Nat × Nat := (0, 0)
  beacon : Option (Nat × Nat) := none
  mismatches : List Nat := []
  narrowing : Bool := false
deriving DecidableEq, Repr

/-- A fence under way (R323): die, cause, clock of the die's last heartbeat, the stages it holds. -/
structure FenceJob where
  die : Nat
  cause : Nat
  since : Nat
  held : Nat
deriving DecidableEq, Repr

/-- The fabric beside the FAB page. -/
structure FabUnit where
  shrouds : List (Nat × Shroud) := []
  /-- clock of each die's last heartbeat; paths (die, shroud or 12 for the stay) on which it is missing -/
  lastBeat : List (Nat × Nat) := []
  silent : List (Nat × Nat) := []
  fences : List FenceJob := []
  /-- re-admissions: die and its running step 1 to 4, or 5 and the resolved-step count it waits to pass -/
  readmits : List (Nat × (Nat × Nat)) := []
  /-- capability records that have come: die, flit revision -/
  revisions : List (Nat × Nat) := []
deriving DecidableEq, Repr

/-- A guest request that a token bucket holds, since a clock (R334). -/
structure GuestHeld where
  req : HostReq
  since : Nat
deriving DecidableEq, Repr

/-- The Gate beside the GATE page: the policy in force, the token buckets in 1/256 byte and 1/256,000 request and the clock of their last
refill, the requests held, refusals of the running millisecond, the clock of the last GATE_REFUSED, samples above POWER_W in a row, the
guest's self-reported measurement. -/
structure GateUnit where
  policy : List Byte := []
  tokRd : Nat := 0
  tokWr : Nat := 0
  tokReq : Nat := 0
  refillAt : Nat := 0
  held : List GuestHeld := []
  refusedFrom : Nat := 0
  refusals : Nat := 0
  raisedAt : Option Nat := none
  hotSamples : Nat := 0
  measurement : List Byte := []
  /-- responses on their way to the guest -/
  out : List HostRsp := []
deriving DecidableEq, Repr

/-- A ledger copy in board flash: whether MAGIC, VERSION and the signature are those of this format, and its fields. -/
structure LedgerCopy where
  sound : Bool
  seq : Nat
  serial : Nat
  entries : List Repair
  sig : List Byte
deriving DecidableEq, Repr

/-- The power-up sequencer, the ledger and the power manager beside the PWR page. -/
structure PwrUnit where
  /-- the package is powered; the clock at which the running or last sequence started -/
  goodAt : Option Nat := none
  /-- hub firmware has verified and runs -/
  fw : Bool := false
  /-- dies whose sequence has ended, and dies that the sequence has powered -/
  ended : List Nat := []
  powered : List Nat := []
  /-- the ledger in force, a repair not written yet, the write under way -/
  ledger : List Repair := []
  dirty : Bool := false
  writing : Option (List Repair) := none
  /-- BIST runs whose completion waits for the next write, and for the write under way: die, tag and RESULT -/
  waits : List (Nat × (Nat × Nat)) := []
  waitsNow : List (Nat × (Nat × Nat)) := []
  /-- a warm reset held behind a ledger write, with SELFTEST -/
  warmHeld : Option Bool := none
  /-- the stack microcode has verified (R449) -/
  stackFw : Bool := false
  /-- input energy below a millijoule, in tenths; highest junction readings of the last interval by die, and of the hottest stack -/
  energyRest : Nat := 0
  junction : List (Nat × Nat) := []
  stackTemp : List (Nat × Nat) := []
  /-- dies whose duty cap is 0 for temperature -/
  capped : List Nat := []
  /-- the duty cap that the power manager sets for a die that its allotment limits -/
  caps : List (Nat × Nat) := []
deriving DecidableEq, Repr

/-- A measurement report or a certificate chain that is held for a requester (R456, R457). -/
structure Report where
  requester : Nat
  object : Nat
  nonce : List Byte
  bytes : List Byte
  usedAt : Nat
deriving DecidableEq, Repr

/-- A host's report request that is being signed. -/
structure ReportJob where
  addr : Nat
  digests : Nat
  guest : Bool
  /-- the nonce at START -/
  nonce : List Byte
deriving DecidableEq, Repr

/-- The hub security processor beside the SEC page. -/
structure SecUnit where
  /-- the extension counts of MR0 to MR15 -/
  counts : List (Nat × Nat) := []
  /-- a nonce serves -/
  nonce : Bool := false
  /-- the SVN of each class's running image -/
  svns : List (Nat × Nat) := []
  reports : List Report := []
  job : Option ReportJob := none
  /-- counter burns asked for, oldest first: class and value -/
  burns : List (Nat × Nat) := []
  /-- device certificate and attestation certificate -/
  chain : List Byte := []
  /-- control cores halted through the debug window: 8·die + core; what was written to their registers and memory -/
  halted : List Nat := []
  dbgRegs : List ((Nat × Nat) × Word) := []
  dbgMem : List ((Nat × Nat) × Word) := []
deriving DecidableEq, Repr

/-- The states of the IEEE 1149.1 TAP controller. -/
inductive TapState where
  | testLogicReset | runTestIdle
  | selectDr | captureDr | shiftDr | exit1Dr | pauseDr | exit2Dr | updateDr
  | selectIr | captureIr | shiftIr | exit1Ir | pauseIr | exit2Ir | updateIr
deriving DecidableEq, Repr

/-- The test port (R441): TAP state, instruction and its shift stage, the selected data register's shift stage, and TDO (none: high
impedance). -/
structure Tap where
  state : TapState := .testLogicReset
  ir : Nat := 0x01
  irShift : Nat := 0
  drShift : List Bool := []
  tdo : Option Bool := none
deriving DecidableEq, Repr

/-- The MCTP endpoint (R371): responses sent, newest last. -/
structure Mctp where
  responses : List (List Byte) := []
  /-- the newest telemetry record -/
  telemetry : List Byte := []
deriving DecidableEq, Repr


/-! ### Error logs (15_faults_recovery.md) -/

/-- An error log entry (Table 15-5); times are domain times. -/
structure ErrEntry where
  time : Nat
  last : Nat
  seq : Nat
  cls : Nat
  compound : Bool
  lossBefore : Bool
  replayed : Bool
  block : Nat
  inst : Nat
  cause : Nat
  count : Nat
  arg0 : Nat
  arg1 : Nat
deriving DecidableEq, Repr

/-- One die's error log beside its ERR page: ring slots and fatal slots by slot number. -/
structure ErrLog where
  slots : List (Nat × ErrEntry) := []
  seq : Nat := 0
  lossPending : Bool := false
  fatalUsed : Nat := 0
deriving DecidableEq, Repr

/-! ### The part, the package and the state -/

/-- The ordering variants (R1, Table 0-1). -/
inductive Variant where
  | qdx8 | qdx7g | qdx4 | qdx2
deriving DecidableEq, Repr

/-- What outlives every reset: the fuses and the board flash. -/
structure Part where
  variant : Variant
  serial : Nat
  /-- life-cycle code (Table 17-7), and the code that takes effect at the next cold reset (R440) -/
  lc : Nat := 2
  pendingLc : Option Nat := none
  /-- anti-rollback counters of classes 0 to 5: fuses burned, 0 to 64 (R458) -/
  arb : List Nat := [0, 0, 0, 0, 0, 0]
  /-- revoked Nalto root keys: bit k (R449, R461) -/
  revoked : Nat := 0
  ownerKeyId : Nat := 0
  /-- repairs in fuses (R436) and the ledger copies A and B in board flash (R437) -/
  fuses : List Repair := []
  ledgerA : Option LedgerCopy := none
  ledgerB : Option LedgerCopy := none
  /-- the image slots A and B of classes 0 to 4 in board flash, as the package last found them (R447) -/
  flash : List (Nat × (ImageRead × ImageRead)) := []
deriving DecidableEq, Repr

/-- The package. -/
structure Package where
  /-- the ordering code and serial as sensed from the fuses (R1, R2) -/
  variant : Variant := .qdx8
  serial : Nat := 0
  /-- the register file: (address, value), addresses rising, no entry equal to its reset value -/
  regs : List (Nat × Word) := []
  /-- elapsed time since power good, 1/256 ns -/
  clock : Nat := 0
  /-- domain time less the clock, modulo 2^64 -/
  dofs : Nat := 0
  /-- stack memory: byte cells by physical byte (stack × 2^36 + offset), and the poisoned lines (physical line numbers) -/
  mem : List Host.Cell := []
  poison : List Nat := []
  /-- how many free values have been drawn -/
  fresh : Nat := 0
  beat : BeatUnit := {}
  txn : Txn := {}
  evq : EventQueue := {}
  stages : List (Nat × Stage) := []
  groups : List (Nat × Group) := []
  lnk : LinkUnit := {}
  bridge : List Outstanding := []
  /-- messages between dies of this package still under way (R12) -/
  inFlight : List Msg := []
  errLogs : List (Nat × ErrLog) := []
  /-- one more than the latest step of which a stage has started a forward (R391) -/
  forwards : Nat := 0
  /-- steps entered in the position log (R405) -/
  posCount : Nat := 0
  /-- phase starts pause for a capture (R409) -/
  snapPause : Bool := false
  /-- dies whose clock is reduced for temperature, and dies at their allotment (R16, R483) -/
  thermalDies : List Nat := []
  powerDies : List Nat := []
  /-- cores by 32·cluster + physical position, and clusters -/
  cores : List (Nat × Core) := []
  clus : List (Nat × Cluster) := []
  num : NumUnit := {}
  moe : MoeUnit := {}
  pours : List PourJob := []
  gathers : List (Nat × GatherSt) := []
  heldFetches : List HeldFetch := []
  /-- the array clock of each die in MHz where it is reduced (R483) -/
  aclk : List (Nat × Nat) := []
  cru : CruUnit := {}
  folds : List Fold := []
  /-- one more than the step of the last fold of each tie entry (R193), and the clock since which each stack's engine runs its region -/
  folded : List (Nat × Nat) := []
  engSince : List (Nat × Nat) := []
  runs : List RunJob := []
  rings : List (Nat × RingSt) := []
  bists : List (Nat × BistRun) := []
  rewind : Option RewindJob := none
  snap : SnapUnit := {}
  fab : FabUnit := {}
  gate : GateUnit := {}
  pwr : PwrUnit := {}
  sec : SecUnit := {}
  tap : Tap := {}
  mctp : Mctp := {}
  /-- clock units counted in the open beat per cluster: idle causes 0 to 15, 16 busy with a phase, 17 busy with a RUN (R372) -/
  cluAcct : List (Nat × List Nat) := []
  /-- sums of the counters of clusters that were reset since the last package warm reset, in the order of Table 14-15 (R373) -/
  telBase : List Nat := []
deriving DecidableEq, Repr

/-- The state. -/
structure State where
  pending : List Sys2Proof.Instr
  part : Part
  pkg : Package
deriving DecidableEq, Repr

/-- No command of the block stops the machine with a fault: every error the spec describes is an effect on the state. -/
inductive Fault where
  /-- raised by nobody: kept so that the type is inhabited; safe -/
  | none
deriving DecidableEq, Repr

/-- Why a command has no meaning. -/
inductive Refusal where
  /-- a command whose arm is not written yet; safe: the machine stops where the hardware goes on -/
  | notModelled (mnemonic : String)
deriving DecidableEq, Repr

/-- The part as it leaves the factory, and the package before power good. -/
def State.reset : State :=
  { pending := [], part := { variant := .qdx8, serial := 0 }, pkg := {} }

end Sys2Proof.Machine
end

