-- ==== Sys2Proof/Machine/Ops.lean ====
section
/-! DEFINITION. The named operations over the state that every family uses: canonical maps, the register file, time, event records
(R343, R367 to R369), the error log (R377, R393 to R397), the variants (R1), and stack memory with its poison (R221 to R227). -/

namespace Sys2Proof.Machine

open Sys2Proof

/-! ### Canonical maps: keys rising, no entry equal to the default -/

def mapFind {α : Type} : List (Nat × α) → Nat → Option α
  | [], _ => none
  | (k, v) :: r, i => if k = i then some v else mapFind r i

def mapGet {α : Type} (d : α) (m : List (Nat × α)) (i : Nat) : α :=
  match mapFind m i with
  | some v => v
  | none => d

def mapPut {α : Type} : List (Nat × α) → Nat → α → List (Nat × α)
  | [], i, v => [(i, v)]
  | (k, w) :: r, i, v => if i = k then (k, v) :: r else if i < k then (i, v) :: (k, w) :: r else (k, w) :: mapPut r i v

def mapDel {α : Type} (m : List (Nat × α)) (i : Nat) : List (Nat × α) := m.filter (fun e => decide (e.1 ≠ i))

def mapSet {α : Type} [DecidableEq α] (d : α) (m : List (Nat × α)) (i : Nat) (v : α) : List (Nat × α) :=
  if v = d then mapDel m i else mapPut m i v

/-- The keys rise strictly, from above `lo`. -/
def keysAbove {α : Type} : Nat → List (Nat × α) → Bool
  | _, [] => true
  | lo, (k, _) :: r => decide (lo < k + 1) && keysAbove (k + 1) r

/-- The canonical form of a map with default `d`. -/
def mapWf {α : Type} [DecidableEq α] (d : α) (m : List (Nat × α)) : Bool :=
  keysAbove 0 m && m.all (fun e => decide (e.2 ≠ d))

/-- Element `i` of a list, or a default. -/
def listAt {α : Type} (d : α) (l : List α) (i : Nat) : α :=
  match l[i]? with
  | some v => v
  | none => d

/-- `l` with element `i` replaced, grown with `d` where it is short. -/
def listPut {α : Type} (d : α) : List α → Nat → α → List α
  | [], 0, v => [v]
  | [], n + 1, v => d :: listPut d [] n v
  | _ :: r, 0, v => v :: r
  | x :: r, n + 1, v => x :: listPut d r n v

/-! ### Registers -/

/-- The stored value of a register cell. -/
def Package.rd (p : Package) (a : Nat) : Nat :=
  match mapFind p.regs a with
  | some v => v.toNat
  | none => regReset a

/-- Store a register cell; a cell at its reset value is not listed. -/
def Package.wr (p : Package) (a v : Nat) : Package :=
  { p with regs := if v % 2 ^ 64 = regReset a then mapDel p.regs a else mapPut p.regs a (BitVec.ofNat 64 v) }

def Package.get (p : Package) (f : Fld) : Nat := bitsOf (p.rd f.addr) f.lo f.len

def Package.put (p : Package) (f : Fld) (v : Nat) : Package := p.wr f.addr (putBits (p.rd f.addr) f.lo f.len v)

/-- Is the one-bit field set. -/
def Package.has (p : Package) (f : Fld) : Bool := decide (p.get f = 1)

/-- A 48-bit counter that saturates. -/
def Package.bump48 (p : Package) (a n : Nat) : Package := p.wr a (min (p.rd a + n) (2 ^ 48 - 1))

/-- A 64-bit counter that wraps. -/
def Package.bump64 (p : Package) (a n : Nat) : Package := p.wr a (p.rd a + n)

/-- Apply an update when a condition holds. -/
def Package.when (p : Package) (c : Bool) (f : Package → Package) : Package := if c then f p else p

/-- Set bit i of a register. -/
def Package.setBit (p : Package) (a i : Nat) (b : Bool) : Package := p.put ⟨a, i, 1⟩ (b2n b)

/-- Fold an update over a list. -/
def Package.each {α : Type} (p : Package) (l : List α) (f : Package → α → Package) : Package := l.foldl f p

/-! ### Signed values -/

/-- A `w`-bit field read as a signed value. -/
def toSigned (w v : Nat) : Int := if v % 2 ^ w < 2 ^ (w - 1) then (v % 2 ^ w : Nat) else ((v % 2 ^ w : Nat) : Int) - (2 : Int) ^ w

/-- A signed value as a `w`-bit field. -/
def ofSigned (w : Nat) (v : Int) : Nat := (v % (2 : Int) ^ w).toNat

/-! ### Time (R19) -/

/-- Domain time now: `BEAT_DTIME`. -/
def Package.dtime (p : Package) : Nat := (p.clock + p.dofs) % 2 ^ 64

/-- a − b modulo 2^64 units (2^56 ns), read as a signed value (R19). -/
def dsub (a b : Nat) : Int := toSigned 64 (ofSigned 64 ((a : Int) - (b : Int)))

/-- Set domain time to `v` at this moment. -/
def Package.setDtime (p : Package) (v : Nat) : Package := { p with dofs := ofSigned 64 ((v : Int) - (p.clock : Int)) }

/-- Let `dt` pass: the clock runs on, and a pending slew moves domain time by at most 100 ns per millisecond (R29). -/
def Package.elapse (p : Package) (dt : Nat) : Package :=
  let most : Int := (dt / 10000 : Nat)
  let adj : Int := max (-most) (min most p.beat.slew)
  { p with
    clock := p.clock + dt
    dofs := ofSigned 64 ((p.dofs : Int) + adj)
    beat := { p.beat with slew := p.beat.slew - adj } }

/-! ### The variants (R1, R11) -/

/-- Compute dies of a variant: positions 0 up. -/
def Variant.dies : Variant → Nat
  | .qdx8 => 8
  | .qdx7g => 7
  | .qdx4 => 4
  | .qdx2 => 2

/-- Code of `PKG_VARIANT.VARIANT`. -/
def Variant.code : Variant → Nat
  | .qdx8 => 0
  | .qdx7g => 1
  | .qdx4 => 2
  | .qdx2 => 3

/-- Power class in hundreds of watts. -/
def Variant.powerClass : Variant → Nat
  | .qdx8 => 44
  | .qdx7g => 40
  | .qdx4 => 23
  | .qdx2 => 12

/-- Does the variant have the guest site. -/
def Variant.guest : Variant → Bool
  | .qdx7g => true
  | _ => false

/-- Shrouds of a variant (Table 1-2): the ring shrouds, then the hub-die shrouds; 8 stands for the hub die. -/
def Variant.shrouds : Variant → List (Nat × Nat)
  | .qdx8 => [(0, 1), (1, 2), (2, 3), (3, 4), (4, 5), (5, 6), (6, 7), (7, 0), (8, 1), (8, 3), (8, 5), (8, 7)]
  | .qdx7g => [(0, 1), (1, 2), (2, 3), (3, 4), (4, 5), (5, 6), (8, 1), (8, 3), (8, 5)]
  | .qdx4 => [(0, 1), (1, 2), (2, 3), (8, 1), (8, 3)]
  | .qdx2 => [(0, 1), (8, 1)]

/-- Watts allotted to each compute die (Table 1-5). -/
def Variant.dieWatts : Variant → Nat
  | .qdx8 => 360
  | .qdx7g => 360
  | .qdx4 => 333
  | .qdx2 => 256

/-- Is compute die d fitted. -/
def Package.dieFitted (p : Package) (d : Nat) : Bool := decide (d < p.variant.dies)

/-- Is stack k fitted. -/
def Package.stackFitted (p : Package) (k : Nat) : Bool := decide (k < 4 * p.variant.dies)

/-- Is compute die d fenced: `FAB_STATUS.DIE_MASK`. -/
def Package.dieFenced (p : Package) (d : Nat) : Bool := bitAt (p.get FAB_STATUS_DIE_MASK) d

/-- Compute dies that are ACTIVE in `FAB_DIE_STATE`. -/
def Package.dieActive (p : Package) (d : Nat) : Bool := decide (p.get (FAB_DIE_STATE_STATE d) = 2)

/-- The fitted compute dies. -/
def Package.dies (p : Package) : List Nat := List.range p.variant.dies

/-! ### Rails -/

/-- The index of a rail in `PWR_RAIL_LAST`. The spec gives the hub, optics and guest rails none:
those are free (log entry 12). -/
def Rail.index : Rail → Nat
  | .die d i => 4 * (d % 8) + i % 4
  | .stack k => 0x40 + k % 32
  | .hub => Config.openCode 1 % 256
  | .optics => Config.openCode 2 % 256
  | .guest => Config.openCode 3 % 256

/-- Does a package of so many compute dies have the rail. -/
def Rail.fitted (dies : Nat) (site : Bool) : Rail → Bool
  | .die d i => decide (d < dies) && decide (i < 4)
  | .stack k => decide (k < 4 * dies)
  | .hub => true
  | .optics => true
  | .guest => site

/-! ### Free values -/

/-- Draw a free word. -/
def Package.draw (p : Package) : Word × Package := (Config.freeWord p.fresh, { p with fresh := p.fresh + 1 })

/-! ### Events (R343, R367 to R369) -/

/-- Refresh `PKG_EVT_STATUS`. -/
def Package.evtStatus (p : Package) : Package :=
  let held := decide (p.evq.recs ≠ []) && !p.has LNK_HB_NODE_VALID
  (p.put PKG_EVT_STATUS_QUEUED p.evq.recs.length).put PKG_EVT_STATUS_HELD (b2n held)

/-- Add an occurrence to the queued record of its CODE and INSTANCE, if there is one. -/
def coalesce (code ev inst : Nat) : List EventRec → Option (List EventRec)
  | [] => none
  | r :: rs =>
    if r.code = code && r.event = ev && r.inst = inst then some ({ r with count := min (r.count + 1) 65535 } :: rs)
    else match coalesce code ev inst rs with
      | none => none
      | some rs' => some (r :: rs')

/-- Create an event record, coalesce it, or lose it where the queue is full (R369). -/
def Package.record (p : Package) (g : Page) (ev : Nat) (forced : Bool) (a0 a1 : Nat) : Package :=
  match coalesce g.code ev g.inst p.evq.recs with
  | some rs => { p with evq := { p.evq with recs := rs } }
  | none =>
    let seq := p.rd PKG_EVT_SEQ
    let p := p.wr PKG_EVT_SEQ ((seq + 1) % 2 ^ 32)
    if p.evq.recs.length < Config.eventQueue then
      let r : EventRec := { seq := seq, code := g.code, event := ev, inst := g.inst, time := p.dtime, count := 1, forced := forced,
                            lossBefore := false, arg0 := a0 % 2 ^ 64, arg1 := a1 % 2 ^ 32 }
      ({ p with evq := { p.evq with recs := p.evq.recs ++ [r] } }).evtStatus
    else
      (({ p with evq := { p.evq with lossPending := true, lostSince := p.evq.lostSince + 1 } }).bump64 PKG_EVT_LOST 1)

/-- An event occurs on a page: the status bit, and a record where the event is enabled (R343). -/
def Package.event (p : Package) (g : Page) (ev : Nat) (forced : Bool) (a0 a1 : Nat) : Package :=
  let p := p.setBit (IRQ_STATUS g) ev true
  if bitAt (p.rd (IRQ_ENABLE g)) ev then p.record g ev forced a0 a1 else p

/-- An event raised by a rule, with its arguments (R368). -/
def Package.raise (p : Package) (g : Page) (ev a0 a1 : Nat) : Package := p.event g ev false a0 a1

/-- ARG1 of an event that names a first index and a second one (R368). -/
def arg1Of (i j : Nat) : Nat := i % 2 ^ 16 + (j % 2 ^ 16) * 2 ^ 16

/-- `BEAT_NUMBER`. -/
def Package.beatNo (p : Package) : Nat := p.rd BEAT_NUMBER

/-! ### Error log (R377, R392 to R397) -/

def Package.errLog (p : Package) (d : Nat) : ErrLog := mapGet {} p.errLogs d

def Package.setErrLog (p : Package) (d : Nat) (l : ErrLog) : Package := { p with errLogs := mapSet {} p.errLogs d l }

/-- Entries held in the ring: TAIL − HEAD modulo 2^16. -/
def Package.errUsed (p : Package) (d : Nat) : Nat := (p.rd (ERR_LOG_TAIL d) + 2 ^ 16 - p.rd (ERR_LOG_HEAD d)) % 2 ^ 16

/-- Refresh `ERR_STATUS` of a die. -/
def Package.errStatus (p : Package) (d : Nat) : Package :=
  let u := p.errUsed d
  ((p.put (ERR_STATUS_USED d) u).put (ERR_STATUS_FATAL_USED d) (p.errLog d).fatalUsed).put (ERR_STATUS_FULL d) (b2n (decide (1008 ≤ u)))

/-- Two reports have one identity (R393). -/
def ErrEntry.same (n e : ErrEntry) : Bool :=
  n.cls = e.cls && n.block = e.block && n.inst = e.inst && n.cause = e.cause && n.arg0 = e.arg0 && n.arg1 = e.arg1

/-- How many entries of its class came after an entry: fatal slots fill in order, and at most 1,024 entries are held beside SEQ's 2^16. -/
def ErrLog.age (l : ErrLog) (s : Nat × ErrEntry) : Nat := if 1008 ≤ s.1 then 1024 - s.1 else (l.seq + 2 ^ 16 - s.2.seq) % 2 ^ 16

/-- The newest entry of a report's identity. -/
def ErrLog.newestOf (l : ErrLog) (e : ErrEntry) : Option (Nat × ErrEntry) :=
  (l.slots.filter (fun s => s.2.same e)).foldl (fun best s => match best with
    | none => some s
    | some b => if l.age s < l.age b then some s else some b) none

/-- The newest entry of its identity takes a report that comes within 1 µs of the last one merged (R393). -/
def mergeable (l : ErrLog) (e : ErrEntry) : Option (Nat × ErrEntry) :=
  match l.newestOf e with
  | none => none
  | some s => if s.2.count < 65535 && dsub e.time s.2.last ≤ 256000 then some s else none

/-- The counter of lost reports of a class. -/
def lostCounter (d cls : Nat) : Nat :=
  if cls = 0 then ERR_LOST_CORR d else if cls = 1 then ERR_LOST_UNCORR d else ERR_LOST_FATAL d

/-- A fault report: block page `g`, detecting die `d` (8 the hub die), class 0 CORRECTED, 1 UNCORRECTED, 2 FATAL (R377). It sets the
class bit in the page's `ERR_SUMMARY` and writes, coalesces or loses an entry of the die's log (R393, R394). -/
def Package.report (p : Package) (g : Page) (d cls cause a0 a1 : Nat) (compound replayed : Bool) : Package :=
  let p := p.setBit (ERR_SUMMARY g) cls true
  let l := p.errLog d
  let e : ErrEntry := { time := p.dtime, last := p.dtime, seq := l.seq, cls := cls, compound := compound, lossBefore := l.lossPending,
                        replayed := replayed, block := g.code, inst := g.inst, cause := cause % 2 ^ 16, count := 1,
                        arg0 := a0 % 2 ^ 64, arg1 := a1 % 2 ^ 32 }
  match mergeable l e with
  | some (i, n) =>
    (p.setErrLog d { l with slots := mapPut l.slots i { n with count := n.count + 1, last := e.time } }).bump64 (ERR_COALESCED d) 1
  | none =>
    if cls = 2 then
      if l.fatalUsed < 16 then
        (p.setErrLog d { l with slots := mapPut l.slots (1008 + l.fatalUsed) e,
                                seq := (l.seq + 1) % 2 ^ 16, lossPending := false, fatalUsed := l.fatalUsed + 1 }).errStatus d
      else (p.setErrLog d { l with lossPending := true }).bump64 (lostCounter d cls) 1
    else
      let used := p.errUsed d
      if used < 1008 then
        let tail := p.rd (ERR_LOG_TAIL d)
        let p := p.setErrLog d { l with slots := mapPut l.slots (tail % 1008) e,
                                        seq := (l.seq + 1) % 2 ^ 16, lossPending := false }
        let p := (p.wr (ERR_LOG_TAIL d) ((tail + 1) % 2 ^ 16)).errStatus d
        -- each time the ring becomes full, `ERR_LOG_FULL` (event 0) is raised once
        if used + 1 = 1008 then p.raise (.err d) 0 p.beatNo 0 else p
      else (p.setErrLog d { l with lossPending := true }).bump64 (lostCounter d cls) 1

/-- The package has stopped on a FATAL report (R397): `ERR_STATUS.FATAL` of the hub die. -/
def Package.fatal (p : Package) : Bool := p.has (ERR_STATUS_FATAL 8)

/-! ### Stack memory (R221 to R227) -/

/-- The physical byte (stack × 2^36 + offset) of a package address, by either view; none for a reserved address (Table 10-2). -/
def physOf (a : Nat) : Option Nat :=
  if a < 2 ^ 41 then
    some ((4 * bitsOf a 38 3 + bitsOf a 8 2) * 2 ^ 36 + bitsOf a 10 28 * 256 + bitsOf a 0 8)
  else if a < 2 ^ 42 then some (bitsOf a 36 5 * 2 ^ 36 + bitsOf a 0 36)
  else none

/-- The stack of a physical byte. -/
def physStack (x : Nat) : Nat := x / 2 ^ 36

/-- Is the byte at an address reachable: not reserved, its stack fitted and its die not fenced (R222). -/
def Package.memOk (p : Package) (a : Nat) : Bool :=
  match physOf a with
  | none => false
  | some x => p.stackFitted (physStack x) && !p.dieFenced (physStack x / 4)

/-- What an unlisted byte of stack memory reads as. DESIGN CHOICE: the spec gives memory no contents at power-up (log entry 4). -/
def memDefault : Byte := 0

/-- The byte at a physical place. -/
def memByte (m : List Host.Cell) (x : Nat) : Byte := mapGet memDefault m x

/-- Write one physical byte; the canonical form is kept. -/
def memPut (m : List Host.Cell) (x : Nat) (v : Byte) : List Host.Cell := mapSet memDefault m x v

/-- The canonical form of stack memory. -/
def memWf (m : List Host.Cell) : Bool := mapWf memDefault m

/-- The outcome of a read of stack memory. -/
inductive MemRead where
  | ok (bs : List Byte)
  | refused
  | poison
deriving DecidableEq, Repr

/-- The addresses of `n` bytes from `a`. -/
def addrs (a n : Nat) : List Nat := (List.range n).map (a + ·)

/-- Are all `n` bytes from `a` reachable. Lines of 64 bytes never straddle a stack or a view, so the first byte, every line start and
the last byte decide. -/
def Package.rangeOk (p : Package) (a n : Nat) : Bool :=
  n = 0 || (p.memOk a && p.memOk (a + n - 1) && (List.range (n / 64 + 1)).all (fun i => decide (n ≤ 64 * i) || p.memOk (a + 64 * i)))

/-- Is the line of a physical byte poisoned (R226). -/
def Package.poisoned (p : Package) (x : Nat) : Bool := p.poison.contains (x / 64)

/-- Does any line of the range hold poison. -/
def Package.rangePoisoned (p : Package) (a n : Nat) : Bool :=
  !p.poison.isEmpty && (addrs a n).any (fun b => match physOf b with
    | some x => p.poisoned x
    | none => false)

/-- The bytes of a reachable range. -/
def Package.bytesAt (p : Package) (a n : Nat) : List Byte :=
  (addrs a n).map (fun b => match physOf b with
    | some x => memByte p.mem x
    | none => memDefault)

/-- Read `n` bytes at `a`: refused under R222, poison under R227, or the bytes. -/
def Package.load (p : Package) (a n : Nat) : MemRead :=
  if !p.rangeOk a n then .refused
  else if p.rangePoisoned a n then .poison
  else .ok (p.bytesAt a n)

/-- Write bytes from `a` up, where they are reachable. -/
def storeBytes (m : List Host.Cell) : Nat → List Byte → List Host.Cell
  | _, [] => m
  | a, b :: bs =>
    match physOf a with
    | some x => storeBytes (memPut m x b) (a + 1) bs
    | none => storeBytes m (a + 1) bs

/-- The lines that a write of `n` bytes at `a` replaces whole; their poison goes (R226). -/
def wholeLines (a n : Nat) : List Nat :=
  (List.range (n / 64 + 1)).filterMap (fun i =>
    let l := (a + 63) / 64 * 64 + 64 * i
    if l + 64 ≤ a + n then (physOf l).map (· / 64) else none)

/-- A range cut at its 256-byte granules: the stack and the bytes of each piece (R221). -/
def stackPieces (a n : Nat) : List (Nat × Nat) :=
  (List.range ((a % 256 + n + 255) / 256)).filterMap (fun i =>
    let lo := max a (a / 256 * 256 + 256 * i)
    let hi := min (a + n) (a / 256 * 256 + 256 * i + 256)
    (physOf lo).map (fun x => (physStack x, hi - lo)))

/-- Count bytes into a counter of the stacks that hold them. -/
def Package.countBytes (p : Package) (reg : Nat → Nat) (a n : Nat) : Package :=
  p.each (stackPieces a n) (fun p e => p.bump64 (reg e.1) e.2)

/-- Bytes read (R251). -/
def Package.countRead (p : Package) (a n : Nat) : Package := p.countBytes MEM_READ_BYTES a n

/-- Bytes of several ranges read. -/
def Package.countReads (p : Package) (rs : List (Nat × Nat)) : Package := p.each rs (fun p r => p.countRead r.1 r.2)

/-- Write bytes at `a`; the caller has checked R222. -/
def Package.store (p : Package) (a : Nat) (bs : List Byte) : Package :=
  ({ p with
     mem := storeBytes p.mem a bs
     poison := if p.poison.isEmpty then [] else p.poison.filter (fun l => !(wholeLines a bs.length).contains l) }).countBytes
    MEM_WRITE_BYTES a bs.length

/-- Write bytes at `a` unless R222 refuses. -/
def Package.tryStore (p : Package) (a : Nat) (bs : List Byte) : Package := if p.rangeOk a bs.length then p.store a bs else p

/-! ### Stays (R12, R315) -/

/-- The dies that shroud j joins (Table 13-1); 8 is the hub die. -/
def shroudDies (j : Nat) : Nat × Nat := if j < 8 then (j, (j + 1) % 8) else (8, 2 * (j - 8) + 1)

/-- Is shroud j fitted on this variant (Table 1-2). -/
def Package.hasShroud (p : Package) (j : Nat) : Bool := p.variant.shrouds.contains (shroudDies j)

/-- Traffic between two dies rides the stays: no shroud joins them, or theirs is DEGRADED. -/
def Package.byStay (p : Package) (a b : Nat) : Bool :=
  a ≠ b && !((List.range 12).any (fun j =>
    (shroudDies j = (a, b) || shroudDies j = (b, a)) && p.hasShroud j && p.get (FAB_SHROUD_STATUS_STATE j) ≠ 4))

/-- Count the bytes of a range that move between a die and the stacks on stays. -/
def Package.countStays (p : Package) (die a n : Nat) : Package :=
  p.each (stackPieces a n) (fun p e => if p.byStay die (e.1 / 4) then p.bump64 FAB_STAY_BYTES e.2 else p)

/-- A read, a write by a die. -/
def Package.countReadBy (p : Package) (die a n : Nat) : Package := (p.countRead a n).countStays die a n
def Package.storeBy (p : Package) (die a : Nat) (bs : List Byte) : Package := (p.store a bs).countStays die a bs.length
def Package.tryStoreBy (p : Package) (die a : Nat) (bs : List Byte) : Package := if p.rangeOk a bs.length then p.storeBy die a bs else p

/-- Little-endian value of bytes (R5). -/
def leNat : List Byte → Nat
  | [] => 0
  | b :: bs => b.toNat + 256 * leNat bs

/-- `n` little-endian bytes of a value (R5). -/
def leBytes : Nat → Nat → List Byte
  | 0, _ => []
  | n + 1, v => BitVec.ofNat 8 v :: leBytes n (v / 256)

/-- The `n`-byte field at offset `o` of a structure. -/
def fieldAt (bs : List Byte) (o n : Nat) : Nat := leNat ((bs.drop o).take n)

/-- Are all bytes from offset `o`, `n` of them, zero. -/
def zerosAt (bs : List Byte) (o n : Nat) : Bool := decide (fieldAt bs o n = 0)

/-! ### Stages, groups and ports -/

def Package.stg (p : Package) (s : Nat) : Stage := mapGet {} p.stages s

def Package.setStg (p : Package) (s : Nat) (x : Stage) : Package := { p with stages := mapSet {} p.stages s x }

def Package.modStg (p : Package) (s : Nat) (f : Stage → Stage) : Package := p.setStg s (f (p.stg s))

def Package.grp (p : Package) (g : Nat) : Group := mapGet {} p.groups g

def Package.setGrp (p : Package) (g : Nat) (x : Group) : Package := { p with groups := mapSet {} p.groups g x }

def Package.modGrp (p : Package) (g : Nat) (f : Group → Group) : Package := p.setGrp g (f (p.grp g))

def Package.port (p : Package) (k : Nat) : Link := mapGet {} p.lnk.ports k

def Package.setPort (p : Package) (k : Nat) (x : Link) : Package := { p with lnk := { p.lnk with ports := mapSet {} p.lnk.ports k x } }

def Package.modPort (p : Package) (k : Nat) (f : Link → Link) : Package := p.setPort k (f (p.port k))

/-- The 32 stages. -/
def allStages : List Nat := List.range Config.stages

/-- `STG_STATUS.STATE`: 0 DISABLED, 1 OPENING, 2 READY, 3 DRAINING, 4 HELD. -/
def Package.stgState (p : Package) (s : Nat) : Nat := p.get (STG_STATUS_STATE s)

/-- The leader of a stage's slot group (R81). -/
def Package.leader (p : Package) (s : Nat) : Nat := if p.has (HAL_SCHED_CFG_GROUPED s) then p.get (HAL_SCHED_CFG_LEADER s) else s

/-- The stages of a leader's slot group. -/
def Package.members (p : Package) (g : Nat) : List Nat := allStages.filter (fun s => p.leader s = g)

/-- The bits set in a mask of `n` bits, rising. -/
def bitsSet (n v : Nat) : List Nat := (List.range n).filter (fun i => bitAt v i)

/-- The mask of a list of indices. -/
def maskOf (l : List Nat) : Nat := l.foldl (fun m i => m ||| 2 ^ i) 0

/-- The committed cluster mask of a stage as a list of global clusters (R48). -/
def Package.maskClusters (p : Package) (s : Nat) : List Nat :=
  (List.range 9).flatMap (fun j => (bitsSet 64 (p.rd (STG_CLUSTERS s j))).map (64 * j + ·))

/-- A command whose effect is a change of the package: it always completes. -/
def onPkg (f : Package → Package) (s : State) : Host.Outcome State Fault Refusal := .next { s with pkg := f s.pkg }

end Sys2Proof.Machine
end

