-- ==== Sys2Proof/Machine/Float.lean ====
section
/-! DEFINITION. The number formats (R152, R153) as exact values: decoding, exact sums and products, rounding to nearest with ties to
even and stochastic rounding (R161, R162), the FP32 operations, and the functions of Table 5-6 within their error bounds (R120). -/

namespace Sys2Proof.Machine

open Sys2Proof

/-- A value: not a number, an infinity, or a sign, a magnitude `m` and an exponent `e` that stand for m × 2^e. -/
inductive Fp where
  | nan
  | inf (neg : Bool)
  | fin (neg : Bool) (m : Nat) (e : Int)
deriving DecidableEq, Repr

/-- An element format (Table 7-1): field widths, bias, the magnitude codes of the largest finite value, of infinity and of the NaN that
the package writes, and whether overflow saturates (R161). -/
structure Format where
  ebits : Nat
  mbits : Nat
  bias : Nat
  maxCode : Nat
  infCode : Option Nat
  nanCode : Option Nat
  saturate : Bool
deriving DecidableEq, Repr

def fmtE4M3 : Format := ⟨4, 3, 7, 0x7E, none, some 0x7F, true⟩
def fmtE5M2 : Format := ⟨5, 2, 15, 0x7B, some 0x7C, some 0x7F, true⟩
def fmtE3M2 : Format := ⟨3, 2, 3, 0x1F, none, none, true⟩
def fmtE2M3 : Format := ⟨2, 3, 1, 0x1F, none, none, true⟩
def fmtE2M1 : Format := ⟨2, 1, 1, 0x7, none, none, true⟩
def fmtBF16 : Format := ⟨8, 7, 127, 0x7F7F, some 0x7F80, some 0x7FC0, false⟩
def fmtFP16 : Format := ⟨5, 10, 15, 0x7BFF, some 0x7C00, some 0x7E00, false⟩
def fmtFP32 : Format := ⟨8, 23, 127, 0x7F7FFFFF, some 0x7F800000, some 0x7FC00000, false⟩
def fmtFP64 : Format := ⟨11, 52, 1023, 0x7FEFFFFFFFFFFFFF, some 0x7FF0000000000000, some 0x7FF8000000000000, false⟩

/-- The format of a payload code (R154). -/
def fmtOf (code : Nat) : Option Format :=
  if code = 0 then some fmtE4M3 else if code = 1 then some fmtE5M2 else if code = 2 then some fmtE3M2
  else if code = 3 then some fmtE2M3 else if code = 4 then some fmtE2M1 else if code = 5 then some fmtBF16
  else if code = 6 then some fmtFP16 else if code = 0x10 then some fmtFP32 else none

/-- Bits of an element of a payload code. -/
def bitsOfCode (code : Nat) : Nat :=
  if code ≤ 1 then 8 else if code ≤ 3 then 6 else if code = 4 then 4 else if code ≤ 6 then 16 else 32

/-- Is a payload code an MX format. -/
def isMX (code : Nat) : Bool := decide (2 ≤ code) && decide (code ≤ 4)

/-- ⌊log2⌋ of a non-zero m × 2^e. -/
def floorLog (m : Nat) (e : Int) : Int := (m.log2 : Int) + e

/-- The value of a code. -/
def Format.decode (f : Format) (code : Nat) : Fp :=
  let w := f.ebits + f.mbits
  let neg := code.testBit w
  let mag := code % 2 ^ w
  if f.infCode = some mag then .inf neg
  else if f.maxCode < mag && f.nanCode.isSome then .nan
  else
    let e := mag / 2 ^ f.mbits
    if e = 0 then .fin neg mag (1 - (f.bias : Int) - (f.mbits : Int))
    else .fin neg (2 ^ f.mbits + mag % 2 ^ f.mbits) ((e : Int) - (f.bias : Int) - (f.mbits : Int))

def signBit (f : Format) (neg : Bool) : Nat := if neg then 2 ^ (f.ebits + f.mbits) else 0

/-- Code of a NaN: the positive quiet NaN; an MX element has none and is written as 0 (R153, R161). -/
def Format.nan (f : Format) : Nat := f.nanCode.getD 0

/-- Code of an infinity: NaN in E4M3 (R161). -/
def Format.inf (f : Format) (neg : Bool) : Nat :=
  match f.infCode with
  | some i => signBit f neg + i
  | none => f.nan

/-- Units of the target's spacing in m × 2^e (m non-zero), with the 16 bits that lie below and whether more than half, exactly half or
less remains: the spacing's exponent, the whole units, F of R162, and the comparison of the rest with half a unit. -/
def Format.split (f : Format) (m : Nat) (e : Int) : Int × Nat × Nat × Ordering :=
  let q := max (floorLog m e) (1 - (f.bias : Int)) - (f.mbits : Int)
  let d := q - e
  if d ≤ 0 then (q, m * 2 ^ (-d).toNat, 0, .lt)
  else
    let s := d.toNat
    let rest := m % 2 ^ s
    (q, m / 2 ^ s, m * 2 ^ 16 / 2 ^ s % 2 ^ 16, compare (2 * rest) (2 ^ s))

/-- The code of `u` units of spacing 2^q, and whether it saturated. -/
def Format.pack (f : Format) (neg : Bool) (q : Int) (u : Nat) : Nat × Bool :=
  let c := ((q + (f.mbits : Int) + (f.bias : Int)) * 2 ^ f.mbits + (u : Int) - 2 ^ f.mbits).toNat
  if f.maxCode < c then (if f.saturate then (signBit f neg + f.maxCode, true) else (f.inf neg, false))
  else (signBit f neg + c, false)

/-- Round to nearest, ties to even, with whether it saturated (R161). -/
def Format.roundSat (f : Format) : Fp → Nat × Bool
  | .nan => (f.nan, false)
  | .inf neg => (f.inf neg, false)
  | .fin neg m e =>
    if m = 0 then (signBit f neg, false)
    else
      let s := f.split m e
      let up := match s.2.2.2 with
        | .lt => false
        | .eq => s.2.1 % 2 = 1
        | .gt => true
      f.pack neg s.1 (s.2.1 + b2n up)

/-- Stochastic rounding with the 16-bit draw `u` (R162). -/
def Format.roundStoch (f : Format) (u : Nat) : Fp → Nat × Bool
  | .nan => (f.nan, false)
  | .inf neg => (f.inf neg, false)
  | .fin neg m e =>
    if m = 0 then (signBit f neg, false)
    else
      let s := f.split m e
      let r := f.pack neg s.1 (s.2.1 + b2n (decide (2 ^ 16 ≤ s.2.2.1 + u)))
      -- stochastic rounding never produces an infinity from a finite value in FP8 or MX: it saturates there
      r

def Format.round (f : Format) (x : Fp) : Nat := (f.roundSat x).1

/-! ### Exact arithmetic -/

def Fp.neg : Fp → Fp
  | .nan => .nan
  | .inf n => .inf (!n)
  | .fin n m e => .fin (!n) m e

def Fp.abs : Fp → Fp
  | .nan => .nan
  | .inf _ => .inf false
  | .fin _ m e => .fin false m e

def Fp.isZero : Fp → Bool
  | .fin _ m _ => decide (m = 0)
  | _ => false

def Fp.isFinite : Fp → Bool
  | .fin _ _ _ => true
  | _ => false

/-- The signed magnitude over 2^e0, for e0 no larger than the value's exponent. -/
def Fp.scaled (e0 : Int) : Fp → Int
  | .fin n m e => let v : Int := (m * 2 ^ (e - e0).toNat : Nat)
                  if n then -v else v
  | _ => 0

def Fp.expo : Fp → Int
  | .fin _ m e => if m = 0 then 1000000 else e
  | _ => 1000000

/-- An exact value from a signed integer and an exponent; zero is +0. -/
def fpOf (v : Int) (e : Int) : Fp := .fin (decide (v < 0)) v.natAbs e

/-- Exact product (R153). -/
def Fp.mul : Fp → Fp → Fp
  | .nan, _ => .nan
  | _, .nan => .nan
  | .inf a, .inf b => .inf (a != b)
  | .inf a, .fin b m _ => if m = 0 then .nan else .inf (a != b)
  | .fin a m _, .inf b => if m = 0 then .nan else .inf (a != b)
  | .fin a m e, .fin b n d => .fin (a != b) (m * n) (e + d)

/-- Exact sum; an exact zero is +0 unless both are −0. -/
def Fp.add : Fp → Fp → Fp
  | .nan, _ => .nan
  | _, .nan => .nan
  | .inf a, .inf b => if a = b then .inf a else .nan
  | .inf a, .fin _ _ _ => .inf a
  | .fin _ _ _, .inf b => .inf b
  | .fin a m e, .fin b n d =>
    let e0 := min (Fp.expo (.fin a m e)) (Fp.expo (.fin b n d))
    let v := Fp.scaled e0 (.fin a m e) + Fp.scaled e0 (.fin b n d)
    if v = 0 then .fin (a && b && decide (m = 0) && decide (n = 0)) 0 0 else fpOf v e0

/-- Compare two values; none when either is NaN. −0 equals +0. -/
def Fp.cmp : Fp → Fp → Option Ordering
  | .nan, _ => none
  | _, .nan => none
  | .inf a, .inf b => some (if a = b then .eq else if a then .lt else .gt)
  | .inf a, _ => some (if a then .lt else .gt)
  | _, .inf b => some (if b then .gt else .lt)
  | a, b => let e0 := min a.expo b.expo
            some (compare (a.scaled e0) (b.scaled e0))

def Fp.lt (a b : Fp) : Bool := a.cmp b == some .lt

/-- Integer square root by bits, from bit `i` down. -/
def isqrt (n : Nat) : Nat → Nat → Nat
  | 0, acc => if (acc + 1) * (acc + 1) ≤ n then acc + 1 else acc
  | i + 1, acc => isqrt n i (if (acc + 2 ^ (i + 1)) * (acc + 2 ^ (i + 1)) ≤ n then acc + 2 ^ (i + 1) else acc)

/-- A quotient with at least 70 bits and a sticky bit below them, for rounding. -/
def Fp.div : Fp → Fp → Fp
  | .nan, _ => .nan
  | _, .nan => .nan
  | .inf _, .inf _ => .nan
  | .inf a, .fin b _ _ => .inf (a != b)
  | .fin a _ _, .inf b => .fin (a != b) 0 0
  | .fin a m e, .fin b n d =>
    if n = 0 then (if m = 0 then .nan else .inf (a != b))
    else
      let k := 70 + n.log2
      let q := m * 2 ^ k / n
      .fin (a != b) (2 * q + b2n (decide (m * 2 ^ k % n ≠ 0))) (e - d - (k : Int) - 1)

/-- A square root with at least 70 bits and a sticky bit. -/
def Fp.sqrt : Fp → Fp
  | .nan => .nan
  | .inf a => if a then .nan else .inf false
  | .fin a m e =>
    if m = 0 then .fin a 0 0
    else if a then .nan
    else
      let odd := e % 2 ≠ 0
      let m1 := if odd then 2 * m else m
      let e1 := if odd then e - 1 else e
      let v := m1 * 2 ^ 160
      let r := isqrt v (v.log2 / 2 + 1) 0
      .fin false (2 * r + b2n (decide (r * r ≠ v))) (e1 / 2 - 80 - 1)

/-! ### FP32 words -/

def f32 (w : Nat) : Fp := fmtFP32.decode w
def r32 (x : Fp) : Nat := fmtFP32.round x
def fadd (a b : Nat) : Nat := r32 ((f32 a).add (f32 b))
def fsub (a b : Nat) : Nat := r32 ((f32 a).add (f32 b).neg)
def fmul (a b : Nat) : Nat := r32 ((f32 a).mul (f32 b))
def fdiv (a b : Nat) : Nat := r32 ((f32 a).div (f32 b))
def fsqrt (a : Nat) : Nat := r32 (f32 a).sqrt
/-- Fused multiply-add: one rounding. -/
def ffma (a b c : Nat) : Nat := r32 (((f32 a).mul (f32 b)).add (f32 c))
def fneg (a : Nat) : Nat := r32 (f32 a).neg
def fabs (a : Nat) : Nat := r32 (f32 a).abs

def F32_ONE : Nat := 0x3F800000
def F32_NAN : Nat := 0x7FC00000
def F32_NEG_INF : Nat := 0xFF800000
def f32IsNan (a : Nat) : Bool := f32 a == .nan
def f32Finite (a : Nat) : Bool := (f32 a).isFinite

/-- The larger of two words; a NaN operand gives NaN, and +0 is above −0. -/
def fmax (a b : Nat) : Nat :=
  match (f32 a).cmp (f32 b) with
  | none => F32_NAN
  | some .lt => b
  | some .gt => a
  | some .eq => if a.testBit 31 then b else a

def fmin (a b : Nat) : Nat :=
  match (f32 a).cmp (f32 b) with
  | none => F32_NAN
  | some .lt => a
  | some .gt => b
  | some .eq => if a.testBit 31 then a else b

/-- 2^k as an FP32 word, for k from −149 to 127. -/
def pow2w (k : Int) : Nat := r32 (.fin false 1 k)

/-! ### The functions of Table 5-6 (R120) -/

/-- 2^160 as the unit of fixed-point work. -/
def FX : Nat := 160

/-- ⌊ln 2 × 2^160⌋. -/
def LN2 : Int := 1013035739299659071135698605846798551586536899366

/-- Taylor terms of exp(r) over 2^160, from term n on: `left` terms. -/
def expTerms (r : Int) : Nat → Nat → Int → Int
  | 0, _, _ => 0
  | left + 1, n, t => t + expTerms r left (n + 1) (t * r / 2 ^ FX / ((n : Int) + 1))

/-- A finite value in fixed point, clamped to ±1,024. -/
def toFix (x : Fp) : Int :=
  match x with
  | .fin n m e =>
    let v : Int := if 0 ≤ e + 160 then (if floorLog (max m 1) e < 11 then (m * 2 ^ (e + 160).toNat : Nat) else 2 ^ 170)
                   else ((m / 2 ^ (-(e + 160)).toNat : Nat) : Int)
    if n then -v else v
  | _ => 0

/-- exp of a fixed-point number as an exact value near the true one. -/
def expFix (x : Int) : Fp :=
  let k := x / LN2
  fpOf (expTerms (x - k * LN2) 48 0 (2 ^ FX)) (k - 160)

/-- Terms z^(2n+1)/(2n+1) of atanh over 2^160. -/
def atanhTerms (z2 : Int) : Nat → Nat → Int → Int
  | 0, _, _ => 0
  | left + 1, n, t => t / (2 * (n : Int) + 1) + atanhTerms z2 left (n + 1) (t * z2 / 2 ^ FX)

/-- ln of a positive m × 2^e, fixed point. -/
def lnFix (m : Nat) (e : Int) : Int :=
  let l := m.log2
  let f : Int := (m * 2 ^ 160 / 2 ^ l : Nat)
  let z := (f - 2 ^ 160) * 2 ^ 160 / (f + 2 ^ 160)
  ((l : Int) + e) * LN2 + 2 * atanhTerms (z * z / 2 ^ 160) 64 0 z

/-- Exact quotient helper: (1 − t)/(1 + t), 1/(1 + t) and t/(1 + t) for 0 ≤ t ≤ 1. -/
def Fp.one : Fp := .fin false 1 0

def expOf : Fp → Fp
  | .nan => .nan
  | .inf n => if n then .fin false 0 0 else .inf false
  | x => expFix (toFix x)

def logOf : Fp → Fp
  | .nan => .nan
  | .inf n => if n then .nan else .inf false
  | .fin n m e => if m = 0 then .inf true else if n then .nan else fpOf (lnFix m e) (-160)

/-- σ(x) = 1 / (1 + exp(−x)). -/
def sigmoidOf : Fp → Fp
  | .nan => .nan
  | .inf n => if n then .fin false 0 0 else Fp.one
  | .fin n m e =>
    let t := expOf (.fin true m e)
    if n then t.div (Fp.one.add t) else Fp.one.div (Fp.one.add t)

/-- tanh; below 2^-40 it rounds to its argument. -/
def tanhOf : Fp → Fp
  | .nan => .nan
  | .inf n => .fin n 1 0
  | .fin n m e =>
    if m = 0 || floorLog m e < -40 then .fin n m e
    else
      let t := expOf (.fin true (2 * m) e)
      match (Fp.one.add t.neg).div (Fp.one.add t) with
      | .fin _ a b => .fin n a b
      | y => y

/-- GELU of Table 5-6: the spec gives it no formula, so its value is free. -/
def geluOf (w : Nat) : Fp := if w = F32_NAN || f32IsNan w then .nan else f32 (Config.gelu w)

def siluOf (x : Fp) : Fp :=
  match x with
  | .inf n => if n then .fin true 0 0 else .inf false
  | _ => x.mul (sigmoidOf x)

/-- Position of an FP32 word on the line of representable values. -/
def ordinal32 (w : Nat) : Int := if w.testBit 31 then -((w % 2 ^ 31 : Nat) : Int) else ((w % 2 ^ 31 : Nat) : Int)

/-- Words a and b are finite and within n units in the last place of each other. -/
def withinUlp (n : Nat) (a b : Nat) : Bool := f32Finite a && f32Finite b && decide ((ordinal32 a - ordinal32 b).natAbs ≤ n)

/-- |a − b| ≤ bound × 2^e. -/
def withinAbs (bound : Fp) (a b : Nat) : Bool :=
  f32Finite a && f32Finite b && ((((f32 a).add (f32 b).neg).abs).cmp bound != some .gt)

/-- The largest absolute error of the T functions: 2^-22. -/
def tBound : Fp := .fin false 1 (-22)

/-- A result within its error of the correctly rounded word `r`: the free choice of the array where it lies within the bound, else `r`.
The spec bounds the error and no more. -/
def within (op arg ulps : Nat) (bound : Option Fp) (r : Nat) : Nat :=
  let c := (Config.approx op arg).toNat
  let ok := withinUlp ulps c r || (match bound with
    | some b => withinAbs b c r
    | none => false)
  if ok then c else r

/-- The vector functions of one operand, by opcode (Table 5-6). -/
def vecFn (op w : Nat) : Nat :=
  if op = 0x48 then within op w 2 none (r32 (expOf (f32 w)))
  else if op = 0x49 then within op w 2 none (r32 (logOf (f32 w)))
  else if op = 0x4A then within op w 1 none (r32 (Fp.one.div (f32 w)))
  else if op = 0x4B then within op w 1 none (r32 (Fp.one.div (f32 w).sqrt))
  else if op = 0x4C then within op w 4 (some tBound) (r32 (tanhOf (f32 w)))
  else if op = 0x4D then within op w 4 (some tBound) (r32 (geluOf w))
  else if op = 0x4E then within op w 4 (some tBound) (r32 (siluOf (f32 w)))
  else within op w 4 (some tBound) (r32 (sigmoidOf (f32 w)))

/-- EXP with its accuracy, as row statistics use it (R145). -/
def fexp (w : Nat) : Nat := vecFn 0x48 w

/-! ### Sums in an order that is not fixed (Table 5-6, R179) -/

/-- Add values along some tree: at each step two of the values are replaced by their sum, which two being free. -/
def sumFreeBy (add : Nat → Nat → Nat) (seed : Nat) : Nat → List Nat → Nat
  | 0, l => l.foldl add 0
  | fuel + 1, l =>
    match l with
    | [] => 0
    | [x] => x
    | x :: rest =>
      let j := Config.pick seed fuel % rest.length
      sumFreeBy add seed fuel (add x (listAt 0 rest j) :: (rest.take j ++ rest.drop (j + 1)))

def sumFree (seed fuel : Nat) (l : List Nat) : Nat := sumFreeBy fadd seed fuel l

/-! ### FP64 words -/

def f64 (w : Nat) : Fp := fmtFP64.decode w
def r64 (x : Fp) : Nat := fmtFP64.round x
def dadd (a b : Nat) : Nat := r64 ((f64 a).add (f64 b))

/-- min(1, m / n) rounded to FP32, where m or n of zero gives 1 (R239, R276): m an FP32 word, n an FP64 word. -/
def clipFactor (m n : Nat) : Nat :=
  if (f32 m).isZero || (f64 n).isZero then F32_ONE
  else
    let q := (f32 m).div (f64 n)
    if q.lt .one then r32 q else F32_ONE

end Sys2Proof.Machine
end

