-- ==== Sys2Proof/Machine/Crypto.lean ====
section
/-! DEFINITION. The check functions that the spec names by standard: CRC-32C (R55, R288, R295), Philox-4x32-10 (R163),
the digest over GF(2^128) (R281) and SHA-384 (R446). -/

namespace Sys2Proof.Machine

open Sys2Proof

/-! ### CRC-32C (Castagnoli, reflected polynomial 0x82F6_3B78) -/

def crcBit (c : Nat) : Nat := if c % 2 = 1 then (c / 2) ^^^ 0x82F63B78 else c / 2

def crcByte (c : Nat) (b : Byte) : Nat := crcBit (crcBit (crcBit (crcBit (crcBit (crcBit (crcBit (crcBit (c ^^^ b.toNat))))))))

/-- CRC-32C of bytes. -/
def crc32c (bs : List Byte) : Nat := (bs.foldl crcByte 0xFFFFFFFF) ^^^ 0xFFFFFFFF

/-! ### Philox-4x32-10 (R163) -/

/-- One round. -/
def philoxRound (c : Nat × Nat × Nat × Nat) (k0 k1 : Nat) : Nat × Nat × Nat × Nat :=
  let p0 := 0xD2511F53 * c.1
  let p1 := 0xCD9E8D57 * c.2.2.1
  ((p1 / 2 ^ 32) ^^^ c.2.1 ^^^ k0, p1 % 2 ^ 32, (p0 / 2 ^ 32) ^^^ c.2.2.2 ^^^ k1, p0 % 2 ^ 32)

/-- `n` rounds, the key advancing by the Weyl constants between them. -/
def philoxRounds : Nat → Nat × Nat × Nat × Nat → Nat → Nat → Nat × Nat × Nat × Nat
  | 0, c, _, _ => c
  | n + 1, c, k0, k1 => philoxRounds n (philoxRound c k0 k1) ((k0 + 0x9E3779B9) % 2 ^ 32) ((k1 + 0xBB67AE85) % 2 ^ 32)

/-- The four words of a call: counter words c0 to c3 and the 64-bit key, key word 0 in the low half. -/
def philox (key c0 c1 c2 c3 : Nat) : List Nat :=
  let r := philoxRounds 10 (c0 % 2 ^ 32, c1 % 2 ^ 32, c2 % 2 ^ 32, c3 % 2 ^ 32) (key % 2 ^ 32) (key / 2 ^ 32 % 2 ^ 32)
  [r.1, r.2.1, r.2.2.1, r.2.2.2]

/-! ### The digest of a transmission (R281): GF(2^128) reduced by x^128 + x^7 + x^2 + x + 1, bit i of a number the coefficient of x^i -/

def gfTimesX (a : Nat) : Nat := if a.testBit 127 then ((2 * a) % 2 ^ 128) ^^^ 0x87 else 2 * a

/-- The product of `a` with bits i up of b, `n` of them. -/
def gfMulFrom (b : Nat) : Nat → Nat → Nat → Nat
  | 0, _, _ => 0
  | n + 1, i, a => (if b.testBit i then a else 0) ^^^ gfMulFrom b n (i + 1) (gfTimesX a)

def gfMul (a b : Nat) : Nat := gfMulFrom b 128 0 (a % 2 ^ 128)

/-- D = B1·H^n + B2·H^(n−1) + … + Bn·H. -/
def gfHash (h : Nat) (blocks : List Nat) : Nat := blocks.foldl (fun d b => gfMul (d ^^^ b) h) 0

/-! ### SHA-384 (R446, R449, R451) -/

/-- Round constants 0 to 39. -/
def sha512K0 : List Nat :=
  [0x428a2f98d728ae22, 0x7137449123ef65cd, 0xb5c0fbcfec4d3b2f, 0xe9b5dba58189dbbc, 0x3956c25bf348b538,
   0x59f111f1b605d019, 0x923f82a4af194f9b, 0xab1c5ed5da6d8118, 0xd807aa98a3030242, 0x12835b0145706fbe,
   0x243185be4ee4b28c, 0x550c7dc3d5ffb4e2, 0x72be5d74f27b896f, 0x80deb1fe3b1696b1, 0x9bdc06a725c71235,
   0xc19bf174cf692694, 0xe49b69c19ef14ad2, 0xefbe4786384f25e3, 0x0fc19dc68b8cd5b5, 0x240ca1cc77ac9c65,
   0x2de92c6f592b0275, 0x4a7484aa6ea6e483, 0x5cb0a9dcbd41fbd4, 0x76f988da831153b5, 0x983e5152ee66dfab,
   0xa831c66d2db43210, 0xb00327c898fb213f, 0xbf597fc7beef0ee4, 0xc6e00bf33da88fc2, 0xd5a79147930aa725,
   0x06ca6351e003826f, 0x142929670a0e6e70, 0x27b70a8546d22ffc, 0x2e1b21385c26c926, 0x4d2c6dfc5ac42aed,
   0x53380d139d95b3df, 0x650a73548baf63de, 0x766a0abb3c77b2a8, 0x81c2c92e47edaee6, 0x92722c851482353b]

/-- Round constants 40 to 79. -/
def sha512K1 : List Nat :=
  [0xa2bfe8a14cf10364, 0xa81a664bbc423001, 0xc24b8b70d0f89791, 0xc76c51a30654be30, 0xd192e819d6ef5218,
   0xd69906245565a910, 0xf40e35855771202a, 0x106aa07032bbd1b8, 0x19a4c116b8d2d0c8, 0x1e376c085141ab53,
   0x2748774cdf8eeb99, 0x34b0bcb5e19b48a8, 0x391c0cb3c5c95a63, 0x4ed8aa4ae3418acb, 0x5b9cca4f7763e373,
   0x682e6ff3d6b2b8a3, 0x748f82ee5defb2fc, 0x78a5636f43172f60, 0x84c87814a1f0ab72, 0x8cc702081a6439ec,
   0x90befffa23631e28, 0xa4506cebde82bde9, 0xbef9a3f7b2c67915, 0xc67178f2e372532b, 0xca273eceea26619c,
   0xd186b8c721c0c207, 0xeada7dd6cde0eb1e, 0xf57d4f7fee6ed178, 0x06f067aa72176fba, 0x0a637dc5a2c898a6,
   0x113f9804bef90dae, 0x1b710b35131c471b, 0x28db77f523047d84, 0x32caab7b40c72493, 0x3c9ebe0a15c9bebc,
   0x431d67c49c100d4c, 0x4cc5d4becb3e42b6, 0x597f299cfc657e2a, 0x5fcb6fab3ad6faec, 0x6c44198c4a475817]

/-- The initial hash value. -/
def sha384H : List Nat :=
  [0xcbbb9d5dc1059ed8, 0x629a292a367cd507, 0x9159015a3070dd17, 0x152fecd8f70e5939, 0x67332667ffc00b31,
   0x8eb44a8768581511, 0xdb0c2e0d64f98fa7, 0x47b5481dbefa4fa4]

def rotr64 (n x : Nat) : Nat := x / 2 ^ n + x % 2 ^ n * 2 ^ (64 - n)

def shaS0 (x : Nat) : Nat := rotr64 28 x ^^^ rotr64 34 x ^^^ rotr64 39 x
def shaS1 (x : Nat) : Nat := rotr64 14 x ^^^ rotr64 18 x ^^^ rotr64 41 x
def shaG0 (x : Nat) : Nat := rotr64 1 x ^^^ rotr64 8 x ^^^ x / 2 ^ 7
def shaG1 (x : Nat) : Nat := rotr64 19 x ^^^ rotr64 61 x ^^^ x / 2 ^ 6
def shaCh (e f g : Nat) : Nat := (e &&& f) ^^^ ((2 ^ 64 - 1 - e) &&& g)
def shaMaj (a b c : Nat) : Nat := (a &&& b) ^^^ (a &&& c) ^^^ (b &&& c)

/-- One round: the eight working words, and the sixteen schedule words from this round on. -/
def shaRound (x : List Nat × List Nat) (k : Nat) : List Nat × List Nat :=
  match x with
  | ([a, b, c, d, e, f, g, h], w) =>
    let t1 := h + shaS1 e + shaCh e f g + k + w[0]?.getD 0
    let t2 := shaS0 a + shaMaj a b c
    let next := (shaG1 (w[14]?.getD 0) + w[9]?.getD 0 + shaG0 (w[1]?.getD 0) + w[0]?.getD 0) % 2 ^ 64
    ([(t1 + t2) % 2 ^ 64, a, b, c, (d + t1) % 2 ^ 64, e, f, g], w.drop 1 ++ [next])
  | _ => x

/-- Big-endian value of bytes. -/
def beNat (bs : List Byte) : Nat := bs.foldl (fun v b => 256 * v + b.toNat) 0

/-- `n` big-endian bytes of a value. -/
def beBytes : Nat → Nat → List Byte
  | 0, _ => []
  | n + 1, v => BitVec.ofNat 8 (v / 256 ^ n) :: beBytes n v

/-- One 128-byte block. -/
def shaBlock (h : List Nat) (bs : List Byte) : List Nat :=
  let w := (List.range 16).map (fun i => beNat ((bs.drop (8 * i)).take 8))
  let r := sha512K1.foldl shaRound (sha512K0.foldl shaRound (h, w))
  (h.zip r.1).map (fun e => (e.1 + e.2) % 2 ^ 64)

def shaBlocks : Nat → List Nat → List Byte → List Nat
  | 0, h, _ => h
  | n + 1, h, bs => shaBlocks n (shaBlock h (bs.take 128)) (bs.drop 128)

/-- SHA-384: 48 bytes. -/
def sha384 (bs : List Byte) : List Byte :=
  let n := (bs.length + 17 + 127) / 128
  let m := bs ++ [0x80#8] ++ List.replicate (128 * n - bs.length - 17) 0#8 ++ beBytes 16 (8 * bs.length)
  ((shaBlocks n sha384H m).take 6).flatMap (beBytes 8)

end Sys2Proof.Machine
end

