-- ==== Sys2Proof/Machine/Operands.lean ====
section
/-! DEFINITION. The forms in memory that commands take as operands: micro-batch descriptors (Table 3-2), layer-list entries
(Table 3-1), stash policies (Table 4-6) and the window issue fields (Table 4-1), each read from its bytes and written to them. -/

namespace Sys2Proof.Machine

open Sys2Proof

/-! ### Micro-batch descriptor (R55, Table 3-2) -/

structure Desc where
  flags : Nat
  microBatch : Nat
  format : Nat
  step : Nat
  version : Nat
  payload : Nat
  bytes : Nat
  check : Nat
  scale : Nat
  source : Nat
  land : Nat
deriving DecidableEq, Repr

def Desc.ofBytes (b : List Byte) : Desc :=
  { flags := fieldAt b 0 4, microBatch := fieldAt b 4 2, format := fieldAt b 6 2, step := fieldAt b 8 6, version := fieldAt b 16 6,
    payload := fieldAt b 24 6, bytes := fieldAt b 32 4, check := fieldAt b 36 4, scale := fieldAt b 40 4, source := fieldAt b 44 2,
    land := fieldAt b 48 8 }

def Desc.toBytes (d : Desc) : List Byte :=
  leBytes 4 d.flags ++ leBytes 2 d.microBatch ++ leBytes 2 d.format ++ leBytes 8 (d.step % 2 ^ 48) ++ leBytes 8 (d.version % 2 ^ 48)
    ++ leBytes 8 (d.payload % 2 ^ 48) ++ leBytes 4 d.bytes ++ leBytes 4 d.check ++ leBytes 4 d.scale ++ leBytes 2 d.source
    ++ leBytes 2 0 ++ leBytes 8 d.land ++ leBytes 8 0

def Desc.valid (d : Desc) : Bool := bitAt d.flags 0
def Desc.dir (d : Desc) : Dir := if bitAt d.flags 1 then .bwd else .fwd
def Desc.lastOfStep (d : Desc) : Bool := bitAt d.flags 2

/-- FLAGS of a descriptor. -/
def descFlags (valid : Bool) (dir : Dir) (last : Bool) : Nat :=
  b2n valid + (match dir with
    | .fwd => 0
    | .bwd => 2) + 4 * b2n last

/-! ### Queues: the forward queue (0) and the backward queue (1) of a stage -/

def qIndex : Dir → Nat
  | .fwd => 0
  | .bwd => 1

def qDir (q : Nat) : Dir := if q = 1 then .bwd else .fwd

def Package.qBase (p : Package) (s : Nat) : Dir → Nat
  | .fwd => p.rd (STG_FQ_BASE s)
  | .bwd => p.rd (STG_BQ_BASE s)

def Package.qDepth (p : Package) (s : Nat) : Dir → Nat
  | .fwd => p.get (STG_FQ_CFG_DEPTH s)
  | .bwd => p.get (STG_BQ_CFG_DEPTH s)

def Package.qUnits (p : Package) (s : Nat) : Dir → Nat
  | .fwd => p.get (STG_FQ_CFG_SLOT_UNITS s)
  | .bwd => p.get (STG_BQ_CFG_SLOT_UNITS s)

def Package.qPbase (p : Package) (s : Nat) : Dir → Nat
  | .fwd => p.rd (STG_FQ_PBASE s)
  | .bwd => p.rd (STG_BQ_PBASE s)

/-- Address of entry i's descriptor and of its payload slot. -/
def Package.qDescAddr (p : Package) (s : Nat) (d : Dir) (i : Nat) : Nat := p.qBase s d + 64 * i
def Package.qSlotAddr (p : Package) (s : Nat) (d : Dir) (i : Nat) : Nat := p.qPbase s d + i * p.qUnits s d * 4096

def Package.queue (p : Package) (s : Nat) : Dir → Queue
  | .fwd => (p.stg s).fq
  | .bwd => (p.stg s).bq

/-- Occupied entries that are valid and wait, and entries held by a running phase. -/
def Queue.valids (q : Queue) : Nat := (q.entries.filter (fun e => e.2 = .valid)).length
def Queue.helds (q : Queue) : Nat := (q.entries.filter (fun e => e.2 = .held)).length

/-- The oldest entry not yet taken (R57): its index and state. -/
def Queue.head (q : Queue) : Option (Nat × EntrySt) := q.entries.find? (fun e => e.2 ≠ .held)

/-- `STG_xQ_PTR` of a queue: HEAD is the next entry to take, the tail where none waits. -/
def Queue.ptr (q : Queue) : Nat :=
  let h := match q.head with
    | some e => e.1
    | none => q.tail
  h % 64 + 2 ^ 8 * (q.tail % 64) + 2 ^ 16 * q.valids + 2 ^ 24 * q.helds

/-- Store a queue and its pointer register. -/
def Package.setQueue (p : Package) (s : Nat) (d : Dir) (q : Queue) : Package :=
  match d with
  | .fwd => (p.modStg s (fun x => { x with fq := q })).wr (STG_FQ_PTR s) q.ptr
  | .bwd => (p.modStg s (fun x => { x with bq := q })).wr (STG_BQ_PTR s) q.ptr

/-- The descriptor of entry i of a queue; a refused or poisoned ring reads as an invalid descriptor. -/
def Package.descOf (p : Package) (s : Nat) (d : Dir) (i : Nat) : Option Desc :=
  match p.load (p.qDescAddr s d i) 64 with
  | .ok b => some (Desc.ofBytes b)
  | _ => none

/-! ### Layer-list entry (R50, Table 3-1) -/

structure Layer where
  id : Nat
  flags : Nat
  weightBytes : Nat
  weightOffset : Nat
  fwdList : Nat
  bwdList : Nat
  fwdLen : Nat
  bwdLen : Nat
  numSlot : Nat
  policy : Nat
  maskAddr : Nat
  reservedZero : Bool
deriving DecidableEq, Repr

def Layer.ofBytes (b : List Byte) : Layer :=
  { id := fieldAt b 0 2, flags := fieldAt b 2 2, weightBytes := fieldAt b 4 4, weightOffset := fieldAt b 8 8, fwdList := fieldAt b 16 8,
    bwdList := fieldAt b 24 8, fwdLen := fieldAt b 32 4, bwdLen := fieldAt b 36 4, numSlot := fieldAt b 40 2, policy := fieldAt b 42 2,
    maskAddr := fieldAt b 48 8,
    reservedZero := decide (fieldAt b 2 2 < 16) && zerosAt b 44 4 && zerosAt b 56 8 }

def Layer.hasWeights (l : Layer) : Bool := bitAt l.flags 0
def Layer.tied (l : Layer) : Bool := bitAt l.flags 1
def Layer.predicated (l : Layer) : Bool := bitAt l.flags 2
def Layer.masked (l : Layer) : Bool := bitAt l.flags 3

/-- Entries in the stage's layer list, and entry i. -/
def Package.layerCount (p : Package) (s : Nat) : Nat := p.get (STG_LAYERS_COUNT s)
def Package.layerAddr (p : Package) (s i : Nat) : Nat := bitsOf (p.rd (STG_LAYERS s)) 0 48 + 64 * i
def Package.layer (p : Package) (s i : Nat) : Option Layer :=
  match p.load (p.layerAddr s i) 64 with
  | .ok b => some (Layer.ofBytes b)
  | _ => none

/-- Layer-list index of the n-th layer that a phase runs: list order forwards, reverse order backwards. -/
def Package.layerIndex (p : Package) (s n : Nat) : Dir → Nat
  | .fwd => n
  | .bwd => p.layerCount s - 1 - n

/-! ### Stash policy (R90, Table 4-6) and space of a form (R89, Table 4-5) -/

structure Tensor where
  elements : Nat
  form : Nat
  floor : Nat
  id : Nat
  reservedZero : Bool
deriving DecidableEq, Repr

def Tensor.ofBytes (b : List Byte) : Tensor :=
  { elements := fieldAt b 0 4, form := fieldAt b 4 1, floor := fieldAt b 5 1, id := fieldAt b 6 2, reservedZero := zerosAt b 8 8 }

/-- The four tensor descriptors of a policy entry; those with ELEMENTS 0 are unused. -/
def policyOf (b : List Byte) : List Tensor :=
  ((List.range 4).map (fun i => Tensor.ofBytes ((b.drop (16 * i)).take 16))).filter (fun t => t.elements ≠ 0)

def Package.policy (p : Package) (s i : Nat) : Option (List Tensor) :=
  match p.load (p.rd (HAL_SPOL_BASE s) + 64 * i) 64 with
  | .ok b => some (policyOf b)
  | _ => none

def FORM_FULL_BF16 : Nat := 0
def FORM_FULL_FP8 : Nat := 1
def FORM_MASK : Nat := 2
def FORM_SIGN : Nat := 3
def FORM_CKPT : Nat := 4

/-- `n` rounded up to a multiple of `m`. -/
def roundUp (n m : Nat) : Nat := (n + m - 1) / m * m

/-- Space of a tensor of E elements in a form, rounded up to 64 bytes (Table 4-5). -/
def formSpace (form e : Nat) : Nat :=
  if form = FORM_FULL_BF16 then roundUp (2 * e) 64
  else if form = FORM_FULL_FP8 then roundUp (e + 64) 64
  else if form = FORM_CKPT then 0
  else roundUp ((e + 7) / 8) 64

/-- Size rank of a form: MASK and SIGN are of equal size (R89). -/
def formRank (form : Nat) : Nat := if form = FORM_SIGN then FORM_MASK else form

/-- A tensor descriptor obeys R90: known forms, FLOOR no larger than FORM and not CKPT, reserved bytes zero. -/
def Tensor.ok (t : Tensor) : Bool :=
  decide (t.form ≤ 4) && decide (t.floor < 4) && decide (formRank t.form ≤ formRank t.floor) && t.reservedZero

/-! ### Windows (Table 4-1) -/

/-- The window of two issue values. -/
def windowOf (owner a b : Nat) : Window :=
  { owner := owner, fwdBase := bitsOf a 0 16, fwdCount := bitsOf a 16 7, bwdBase := bitsOf a 24 16, bwdCount := bitsOf a 40 7,
    notify := bitAt a 48, ckptAll := bitAt a 49, lag := bitsOf a 50 2, step := bitsOf b 0 48, tag := bitsOf b 48 16 }

/-- The issue value A of a window, as `HAL_WIN_CUR_A` shows it. -/
def Window.wordA (w : Window) : Nat :=
  w.fwdBase + 2 ^ 16 * w.fwdCount + 2 ^ 24 * w.bwdBase + 2 ^ 40 * w.bwdCount + 2 ^ 48 * b2n w.notify + 2 ^ 49 * b2n w.ckptAll + 2 ^ 50 * w.lag

def Window.wordB (w : Window) : Nat := w.step + 2 ^ 48 * w.tag

end Sys2Proof.Machine
end

