-- ==== Sys2Proof/Machine/Route.lean ====
section
/-! DEFINITION. Where a message goes: link states, the first-hop rule, the route table and the transmit queues (R292, R295 to R298),
and the two effects that other chapters share: a channel goes DOWN (R61) and a stage is held. -/

namespace Sys2Proof.Machine

open Sys2Proof

/-! ### Link states (`LNK_STATUS.STATE`) -/
def LINK_DISABLED : Nat := 0
def LINK_TRAINING : Nat := 1
def LINK_UP : Nat := 2
def LINK_RETRAINING : Nat := 3
def LINK_DOWN : Nat := 4

def allLinks : List Nat := List.range Config.links

def Package.linkState (p : Package) (k : Nat) : Nat := p.get (LNK_STATUS_STATE k)

/-- An up link is a link in state UP (R301). -/
def Package.linkUp (p : Package) (k : Nat) : Bool := decide (p.linkState k = LINK_UP)

def Package.hostMode (p : Package) (k : Nat) : Bool := p.has (LNK_STATUS_HOST_MODE k)

/-- A link that takes new package messages: UP, not in host mode (R307), not being disabled (R305). -/
def Package.linkTakes (p : Package) (k : Nat) : Bool := p.linkUp k && !p.hostMode k && (p.port k).stopping.isNone

/-- Set a link's state; `LNK_UP` mirrors it. -/
def Package.setLinkState (p : Package) (k st : Nat) : Package :=
  (p.put (LNK_STATUS_STATE k) st).setBit LNK_UP k (decide (st = LINK_UP))

/-! ### Classes and virtual channels (Table 12-4) -/
def CLS_BEAT : Nat := 0x0
def CLS_CONTROL : Nat := 0x1
def CLS_TREE : Nat := 0x2
def CLS_HOST_REQ : Nat := 0x3
def CLS_HOST_RSP : Nat := 0x4
def CLS_EVENT : Nat := 0x5
def CLS_STAGE : Nat := 0x6
def CLS_REDUCE : Nat := 0x7
def CLS_GATHER : Nat := 0x8
def CLS_SNAPSHOT : Nat := 0x9
def CLS_MGMT : Nat := 0xA

/-- The virtual channel of a class; 8 for a reserved class. -/
def vcOf (cls : Nat) : Nat := listAt 8 [0, 1, 1, 2, 3, 3, 4, 5, 6, 7, 1] cls

/-- Flits of a message: a 32-byte header and the data in flits of 244 bytes (R288, R295). -/
def flitsOf (m : Msg) : Nat := (32 + m.len + 243) / 244

/-- Share of virtual channel v in flits, from `LNK_VC_CFG` (R293). -/
def sharesOf (cfg : Nat) : List Nat := (List.range 8).map (fun v => 64 * bitsOf cfg (8 * v) 8)

/-- Credit left for a virtual channel: the partner's share less (SENT − FREED) mod 2^16 (R293). -/
def vcCredit (l : Link) (v : Nat) : Nat :=
  let c := listAt {} l.vcs v
  listAt 0 l.peerShares v - (c.sent + 2 ^ 16 - c.freed) % 2 ^ 16

/-- Put a message into a link's transmit queue. -/
def Package.enqueue (p : Package) (k : Nat) (m : Msg) : Package :=
  p.modPort k (fun l =>
    let c := listAt {} l.vcs (vcOf m.cls)
    { l with vcs := listPut {} l.vcs (vcOf m.cls) { c with msgs := c.msgs ++ [m] } })

/-- The link of a mask with the most free credit on a virtual channel; a tie goes to the lowest index (R297). -/
def Package.bestLink (p : Package) (mask v : Nat) : Option Nat :=
  ((bitsSet Config.links mask).filter p.linkTakes).foldl (fun best k =>
    match best with
    | none => some k
    | some b => if vcCredit (p.port b) v < vcCredit (p.port k) v then some k else some b) none

/-- The lowest-index link of a mask that takes messages. -/
def Package.lowestLink (p : Package) (mask : Nat) : Option Nat := (bitsSet Config.links mask).find? p.linkTakes

/-- A message with no way out is discarded and counted; `LNK_NO_ROUTE` is raised at most once per millisecond (R298). -/
def Package.noRoute (p : Package) (dest : Nat) : Package :=
  let p := ({ p with lnk := { p.lnk with lastDest := dest } }).bump64 LNK_NO_ROUTE 1
  let quiet := match p.lnk.noRouteRaised with
    | none => false
    | some t => decide (p.clock < t + Config.msUnits)
  if quiet then p
  else ({ p with lnk := { p.lnk with noRouteRaised := some p.clock } }).raise .lnkPkg EV_LNK_NO_ROUTE p.beatNo (arg1Of dest 0)

/-- This package's node number, 0xFFF while unassigned (R295, R296). -/
def Package.node (p : Package) : Nat := if p.has LNK_NODE_VALID then p.get LNK_NODE_NODE else 0xFFF

/-- The route-table entry of a node in force (R299). -/
def Package.route (p : Package) (dest : Nat) : Nat := mapGet 0 p.lnk.routes dest

/-- HOST_REQ, HOST_RSP and EVENT take the lowest-index link of their entry; other classes choose by credit (R297). -/
def Package.pickRoute (p : Package) (dest cls : Nat) : Option Nat :=
  if cls = CLS_HOST_REQ || cls = CLS_HOST_RSP || cls = CLS_EVENT then p.lowestLink (p.route dest)
  else p.bestLink (p.route dest) (vcOf cls)

/-- A message of this package: its header with HOPS at `LNK_CFG.HOP_LIMIT` and SRC the package's node. -/
def Package.message (p : Package) (dest cls len : Nat) (body : MsgBody) : Msg :=
  { dest := dest, cls := cls, hops := p.get LNK_CFG_HOP_LIMIT, src := p.node, len := len, body := body }

/-- Send by a first-hop mask (R297). -/
def Package.sendMask (p : Package) (mask dest cls len : Nat) (body : MsgBody) : Package :=
  match p.bestLink mask (vcOf cls) with
  | some k => p.enqueue k (p.message dest cls len body)
  | none => p.noRoute dest

/-- Send by the route table (R297). -/
def Package.sendRoute (p : Package) (dest cls len : Nat) (body : MsgBody) : Package :=
  match p.pickRoute dest cls with
  | some k => p.enqueue k (p.message dest cls len body)
  | none => p.noRoute dest

/-- Send a link-local BEAT message on a link (R297). -/
def Package.sendBeat (p : Package) (k len : Nat) (body : MsgBody) : Package :=
  if p.linkTakes k then p.enqueue k (p.message 0 CLS_BEAT len body) else p

/-- A message to another unit of this package, over shrouds or stays (R12). -/
def Package.sendInside (p : Package) (cls len : Nat) (body : MsgBody) : Package :=
  { p with inFlight := p.inFlight ++ [p.message p.node cls len body] }

/-- An intra-package message has arrived: it is no longer under way. -/
def Package.arrived (p : Package) (body : MsgBody) : Package :=
  { p with inFlight := p.inFlight.eraseP (fun m => decide (m.body = body)) }

/-! ### Stage and channel states -/
def STG_DISABLED : Nat := 0
def STG_OPENING : Nat := 1
def STG_READY : Nat := 2
def STG_DRAINING : Nat := 3
def STG_HELD : Nat := 4

def CH_CLOSED : Nat := 0
def CH_OPENING : Nat := 1
def CH_OPEN : Nat := 2
def CH_DOWN : Nat := 3

/-- Set a stage HELD with a HOLD_CAUSE: 1 layer invalid, 2 version absent, 3 check fail, 4 fault. A stage that drains or is DISABLED
keeps its state, and a HELD stage its first cause. -/
def Package.holdStage (p : Package) (s cause : Nat) : Package :=
  if p.stgState s = STG_OPENING || p.stgState s = STG_READY then
    (p.put (STG_STATUS_STATE s) STG_HELD).put (STG_STATUS_HOLD_CAUSE s) cause
  else p

def Package.modChan (p : Package) (s n : Nat) (f : Channel → Channel) : Package :=
  p.modStg s (fun x => { x with chans := listPut {} x.chans n (f (listAt {} x.chans n)) })

/-- A channel goes DOWN and raises `STG_CHAN_DOWN` (R61). -/
def Package.chanDown (p : Package) (s n : Nat) : Package :=
  let st := p.get (STG_CH_STATE_STATE s n)
  if st = CH_OPENING || st = CH_OPEN then
    ((p.put (STG_CH_STATE_STATE s n) CH_DOWN).modChan s n (fun c => { c with openSent := none })).raise (.stg s) EV_STG_CHAN_DOWN
      p.beatNo (arg1Of s n)
  else p

/-- Channels whose links are all gone: route 2 and no UP link in `STG_CHn_LINKS` (R301). -/
def Package.chansWithoutLink (p : Package) : List (Nat × Nat) :=
  allStages.flatMap (fun s => ((List.range 4).filter (fun n =>
    p.has (STG_CH_CFG_ENABLE s n) && decide (p.get (STG_CH_CFG_ROUTE s n) = 2)
      && !((bitsSet Config.links (p.rd (STG_CH_LINKS s n))).any p.linkUp))).map (fun n => (s, n)))

end Sys2Proof.Machine
end

