-- ==== Sys2Proof/Machine/Sched.lean ====
section
/-! DEFINITION. What the Halyard sees before it starts a phase: the version ring (R64 to R70), the window's next phase (R78 to R85), the
start conditions (R30, R37, R63, R67 to R69, R169, R194) and, from them, the idle cause of a stage at this moment (R71, R88). The
accounting of stages and clusters adds the time that passes to the cause in force (R71, R372). -/

namespace Sys2Proof.Machine

open Sys2Proof

/-! ### Beat states (`BEAT_STATUS.STATE`) -/
def BEAT_DISABLED : Nat := 0
def BEAT_FREE_RUN : Nat := 1
def BEAT_ACQUIRING : Nat := 2
def BEAT_ALIGNED : Nat := 3
def BEAT_HOLDOVER : Nat := 4
def BEAT_UNALIGNED : Nat := 5

def Package.beatState (p : Package) : Nat := p.get BEAT_STATUS_STATE

/-- Ticks come: the beat is enabled and the package holds an epoch (R351). -/
def Package.ticking (p : Package) : Bool := decide (p.beatState ≠ BEAT_DISABLED) && p.beat.epochHeld

/-- The period of the open beat in clock units: the pending one once its beat has come (R20, R43). -/
def Package.periodUnits (p : Package) : Nat :=
  match p.beat.pend with
  | some q => if q.beat ≤ p.beatNo then q.period * 2560 else p.get BEAT_PERIOD_TICKS * 2560
  | none => p.get BEAT_PERIOD_TICKS * 2560

/-- The landing window of the open beat in clock units: thousandths of the period, rounded down to 10 ns. -/
def Package.landingUnits (p : Package) : Nat :=
  match p.beat.pend with
  | some q => if q.beat ≤ p.beatNo then q.period * q.landing / 1000 * 2560 else p.get BEAT_PERIOD_TICKS * p.get BEAT_LANDING_WINDOW / 1000 * 2560
  | none => p.get BEAT_PERIOD_TICKS * p.get BEAT_LANDING_WINDOW / 1000 * 2560

/-- Domain time of the open beat's work deadline: the start of the landing window. -/
def Package.deadline (p : Package) : Nat := (p.beat.lastTick + p.periodUnits - p.landingUnits) % 2 ^ 64

/-- Time is before the work deadline of the open beat. -/
def Package.beforeDeadline (p : Package) : Bool := decide (dsub p.dtime p.deadline < 0)

/-! ### Version ring (R64) -/
def V_FREE : Nat := 0
def V_CURRENT : Nat := 1
def V_PENDING : Nat := 2
def V_OLDER : Nat := 3

/-- Role field of ring slot n. -/
def vRoleFld (s n : Nat) : Fld := ⟨if n < 2 then STG_VINFO_01 s else STG_VINFO_23 s, 3 * (n % 2), 3⟩

def Package.vRole (p : Package) (s n : Nat) : Nat := p.get (vRoleFld s n)
def Package.setVRole (p : Package) (s n r : Nat) : Package := p.put (vRoleFld s n) r
def Package.vNum (p : Package) (s n : Nat) : Nat := p.rd (STG_VNUM s n)

/-- Slots of the ring. -/
def Package.ring (p : Package) (s : Nat) : List Nat := List.range (p.get (STG_VRING_CFG_DEPTH s))

def Package.staleMax (p : Package) (s : Nat) : Nat := p.get (STG_VRING_CFG_STALE_MAX s)

/-- Slots that hold a version: CURRENT and OLDER. -/
def Package.heldSlots (p : Package) (s : Nat) : List Nat :=
  (p.ring s).filter (fun n => p.vRole s n = V_CURRENT || p.vRole s n = V_OLDER)

def Package.currentSlot (p : Package) (s : Nat) : Option Nat := (p.ring s).find? (fun n => p.vRole s n = V_CURRENT)
def Package.pendingSlot (p : Package) (s : Nat) : Option Nat := (p.ring s).find? (fun n => p.vRole s n = V_PENDING)

/-- Number of the current version. -/
def Package.currentVersion (p : Package) (s : Nat) : Nat :=
  match p.currentSlot s with
  | some n => p.vNum s n
  | none => 0

/-- The slot that holds a version number. -/
def Package.slotOf (p : Package) (s v : Nat) : Option Nat := (p.heldSlots s).find? (fun n => p.vNum s n = v)

def minOf : List Nat → Option Nat
  | [] => none
  | x :: xs => match minOf xs with
    | none => some x
    | some y => some (min x y)

def maxOf : List Nat → Option Nat
  | [] => none
  | x :: xs => match maxOf xs with
    | none => some x
    | some y => some (max x y)

/-- Latest resolved step; 0xFFFF_FFFF_FFFF stands for −1 (R64). -/
def Package.resolved (p : Package) (s : Nat) : Int :=
  let r := p.get (STG_VRING_STATE_RESOLVED_STEP s)
  if r = 2 ^ 48 - 1 then -1 else (r : Int)

/-- Step k − 1 − STALE_MAX is resolved (R67, R169). -/
def Package.stepReady (p : Package) (s k : Nat) : Bool := decide ((k : Int) - 1 - (p.staleMax s : Int) ≤ p.resolved s)

/-- A new tag for step k: the newest held version at most k − s, else the oldest held (R67). -/
def Package.freshTag (p : Package) (s k : Nat) : Nat :=
  let held := (p.heldSlots s).map (p.vNum s)
  match maxOf (held.filter (fun v => decide ((v : Int) ≤ (k : Int) - (p.staleMax s : Int)))) with
  | some v => v
  | none => (minOf held).getD 0

/-- The tag of step k on a FIRST stage: fixed once given (R67). -/
def Package.tagOf (p : Package) (s k : Nat) : Nat :=
  match (p.stg s).tag with
  | some (k', v) => if k' = k then v else p.freshTag s k
  | none => p.freshTag s k

/-! ### The window's next phase (R78, R80, R84) -/

/-- Window states of Table 4-2. -/
def WIN_IDLE : Nat := 0
def WIN_FWD : Nat := 1
def WIN_BWD : Nat := 2
def WIN_ENDING : Nat := 3
def WIN_STOPPED : Nat := 4

/-- The phase that a window names next: direction, index in its half, micro-batch and step. -/
def Group.next (g : Group) : Option (Dir × Nat × Nat × Nat) :=
  match g.cur with
  | none => none
  | some w =>
    if g.started < w.fwdCount then some (.fwd, g.started, w.fwdBase + g.started, w.step)
    else if g.started < w.fwdCount + w.bwdCount then
      some (.bwd, g.started - w.fwdCount, w.bwdBase + (g.started - w.fwdCount), w.step - w.lag)
    else none

/-- `HAL_WIN_STATUS.STATE` of a leader. -/
def Package.winState (p : Package) (g : Nat) : Nat := p.get (HAL_WIN_STATUS_STATE g)

/-- Enabled channels of a direction. -/
def Package.channelsOf (p : Package) (s : Nat) (d : Dir) : List Nat :=
  (List.range 4).filter (fun n => p.has (STG_CH_CFG_ENABLE s n) && decide (p.get (STG_CH_CFG_DIR s n) = qIndex d))

/-- The stash record of a step and micro-batch (R85). -/
def Stage.record (x : Stage) (step mb : Nat) : Option StashRec :=
  x.stash.find? (fun r => r.step = step && r.microBatch = mb && !r.freed)

/-! ### Idle causes (Table 3-5) -/
def C_BUBBLE : Nat := 0
def C_WAIT_UPSTREAM : Nat := 1
def C_WAIT_CREDIT : Nat := 2
def C_WAIT_REDUCTION : Nat := 3
def C_WAIT_GATHER : Nat := 4
def C_WAIT_MEMORY : Nat := 5
def C_WAIT_STASH : Nat := 6
def C_THROTTLE_POWER : Nat := 7
def C_THROTTLE_THERMAL : Nat := 8
def C_TRIM : Nat := 9
def C_FAULT_RECOVERY : Nat := 10
def C_SNAPSHOT : Nat := 11
def C_DRAIN : Nat := 12
def C_SHADOW : Nat := 13
def C_HOST_HOLD : Nat := 14
def C_OTHER : Nat := 15
/-- Beyond the causes: busy with a phase, busy with a RUN. -/
def C_BUSY : Nat := 16
def C_RUN : Nat := 17

/-- Place of each cause in the precedence of Table 3-5, by code. -/
def causeRank (c : Nat) : Nat := listAt 16 [15, 8, 9, 10, 11, 13, 12, 6, 5, 14, 1, 3, 4, 7, 2, 16] c

/-- The cause of higher precedence. -/
def higherCause (a b : Nat) : Nat := if causeRank a ≤ causeRank b then a else b

/-- Any stage of the group has `HAL_CTRL.HOLD` set (R86). -/
def Package.groupHeld (p : Package) (g : Nat) : Bool := (p.members g).any (fun s => p.has (HAL_CTRL_HOLD s))

/-- A fold of a tie that the stage uses, for an earlier step, runs (R194). -/
def Package.foldBlocks (p : Package) (s step : Nat) : Bool := p.folds.any (fun f => f.stages.contains s && decide (f.step < step))

/-- A cluster of the stage is being refilled with a spare (R383): `CLU_STATUS.STATE` 1. -/
def Package.refilling (p : Package) (s : Nat) : Bool := (p.stg s).clusters.any (fun c => p.get (CLU_STATUS_STATE c) = 1)

/-- The version that the next phase would run with, if it is settled: the FIRST stage's tag, the input's tag, or the record's. -/
def Package.phaseVersion (p : Package) (s : Nat) (d : Dir) (step mb : Nat) (tag : Nat) : Nat :=
  match d with
  | .bwd => match (p.stg s).record step mb with
    | some r => r.version
    | none => tag
  | .fwd => if p.has (STG_CTRL_FIRST s) then p.tagOf s step else tag

/-- Why the stage's next phase cannot start at this moment, beyond its group's window and its own previous phase: the first unmet
condition in the order of Table 3-5, none when it can start. A missing input outranks a credit and a resolution (R63). -/
def Package.startBlock (p : Package) (s : Nat) (d : Dir) (step mb : Nat) : Option Nat :=
  let q := p.queue s d
  match q.head with
  | none => some C_WAIT_UPSTREAM
  | some (i, st) =>
    if st ≠ .valid then some C_WAIT_UPSTREAM
    else
      let chans := p.channelsOf s d
      let tag := match p.descOf s d i with
        | some e => e.version
        | none => 0
      if chans.any (fun n => p.get (STG_CH_STATE_STATE s n) = CH_OPEN && p.get (STG_CH_STATE_CREDITS s n) = 0) then some C_WAIT_CREDIT
      else if !p.stepReady s step then some C_WAIT_REDUCTION
      else if p.currentVersion s < p.phaseVersion s d step mb tag then some C_WAIT_REDUCTION
      else if d = .bwd && p.foldBlocks s step then some C_WAIT_REDUCTION
      else if chans.any (fun n => p.get (STG_CH_STATE_STATE s n) ≠ CH_OPEN) then some C_OTHER
      else none

/-! ### The work of a running phase (R71, R249) -/

def Package.core (p : Package) (c k : Nat) : Core := mapGet {} p.cores (32 * c + k)

/-- Physical core at logical position q of a cluster (Table 15-8). -/
def Package.coreAt (p : Package) (c q : Nat) : Nat :=
  if q < 8 then bitsOf (p.rd (CLU_CORE_MAP_0 c)) (8 * q) 5 else bitsOf (p.rd (CLU_CORE_MAP_1 c)) (8 * (q - 8)) 5

/-- The active cores of a cluster: those mapped to its logical positions. -/
def Package.activeCores (p : Package) (c : Nat) : List Nat := (List.range 16).map (p.coreAt c)

/-- Cores of a stage in rank order (R101): (cluster, physical core). -/
def Package.stageCores (p : Package) (s : Nat) : List (Nat × Nat) :=
  (p.stg s).clusters.flatMap (fun c => (p.activeCores c).map (fun k => (c, k)))

/-- Lists that a phase runs on each core: a recompute runs every forward list first (R189). -/
def Package.listCount (p : Package) (s : Nat) (ph : Phase) : Nat := if ph.recompute then 2 * p.layerCount s else p.layerCount s

/-- The list at position n of a phase: its layer index, whether it is the forward list, and whether it recomputes. -/
def Package.listAtPos (p : Package) (s : Nat) (ph : Phase) (n : Nat) : Nat × Bool × Bool :=
  match ph.dir with
  | .fwd => (n, true, false)
  | .bwd =>
    if ph.recompute && n < p.layerCount s then (n, true, true)
    else
      let m := if ph.recompute then n - p.layerCount s else n
      (p.layerCount s - 1 - m, false, false)

/-- A layer is ready for a version (R249). -/
def Package.layerReady (p : Package) (s version i : Nat) : Bool :=
  let g := mapGet {} p.gathers s
  !(decide (g.version = version) && g.notReady.contains i) && !g.more.contains version

/-- A core holds a command that waits. -/
def Core.waits (co : Core) : Bool :=
  co.seq.isSome || !co.behind.isEmpty || !co.mx.isEmpty || !co.ac.isEmpty || !co.ve.isEmpty || !co.dm.isEmpty

/-- A core runs the lists of a stage's phase. -/
def Core.runs (co : Core) (s : Nat) (ph : Phase) : Bool := decide (co.serving = some (1 + s, ph.startAt)) && !co.stopped

/-- The layer of a core's next list in a phase is not ready: the sequencer holds that list (R249). -/
def Package.gatherHolds (p : Package) (s : Nat) (ph : Phase) (co : Core) : Bool :=
  decide (co.left = 0) && !co.waits && decide (co.layerPos < p.listCount s ph) && !p.layerReady s ph.version (p.listAtPos s ph co.layerPos).1

/-- A core issues work of a stage's phase: its array streams, or its commands go on. A core that has run all its lists counts as issuing to
the compute end (log entry 6). -/
def Package.coreIssues (p : Package) (s : Nat) (ph : Phase) (co : Core) : Bool :=
  co.runs s ph && (decide (p.clock < co.busyUntil)
    || (if 0 < co.left then co.seq.isNone && co.behind.isEmpty else !co.waits && !p.gatherHolds s ph co))

/-- Why no core of a list issues work of a stage's running phase; none where one does. A core that waits for a barrier or for expert
rows counts as OTHER (R173, R215), one whose cluster still runs another phase as BUBBLE (R49). -/
def Package.phaseWait (p : Package) (s : Nat) (ph : Phase) (cores : List Core) : Option Nat :=
  if cores.isEmpty || cores.any (p.coreIssues s ph) then none
  else
    let mine := cores.filter (fun co => co.runs s ph)
    if mine.any (p.gatherHolds s ph) then some C_WAIT_GATHER
    else if mine.any (fun co => decide (co.array = .trim)) then some C_TRIM
    else if mine.isEmpty then some C_BUBBLE
    else some C_OTHER

/-- Cores of a stage, as they stand. -/
def Package.coresOf (p : Package) (cores : List (Nat × Nat)) : List Core := cores.map (fun e => p.core e.1 e.2)

/-- What a stage's running compute counts at this moment: none where no phase computes, C_BUSY where a core issues its work. -/
def Package.computeCause (p : Package) (s : Nat) : Option Nat :=
  match (p.stg s).phase with
  | none => none
  | some ph => if ph.endAt.isSome then none else some ((p.phaseWait s ph (p.coresOf (p.stageCores s))).getD C_BUSY)

/-- The idle cause of a stage at this moment, or C_BUSY while a core issues work of its phase (R71, R88). DESIGN CHOICE: where the spec
gives no duration, work is taken as issued (log entry 6). -/
def Package.stageCause (p : Package) (s : Nat) : Nat :=
  let x := p.stg s
  let g := p.leader s
  let computing := p.computeCause s
  if computing = some C_BUSY && !p.refilling s then C_BUSY
  else if p.refilling s || !p.fab.fences.isEmpty || x.recovery || p.beatState = BEAT_UNALIGNED || x.resumeWait
      || (p.stgState s = STG_HELD && p.get (STG_STATUS_HOLD_CAUSE s) = 4) then C_FAULT_RECOVERY
  else if p.groupHeld g then C_HOST_HOLD
  else if p.snapPause then C_SNAPSHOT
  else if p.stgState s = STG_DRAINING then C_DRAIN
  else if x.clusters.any (fun c => p.thermalDies.contains (c / 72)) then C_THROTTLE_THERMAL
  else if x.clusters.any (fun c => p.powerDies.contains (c / 72)) then C_THROTTLE_POWER
  else if computing.isSome then computing.getD C_OTHER
  else if p.stgState s = STG_HELD || p.winState g = WIN_STOPPED || p.beatState = BEAT_FREE_RUN || p.beatState = BEAT_ACQUIRING then C_OTHER
  else match (p.grp g).cur, (p.grp g).next with
    | some w, some (d, _, mb, step) =>
      if w.owner ≠ s then C_BUBBLE
      else if x.phase.isSome then (match x.phase with
        | some ph => if ph.beat < p.beatNo then C_SHADOW else C_BUBBLE
        | none => C_BUBBLE)
      else if x.stashStalled then C_WAIT_STASH
      else if x.slotUsed then C_BUBBLE
      else if x.gaveUp.isSome then x.gaveUp.getD C_OTHER
      else (p.startBlock s d step mb).getD C_OTHER
    | _, _ => if x.phase.isSome then C_SHADOW else C_BUBBLE

/-- Stages that count: not DISABLED. -/
def Package.countingStages (p : Package) : List Nat := p.stages.map (·.1) |>.filter (fun s => p.stgState s ≠ STG_DISABLED)

/-- Add `dt` to element c of an account. -/
def acctAdd (l : List Nat) (c dt : Nat) : List Nat := listPut 0 l c (listAt 0 l c + dt)

/-- The array clock of a die, MHz. -/
def Package.clockOf (p : Package) (d : Nat) : Nat := mapGet 1500 p.aclk d

/-- Count `dt` at an array clock: the share of the time base that the clock does not run goes to THROTTLE_THERMAL (R484). -/
def acctSplit (l : List Nat) (c mhz dt : Nat) : List Nat :=
  if 1500 ≤ mhz then acctAdd l c dt else acctAdd (acctAdd l c (dt * mhz / 1500)) C_THROTTLE_THERMAL (dt - dt * mhz / 1500)

/-- The slowest clock of a stage's dies. -/
def Package.stageClock (p : Package) (s : Nat) : Nat := (p.stg s).clusters.foldl (fun m c => min m (p.clockOf (c / 72))) 1500

/-- Clusters bound to a counting stage or held by a RUN. -/
def Package.boundClusters (p : Package) : List Nat :=
  (p.countingStages.flatMap (fun s => (p.stg s).clusters) ++ p.runs.flatMap (fun (r : RunJob) => (List.range r.count).map (fun i => 72 * r.die + r.first + i))).eraseDups

/-- What a cluster does at this moment (R372): busy with the work of a phase or a RUN, else the highest cause that its stages count; OTHER
where they count none, BUBBLE where it has none. -/
def Package.clusterCause (p : Package) (c : Nat) : Nat :=
  if p.runs.any (fun r => decide (72 * r.die + r.first ≤ c) && decide (c < 72 * r.die + r.first + r.count)) then C_RUN
  else
    let bound := p.countingStages.filter (fun s => (p.stg s).clusters.contains c)
    let busy := bound.any (fun s => match (p.stg s).phase with
      | some ph => ph.endAt.isNone && !p.refilling s && (p.coresOf ((p.activeCores c).map (fun k => (c, k)))).any (p.coreIssues s ph)
      | none => false)
    if busy then C_BUSY
    else
      let causes := (bound.map p.stageCause).filter (fun e => e ≠ C_BUSY)
      if bound.isEmpty then C_BUBBLE
      else causes.foldl higherCause C_OTHER

/-- The next phase of a stage's group, where the stage owns the current window. -/
def Package.nextOf (p : Package) (s : Nat) : Option (Dir × Nat × Nat × Nat) :=
  let g := p.grp (p.leader s)
  match g.cur with
  | none => none
  | some w => if w.owner = s then g.next else none

/-- For the stage's next phase: its input is not valid; some other start condition is unmet (R39). -/
def Package.unmet (p : Package) (s : Nat) : Bool × Bool :=
  match p.nextOf s with
  | none => (false, false)
  | some (d, _, mb, step) =>
    let noInput := match (p.queue s d).head with
      | some (_, st) => decide (st ≠ .valid)
      | none => true
    let cause := p.startBlock s d step mb
    (noInput, (p.stg s).phase.isSome || (p.stg s).stashStalled || p.groupHeld (p.leader s) || p.snapPause || p.refilling s
      || (cause.isSome && cause ≠ some C_WAIT_UPSTREAM))

/-- Let `dt` pass: every counting stage and bound cluster counts it to the cause in force, then the clock runs on. -/
def Package.pass (p : Package) (dt : Nat) : Package :=
  if dt = 0 then p
  else
    let p1 := p.countingStages.foldl (fun a s =>
      let u := p.unmet s
      a.modStg s (fun x => { x with acct := acctSplit x.acct (p.stageCause s) (p.stageClock s) dt,
                                    inputUnmet := if u.1 then p.clock + dt else x.inputUnmet,
                                    otherUnmet := if u.2 then p.clock + dt else x.otherUnmet })) p
    let p2 := p.boundClusters.foldl (fun a c => { a with cluAcct := mapSet [] a.cluAcct c (acctSplit (mapGet [] a.cluAcct c) (p.clusterCause c) (p.clockOf (c / 72)) dt) }) p1
    p2.elapse dt

end Sys2Proof.Machine
end

