-- ==== Sys2Proof/Machine/Beat.lean ====
section
/-! DEFINITION. The beat unit (02_beat_timing.md): elections and roles (R24 to R29), acquiring and steering (R31, R32), the external
reference (R34, R35), the beat output (R36), tick notices (R23) and pending period changes (R43). TICK itself stands in
Machine/Tick.lean. A command that happens at a moment carries `dt`, the time that passes before it. -/

namespace Sys2Proof.Machine

open Sys2Proof

def ROLE_MEMBER : Nat := 0
def ROLE_GROUP : Nat := 1
def ROLE_DOMAIN : Nat := 2

def Package.role (p : Package) : Nat := p.get BEAT_STATUS_ROLE

def Package.modBeat (p : Package) (f : BeatUnit → BeatUnit) : Package := { p with beat := f p.beat }

def Package.setBeatState (p : Package) (st : Nat) : Package := p.put BEAT_STATUS_STATE st

/-- Eligible for domain master (R24, R25): configured, or elected mode with CANDIDATE, aligned or free-running, and the reference
locked where it is required. -/
def Package.eligible (p : Package) : Bool :=
  p.get BEAT_CTRL_ROLE_MODE = 1
    || (p.get BEAT_CTRL_ROLE_MODE = 0 && p.has BEAT_CTRL_CANDIDATE
        && (p.beatState = BEAT_FREE_RUN || p.beatState = BEAT_ALIGNED)
        && (!p.has BEAT_CTRL_REF_REQUIRED || p.has BEAT_STATUS_REF_LOCKED))

/-- Eligible for group master (R25). -/
def Package.groupEligible (p : Package) : Bool :=
  p.get BEAT_CTRL_ROLE_MODE = 2
    || (p.get BEAT_CTRL_ROLE_MODE = 0 && p.has BEAT_CTRL_GROUP_CANDIDATE && (p.beatState = BEAT_FREE_RUN || p.beatState = BEAT_ALIGNED))

/-- The package is a host bridge (R308). -/
def Package.isBridge (p : Package) : Bool := decide (p.get LNK_HB_STATUS_ROLE ≠ 0)

/-- A configured master outranks an elected one; among equals the lowest serial wins (R24, R25). -/
def betterMaster (a b : Bool × Nat) : Bool := (a.1 && !b.1) || (a.1 == b.1 && decide (a.2 < b.2))

/-- Announces heard on up links from peers of the same domain (R26), other than those that name this package as master. -/
def Package.peers (p : Package) : List (Nat × Announce) :=
  p.beat.heard.filter (fun e => p.linkTakes e.1 && decide (e.2.domain = p.get BEAT_DOMAIN_ID) && decide (e.2.best ≠ some p.serial))

/-- The better of two claims to a mastership. -/
def bestClaim (acc : Option (Bool × Nat)) (c : Bool × Nat) : Option (Bool × Nat) :=
  match acc with
  | none => some c
  | some a => if betterMaster c a then some c else some a

/-- The uplink of a view: among the links whose peer names the master, the fewest hops, then the link of the group master, then the
lowest index (R27). -/
def bestUplink (master group : Nat) (l : List (Nat × Announce)) : Option (Nat × Nat) :=
  (l.filter (fun e => decide (e.2.best = some master))).foldl (fun acc e =>
    let c := (e.1, e.2.hops + 1)
    match acc with
    | none => some c
    | some a =>
      if c.2 < a.2 then some c
      else if c.2 = a.2 && decide (e.2.serial = group) && !(l.any (fun f => f.1 = a.1 && f.2.serial = group)) then some c
      else some a) none

/-- The package's view from its own eligibility and the announces it heard (R25 to R27). -/
def Package.viewNow (p : Package) : View :=
  let own : List (Bool × Nat) := if p.eligible then [(p.get BEAT_CTRL_ROLE_MODE = 1, p.serial)] else []
  let claims := own ++ p.peers.filterMap (fun e => e.2.best.map (fun s => (e.2.bestConfigured, s)))
  let gown : List (Bool × Nat) := if p.groupEligible then [(p.get BEAT_CTRL_ROLE_MODE = 2, p.serial)] else []
  let gclaims := gown ++ (p.peers.filter (fun e => decide (e.2.group = p.get BEAT_DOMAIN_GROUP))).filterMap
    (fun e => e.2.groupBest.map (fun s => (e.2.groupConfigured, s)))
  let g := gclaims.foldl bestClaim none
  match claims.foldl bestClaim none with
  | none => { groupBest := g.map (·.2), groupConfigured := (g.map (·.1)).getD false }
  | some m =>
    let up := if m.2 = p.serial then none else bestUplink m.2 ((g.map (·.2)).getD 0) p.peers
    { best := some m.2, bestConfigured := m.1, hops := (up.map (·.2)).getD 0, uplink := up.map (·.1),
      groupBest := g.map (·.2), groupConfigured := (g.map (·.1)).getD false }

/-- Start, or restart, an election (R26). -/
def Package.startElection (p : Package) : Package :=
  if p.has BEAT_STATUS_ELECTION then p
  else (p.put BEAT_STATUS_ELECTION 1).modBeat (fun b => { b with electionSince := p.clock, lostRaised := false })

/-- Name an uplink and its hops in `BEAT_UPLINK`; 0x1F for none (R27). -/
def Package.setUplink (p : Package) (k : Option Nat) (hops : Nat) : Package :=
  (p.put BEAT_UPLINK_LINK (k.getD 0x1F)).put BEAT_UPLINK_HOPS hops

/-- A package that becomes UNALIGNED raises `BEAT_ALIGN_LOST` (R27, R29). -/
def Package.unaligned (p : Package) : Package := (p.setBeatState BEAT_UNALIGNED).raise .beat EV_BEAT_ALIGN_LOST p.beatNo 0

/-- Take domain time on another uplink: at more than 8 hops the package becomes UNALIGNED (R27). -/
def Package.takeUplink (p : Package) (k : Option Nat) (hops : Nat) : Package :=
  let p := p.setUplink k hops
  if 8 < hops && decide (p.beatState ≠ BEAT_UNALIGNED) then p.unaligned else p

/-- Take a fresh view: a changed view starts its count anew; a view that names another master than the one in force runs an
election, and one that names it keeps the uplink at the fewest hops (R26, R27). -/
def Package.refreshView (p : Package) : Package :=
  let v := p.viewNow
  if v = p.beat.view then p
  else
    let p := p.modBeat (fun b => { b with view := v, viewSince := p.clock })
    if v.best = some (p.rd BEAT_MASTER_ID) && !p.has BEAT_STATUS_ELECTION then p.takeUplink v.uplink v.hops
    else p.startElection

/-! ### Slewing and stepping (R29) -/

/-- `BEAT_HOLDOVER_CFG.STEP_LIMIT` in clock units. -/
def Package.stepLimit (p : Package) : Int := (p.get BEAT_HOLDOVER_CFG_STEP_LIMIT * 256 : Nat)

/-- Step domain time back by an offset. -/
def Package.stepBack (p : Package) (off : Int) : Package := p.setDtime (ofSigned 64 ((p.dtime : Int) - off))

/-- The next boundary after now, counting whole periods from a known tick of a beat: its beat number and domain time. -/
def nextBoundary (now tick beat period : Nat) : Nat × Nat :=
  let d := dsub now tick
  let k := if d < 0 then 0 else d.toNat / (max period 1) + 1
  (beat + k, (tick + k * period) % 2 ^ 64)

/-- Take the master's epoch, period, landing window, pending change and beat number from a time message (R31). -/
def Package.takeDomain (p : Package) (m : TimeMsg) : Package :=
  let per := m.period * 2560
  let nb := nextBoundary p.dtime m.beatTick m.beat per
  let p := ((p.wr BEAT_EPOCH m.epoch).put BEAT_PERIOD_TICKS m.period).put BEAT_LANDING_WINDOW m.landing
  let p := (p.wr BEAT_NUMBER (nb.1 - 1)).put BEAT_STATUS_PERIOD_PENDING (b2n m.pend.isSome)
  p.modBeat (fun b => { b with epochHeld := true, ticked := decide (0 < nb.1), nextTick := nb.2, lastTick := (nb.2 + 2 ^ 64 - per) % 2 ^ 64,
                               pend := m.pend })

/-- An offset is within ±10 ns (R31). -/
def smallOffset (off : Int) : Bool := decide (-2560 ≤ off) && decide (off ≤ 2560)

/-- Count an offset towards the four consecutive good ones, and enter ALIGNED at the fourth (R31). -/
def Package.countGood (p : Package) (off : Int) : Package :=
  let n := if smallOffset off then p.beat.goodRun + 1 else 0
  let p := p.modBeat (fun b => { b with goodRun := n, slew := -off })
  if 4 ≤ n then p.setBeatState BEAT_ALIGNED else p

/-- Too large an offset waits for REJOIN (R29). -/
def Package.tooLarge (p : Package) (off : Int) : Package :=
  (p.modBeat (fun b => { b with stepWaiting := some off, goodRun := 0 })).unaligned

/-- What an offset does in each state (R29, R31). -/
def Package.steer (p : Package) (m : TimeMsg) (off : Int) : Package :=
  let within := decide (-(p.stepLimit) < off) && decide (off < p.stepLimit)
  if p.beatState = BEAT_ACQUIRING then
    if !p.beat.measured then p
    else if !p.beat.stepped then
      ((p.stepBack off).takeDomain m).modBeat (fun b => { b with stepped := true, goodRun := 0, slew := 0 })
    else p.countGood off
  else if p.beatState = BEAT_ALIGNED || p.beatState = BEAT_HOLDOVER then
    if !within then p.tooLarge off
    else if p.beatState = BEAT_ALIGNED then p.modBeat (fun b => { b with slew := -off })
    else p.countGood off
  else if p.beatState = BEAT_UNALIGNED then p.modBeat (fun b => { b with stepWaiting := some off })
  else p

/-! ### TICK_NOTICE (R23) -/

def tickNotice (dt : Nat) (p : Package) : Package :=
  let p := p.pass dt
  if !p.ticking then p
  else p.modBeat (fun b => { b with noticeDies := p.dies.filter p.dieActive, noticeBeat := if b.ticked then p.beatNo + 1 else 0 })

/-! ### PERIOD_CHANGE (R43) -/

/-- The pending values take effect: the registers, PERIOD_PENDING and the event. -/
def Package.applyPeriod (p : Package) (q : PendPeriod) : Package :=
  let p := ((p.put BEAT_PERIOD_TICKS q.period).put BEAT_LANDING_WINDOW q.landing).put BEAT_STATUS_PERIOD_PENDING 0
  (p.modBeat (fun b => { b with pend := none })).raise .beat EV_BEAT_PERIOD_CHANGE p.beatNo 0

def periodChange (p : Package) : Package :=
  match p.beat.pend with
  | some q => if q.beat ≤ p.beatNo then p.applyPeriod q else p
  | none => p

/-! ### ANNOUNCE_RECEIVE (R26) -/

def announceReceive (dt link : Nat) (a : Announce) (p : Package) : Package :=
  let p := p.pass dt
  if !p.has BEAT_CTRL_ENABLE || a.domain ≠ p.get BEAT_DOMAIN_ID || !p.linkTakes link then p
  else (p.modBeat (fun b => { b with heard := mapPut b.heard link a })).refreshView

/-! ### ELECTION_END (R26, R29, R31) -/

/-- The epoch of a newly formed domain: the first whole millisecond, or with a locked reference the first 1 PPS edge, at least 2 ms
after the election ends. -/
def Package.newEpoch (p : Package) : Nat :=
  let t := p.dtime + 2 * Config.msUnits
  if p.has BEAT_STATUS_REF_LOCKED then
    let e := p.beat.lastRefEdge
    (e + roundUp (t - min e t) Config.secUnits) % 2 ^ 64
  else roundUp t Config.msUnits % 2 ^ 64

/-- This package becomes, or stays, domain master. -/
def Package.becomeMaster (p : Package) : Package :=
  let new := decide (p.role ≠ ROLE_DOMAIN)
  let p := ((p.wr BEAT_MASTER_ID p.serial).setUplink none 0).put BEAT_STATUS_ROLE ROLE_DOMAIN
  let p := if p.beat.epochHeld then p
    else ((p.wr BEAT_EPOCH p.newEpoch).wr BEAT_NUMBER 0).modBeat (fun b => { b with epochHeld := true, ticked := false, nextTick := p.newEpoch })
  let p := p.setBeatState (if p.has BEAT_CTRL_REF_REQUIRED && !p.has BEAT_STATUS_REF_LOCKED then BEAT_ACQUIRING else BEAT_ALIGNED)
  p.when new (fun p => p.raise .beat EV_BEAT_MASTER_CHANGE p.beatNo 0)

/-- This package follows another master over its uplink. -/
def Package.followMaster (p : Package) (m : Nat) (v : View) : Package :=
  let p := ((p.wr BEAT_MASTER_ID m).takeUplink v.uplink v.hops).put BEAT_STATUS_ROLE ROLE_MEMBER
  let p := p.modBeat (fun b => { b with measured := false, silentBeats := 0 })
  if p.beatState = BEAT_ALIGNED || p.beatState = BEAT_UNALIGNED || (p.beatState = BEAT_HOLDOVER && p.beat.epochHeld) then p
  else (p.setBeatState BEAT_ACQUIRING).modBeat (fun b => { b with acquiringSince := p.clock, acquireRaised := false, stepped := false, goodRun := 0 })

/-- The group master settles with the election; a group without a candidate takes its host-bridge package (R25). -/
def Package.settleGroup (p : Package) (v : View) : Package :=
  let g := match v.groupBest with
    | some s => some s
    | none => if p.isBridge then some p.serial else none
  match g with
  | none => p
  | some s =>
    let p := p.wr BEAT_GROUP_MASTER_ID s
    if s = p.serial && p.role ≠ ROLE_DOMAIN then p.put BEAT_STATUS_ROLE ROLE_GROUP else p

def electionEnd (dt : Nat) (p : Package) : Package :=
  let p := p.pass dt
  match p.beat.view.best with
  | none => p
  | some m =>
    if !p.has BEAT_STATUS_ELECTION || p.clock < p.beat.viewSince + 4 * p.periodUnits then p
    else
      let p := p.put BEAT_STATUS_ELECTION 0
      let p := if m = p.serial then p.becomeMaster else p.followMaster m p.beat.view
      p.settleGroup p.beat.view

/-! ### ELECTION_TIMEOUT (R26) and ACQUIRE_TIMEOUT (R31) -/

def electionTimeout (dt : Nat) (p : Package) : Package :=
  let p := p.pass dt
  if p.has BEAT_STATUS_ELECTION && p.beat.view.best.isNone && !p.beat.lostRaised && p.beat.electionSince + 10 * Config.secUnits ≤ p.clock then
    (p.modBeat (fun b => { b with lostRaised := true })).raise .beat EV_BEAT_ALIGN_LOST p.beatNo 0
  else p

def acquireTimeout (dt : Nat) (p : Package) : Package :=
  let p := p.pass dt
  if p.beatState = BEAT_ACQUIRING && !p.beat.acquireRaised && p.beat.acquiringSince + 10 * Config.secUnits ≤ p.clock then
    (p.modBeat (fun b => { b with acquireRaised := true })).raise .beat EV_BEAT_ALIGN_LOST p.beatNo 0
  else p

/-! ### Time and delay messages (R32) -/

/-- `BEAT_ASYM_k`, signed. -/
def Package.asym (p : Package) (k : Nat) : Int := toSigned 16 (p.rd (BEAT_ASYM k))

/-- The offset of R32 from the stamps in force. -/
def Package.offsetNow (p : Package) : Int :=
  dsub p.beat.t2 p.beat.t1 - toSigned 64 (p.rd BEAT_PATH_DELAY) - p.asym (p.get BEAT_UPLINK_LINK)

/-- The path delay of R32. -/
def Package.pathDelay (p : Package) : Int := (dsub p.beat.t2 p.beat.t1 + dsub p.beat.t4 p.beat.t3) / 2

def timeMessageReceive (dt link : Nat) (m : TimeMsg) (p : Package) : Package :=
  let p := p.pass dt
  if !p.has BEAT_CTRL_ENABLE || m.domain ≠ p.get BEAT_DOMAIN_ID || link ≠ p.get BEAT_UPLINK_LINK then p
  else
    let p := p.modBeat (fun b => { b with t1 := m.t1, t2 := p.dtime, silentBeats := 0, lastMsg := some m })
    let off := p.offsetNow
    let p := p.wr BEAT_OFFSET (ofSigned 64 off)
    let p := if p.beat.epochHeld && m.pend.isSome then
        (p.modBeat (fun b => { b with pend := m.pend })).put BEAT_STATUS_PERIOD_PENDING 1
      else p
    p.steer m off

def delayRequestSend (dt : Nat) (p : Package) : Package :=
  let p := p.pass dt
  let k := p.get BEAT_UPLINK_LINK
  if !p.has BEAT_CTRL_ENABLE || k = 0x1F then p
  else (p.modBeat (fun b => { b with t3 := p.dtime, requestBeats := 0 })).sendBeat k 8 (.delayRequest p.dtime)

def delayRequestReceive (dt link t3 : Nat) (p : Package) : Package :=
  let p := p.pass dt
  let _ := t3
  if p.has BEAT_CTRL_ENABLE then p.sendBeat link 8 (.delayResponse p.dtime) else p

def delayResponseReceive (dt link t4 : Nat) (p : Package) : Package :=
  let p := p.pass dt
  if !p.has BEAT_CTRL_ENABLE || link ≠ p.get BEAT_UPLINK_LINK then p
  else
    let p := p.modBeat (fun b => { b with t4 := t4, measured := true })
    p.wr BEAT_PATH_DELAY (ofSigned 64 p.pathDelay)

/-! ### HOLDOVER_ENTRY (R28) -/

/-- Another up link whose peer reports the same master. -/
def Package.otherUplink (p : Package) : Option (Nat × Nat) :=
  bestUplink (p.rd BEAT_MASTER_ID) (p.rd BEAT_GROUP_MASTER_ID) (p.peers.filter (fun e => e.1 ≠ p.get BEAT_UPLINK_LINK))

/-- The uplink is lost: switch to another that reports the same master, or enter HOLDOVER and restart the election. -/
def Package.loseUplink (p : Package) : Package :=
  match p.otherUplink with
  | some (k, h) => (p.takeUplink (some k) h).modBeat (fun b => { b with silentBeats := 0, measured := false })
  | none =>
    if p.beatState = BEAT_ALIGNED || p.beatState = BEAT_ACQUIRING then
      let p := (p.setBeatState BEAT_HOLDOVER).modBeat (fun b => { b with holdoverSince := p.clock, goodRun := 0, slew := 0 })
      ((p.setUplink none 0).raise .beat EV_BEAT_HOLDOVER p.beatNo 0).startElection.refreshView
    else (p.setUplink none 0).startElection.refreshView

def holdoverEntry (dt : Nat) (p : Package) : Package :=
  let p := p.pass dt
  let k := p.get BEAT_UPLINK_LINK
  if !p.has BEAT_CTRL_ENABLE || p.role = ROLE_DOMAIN || k = 0x1F then p
  else if p.get BEAT_HOLDOVER_CFG_MISS ≤ p.beat.silentBeats || !p.linkUp k then p.loseUplink
  else p

/-! ### REJOIN and REJOIN_STEP (R29, R35, R45) -/

def rejoin (p : Package) : Package := p.put BEAT_CTRL_REJOIN 1

def rejoinStep (dt : Nat) (p : Package) : Package :=
  let p := p.pass dt
  if !p.has BEAT_CTRL_REJOIN then p
  else
    let p0 := p.put BEAT_CTRL_REJOIN 0
    match p.beat.stepWaiting with
    | none => p0
    | some off =>
      let p1 := (p0.stepBack off).modBeat (fun b => { b with stepWaiting := none, slew := 0 })
      if p.beatState = BEAT_UNALIGNED then
        let p2 := match p.beat.lastMsg with
          | some m => p1.takeDomain m
          | none => p1
        let p3 := p2.each allStages (fun p s => if p.stgState s = STG_DISABLED then p else p.modStg s (fun x => { x with resumeWait := true }))
        (p3.setBeatState BEAT_ACQUIRING).modBeat (fun b => { b with stepped := true, measured := true, goodRun := 0, acquiringSince := p.clock,
                                                                     acquireRaised := false })
      else p1

/-! ### BEAT_ENABLE (R26, R43, R45) -/

def beatEnable (dt : Nat) (en : Bool) (p : Package) : Package :=
  let p := p.pass dt
  let was := p.has BEAT_CTRL_ENABLE
  let p := p.put BEAT_CTRL_ENABLE (b2n en)
  if en && !was then
    ((p.setBeatState BEAT_FREE_RUN).startElection).modBeat (fun b => { b with electionSince := p.clock, lostRaised := false, viewSince := p.clock })
      |>.refreshView
  else if !en && was then
    let p := match p.beat.pend with
      | some q => p.applyPeriod q
      | none => p
    let p := ((p.setBeatState BEAT_DISABLED).put BEAT_STATUS_ELECTION 0).put BEAT_STATUS_ROLE ROLE_MEMBER
    (p.setUplink none 0).modBeat (fun b => { b with epochHeld := false, ticked := false, heard := [], view := {}, slew := 0, stepWaiting := none,
                                                    measured := false, stepped := false })
  else p

/-! ### REF_LOCK and REF_LOSS (R34, R35, R477) -/

def refLock (dt : Nat) (off : Int) (p : Package) : Package :=
  let p := p.pass dt
  if !p.has BEAT_REF_CFG_ENABLE then p
  else
    let p := (p.put BEAT_STATUS_REF_LOCKED 1).modBeat (fun b => { b with lastRefEdge := p.dtime })
    let p := p.raise .beat EV_BEAT_REF_LOCKED p.beatNo 0
    let p := if p.role = ROLE_DOMAIN then
        (if -(p.stepLimit) ≤ off && off ≤ p.stepLimit then p.modBeat (fun b => { b with slew := -off })
         else p.modBeat (fun b => { b with stepWaiting := some off }))
      else p
    if p.role = ROLE_DOMAIN && p.beatState = BEAT_ACQUIRING then p.setBeatState BEAT_ALIGNED
    else if p.has BEAT_CTRL_ENABLE then p.refreshView else p

def refLoss (dt : Nat) (p : Package) : Package :=
  let p := p.pass dt
  if !p.has BEAT_STATUS_REF_LOCKED then p
  else
    let p := (p.put BEAT_STATUS_REF_LOCKED 0).raise .beat EV_BEAT_REF_LOST p.beatNo 0
    if p.has BEAT_CTRL_ENABLE && p.has BEAT_CTRL_REF_REQUIRED then p.startElection.refreshView else p

/-! ### Beat output (R36) -/

/-- One pulse on the beat output. -/
def Package.beatPulse (p : Package) : Package := p.modBeat (fun b => { b with pulses := b.pulses + 1, lastPulse := p.dtime })

def secondPulse (dt : Nat) (p : Package) : Package :=
  let p := p.pass dt
  if p.get BEAT_OUT_CFG_MODE = 2 then p.beatPulse else p

/-! ### The commands' meanings -/

def execTickNotice (dt : Nat) (s : State) := onPkg (tickNotice dt) s
def execPeriodChange (s : State) := onPkg periodChange s
def execAnnounceReceive (dt link : Nat) (a : Announce) (s : State) := onPkg (announceReceive dt link a) s
def execElectionEnd (dt : Nat) (s : State) := onPkg (electionEnd dt) s
def execElectionTimeout (dt : Nat) (s : State) := onPkg (electionTimeout dt) s
def execAcquireTimeout (dt : Nat) (s : State) := onPkg (acquireTimeout dt) s
def execTimeMessageReceive (dt link : Nat) (m : TimeMsg) (s : State) := onPkg (timeMessageReceive dt link m) s
def execDelayRequestSend (dt : Nat) (s : State) := onPkg (delayRequestSend dt) s
def execDelayRequestReceive (dt link t3 : Nat) (s : State) := onPkg (delayRequestReceive dt link t3) s
def execDelayResponseReceive (dt link t4 : Nat) (s : State) := onPkg (delayResponseReceive dt link t4) s
def execHoldoverEntry (dt : Nat) (s : State) := onPkg (holdoverEntry dt) s
def execRejoin (s : State) := onPkg rejoin s
def execRejoinStep (dt : Nat) (s : State) := onPkg (rejoinStep dt) s
def execRefLock (dt : Nat) (off : Int) (s : State) := onPkg (refLock dt off) s
def execRefLoss (dt : Nat) (s : State) := onPkg (refLoss dt) s
def execSecondPulse (dt : Nat) (s : State) := onPkg (secondPulse dt) s

end Sys2Proof.Machine
end

