-- ==== Sys2Proof/Machine/Link.lean ====
section
/-! DEFINITION. The Eloarun links (12_eloarun_links.md): flits, the link CRC and retry (R288 to R291), credits and virtual channels
(R292 to R294), messages and forwarding (R295 to R301), training and health (R302 to R306) and host mode (R307). -/

namespace Sys2Proof.Machine

open Sys2Proof

def allVcs : List Nat := List.range 8

def Link.vc (l : Link) (v : Nat) : VcTx := listAt {} l.vcs v
def Link.setVc (l : Link) (v : Nat) (c : VcTx) : Link := { l with vcs := listPut {} l.vcs v c }

/-! ### Acknowledgement and credit (R290, R293) -/

/-- Drop from the replay buffer every flit up to and with `ack`, if it is there. -/
def dropAcked (ack : Nat) (l : List TxFlit) : List TxFlit :=
  if l.any (fun f => f.seq = ack) then (l.dropWhile (fun f => f.seq ≠ ack)).drop 1 else l

/-- The ACK and CREDIT_TOTAL fields that every flit carries (R289). -/
def Link.takeFields (l : Link) (f : WireFlit) : Link :=
  let r := match f.ack with
    | some a => dropAcked a l.replay
    | none => l.replay
  let c := l.vc f.cvc
  let l := { l with replay := r, toResend := min l.toResend r.length }
  if f.cvc < 8 then l.setVc f.cvc { c with freed := f.credit % 2 ^ 16, dryReported := c.dryReported && c.freed = f.credit % 2 ^ 16 } else l

/-- The sequence number that the receiver takes next. -/
def Link.expected (l : Link) : Nat :=
  match l.accepted with
  | some a => (a + 1) % 2 ^ 14
  | none => 0

/-- A failure or a gap: later DATA is discarded, and a NAK is owed unless one went out in the last 8 µs (R290). -/
def Link.fail (l : Link) (now : Nat) : Link :=
  if l.nakAfter ≤ now then { l with gap := true, nakOwed := true, nakAfter := now + 8 * Config.usUnits } else { l with gap := true }

/-! ### Fast retrain (R303) and DOWN (R301, R302) -/

/-- A link starts a fast retrain; one that already retrains absorbs the trigger. -/
def Package.startRetrain (p : Package) (k : Nat) : Package :=
  if p.linkUp k then
    let p := ((p.setLinkState k LINK_RETRAINING).put (LNK_CTRL_RETRAIN k) 0).modPort k (fun l => { l with retrainStart := p.clock })
    (p.bump64 (LNK_RETRAINS k) 1).raise (.lnk k) EV_LNK_RETRAIN p.beatNo (arg1Of k 0)
  else if p.linkState k = LINK_RETRAINING then p.put (LNK_CTRL_RETRAIN k) 0
  else p

/-- Refresh `LNK_HB_STATUS`: host-mode links that are UP and the bridge's role (R307, R308). -/
def Package.refreshHb (p : Package) : Package :=
  let l0 := p.linkUp 0 && p.hostMode 0
  let l1 := p.linkUp 1 && p.hostMode 1
  let role := if l0 || l1 then (if p.has LNK_HB_CTRL_ACTIVE then 2 else 1) else 0
  ((p.put LNK_HB_STATUS_LINK0 (b2n l0)).put LNK_HB_STATUS_LINK1 (b2n l1)).put LNK_HB_STATUS_ROLE role

/-- Messages that a link loses when it goes DOWN: those with an unacknowledged flit, and those that wait for it. DESIGN CHOICE: a
message that still waits in the port's queue is lost with the port (log entry 7). -/
def Link.lostMsgs (l : Link) : List Msg :=
  (l.replay.filter (·.eom)).map (·.msg) ++ l.vcs.flatMap (·.msgs)

/-- The outbound stage channel that a message of this package belongs to: an output, a part of its payload, or an open. -/
def Package.channelOf (p : Package) (m : Msg) : Option (Nat × Nat) :=
  if m.src ≠ p.node then none
  else match m.body with
    | .output o => some (o.src.stage, o.src.chan)
    | .chanOpen _ _ fs ch _ => some (fs, ch)
    | .fields 0 (_ :: _ :: s :: n :: _) _ => if m.cls = CLS_STAGE then some (s, n) else none
    | _ => none

/-- What a lost message does to its owner: its stage channel goes DOWN, its snapshot stream fails (R301, R411). A message that this package
only forwards belongs to another. -/
def Package.lose (p : Package) (m : Msg) : Package :=
  match p.channelOf m with
  | some (s, n) => if s < 32 && n < 4 then p.chanDown s n else p
  | none => if m.cls = CLS_SNAPSHOT && m.src = p.node then { p with lnk := { p.lnk with snapLost := true } } else p

/-- A link enters DOWN with a cause (R301, R302). -/
def Package.linkGoDown (p : Package) (k cause : Nat) : Package :=
  let l := p.port k
  let lost := l.lostMsgs
  let p := ((p.setLinkState k LINK_DOWN).put (LNK_STATUS_DOWN_CAUSE k) cause).put (LNK_STATUS_LANES_LOCKED k) 0
  let p := p.setPort k { l with replay := [], toResend := 0, vcs := [{}, {}, {}, {}, {}, {}, {}, {}], partials := [], gap := false,
                                nakOwed := false, stopping := none, downAt := p.clock, exchanged := false,
                                lasersOn := l.lasersOn && decide (cause ≠ 1), codewordLock := false }
  let p := (p.bump64 (LNK_DOWNS k) 1).bump64 (LNK_MSGS_LOST k) (lost.length + l.partials.length)
  let p := p.raise (.lnk k) EV_LNK_DOWN p.beatNo (arg1Of k cause)
  let p := p.report (.lnk k) 8 1 cause p.beatNo (arg1Of k cause) false false
  let p := p.each lost Package.lose
  let p := p.each p.chansWithoutLink (fun p c => p.chanDown c.1 c.2)
  let p := p.refreshHb
  if p.has BEAT_CTRL_ENABLE && p.role ≠ ROLE_DOMAIN && p.get BEAT_UPLINK_LINK = k then p.loseUplink else p

/-! ### Receiving flits (R289, R290) -/

/-- A DATA flit in sequence is accepted. -/
def Link.accept (l : Link) (f : WireFlit) : Link :=
  let ps := if f.som then l.partials ++ [f.vc] else l.partials
  { l with accepted := some f.seq, gap := false, partials := if f.eom then ps.erase f.vc else ps,
           freedHere := listPut 0 l.freedHere f.vc ((listAt 0 l.freedHere f.vc + 1) % 2 ^ 16) }

def dataFlitReceive (dt k : Nat) (f : WireFlit) (crcOk : Bool) (p : Package) : Package :=
  let p := p.pass dt
  if !p.linkUp k then p
  else if !crcOk then (p.bump64 (LNK_CRC_FAIL k) 1).modPort k (fun l => l.fail p.clock)
  else
    let p := p.modPort k (fun l => l.takeFields f)
    let e := (p.port k).expected
    if f.seq = e then (p.bump64 (LNK_FLITS_RX k) 1).modPort k (fun l => l.accept f)
    else if (e + 2 ^ 14 - f.seq) % 2 ^ 14 ≤ 2 ^ 13 then p
    else p.modPort k (fun l => l.fail p.clock)

def idleFlitReceive (dt k : Nat) (f : WireFlit) (crcOk : Bool) (p : Package) : Package :=
  let p := p.pass dt
  if !p.linkUp k then p
  else if !crcOk then (p.bump64 (LNK_CRC_FAIL k) 1).modPort k (fun l => l.fail p.clock)
  else p.modPort k (fun l => l.takeFields f)

def alignReceive (dt k : Nat) (f : WireFlit) (crcOk : Bool) (p : Package) : Package :=
  (idleFlitReceive dt k f crcOk p).modPort k (fun l => { l with codewordLock := l.codewordLock || crcOk })

/-- A NAK makes the sender resend every unacknowledged flit; one resent four times without acceptance starts a fast retrain. -/
def nakReceive (dt k : Nat) (f : WireFlit) (crcOk : Bool) (p : Package) : Package :=
  let p := idleFlitReceive dt k f crcOk p
  if !p.linkUp k || !crcOk then p
  else
    let p := p.modPort k (fun l => { l with toResend := l.replay.length })
    if (p.port k).replay.any (fun t => decide (4 ≤ t.resends)) then p.startRetrain k else p

/-! ### Sending flits (R289, R290, R293, R294) -/

/-- A virtual channel can send: a message waits and credit is left. -/
def Link.ready (l : Link) (v : Nat) : Bool := !(l.vc v).msgs.isEmpty && decide (0 < vcCredit l v)

/-- Weight of virtual channel v from `LNK_VC_WEIGHT`. -/
def vcWeight (cfg v : Nat) : Nat := bitsOf cfg (4 * (v - 2)) 4

/-- The virtual channel that the next DATA flit takes, and the round-robin state after it (R294). -/
def Link.pick (l : Link) (weights : Nat) : Option (Nat × Nat × Nat) :=
  if l.ready 0 then some (0, l.rrVc, l.rrLeft)
  else if l.ready 1 then some (1, l.rrVc, l.rrLeft)
  else if 0 < l.rrLeft && l.ready l.rrVc then some (l.rrVc, l.rrVc, l.rrLeft - 1)
  else
    match ((List.range 6).map (fun i => 2 + (l.rrVc - 2 + 1 + i) % 6)).find? l.ready with
    | some v => some (v, v, vcWeight weights v - 1)
    | none => none

/-- Build a wire flit of the link: every type carries ACK and CREDIT_TOTAL, and CVC rotates (R289). -/
def Link.wire (l : Link) (typ seq v : Nat) (som eom : Bool) (bytes : Nat) : WireFlit :=
  { typ := typ, seq := seq, ack := l.accepted, vc := v, som := som, eom := eom, cvc := l.cvc, bytes := bytes, credit := listAt 0 l.freedHere l.cvc }

/-- Put a flit on the wire. -/
def Link.put (l : Link) (f : WireFlit) : Link := { l with lastFlit := some f, cvc := (l.cvc + 1) % 8, flitCount := l.flitCount + 1 }

/-- Send the next flit of virtual channel v's front message as DATA. -/
def Link.sendData (l : Link) (v rv rl : Nat) : Link :=
  match (l.vc v).msgs with
  | [] => l
  | m :: rest =>
    let c := l.vc v
    let n := flitsOf m
    let last := decide (n ≤ c.sentFlits + 1)
    let bytes := if last then 32 + m.len - 244 * c.sentFlits else 244
    let t : TxFlit := { seq := l.nextSeq, vc := v, som := c.sentFlits = 0, eom := last, bytes := bytes, resends := 0, msg := m }
    let c := { c with msgs := if last then rest else m :: rest, sentFlits := if last then 0 else c.sentFlits + 1, sent := (c.sent + 1) % 2 ^ 16 }
    let l := ({ l with nextSeq := (l.nextSeq + 1) % 2 ^ 14, replay := l.replay ++ [t], rrVc := rv, rrLeft := rl }).setVc v c
    l.put (l.wire 0 t.seq v t.som t.eom bytes)

/-- Resend the next unacknowledged flit. -/
def Link.resendNext (l : Link) : Link :=
  let i := l.replay.length - l.toResend
  match l.replay[i]? with
  | none => { l with toResend := 0 }
  | some t =>
    let l := { l with replay := l.replay.set i { t with resends := t.resends + 1 }, toResend := l.toResend - 1 }
    l.put (l.wire 0 t.seq t.vc t.som t.eom t.bytes)

def flitSend (dt k : Nat) (p : Package) : Package :=
  let p := p.pass dt
  let l := p.port k
  if !p.linkUp k then p
  else if l.flitCount % 20480 = 0 then p.setPort k (l.put (l.wire 3 0 0 false false 0))
  else if l.nakOwed then p.setPort k ({ l with nakOwed := false }.put (l.wire 2 0 0 false false 0))
  else if 0 < l.toResend then (p.setPort k l.resendNext).bump64 (LNK_REPLAYED k) 1
  else if Config.replayFlits ≤ l.replay.length then p.setPort k (l.put (l.wire 1 0 0 false false 0))
  else
    match l.pick (p.rd (LNK_VC_WEIGHT k)) with
    | some (v, rv, rl) => (p.setPort k (l.sendData v rv rl)).bump64 (LNK_FLITS_TX k) 1
    | none => p.setPort k (l.put (l.wire 1 0 0 false false 0))

/-- A channel with a flit ready and no credit for 1 ms is reported once (R294). -/
def vcStuck (dt k v : Nat) (p : Package) : Package :=
  let p := p.pass dt
  let l := p.port k
  let c := l.vc v
  if p.linkUp k && !c.msgs.isEmpty && vcCredit l v = 0 && !c.dryReported then
    (p.setPort k (l.setVc v { c with dryReported := true })).raise (.lnk k) EV_LNK_VC_STUCK p.beatNo (arg1Of k v)
  else p

/-! ### MESSAGE_RECEIVE (R295, R297, R298, R307) -/

/-- A link that is UP in host mode. -/
def Package.hostUp (p : Package) (k : Nat) : Bool := p.linkUp k && p.hostMode k

/-- The host link of a response with a TAG, or of an event for tag 0: links 0 and 1 by the TAG's bit 0 while both are UP (R307). -/
def Package.hostLink (p : Package) (tag : Nat) : Option Nat :=
  if p.hostUp 0 && p.hostUp 1 then some (tag % 2) else if p.hostUp 0 then some 0 else if p.hostUp 1 then some 1 else none

/-- An EVENT message for this node goes to its host adapter, if it has one. -/
def Package.eventToHost (p : Package) (m : Msg) : Package := match p.hostLink 0 with
  | some k => p.enqueue k m
  | none => p

/-- A whole message arrives. A message for this node, and every BEAT message, is delivered: its class's own command carries what it
does, as those of requests and responses by PATH (R309). Any other message is forwarded by the route table, or discarded out of hops. -/
def messageReceive (dt k : Nat) (m : Msg) (hcrcOk : Bool) (p : Package) : Package :=
  let p := p.pass dt
  if !hcrcOk then p.bump64 (LNK_MSGS_LOST k) 1
  else if m.cls = CLS_BEAT || bitAt m.dest 15 then p
  else if p.has LNK_NODE_VALID && m.dest = p.node then (if m.cls = CLS_EVENT then p.eventToHost m else p)
  else if m.hops = 0 then p.bump64 LNK_HOP_EXPIRED 1
  else
    match p.pickRoute m.dest m.cls with
    | some j =>
      let p := (p.enqueue j { m with hops := m.hops - 1 }).bump64 LNK_FWD_BYTES (32 + m.len)
      if m.cls = CLS_HOST_REQ then p.bump64 LNK_HOST_REQS 1 else p
    | none => p.noRoute m.dest

/-! ### Training (R302, R307) -/

/-- Full training starts from DISABLED or DOWN with ENABLE set, once hub firmware runs. Without optical-engine or link firmware the port
stays DOWN with cause 3 (R449). -/
def Package.startTraining (p : Package) (k : Nat) : Package :=
  if p.pwr.fw && p.has (LNK_CTRL_ENABLE k) && p.lnk.noFirmware then
    if p.linkState k = LINK_DISABLED then p.linkGoDown k 3 else p
  else if p.pwr.fw && p.has (LNK_CTRL_ENABLE k) && (p.linkState k = LINK_DISABLED || p.linkState k = LINK_DOWN) then
    (p.setLinkState k LINK_TRAINING).modPort k (fun l => { l with lasersOn := true, trainStart := p.clock, exchanged := false, stopping := none })
  else p

def trainingStart (dt k : Nat) (p : Package) : Package := (p.pass dt).startTraining k

/-- The partner's fields in `LNK_PARTNER` (Table 12-12). -/
def partnerWord (q : Partner) : Nat :=
  q.node % 2 ^ 12 + 2 ^ 12 * b2n q.nodeValid + 2 ^ 16 * (q.link % 32) + 2 ^ 24 * b2n q.adapter + 2 ^ 28 * (q.revision % 16) + 2 ^ 32 * (q.domain % 2 ^ 16)

/-- Links 0 and 1 with host adapters of different serials: link 1 goes DOWN with cause 9 (R307). -/
def Package.hostPair (p : Package) : Package :=
  if p.hostMode 0 && p.hostMode 1 && p.rd (LNK_PARTNER_SERIAL 0) ≠ p.rd (LNK_PARTNER_SERIAL 1)
      && p.linkState 0 ≠ LINK_DOWN && p.linkState 1 ≠ LINK_DOWN then
    (p.linkGoDown 1 9).raise (.lnk 1) EV_LNK_HB_MISMATCH p.beatNo (arg1Of 1 9)
  else p

def partnerExchange (dt k : Nat) (q : Partner) (delayNs : Nat) (p : Package) : Package :=
  let p := p.pass dt
  if p.linkState k ≠ LINK_TRAINING then p
  else
    let host := q.adapter && decide (k < 2)
    let p := ((p.wr (LNK_PARTNER k) (partnerWord q)).wr (LNK_PARTNER_SERIAL k) q.serial).put (LNK_DELAY_NS k) delayNs
    let p := (p.put (LNK_STATUS_HOST_MODE k) (b2n host)).modPort k (fun l => { l with partner := some q, peerShares := q.shares, exchanged := true })
    if q.serial = p.serial then p.linkGoDown k 4
    else if q.revision ≠ 1 then p.linkGoDown k 6
    else if 2750 < delayNs then p.linkGoDown k 5
    else
      let p := if q.nodeValid && p.has LNK_NODE_VALID && q.node = p.node then
          p.raise .lnkPkg EV_LNK_NODE_CONFLICT p.beatNo (arg1Of k 0)
        else p
      p.hostPair

def linkUpDone (dt k : Nat) (p : Package) : Package :=
  let p := p.pass dt
  let l := p.port k
  if p.linkState k ≠ LINK_TRAINING || !l.exchanged then p
  else
    let p := ((p.setLinkState k LINK_UP).put (LNK_STATUS_LANES_LOCKED k) 0xFF).put (LNK_STATUS_DOWN_CAUSE k) 0
    let p := (p.put (LNK_STATUS_HEALTH k) 0).put (LNK_STATUS_TRAIN_MS k) ((p.clock - l.trainStart) / Config.msUnits)
    let p := p.setPort k { l with nextSeq := 0, accepted := none, replay := [], toResend := 0, flitCount := 0, codewordLock := true,
                                  freedHere := [0, 0, 0, 0, 0, 0, 0, 0], shares := sharesOf (p.rd (LNK_VC_CFG k)),
                                  vcs := l.vcs.map (fun c => { c with sent := 0, freed := 0, sentFlits := 0 }) }
    (p.refreshHb).raise (.lnk k) EV_LNK_UP p.beatNo (arg1Of k 0)

def trainingLimit (dt k : Nat) (p : Package) : Package :=
  let p := p.pass dt
  if p.linkState k = LINK_TRAINING then p.linkGoDown k 3 else p

/-- 5 s after DOWN for any cause but ENABLE = 0 a port trains again (R302). -/
def trainingRestartTimer (dt k : Nat) (p : Package) : Package :=
  let p := p.pass dt
  if p.linkState k = LINK_DOWN && (p.port k).downAt + 5 * Config.secUnits ≤ p.clock then p.startTraining k else p

def lightDetected (dt k : Nat) (p : Package) : Package :=
  let p := p.pass dt
  if p.linkState k = LINK_DOWN then p.startTraining k else p

/-! ### Retrains and health (R303, R304) -/

def codewordLockLoss (dt k lane : Nat) (p : Package) : Package :=
  let p := p.pass dt
  if p.linkUp k then
    ((p.setBit (LNK_STATUS k) (16 + lane % 8) false).modPort k (fun l => { l with codewordLock := false })).startRetrain k
  else p

def retrain (k : Nat) (p : Package) : Package := (p.put (LNK_CTRL_RETRAIN k) 1).startRetrain k

/-- A fast retrain is over: the partner advertises its shares anew (R293). -/
def fastRetrainDone (dt k : Nat) (shares : List Nat) (p : Package) : Package :=
  let p := p.pass dt
  if p.linkState k = LINK_RETRAINING then
    let p := ((p.setLinkState k LINK_UP).put (LNK_STATUS_LANES_LOCKED k) 0xFF).modPort k (fun l =>
      { l with codewordLock := true, peerShares := shares, shares := sharesOf (p.rd (LNK_VC_CFG k)) })
    p.modBeat (fun b => if k = p.get BEAT_UPLINK_LINK then { b with requestBeats := 16 } else b)
  else p

def fastRetrainTimeout (dt k : Nat) (p : Package) : Package :=
  let p := p.pass dt
  if p.linkState k = LINK_RETRAINING && (p.port k).retrainStart + 10 * Config.msUnits ≤ p.clock then p.linkGoDown k 7 else p

def HEALTH_GOOD : Nat := 0
def HEALTH_MARGINAL : Nat := 1
def HEALTH_FAILING : Nat := 2

/-- Health from a window's counts (R304). -/
def healthOf (cfg : Nat) (corr : List Nat) (uncorr : Nat) : Nat :=
  if 2 ≤ uncorr || corr.any (fun c => decide (bitsOf cfg 24 24 < c)) then HEALTH_FAILING
  else if corr.any (fun c => decide (bitsOf cfg 0 24 < c)) then HEALTH_MARGINAL
  else HEALTH_GOOD

def healthWindow (dt k : Nat) (corr : List Nat) (uncorr : Nat) (p : Package) : Package :=
  let p := p.pass dt
  if p.linkState k ≠ LINK_UP && p.linkState k ≠ LINK_RETRAINING then p
  else
    let old := p.get (LNK_STATUS_HEALTH k)
    let h := healthOf (p.rd (LNK_HEALTH_CFG k)) corr uncorr
    let total := corr.foldl (· + ·) 0
    let p := ((p.bump64 (LNK_FEC_CORR k) total).bump64 (LNK_FEC_UNCORR k) uncorr).put (LNK_STATUS_HEALTH k) h
    let p := p.each (List.range 8) (fun p n => p.put (LNK_OPT_CORR k n) (min (listAt 0 corr n / 8) 0xFFFF))
    let p := if 0 < total then p.report (.lnk k) 8 0 (Config.openCode 10) p.beatNo (arg1Of k 0) false false else p
    if h = old || h = HEALTH_GOOD then p
    else if h = HEALTH_MARGINAL then p.raise (.lnk k) EV_LNK_MARGINAL p.beatNo (arg1Of k 0)
    else
      let p := p.raise (.lnk k) EV_LNK_FAILING p.beatNo (arg1Of k 0)
      let again := match (p.port k).failingRetrain with
        | some t => decide (p.clock ≤ t + Config.secUnits)
        | none => false
      if again then p.linkGoDown k 8
      else (p.modPort k (fun l => { l with failingRetrain := some p.clock })).startRetrain k

/-! ### Disable (R305) -/

def linkDisable (dt k : Nat) (p : Package) : Package :=
  let p := (p.pass dt).put (LNK_CTRL_ENABLE k) 0
  if p.linkState k = LINK_UP || p.linkState k = LINK_RETRAINING then p.modPort k (fun l => { l with stopping := some p.clock })
  else if p.linkState k = LINK_TRAINING then p.linkGoDown k 1
  else p.modPort k (fun l => { l with lasersOn := false })

def linkDisableComplete (dt k : Nat) (p : Package) : Package :=
  let p := p.pass dt
  match (p.port k).stopping with
  | none => p
  | some t => if (p.port k).replay.isEmpty || t + 100 * Config.usUnits ≤ p.clock then p.linkGoDown k 1 else p

/-! ### OPTICAL_TELEMETRY (R306) -/

/-- The conditions of Table 12-7 that a lane meets, by the table's rows: 1 transmit OMA low, 2 receive OMA low, 3 overload,
4 loss of signal, 5 bias, 6 wavelength. The number that
an alarm shows is free: the spec gives none (log entry 8). -/
def laneAlarms (o : LaneOptics) : List Nat :=
  (if o.tx < 100 then [1] else []) ++ (if o.rx < -400 then [2] else []) ++ (if 450 < o.rx then [3] else [])
    ++ (if o.rx < -650 then [4] else []) ++ (if o.biasHigh then [5] else []) ++ (if o.offGrid then [6] else [])

def opticalTelemetry (dt k : Nat) (lanes : List LaneOptics) (temp : Nat) (p : Package) : Package :=
  let p := p.pass dt
  let l8 := (List.range 8).filterMap (fun n => lanes[n]?.map (fun o => (n, o)))
  let p := p.each l8 (fun p e => ((p.put (LNK_OPT_TX_OMA k e.1) (ofSigned 16 e.2.tx)).put (LNK_OPT_RX_OMA k e.1) (ofSigned 16 e.2.rx)).put
    (LNK_OPT_BIAS k e.1) e.2.bias)
  let p := p.put (LNK_OPT_TEMP_TEMP k) temp
  let now := l8.flatMap (fun e => (laneAlarms e.2).map (fun c => (e.1, c)))
  let fresh := now.filter (fun a => !(p.port k).alarms.contains a)
  let p := p.modPort k (fun l => { l with alarms := now })
  let p := p.each fresh (fun p a => p.raise (.lnk k) EV_LNK_OPT_ALARM p.beatNo (arg1Of a.1 (Config.openCode (16 + a.2))))
  if fresh.any (fun a => a.2 = 6) then
    (if p.linkState k = LINK_DISABLED || p.linkState k = LINK_DOWN then p else p.linkGoDown k 2)
  else if fresh.any (fun a => a.2 = 4) then p.startRetrain k
  else p

/-! ### The commands' meanings -/

def execDataFlitReceive (dt k : Nat) (f : WireFlit) (ok : Bool) (s : State) := onPkg (dataFlitReceive dt k f ok) s
def execIdleFlitReceive (dt k : Nat) (f : WireFlit) (ok : Bool) (s : State) := onPkg (idleFlitReceive dt k f ok) s
def execNakReceive (dt k : Nat) (f : WireFlit) (ok : Bool) (s : State) := onPkg (nakReceive dt k f ok) s
def execAlignReceive (dt k : Nat) (f : WireFlit) (ok : Bool) (s : State) := onPkg (alignReceive dt k f ok) s
def execFlitSend (dt k : Nat) (s : State) := onPkg (flitSend dt k) s
def execMessageReceive (dt k : Nat) (m : Msg) (ok : Bool) (s : State) := onPkg (messageReceive dt k m ok) s
def execTrainingStart (dt k : Nat) (s : State) := onPkg (trainingStart dt k) s
def execPartnerExchange (dt k : Nat) (q : Partner) (delayNs : Nat) (s : State) := onPkg (partnerExchange dt k q delayNs) s
def execLinkUp (dt k : Nat) (s : State) := onPkg (linkUpDone dt k) s
def execTrainingLimit (dt k : Nat) (s : State) := onPkg (trainingLimit dt k) s
def execTrainingRestartTimer (dt k : Nat) (s : State) := onPkg (trainingRestartTimer dt k) s
def execLightDetected (dt k : Nat) (s : State) := onPkg (lightDetected dt k) s
def execCodewordLockLoss (dt k lane : Nat) (s : State) := onPkg (codewordLockLoss dt k lane) s
def execRetrain (k : Nat) (s : State) := onPkg (retrain k) s
def execFastRetrainDone (dt k : Nat) (shares : List Nat) (s : State) := onPkg (fastRetrainDone dt k shares) s
def execFastRetrainTimeout (dt k : Nat) (s : State) := onPkg (fastRetrainTimeout dt k) s
def execHealthWindow (dt k : Nat) (corr : List Nat) (uncorr : Nat) (s : State) := onPkg (healthWindow dt k corr uncorr) s
def execLinkDisable (dt k : Nat) (s : State) := onPkg (linkDisable dt k) s
def execLinkDisableComplete (dt k : Nat) (s : State) := onPkg (linkDisableComplete dt k) s
def execOpticalTelemetry (dt k : Nat) (lanes : List LaneOptics) (temp : Nat) (s : State) := onPkg (opticalTelemetry dt k lanes temp) s
def execVcStuck (dt k v : Nat) (s : State) := onPkg (vcStuck dt k v) s

end Sys2Proof.Machine
end

