-- ==== Sys2Proof/Machine/Stage.lean ====
section
/-! DEFINITION. Stages, their queues and their channels (03_stages_queues_versions.md): opening and disabling (R51, R60, R61, R87, R366),
the inbound queues (R54 to R59), credits (R62), and the abandonment of a phase (R366, R380). -/

namespace Sys2Proof.Machine

open Sys2Proof

/-! ### Credits (R57, R62) -/

/-- Add credits to a channel; the count never exceeds the target's depth. -/
def Package.addCredit (p : Package) (s n c : Nat) : Package :=
  if p.get (STG_CH_STATE_STATE s n) = CH_OPEN then
    p.put (STG_CH_STATE_CREDITS s n) (min (p.get (STG_CH_STATE_CREDITS s n) + c) (p.get (STG_CH_STATE_PEER_DEPTH s n)))
  else p

/-- A queue returns a credit to its sender, by the sender's route: 0 loopback, 1 package, 2 link. -/
def Package.returnCredit (p : Package) (s : Nat) (d : Dir) : Package :=
  match (p.queue s d).sender with
  | none => p
  | some x =>
    if x.route = 0 then p.addCredit x.stage x.chan 1
    else if x.route = 1 then p.sendInside CLS_CONTROL 0 (.credit x.stage x.chan 1)
    else p.sendRoute x.node CLS_CONTROL 0 (.credit x.stage x.chan 1)

def creditReceive (dt s n c : Nat) (p : Package) : Package := ((p.pass dt).arrived (.credit s n c)).addCredit s n c

/-! ### Opening (R51, R58, R60, R61) -/

/-- Answers to an open: 0 accepted, 1 refused, 2 target DISABLED. -/
def OPEN_OK : Nat := 0
def OPEN_REFUSED : Nat := 1
def OPEN_DISABLED : Nat := 2

/-- A stage that is OPENING becomes READY when every enabled channel is OPEN (R51). -/
def Package.checkReady (p : Package) (s : Nat) : Package :=
  if p.stgState s = STG_OPENING
      && (List.range 4).all (fun n => !p.has (STG_CH_CFG_ENABLE s n) || p.get (STG_CH_STATE_STATE s n) = CH_OPEN) then
    p.put (STG_STATUS_STATE s) STG_READY
  else p

/-- The answer to an open reaches its channel (R60, R61). -/
def Package.answerOpen (p : Package) (s n result depth units used : Nat) : Package :=
  if p.get (STG_CH_STATE_STATE s n) ≠ CH_OPENING then p
  else
    let p := p.modChan s n (fun c => { c with openSent := none })
    if result = OPEN_OK then
      let p := (((p.put (STG_CH_STATE_STATE s n) CH_OPEN).put (STG_CH_STATE_PEER_DEPTH s n) depth).put (STG_CH_STATE_PEER_SLOT_UNITS s n) units).put
        (STG_CH_STATE_CREDITS s n) (depth - used)
      p.checkReady s
    else
      (p.put (STG_CH_STATE_STATE s n) CH_DOWN).raise (.stg s) (if result = OPEN_REFUSED then EV_STG_CHAN_REFUSED else EV_STG_CHAN_MISMATCH)
        p.beatNo (arg1Of s n)

/-- A target queue judges an open: a DISABLED stage, a software-fed queue (R58) or a queue with another sender (R60) turns it down. -/
def Package.judgeOpen (p : Package) (s : Nat) (d : Dir) (x : Sender) : Nat × Package :=
  let q := p.queue s d
  if p.stgState s = STG_DISABLED then (OPEN_DISABLED, p)
  else if d = .fwd && p.has (STG_CTRL_FQ_SW_FEED s) then (OPEN_REFUSED, p)
  else if q.sender.isSome && q.sender ≠ some x then (OPEN_REFUSED, p)
  else (OPEN_OK, p.setQueue s d { q with sender := some x })

/-- An open aimed at this package's queue is judged and answered by the sender's route (R61). -/
def Package.takeOpen (p : Package) (s : Nat) (d : Dir) (x : Sender) : Package :=
  let j := p.judgeOpen s d x
  let p := j.2
  let depth := p.qDepth s d
  let units := p.qUnits s d
  let used := ((p.queue s d).entries.filter (fun e => e.2 ≠ .failed)).length
  if x.route = 0 then p.answerOpen x.stage x.chan j.1 depth units used
  else if x.route = 1 then p.sendInside CLS_CONTROL 0 (.chanAnswer x.stage x.chan j.1 depth units used)
  else p.sendRoute x.node CLS_CONTROL 0 (.chanAnswer x.stage x.chan j.1 depth units used)

def channelOpenReceive (dt s : Nat) (d : Dir) (x : Sender) (p : Package) : Package :=
  ((p.pass dt).arrived (.chanOpen s (qIndex d) x.stage x.chan x.route)).takeOpen s d x

def channelOpenAnswer (dt s n result depth units used : Nat) (p : Package) : Package :=
  ((p.pass dt).arrived (.chanAnswer s n result depth units used)).answerOpen s n result depth units used

/-- An open with no answer one beat after it was sent sets the channel DOWN (R61). -/
def channelOpenTimeout (dt s n : Nat) (p : Package) : Package :=
  let p := p.pass dt
  match (listAt {} (p.stg s).chans n).openSent with
  | none => p
  | some t => if t + p.periodUnits ≤ p.clock then p.chanDown s n else p

/-- Send the open of one enabled channel (R61). -/
def Package.sendOpen (p : Package) (s n : Nat) : Package :=
  let p := ((p.put (STG_CH_STATE_STATE s n) CH_OPENING).put (STG_CH_STATE_CREDITS s n) 0).modChan s n (fun c => { c with openSent := some p.clock })
  let route := p.get (STG_CH_CFG_ROUTE s n)
  let q := p.get (STG_CH_CFG_TARGET_Q s n)
  let target := p.get (STG_CH_DEST_DEST_STAGE s n)
  if route = 0 then p.takeOpen s (qDir q) { node := p.node, stage := s, chan := n, route := 0 }
  else if route = 1 then p.sendInside CLS_CONTROL 0 (.chanOpen target q s n 1)
  else p.sendMask (p.rd (STG_CH_LINKS s n)) (p.get (STG_CH_DEST_DEST_NODE s n)) CLS_CONTROL 0 (.chanOpen target q s n 2)

/-- The version ring at an enable from DISABLED (R64). -/
def Package.initRing (p : Package) (s : Nat) : Package :=
  let v := p.rd (STG_VRING_INIT s)
  let p := (p.wr (STG_VINFO_01 s) (V_CURRENT + 8 * V_PENDING)).wr (STG_VINFO_23 s) 0
  let p := p.each (List.range 4) (fun p n => p.wr (STG_VNUM s n) (if n = 0 then v else 0))
  (p.put (STG_VRING_STATE_RESOLVED_STEP s) ((v + 2 ^ 48 - 1) % 2 ^ 48)).put (STG_VRING_STATE_FLIP_DEFERRED s) 0

/-- The home die: that of the lowest-indexed cluster of the set. -/
def Package.setHome (p : Package) (s : Nat) : Package := p.put (STG_STATUS_HOME_DIE s) ((listAt 0 (p.stg s).clusters 0) / 72)

/-- The committed cluster set takes effect (R52). -/
def Package.bind (p : Package) (s : Nat) : Package :=
  ((p.modStg s (fun x => { x with clusters := (p.maskClusters s).filter (fun c => p.get (CLU_STATUS_STATE c) ≠ 2), bindPending := false })).put (STG_STATUS_BIND_PENDING s) 0).setHome s

/-- A DISABLED stage opens (R51). -/
def Package.openStage (p : Package) (s : Nat) : Package :=
  let p := (p.put (STG_STATUS_STATE s) STG_OPENING).put (STG_STATUS_HOLD_CAUSE s) 0
  let p := if (p.stg s).restored then p else p.initRing s
  let p := (p.modStg s (fun x => { x with tag := none, pourDone := none, checked := [], reopen := false, recovery := false, resumeWait := false,
                                          acct := [], slotUsed := false, gaveUp := none })).bind s
  let p := p.each ((List.range 4).filter (fun n => p.has (STG_CH_CFG_ENABLE s n))) (fun p n => p.sendOpen s n)
  p.checkReady s

/-! ### Abandoning a phase (R366, R380) -/

/-- Bytes charged and records held, shown in `HAL_STASH_USED` and `HAL_STASH_PEAK` (R91). -/
def Package.showStash (p : Package) (s : Nat) : Package :=
  let x := p.stg s
  let used := (x.stash.map (fun r => r.bytes)).sum
  let held := (x.stash.filter (fun r => !r.freed)).length
  let p := (p.put (HAL_STASH_USED_BYTES s) used).put (HAL_STASH_USED_RECORDS s) held
  if p.rd (HAL_STASH_PEAK s) < used then p.wr (HAL_STASH_PEAK s) used else p

/-- Records whose bytes return: the freed ones that no older live record precedes (R91). -/
def dropFreed : List StashRec → List StashRec
  | [] => []
  | r :: rs => if r.freed then dropFreed rs else r :: rs

/-- Clear IN_USE of a directory entry. -/
def Package.clearDir (p : Package) (s i : Nat) : Package := p.tryStore (p.rd (HAL_STASH_DIR s) + 64 * i + 10) [0]

/-- Free the record of a step and micro-batch (R91). -/
def Package.freeRecord (p : Package) (s step mb : Nat) : Package :=
  match (p.stg s).record step mb with
  | none => p
  | some r =>
    ((p.clearDir s r.dirIndex).modStg s (fun x =>
      { x with stash := dropFreed (x.stash.map (fun q => if q.step = step && q.microBatch = mb && !q.freed then { q with freed := true } else q)) })).showStash s

/-- The record of an abandoned forward goes (log entry 9). -/
def Package.dropRecord (p : Package) (s step mb : Nat) : Package := p.freeRecord s step mb

/-- Write a group field on every stage of the group: a member reports the group's state (R97). -/
def Package.putGroup (p : Package) (g : Nat) (f : Nat → Fld) (v : Nat) : Package := p.each (p.members g) (fun p s => p.put (f s) v)

/-- Refresh `HAL_WIN_STATUS` and `HAL_WIN_CUR_*` of a group from its FIFO and current window (R97). -/
def Package.showGroup (p : Package) (g : Nat) : Package :=
  let x := p.grp g
  let p := p.putGroup g HAL_WIN_STATUS_FIFO_COUNT x.fifo.length
  match x.cur with
  | none => (((p.putGroup g HAL_WIN_STATUS_POSITION 0).putGroup g HAL_WIN_STATUS_OWNER 0).putGroup g HAL_WIN_STATUS_WIN_TAG 0)
      |>.each (p.members g) (fun p s => (p.wr (HAL_WIN_CUR_A s) 0).wr (HAL_WIN_CUR_B s) 0)
  | some w =>
    let pos := if p.winState g = WIN_FWD then x.started else x.started - w.fwdCount
    (((p.putGroup g HAL_WIN_STATUS_POSITION pos).putGroup g HAL_WIN_STATUS_OWNER w.owner).putGroup g HAL_WIN_STATUS_WIN_TAG w.tag)
      |>.each (p.members g) (fun p s => (p.wr (HAL_WIN_CUR_A s) w.wordA).wr (HAL_WIN_CUR_B s) w.wordB)

/-- Set the state of a group's Halyard. -/
def Package.setWinState (p : Package) (g st : Nat) : Package := p.putGroup g HAL_WIN_STATUS_STATE st

/-- State of a window by the phases started (Table 4-2). -/
def windowState (w : Window) (started : Nat) : Nat :=
  if started < w.fwdCount then WIN_FWD else if started < w.fwdCount + w.bwdCount then WIN_BWD else WIN_ENDING

/-- The interrupted window resumes at the abandoned phase (R388). -/
def Package.unstart (p : Package) (s : Nat) : Package :=
  let g := p.leader s
  match (p.grp g).cur with
  | none => p
  | some w =>
    if w.owner ≠ s then p
    else
      let n := (p.grp g).started - 1
      let p := p.modGrp g (fun x => { x with started := n })
      let p := if p.winState g = WIN_STOPPED then p else p.setWinState g (windowState w n)
      p.showGroup g

/-- A phase is abandoned: its reserved credits return, its input entry is valid again at the queue's head, nothing is sent. -/
def Package.abandon (p : Package) (s : Nat) : Package :=
  match (p.stg s).phase with
  | none => p
  | some ph =>
    let p := p.modStg s (fun x => { x with phase := none })
    let p := p.each (ph.channels.filter (fun n => !ph.landed.contains n)) (fun p n => p.addCredit s n 1)
    let q := p.queue s ph.dir
    let p := p.setQueue s ph.dir { q with entries := q.entries.map (fun e => if e.1 = ph.entry then (e.1, .valid) else e) }
    let p := if ph.dir = .fwd then p.dropRecord s ph.step ph.microBatch else p
    p.unstart s

/-! ### Disabling (R51, R87, R365, R366) -/

/-- A committed ENABLE of 0 moves a stage to DRAINING; the deadline is DRAIN_BEATS ticks on. -/
def Package.drainStage (p : Package) (s : Nat) : Package :=
  if p.stgState s = STG_DISABLED then p
  else (p.put (STG_STATUS_STATE s) STG_DRAINING).modStg s (fun x =>
    { x with drainBeat := p.beatNo + p.get (CTRL_DRAIN_BEATS (.stg s)), reopen := false })

/-- The group has no current window: IDLE. -/
def Package.idleGroup (p : Package) (g : Nat) : Package :=
  ((p.modGrp g (fun x => { x with cur := none, started := 0, ended := 0, completed := false, ckptOnly := false, raised1 := false, raised2 := false })).setWinState
    g WIN_IDLE).putGroup g HAL_WIN_STATUS_STOP_CAUSE 0 |>.showGroup g

/-- Clear a stage's stash records, with their directory entries (R87). -/
def Package.clearStash (p : Package) (s : Nat) : Package :=
  let p := p.each ((p.stg s).stash.filter (fun r => !r.freed)) (fun p r => p.clearDir s r.dirIndex)
  (p.modStg s (fun x => { x with stash := [], stashHead := 0, stashStalled := false })).showStash s

/-- Senders to a stage that becomes DISABLED: their channels go DOWN (R61). -/
def Package.dropSender (p : Package) (s : Nat) (d : Dir) : Package :=
  let q := p.queue s d
  let p := p.setQueue s d { q with sender := none }
  match q.sender with
  | none => p
  | some x =>
    if x.route = 0 then p
    else if x.route = 1 then p.chanDown x.stage x.chan
    else p.sendRoute x.node CLS_CONTROL 0 (.close x.stage x.chan)

/-- A stage becomes DISABLED (R87): its windows and stash go, its channels close, a pending cluster set applies (R52). -/
def Package.disableStage (p : Package) (s : Nat) : Package :=
  let g := p.leader s
  let x := p.grp g
  let removed := (x.fifo.filter (fun w => w.owner = s)).length
  let ended := match x.cur with
    | some w => decide (w.owner = s)
    | none => false
  let tag := match x.cur with
    | some w => if w.owner = s then w.tag else 0
    | none => 0
  let p := p.modGrp g (fun x => { x with fifo := x.fifo.filter (fun w => w.owner ≠ s) })
  let p := if ended then p.idleGroup g else p.showGroup g
  let p := p.clearStash s
  let p := ((p.put (STG_STATUS_STATE s) STG_DISABLED).put (STG_STATUS_HOLD_CAUSE s) 0)
  let p := p.each (List.range 4) (fun p n => ((p.put (STG_CH_STATE_STATE s n) CH_CLOSED).put (STG_CH_STATE_CREDITS s n) 0).modChan s n (fun _ => {}))
  let p := (p.dropSender s .fwd).dropSender s .bwd
  let p := if (p.stg s).bindPending then p.bind s else p
  let p := p.raise (.hal s) EV_HAL_WIN_DISCARDED (p.beatNo + 2 ^ 48 * tag) (removed % 2 ^ 16 + 2 ^ 16 * b2n ended)
  let reopen := (p.stg s).reopen
  let p := p.modStg s (fun x => { x with phase := none, recovery := false, resumeWait := false, gaveUp := none, foldWaited := false, lastBackward := none })
  if reopen then p.openStage s else p

def stageDrainDeadline (dt s : Nat) (p : Package) : Package :=
  let p := p.pass dt
  if p.stgState s = STG_DRAINING && (p.stg s).drainBeat ≤ p.beatNo then p.abandon s else p

def stageDisabled (dt s : Nat) (p : Package) : Package :=
  let p := p.pass dt
  if p.stgState s = STG_DRAINING && (p.stg s).phase.isNone then p.disableStage s else p

/-- Another package's queue has closed: its stage is DISABLED (R61). -/
def Package.peerClosed (p : Package) (s n : Nat) : Package := p.chanDown s n

/-! ### Arrivals at a queue (R55, R56, R154) -/

/-- Payload codes that are not reserved (R154). -/
def payloadCodeOk (f : Nat) : Bool := decide (f ≤ 6) || f = 0x10

/-- SOURCE of a descriptor: sending stage [4:0], route [7:5]. -/
def sourceField (x : Sender) : Nat := x.stage % 32 + 32 * (x.route % 8)

/-- The event of a failed check, with its arguments (R56). -/
def Package.checkFail (p : Package) (s entry : Nat) (x : Sender) : Package :=
  p.raise (.stg s) EV_STG_CHECK_FAIL (sourceField x + 2 ^ 16 * (x.node % 2 ^ 12)) (arg1Of s entry)

/-- The receiver's verdict on a payload: the check passes when CRC-32C agrees, the payload fits the slot, its code is not reserved and
its bytes are all there. -/
def Package.payloadOk (p : Package) (o : Output) : Bool :=
  crc32c o.data = o.check && decide (o.bytes ≤ p.qUnits o.stage o.dir * 4096) && payloadCodeOk o.format && decide (o.data.length = o.bytes)

/-- A payload and its descriptor reach a queue. -/
def Package.land (p : Package) (o : Output) : Package :=
  let q := p.queue o.stage o.dir
  if q.sender ≠ some o.src || p.qDepth o.stage o.dir ≤ q.entries.length then p.checkFail o.stage 0xFFFF o.src
  else
    let i := q.tail
    let slot := p.qSlotAddr o.stage o.dir i
    let room := p.qUnits o.stage o.dir * 4096
    let reach := p.rangeOk slot (min o.bytes room) && p.rangeOk (p.qDescAddr o.stage o.dir i) 64
    let ok := p.payloadOk o && reach
    let d : Desc := { flags := descFlags ok o.dir o.last, microBatch := o.microBatch, format := o.format, step := o.step, version := o.version,
                      payload := slot, bytes := o.bytes, check := o.check, scale := o.scale, source := sourceField o.src, land := p.dtime }
    let die := if o.src.node = p.node then p.get (STG_STATUS_HOME_DIE o.src.stage) else 8
    let p := if reach then (p.storeBy die slot (o.data.take room)).storeBy die (p.qDescAddr o.stage o.dir i) d.toBytes else p
    let p := p.setQueue o.stage o.dir { q with entries := q.entries ++ [(i, if ok then .valid else .failed)],
                                               tail := (i + 1) % max 1 (p.qDepth o.stage o.dir) }
    if ok then p
    else
      let p := (p.holdStage o.stage 3).checkFail o.stage i o.src
      p.report (.stg o.stage) 8 1 EV_STG_CHECK_FAIL (sourceField o.src + 2 ^ 16 * (o.src.node % 2 ^ 12)) (arg1Of o.stage i) false false

def microBatchReceive (dt : Nat) (o : Output) (p : Package) : Package := ((p.pass dt).arrived (.output o)).land o

/-! ### Software feed and flush (R57 to R59) -/

/-- Set VALID and LAND in the descriptor of a pushed entry. -/
def Package.pushEntry (p : Package) (s i : Nat) : Package :=
  let a := p.qDescAddr s .fwd i
  match p.load a 64 with
  | .ok b =>
    let d := Desc.ofBytes b
    let d := { d with flags := putBits d.flags 0 1 1, land := p.dtime }
    p.store a d.toBytes
  | _ => p

def fqPush (dt s n : Nat) (p : Package) : Package :=
  let p := p.pass dt
  let q := p.queue s .fwd
  let depth := p.qDepth s .fwd
  let n := n % 128
  if !p.has (STG_CTRL_FQ_SW_FEED s) then p.raise (.stg s) EV_STG_PUSH_OVERFLOW n (arg1Of s 1)
  else if depth - q.entries.length < n then p.raise (.stg s) EV_STG_PUSH_OVERFLOW n (arg1Of s 0)
  else
    let idx := (List.range n).map (fun i => (q.tail + i) % max 1 depth)
    let p := p.each idx (fun p i => p.pushEntry s i)
    p.setQueue s .fwd { q with entries := q.entries ++ idx.map (fun i => (i, .valid)), tail := (q.tail + n) % max 1 depth }

/-- Clear VALID in memory for an entry that a flush drops. -/
def Package.clearEntry (p : Package) (s : Nat) (d : Dir) (i : Nat) : Package :=
  match p.load (p.qDescAddr s d i) 4 with
  | .ok b => p.store (p.qDescAddr s d i) (leBytes 4 (putBits (leNat b) 0 1 0))
  | _ => p

/-- `STG_QFLUSH` acts only while the stage is DISABLED (R59). -/
def qflush (s : Nat) (d : Dir) (p : Package) : Package :=
  if p.stgState s ≠ STG_DISABLED then p.raise (.stg s) EV_STG_FLUSH_REFUSED p.beatNo (arg1Of s (qIndex d))
  else
    let q := p.queue s d
    (p.each q.entries (fun p e => p.clearEntry s d e.1)).setQueue s d { q with entries := [], tail := 0 }

/-! ### Hold and clear (R76, R86) -/

def halHold (dt s : Nat) (b : Bool) (p : Package) : Package := (p.pass dt).put (HAL_CTRL_HOLD s) (b2n b)

/-- CLEAR acts at the next tick (R76). -/
def halClear (s : Nat) (p : Package) : Package := (p.put (HAL_CTRL_CLEAR s) 1).modStg s (fun x => { x with clearAsked := true })

/-! ### The commands' meanings -/

def execMicroBatchReceive (dt : Nat) (o : Output) (s : State) := onPkg (microBatchReceive dt o) s
def execCreditReceive (dt stage chan n : Nat) (s : State) := onPkg (creditReceive dt stage chan n) s
def execChannelOpenReceive (dt stage : Nat) (d : Dir) (x : Sender) (s : State) := onPkg (channelOpenReceive dt stage d x) s
def execChannelOpenAnswer (dt stage chan result depth units used : Nat) (s : State) :=
  onPkg (channelOpenAnswer dt stage chan result depth units used) s
def execChannelOpenTimeout (dt stage chan : Nat) (s : State) := onPkg (channelOpenTimeout dt stage chan) s
def execStageDrainDeadline (dt stage : Nat) (s : State) := onPkg (stageDrainDeadline dt stage) s
def execStageDisabled (dt stage : Nat) (s : State) := onPkg (stageDisabled dt stage) s
def execFqPush (dt stage n : Nat) (s : State) := onPkg (fqPush dt stage n) s
def execQflushForward (stage : Nat) (s : State) := onPkg (qflush stage .fwd) s
def execQflushBackward (stage : Nat) (s : State) := onPkg (qflush stage .bwd) s
def execHalHold (dt stage : Nat) (b : Bool) (s : State) := onPkg (halHold dt stage b) s
def execHalClear (stage : Nat) (s : State) := onPkg (halClear stage) s

end Sys2Proof.Machine
end

