-- ==== Sys2Proof/Machine/Cores.lean ====
section
/-! DEFINITION. What every command of a core rests on: which phase or RUN the core serves (R49, R100, R101), its local memories
(R107, R143, R229), tokens (R103), command errors (R121), poison (R227) and the statistics it folds (R164, R384). -/

namespace Sys2Proof.Machine

open Sys2Proof

/-! ### Cores and clusters -/

def Package.setCore (p : Package) (c k : Nat) (x : Core) : Package := { p with cores := mapSet {} p.cores (32 * c + k) x }
def Package.modCore (p : Package) (c k : Nat) (f : Core → Core) : Package := p.setCore c k (f (p.core c k))
def Package.clu (p : Package) (c : Nat) : Cluster := mapGet {} p.clus c
def Package.setClu (p : Package) (c : Nat) (x : Cluster) : Package := { p with clus := mapSet {} p.clus c x }
def Package.modClu (p : Package) (c : Nat) (f : Cluster → Cluster) : Package := p.setClu c (f (p.clu c))

/-- Map logical position q of a cluster to a physical core. -/
def Package.mapCore (p : Package) (c q k : Nat) : Package :=
  if q < 8 then p.put ⟨CLU_CORE_MAP_0 c, 8 * q, 5⟩ k else p.put ⟨CLU_CORE_MAP_1 c, 8 * (q - 8), 5⟩ k

/-- Logical position of a physical core, if it is mapped. -/
def Package.posOf (p : Package) (c k : Nat) : Option Nat := (List.range 16).find? (fun q => p.coreAt c q = k)

/-- An accepted feature (R346): its bit of the committed accept. -/
def Package.feature (p : Package) (n : Nat) : Bool := bitAt (p.rd (FEATURE_ACCEPT .pkg 0)) n

/-- Array clock of a die in MHz: 1,500 unless reduced (R483). -/
def Package.mhz (p : Package) (d : Nat) : Nat := mapGet 1500 p.aclk d

/-- Clock units of n array cycles of a die. -/
def Package.cycles (p : Package) (d n : Nat) : Nat := n * 256000 / max 1 (p.mhz d)

/-- Array cycles of a die in u clock units. -/
def Package.cyclesIn (p : Package) (d u : Nat) : Nat := u * p.mhz d / 256000

/-! ### What a core serves -/

/-- The work that a core's commands belong to: the phase or RUN, and the layer whose list runs. -/
structure Ctx where
  stage : Nat
  run : Option RunJob
  step : Nat
  microBatch : Nat
  dir : Dir
  layer : Layer
  layerIdx : Nat
  rank : Nat
  /-- a stage-checkpoint recompute runs this list (R189) -/
  recompute : Bool
  inScale : Nat
  version : Nat
deriving DecidableEq, Repr

/-- Rank of a core in a list of clusters. -/
def Package.rankIn (p : Package) (clusters : List Nat) (c k : Nat) : Nat :=
  16 * clusters.idxOf c + (p.posOf c k).getD 0

/-- Stages whose phase computes on a cluster, with the phase's start. -/
def Package.servesOn (p : Package) (c : Nat) : List (Nat × Phase) :=
  (p.stages.filterMap (fun e => match e.2.phase with
    | some ph => if ph.endAt.isNone && e.2.clusters.contains c then some (e.1, ph) else none
    | none => none))

/-- Phase a runs before phase b on a shared cluster: by start, then backward first, then the lower stage (R49). -/
def runsBefore (a b : Nat × Phase) : Bool :=
  decide (a.2.startAt < b.2.startAt)
    || (decide (a.2.startAt = b.2.startAt) && ((decide (a.2.dir = .bwd) && decide (b.2.dir = .fwd))
        || (decide (a.2.dir = b.2.dir) && decide (a.1 < b.1))))

/-- The stage whose phase a cluster runs now. -/
def Package.servedStage (p : Package) (c : Nat) : Option (Nat × Phase) :=
  (p.servesOn c).foldl (fun best e => match best with
    | none => some e
    | some b => if runsBefore e b then some e else some b) none

/-- The RUN that holds a cluster. -/
def Package.servedRun (p : Package) (c : Nat) : Option RunJob :=
  p.runs.find? (fun r => decide (72 * r.die + r.first ≤ c) && decide (c < 72 * r.die + r.first + r.count))

def Layer.none : Layer :=
  { id := 0, flags := 0, weightBytes := 0, weightOffset := 0, fwdList := 0, bwdList := 0, fwdLen := 0, bwdLen := 0, numSlot := 0, policy := 0,
    maskAddr := 0, reservedZero := true }

/-- The context of a core's running list. -/
def Package.ctx (p : Package) (c k : Nat) : Option Ctx :=
  match p.servedRun c with
  | some r =>
    some { stage := 0, run := some r, step := 0, microBatch := r.tag, dir := .fwd, layer := { Layer.none with id := r.layer }, layerIdx := 0,
           rank := p.rankIn ((List.range r.count).map (fun i => 72 * r.die + r.first + i)) c k, recompute := false, inScale := F32_ONE, version := 0 }
  | none =>
    match p.servedStage c with
    | none => none
    | some (s, ph) =>
      let pos := p.listAtPos s ph ((p.core c k).layerPos - 1)
      some { stage := s, run := none, step := ph.step, microBatch := ph.microBatch, dir := ph.dir, layer := (p.layer s pos.1).getD Layer.none,
             layerIdx := pos.1, rank := p.rankIn (p.stg s).clusters c k, recompute := pos.2.2,
             inScale := if pos.2.2 then (((p.stg s).record ph.step ph.microBatch).map (·.inScale)).getD ph.scale else ph.scale,
             version := ph.version }

/-- The phase of a context. -/
def Package.phaseOf (p : Package) (x : Ctx) : Option Phase := if x.run.isSome then none else (p.stg x.stage).phase

/-! ### Command words (R106) -/

/-- Byte range of a command word: `len` bits from bit `lo`. -/
def cw (w : CmdWord) (lo len : Nat) : Nat := bitsOf w.toNat lo len

def opcodeOf (w : CmdWord) : Nat := cw w 0 8
def waitOf (w : CmdWord) : Nat := cw w 16 4
def signalOf (w : CmdWord) : Nat := cw w 20 4
def predBit (w : CmdWord) : Bool := decide (cw w 31 1 = 1)
def predIndex (w : CmdWord) : Nat := cw w 48 4

/-- The word with its opcode byte set. -/
def withOpcode (op : Nat) (w : CmdWord) : CmdWord := BitVec.ofNat 256 (putBits w.toNat 0 8 op)

/-! ### Tokens (R103) -/

def Core.token (co : Core) (t : Nat) : Nat := mapGet 0 co.tokens t
def Core.setToken (co : Core) (t v : Nat) : Core := { co with tokens := mapSet 0 co.tokens t v }

/-- Take the WAIT token of a command that starts. -/
def Core.takeToken (co : Core) (t : Nat) : Core := if t = 0 then co else co.setToken t (co.token t - 1)

/-- Signal the SIGNAL token of a command that completes. -/
def Core.giveToken (co : Core) (t : Nat) : Core := if t = 0 then co else co.setToken t (co.token t + 1)

/-! ### Local memories -/

/-- Bytes of operand SRAM and of cluster SRAM. -/
def OP_BYTES : Nat := 0x30000
def CLU_BYTES : Nat := 0x100000

def cellsAt (m : List Host.Cell) (a n : Nat) : List Byte := (addrs a n).map (fun x => mapGet memDefault m x)

def putCells (m : List Host.Cell) : Nat → List Byte → List Host.Cell
  | _, [] => m
  | a, b :: bs => putCells (mapSet memDefault m a b) (a + 1) bs

/-- Bytes of a core's operand SRAM. -/
def Package.opRead (p : Package) (c k a n : Nat) : List Byte := cellsAt (p.core c k).opMem a n

/-- Write operand SRAM; a map entry whose destination any byte of the write meets leaves the map (R382). -/
def overlaps (a n b m : Nat) : Bool := decide (a < b + m) && decide (b < a + n) && decide (0 < n) && decide (0 < m)

def Package.opWrite (p : Package) (c k a : Nat) (bs : List Byte) : Package :=
  p.modCore c k (fun co => { co with opMem := putCells co.opMem a bs,
                                     opMap := co.opMap.filter (fun e => !(e.rows.any (fun r => overlaps a bs.length r.1 r.2))) })

def Package.cluRead (p : Package) (c a n : Nat) : List Byte := cellsAt (p.clu c).sram a n
def Package.cluWrite (p : Package) (c a : Nat) (bs : List Byte) : Package :=
  p.modClu c (fun x => { x with sram := putCells x.sram a bs,
                                poison := x.poison.filter (fun l => !(decide (a ≤ 64 * l) && decide (64 * l + 64 ≤ a + bs.length))) })

/-- Does a range of cluster SRAM hold poison (R378). -/
def Package.cluPoisoned (p : Package) (c a n : Nat) : Bool := (p.clu c).poison.any (fun l => overlaps a n (64 * l) 64)

/-- Read local SRAM: cluster SRAM when `cl`. -/
def Package.locRead (p : Package) (c k : Nat) (cl : Bool) (a n : Nat) : List Byte := if cl then p.cluRead c a n else p.opRead c k a n
def Package.locWrite (p : Package) (c k : Nat) (cl : Bool) (a : Nat) (bs : List Byte) : Package :=
  if cl then p.cluWrite c a bs else p.opWrite c k a bs

/-- A local range lies within its SRAM. -/
def locFits (cl : Bool) (a n : Nat) : Bool := decide (a + n ≤ if cl then CLU_BYTES else OP_BYTES)

/-! ### Ends of a command -/

/-- How a command ends: completed, failed a check with a cause (R121), met poison (R227), or started and waits. -/
inductive CmdEnd where
  | done (p : Package)
  | fail (cause : Nat)
  | poisoned
  | wait (p : Package)

/-- Stop every core of a stage that works for its phase. -/
def Package.stopCores (p : Package) (s : Nat) : Package :=
  p.each (p.stageCores s) (fun p e => p.modCore e.1 e.2 (fun co => { co with stopped := true, mx := [], ac := [], ve := [], dm := [], seq := none, behind := [] }))

/-- The error word of `XE_CMD_ERR_LAST` (Table 5-11). -/
def errWord (cause core opcode stage index : Nat) : Nat :=
  cause % 256 + 2 ^ 8 * (core % 32) + 2 ^ 16 * (opcode % 256) + 2 ^ 24 * (stage % 32) + 2 ^ 32 * (index % 2 ^ 32)

/-- A command error (R121): the core stops, the phase ends without output, the stage is HELD with cause 1. A RUN ends FAILED (R361). -/
def Package.cmdError (p : Package) (c k : Nat) (x : Ctx) (opcode index cause : Nat) : Package :=
  let v := errWord cause k opcode x.stage index
  let p := (p.bump64 (XE_CMD_ERR_COUNT c) 1).wr (XE_CMD_ERR_LAST c) v
  let p := p.raise (.xe c) EV_XE_CMD_INVALID v (arg1Of c k)
  match x.run with
  | some r =>
    let p := p.modCore c k (fun co => { co with stopped := true })
    let res := cause % 256 + 2 ^ 8 * (k % 32) + 2 ^ 16 * (c % 72)
    { p with runs := p.runs.map (fun q => if q.ring = r.ring && q.tag = r.tag && q.failed.isNone then { q with failed := some res } else q) }
  | none => ((p.stopCores x.stage).abandon x.stage).holdStage x.stage 1

/-- The mark of a RUN that a poisoned line ended. -/
def RUN_POISON : Nat := 2 ^ 32

/-- A command that met poison writes nothing and signals nothing; the stage is HELD with cause 4 and its cores stop (R227). -/
def Package.cmdPoison (p : Package) (c k : Nat) (x : Ctx) : Package :=
  match x.run with
  | some r =>
    let p := p.modCore c k (fun co => { co with stopped := true })
    { p with runs := p.runs.map (fun q => if q.ring = r.ring && q.tag = r.tag && q.failed.isNone then { q with failed := some RUN_POISON } else q) }
  | none => (p.stopCores x.stage).holdStage x.stage 4

/-! ### Statistics (R164, R384) -/

/-- The larger of two non-negative FP32 words. -/
def amaxOf (a b : Nat) : Nat := max a b

def Stats.merge (a b : Stats) : Stats :=
  { amax := amaxOf a.amax b.amax, count := a.count + b.count, preNz := a.preNz + b.preNz, nonzero := a.nonzero + b.nonzero,
    underCur := a.underCur + b.underCur, underNext := a.underNext + b.underNext, sat := a.sat + b.sat, nonfinite := a.nonfinite || b.nonfinite,
    position := max a.position b.position }

/-- Add statistics to a step's entry of a list. -/
def statsAdd (l : List (Nat × Stats)) (step : Nat) (st : Stats) : List (Nat × Stats) :=
  match l.find? (fun e => e.1 = step) with
  | none => l ++ [(step, st)]
  | some _ => l.map (fun e => if e.1 = step then (e.1, e.2.merge st) else e)

/-- Add statistics to the package's record of a slot and step. -/
def Package.addStats (p : Package) (slot step : Nat) (st : Stats) : Package :=
  { p with num := { p.num with stats := mapSet [] p.num.stats slot (statsAdd (mapGet [] p.num.stats slot) step st) } }

/-- A core folds statistics: they stay with the core until it passes a replay point. -/
def Package.foldStats (p : Package) (c k slot step : Nat) (st : Stats) : Package :=
  p.modCore c k (fun co => { co with heldStats := co.heldStats ++ [(slot, (step, st))] })

/-- A core passes a replay point: its held statistics count (R384). -/
def Package.releaseStats (p : Package) (c k : Nat) : Package :=
  (p.each (p.core c k).heldStats (fun p e => p.addStats e.1 e.2.1 e.2.2)).modCore c k (fun co => { co with heldStats := [] })

/-! ### The start of a phase or RUN on a core (R103, R130, R199) -/

/-- A core's state at the start of a phase: tokens 0, predicates 0 to 5 false and 6 true, slots, groups, Ladle and row statistics clear,
every group's spill interval from `ACC_CFG`. Operand SRAM and the array carry on. -/
def Core.phaseReset (co : Core) (s now : Nat) (job : Nat × Nat) : Core :=
  { co with
    serving := some job,
    slots := [], groups := (List.range 8).map (fun g => (g, { s := s })), ladle := [], rowStats := [], tokens := [], preds := 64,
    mx := [], ac := [], ve := [], dm := [], seq := none, behind := [], index := 0, ordinal := 0, left := 0, layerPos := 0, skip := false,
    stopped := co.failing, paired := none, quads := [], maskWord := 0, published := [], heldStats := [], point := { clock := now }, since := [],
    replaying := false, opMap := [] }

def Package.startCores (p : Package) (cores : List (Nat × Nat)) (job : Nat × Nat) : Package :=
  p.each cores (fun p e =>
    -- a committed `CLU_CFG` takes effect here (R400)
    let p := p.modClu e.1 (fun x => { x with rpLimit := p.get (CLU_CFG_RP_LIMIT e.1), wdog := p.get (CLU_CFG_WDOG_CYCLES e.1) })
    p.modCore e.1 e.2 (fun co => co.phaseReset (p.get (ACC_CFG_SPILL_S e.1)) p.clock job))

end Sys2Proof.Machine
end

