-- ==== Sys2Proof/Machine/Halyard.lean ====
section
/-! DEFINITION. The Halyard (04_schedule_execution.md): windows (R78 to R87), the checks and the stash behind a phase's start (R50,
R84, R85, R89 to R95, R189, R190), the start itself, the end of its compute, its landing and its end (R37 to R41, R57, R72, R86). -/

namespace Sys2Proof.Machine

open Sys2Proof

/-! ### Issuing windows (R78, R79) -/

/-- Merge a 32-bit write into half h of a 64-bit value; `none` writes it whole. -/
def mergeHalf (old : Nat) (half : Option Nat) (v : Nat) : Nat :=
  match half with
  | none => v % 2 ^ 64
  | some 0 => putBits old 0 32 v
  | some _ => putBits old 32 32 v

/-- Stage an issue value: register A, or the lower half of B. -/
def winStage (s : Nat) (regB : Bool) (half : Option Nat) (v : Nat) (p : Package) : Package :=
  p.modStg s (fun x => if regB then { x with issueB := mergeHalf x.issueB (some 0) v } else { x with issueA := mergeHalf x.issueA half v })

/-- Code of the first failing check of a window, in the order of R79; 0 when it passes. Reserved bits are seen as written. CKPT_ALL is
reserved without the feature STAGE_CKPT (R348). -/
def Package.windowCheck (p : Package) (s a b : Nat) : Nat :=
  let w := windowOf s a b
  let reserved := bitsOf a 52 12 + bitsOf a 47 1 + bitsOf a 23 1
  if w.fwdCount = 0 && w.bwdCount = 0 then 1
  else if 64 < w.fwdCount || 64 < w.bwdCount then 2
  else if 65536 < w.fwdBase + w.fwdCount || 65536 < w.bwdBase + w.bwdCount then 3
  else if w.step < w.lag then 4
  else if 0 < reserved || (w.ckptAll && !p.feature 8) then 5
  else if p.stgState s = STG_DISABLED then 6
  else 0

/-- ARG0 of a window event: STEP and WIN_TAG. -/
def winArg (b : Nat) : Nat := bitsOf b 0 64

/-- A push (R78, R79, R82). -/
def winPush (s : Nat) (half : Option Nat) (v : Nat) (p : Package) : Package :=
  let x := p.stg s
  let a := x.issueA
  let b := mergeHalf x.issueB half v
  let p := p.modStg s (fun x => { x with issueA := 0, issueB := 0 })
  let g := p.leader s
  let code := p.windowCheck s a b
  if Config.windowFifo ≤ (p.grp g).fifo.length then p.raise (.hal s) EV_HAL_WIN_OVERFLOW (winArg b) (arg1Of s 0)
  else if code ≠ 0 then p.raise (.hal s) EV_HAL_WIN_INVALID (winArg b) (arg1Of s code)
  else (p.modGrp g (fun x => { x with fifo := x.fifo ++ [windowOf s a b] })).showGroup g

/-- `HAL_WIN_FLUSH` removes the writing stage's waiting windows while it is DISABLED or its group is STOPPED (R87). -/
def winFlush (s : Nat) (p : Package) : Package :=
  let g := p.leader s
  if p.stgState s = STG_DISABLED || p.winState g = WIN_STOPPED then
    (p.modGrp g (fun x => { x with fifo := x.fifo.filter (fun w => w.owner ≠ s) })).showGroup g
  else p

/-! ### Layer-list entries (R50, R90, R170, R192, R202) -/

/-- Configuration fields of a history record are valid (R167, R170). Positions 0 and 1 need the feature MX_GRADIENTS. -/
def histConfigOk (mxGrad : Bool) (b : List Byte) : Bool :=
  let kind := fieldAt b 2 1
  let lo := fieldAt b 4 1
  let hi := fieldAt b 5 1
  decide (kind ≤ 3) && decide (lo ≤ hi) && decide (hi ≤ 5) && (mxGrad || decide (2 ≤ lo))
    && (if kind = 3 then lo = 5 && hi = 5 else hi ≤ 4 && hi - lo ≤ 2)

/-- The bytes of a history record, where the table holds it. -/
def Package.histBytes (p : Package) (slot : Nat) : Option (List Byte) :=
  if slot < p.rd NUM_HIST_SLOTS then
    match p.load (p.rd NUM_HIST_BASE + 256 * slot) 256 with
    | .ok b => some b
    | _ => none
  else none

/-- A NUM_SLOT that names a record must name one with a valid configuration (R170). -/
def Package.slotConfigOk (p : Package) (slot : Nat) : Bool :=
  if slot < p.rd NUM_HIST_SLOTS then
    match p.histBytes slot with
    | some b => histConfigOk (p.feature 6) b
    | none => false
  else true

/-- The uses of a tie entry: (stage, buffer, layer index). -/
def tieUses (b : List Byte) : List (Nat × Nat × Nat) :=
  (List.range (min 4 (fieldAt b 2 1))).map (fun i =>
    let v := fieldAt b (24 + 8 * i) 8
    (bitsOf v 0 5, bitsOf v 12 36 * 4096, bitsOf v 48 12))

def Package.tieBytes (p : Package) (t : Nat) : Option (List Byte) :=
  match p.load (p.rd BWD_TIE_BASE + 64 * t) 64 with
  | .ok b => some b
  | _ => none

/-- The tie entry that lists a stage's layer (R192). -/
def Package.tieOf (p : Package) (s i : Nat) : Option Nat :=
  (List.range (p.get BWD_CFG_TIES)).find? (fun t => match p.tieBytes t with
    | some b => (tieUses b).any (fun u => u.1 = s && u.2.2 = i)
    | none => false)

/-- The tie part of the layer-entry check. -/
def Package.tieOk (p : Package) (s i : Nat) (l : Layer) : Bool :=
  match p.tieOf s i with
  | none => false
  | some t =>
    match p.tieBytes t with
    | none => false
    | some b =>
      let uses := fieldAt b 2 1
      let kind := match p.histBytes (fieldAt b 4 2) with
        | some r => fieldAt r 2 1
        | none => 9
      decide (1 ≤ uses) && decide (uses ≤ 4) && decide (kind = 0) && !l.masked

/-- A stash policy entry obeys R90; MASK and SIGN need the feature REEF_FORMS. -/
def Package.policyOk (p : Package) (s i : Nat) : Bool :=
  match p.policy s i with
  | none => false
  | some ts => ts.all (fun t => t.ok && (p.feature 7 || !(t.form = FORM_MASK || t.form = FORM_SIGN || t.floor = FORM_MASK || t.floor = FORM_SIGN)))

/-- The check of layer-list entry i of a stage (R50). -/
def Package.layerOk (p : Package) (s i : Nat) : Bool :=
  match p.layer s i with
  | none => false
  | some l =>
    l.reservedZero
      && decide (l.weightOffset + l.weightBytes ≤ p.rd (STG_VSLOT_BYTES s))
      && (l.fwdLen = 0 || l.fwdList ≠ 0) && (l.bwdLen = 0 || l.bwdList ≠ 0)
      && p.policyOk s l.policy
      && p.slotConfigOk l.numSlot
      && (!l.tied || (p.feature 12 && p.tieOk s i l))
      && (!l.predicated || (p.feature 11 && decide (4096 ≤ p.rd (MOE_LOG_SLOT s))))
      && (!l.masked || p.feature 13)

/-- The first layer entry that the current window has not used and that fails its check. -/
def Package.badLayer (p : Package) (s : Nat) : Option Nat :=
  (List.range (p.layerCount s)).find? (fun i => !(p.stg s).checked.contains i && !p.layerOk s i)

/-! ### Stash records (R89 to R95, R190) -/

/-- The tensors of a stage's record in layer and descriptor order, with their layer index. -/
def Package.tensors (p : Package) (s : Nat) : List (Nat × Tensor) :=
  (List.range (p.layerCount s)).flatMap (fun i => match p.layer s i with
    | some l => ((p.policy s l.policy).getD []).map (fun t => (i, t))
    | none => [])

/-- Form of a tensor in a record (R92). -/
def formIn (level : Nat) (stageCkpt : Bool) (t : Tensor) : Nat :=
  if stageCkpt then FORM_CKPT else if level = 1 then t.floor else t.form

/-- Bytes of a record and of its input copy (R91, R231). -/
def recordBytes (ts : List (Nat × Tensor)) (level : Nat) (stageCkpt : Bool) (inputBytes : Nat) : Nat × Nat :=
  let copy := stageCkpt || ts.any (fun t => formIn level stageCkpt t.2 = FORM_CKPT)
  let cb := if copy then roundUp inputBytes 64 else 0
  ((ts.map (fun t => formSpace (formIn level stageCkpt t.2) t.2.elements)).sum + cb, cb)

/-- Where a record of z bytes would lie in the ring, and the bytes charged (R91). -/
def Package.placeRecord (p : Package) (s z : Nat) : Nat × Nat :=
  let size := p.rd (HAL_STASH_SIZE s)
  let head := (p.stg s).stashHead
  if size < head + z then (0, z + (size - head)) else (head, z)

/-- A record of z bytes fits the quota and the 64-record limit. -/
def Package.fits (p : Package) (s z : Nat) : Bool :=
  let used := ((p.stg s).stash.map (fun r => r.bytes)).sum
  let held := ((p.stg s).stash.filter (fun r => !r.freed)).length
  decide (used + (p.placeRecord s z).2 ≤ p.rd (HAL_STASH_QUOTA s)) && decide (held < Config.stashRecords) && decide (z ≤ p.rd (HAL_STASH_SIZE s))

/-- The escalation level and shape a forward takes (R93): (level, checkpoint-only), none for level 3. -/
def Package.escalate (p : Package) (s inputBytes : Nat) (w : Window) (ckptOnly : Bool) : Option (Nat × Bool) :=
  let ts := p.tensors s
  let z := fun level ck => (recordBytes ts level ck inputBytes).1
  if w.ckptAll then (if p.fits s (z 0 true) then some (0, true) else none)
  else if ckptOnly then (if p.fits s (z 2 true) then some (2, true) else none)
  else if p.fits s (z 0 false) then some (0, false)
  else if p.fits s (z 1 false) then some (1, false)
  else if p.feature 8 && p.fits s (z 2 true) then some (2, true)
  else none

/-- The lowest directory index no live record holds. -/
def freeDir (l : List StashRec) : Nat :=
  ((List.range 64).find? (fun i => !(l.any (fun r => !r.freed && r.dirIndex = i)))).getD 0

/-- FORMS of a directory entry: four bits a tensor, 0xF where absent (Table 4-7). -/
def formsField (l : List Nat) : Nat := (List.range 64).foldl (fun v i => v + 16 ^ i * listAt 0xF l i) 0

/-- The bytes of a directory entry (Table 4-7). -/
def dirBytes (r : StashRec) (forms : List Nat) : List Byte :=
  leBytes 8 r.step ++ leBytes 2 r.microBatch
    ++ leBytes 1 (1 + 2 * b2n r.complete + 4 * b2n r.stageCkpt + 8 * b2n r.inputCopy) ++ leBytes 1 r.level
    ++ leBytes 4 r.bytes ++ leBytes 8 r.base ++ leBytes 8 r.version ++ leBytes 32 (formsField forms)

/-- Directory entry i can be written: reachable, not poisoned (R93). -/
def Package.dirOk (p : Package) (s i : Nat) : Bool :=
  match p.load (p.rd (HAL_STASH_DIR s) + 64 * i) 64 with
  | .ok _ => true
  | _ => false

/-- The stash policy table and directory can be read (R93). -/
def Package.stashReadable (p : Package) (s : Nat) : Bool :=
  (List.range (p.layerCount s)).all (fun i => match p.layer s i with
    | some l => (p.policy s l.policy).isSome
    | none => true)
  && p.dirOk s (freeDir (p.stg s).stash)

/-! ### The start of a phase -/

/-- What the Halyard finds when it looks at a group's next phase. -/
inductive Verdict where
  /-- nothing to start, or a condition is unmet -/
  | wait
  /-- the head does not match the window (R84) -/
  | mismatch
  /-- no stash record (R85) -/
  | noRecord
  /-- tagged version held no longer (R68) -/
  | absent
  /-- a layer entry fails (R50) -/
  | badLayer (i : Nat)
  | start
deriving DecidableEq, Repr

/-- Conditions of a group's Halyard itself (R30, R82, R86, R397, R409): ticks come in ALIGNED or HOLDOVER, nothing pauses it, its owner
is READY and has not used its slot. -/
def Package.mayStart (p : Package) (g s : Nat) : Bool :=
  p.ticking && (p.beatState = BEAT_ALIGNED || p.beatState = BEAT_HOLDOVER) && !p.fatal && !p.snapPause && !p.groupHeld g
    && p.stgState s = STG_READY && (p.winState g = WIN_FWD || p.winState g = WIN_BWD)
    && !(p.stg s).slotUsed && (p.stg s).phase.isNone && !(p.stg s).recovery && !(p.stg s).resumeWait
    && !(p.stg s).shrinkPending

/-- The head descriptor matches the phase that the window names (R84). -/
def headMatches (e : Desc) (d : Dir) (step mb : Nat) : Bool := decide (e.dir = d) && decide (e.step = step) && decide (e.microBatch = mb)

/-- What the group's next phase finds. -/
def Package.verdict (p : Package) (g : Nat) : Verdict :=
  match (p.grp g).cur, (p.grp g).next with
  | some w, some (d, _, mb, step) =>
    let s := w.owner
    if !p.mayStart g s then .wait
    else
      match (p.queue s d).head with
      | none => .wait
      | some (i, st) =>
        if st ≠ .valid then .wait
        else
          match p.descOf s d i with
          | none => .wait
          | some e =>
            if !headMatches e d step mb then .mismatch
            else if d = .bwd && ((p.stg s).record step mb).isNone then .noRecord
            else
              match p.startBlock s d step mb with
              | some _ => .wait
              | none =>
                if (p.slotOf s (p.phaseVersion s d step mb e.version)).isNone then .absent
                else match p.badLayer s with
                  | some i => .badLayer i
                  | none => .start
  | _, _ => .wait

/-- Stop a group: STATE 4 with its cause (R84, R85). -/
def Package.stopGroup (p : Package) (g cause : Nat) : Package := (p.setWinState g WIN_STOPPED).putGroup g HAL_WIN_STATUS_STOP_CAUSE cause

/-- Show an escalation level of the current window (R94). -/
def Package.showLevel (p : Package) (g level : Nat) : Package :=
  if p.get (HAL_WIN_STATUS_STASH_LEVEL g) < level then p.putGroup g HAL_WIN_STATUS_STASH_LEVEL level else p

/-- Write the record of a forward that starts and its directory entry (R91, R92). -/
def Package.openRecord (p : Package) (s step mb version inputBytes inputScale level : Nat) (ck : Bool) : Package :=
  let ts := p.tensors s
  let z := recordBytes ts level ck inputBytes
  let at' := p.placeRecord s z.1
  let base := p.rd (HAL_STASH_BASE s) + at'.1
  let r : StashRec := { step := step, microBatch := mb, dirIndex := freeDir (p.stg s).stash, base := base, bytes := at'.2, version := version,
                        level := level, stageCkpt := ck, inputCopy := decide (z.2 ≠ 0), start := base, copyBytes := z.2,
                        inScale := inputScale }
  let p := p.modStg s (fun x => { x with stash := x.stash ++ [r], stashHead := at'.1 + z.1, stashStalled := false })
  (p.tryStore (p.rd (HAL_STASH_DIR s) + 64 * r.dirIndex) (dirBytes r (ts.map (fun t => formIn level ck t.2)))).showStash s

/-- The input payload is copied into the record where it keeps one (R91). -/
def Package.copyInput (p : Package) (s step mb payload bytes : Nat) : Package :=
  match (p.stg s).record step mb with
  | none => p
  | some r =>
    if !r.inputCopy then p
    else match p.load payload bytes with
      | .ok b => (p.countReadBy (p.get (STG_STATUS_HOME_DIE s)) payload bytes).tryStoreBy (p.get (STG_STATUS_HOME_DIE s)) (r.start + ((recordBytes (p.tensors s) r.level r.stageCkpt 0).1)) b
      | _ => p

/-- Count an escalation and report its first use in the window (R94). -/
def Package.countLevel (p : Package) (g s level tag : Nat) : Package :=
  let p := if level = 1 then p.bump48 (HAL_STASH_REEF_COUNT s) 1 else p.bump48 (HAL_STASH_CKPT_COUNT s) 1
  let first := if level = 1 then !(p.grp g).raised1 else !(p.grp g).raised2
  let p := if first then p.raise (.hal s) EV_HAL_STASH_ESCALATE p.beatNo (arg1Of tag level) else p
  let p := p.modGrp g (fun x => if level = 1 then { x with raised1 := true } else { x with raised2 := true, ckptOnly := true })
  p.showLevel g level

/-- Run position (R390, R405): forwards started on the lowest-indexed FIRST stage. -/
def Package.firstStage (p : Package) : Option Nat := allStages.find? (fun s => p.has (STG_CTRL_FIRST s))

def Package.position (p : Package) (s step : Nat) : Package :=
  if p.firstStage ≠ some s then p
  else
    let data := p.rd (ERR_POS_DATA 8)
    let p := if p.posCount = 0 || p.rd (ERR_POS_STEP 8) ≠ step then
        let n := p.posCount % 4
        let p := (p.wr (ERR_POS_START 8) data).wr (ERR_POS_STEP 8) step
        let p := (p.wr (SNAP_POS_STEP n) step).wr (SNAP_POS_START n) data
        { p with posCount := p.posCount + 1 }
      else p
    p.wr (ERR_POS_DATA 8) ((data + 1) % 2 ^ 48)

/-- Clock of the last tick. -/
def Package.tickClock (p : Package) : Nat := p.clock - (dsub p.dtime p.beat.lastTick).toNat

/-- A phase that starts clears its stage's barriers. -/
def Package.clearBarriers (p : Package) (stage : Nat) : Package :=
  { p with num := { p.num with barriers := p.num.barriers.filter (fun e => e.1 / 4096 ≠ stage) } }

/-- A phase starts: the entry is held, credits are reserved, the cores are reset, the window advances (R37, R57, R62, R130). -/
def Package.beginPhase (p : Package) (g s : Nat) (w : Window) (d : Dir) (idx mb step entry : Nat) (e : Desc) : Package :=
  let q := p.queue s d
  let version := p.phaseVersion s d step mb e.version
  let chans := p.channelsOf s d
  let recompute := d = .bwd && (match (p.stg s).record step mb with
    | some r => r.stageCkpt
    | none => false)
  let now := p.clock
  let late := p.tickClock + 300 * Config.nsUnits < now
  let ph : Phase := { dir := d, step := step, microBatch := mb, index := idx, winTag := w.tag, version := version, beat := p.beatNo,
                      tickAt := p.tickClock, startAt := now, late := late,
                      lastCond := if (p.stg s).otherUnmet ≤ (p.stg s).inputUnmet then .input else .other,
                      channels := chans, entry := entry, lastOfStep := e.lastOfStep, payload := e.payload, bytes := e.bytes, format := e.format,
                      scale := e.scale, recompute := recompute }
  let p := if d = .fwd && p.has (STG_CTRL_FIRST s) then p.modStg s (fun x => { x with tag := some (step, version) }) else p
  let p := p.setQueue s d { q with entries := q.entries.map (fun x => if x.1 = entry then (x.1, .held) else x) }
  let p := p.each chans (fun p n => p.put (STG_CH_STATE_CREDITS s n) (p.get (STG_CH_STATE_CREDITS s n) - 1))
  let p := (p.clearBarriers s).modStg s (fun x => { x with phase := some ph, lastStart := some p.beatNo, foldWaited := false, checked := (List.range (p.layerCount s)) })
  let p := p.each (p.members g) (fun p m => p.modStg m (fun x => { x with slotUsed := true }))
  let p := (p.bump48 (HAL_PHASE_COUNT s) 1).when recompute (fun p => p.bump64 BWD_RECOMP_COUNT 1)
  let p := if d = .fwd then { p with forwards := max p.forwards (step + 1) }.position s step else p
  let p := p.each (p.stg s).clusters (fun p c => match p.servedStage c with
    | some (t, _) => if t = s then p.startCores ((p.activeCores c).map (fun k => (c, k))) (1 + s, now) else p
    | none => p)
  let n := (p.grp g).started + 1
  let p := p.modGrp g (fun x => { x with started := n })
  (p.setWinState g (windowState w n)).showGroup g

/-- A phase that meets every other condition: a forward first takes its stash record, with escalation (R93, R190). -/
def Package.startChecked (p : Package) (g s : Nat) (w : Window) (d : Dir) (idx mb step entry : Nat) (e : Desc) : Package :=
  match d with
  | .bwd => p.beginPhase g s w d idx mb step entry e
  | .fwd =>
    if !p.stashReadable s then
      -- a memory fault while sizing the record (R93)
      (p.holdStage s 4).report (.hal s) 8 1 4 p.beatNo (arg1Of s 0) false false
    else
      match p.escalate s e.bytes w (p.grp g).ckptOnly with
      | none =>
        let p := p.showLevel g 3
        if (p.stg s).stashStalled then p
        else
          let p := (p.modStg s (fun x => { x with stashStalled := true })).bump48 (HAL_STASH_STALL_COUNT s) 1
          -- a stall in a forward half is always UNRELEASABLE (R95)
          p.raise (.hal s) EV_HAL_STASH_FULL step (arg1Of s 1)
      | some (level, ck) =>
        let planned := (recordBytes (p.tensors s) 0 false e.bytes).1
        if ck && p.rd (BWD_RECOMP_SIZE s) < planned then
          (p.raise .bwd EV_BWD_RECOMP_SPACE p.beatNo (arg1Of s 0)).holdStage s 1
        else
          let p := if level = 0 then p else p.countLevel g s level w.tag
          let p := p.openRecord s step mb (p.phaseVersion s d step mb e.version) e.bytes e.scale level ck
          let p := p.copyInput s step mb e.payload e.bytes
          p.beginPhase g s w d idx mb step entry e

/-- Count a backward phase that a fold holds, once (R194). -/
def Package.noteFold (p : Package) (s : Nat) : Package :=
  match p.nextOf s with
  | some (.bwd, _, _, step) =>
    if p.foldBlocks s step && !(p.stg s).foldWaited then (p.modStg s (fun x => { x with foldWaited := true })).bump64 BWD_FOLD_WAIT 1 else p
  | _ => p

/-- The Halyard of a group looks at its next phase and acts. -/
def Package.tryStart (p : Package) (g : Nat) : Package :=
  match (p.grp g).cur, (p.grp g).next with
  | some w, some (d, idx, mb, step) =>
    let s := w.owner
    match p.verdict g with
    | .wait => p.noteFold s
    | .mismatch =>
      (p.raise (.hal s) EV_HAL_WIN_MISMATCH (step % 2 ^ 48 + 2 ^ 48 * w.tag) (mb % 2 ^ 16 + 2 ^ 16 * qIndex d)).stopGroup g 1
    | .noRecord => (p.raise (.hal s) EV_HAL_STASH_MISSING step (arg1Of s mb)).stopGroup g 2
    | .absent => (p.raise (.stg s) EV_STG_VERSION_ABSENT p.beatNo (arg1Of s 0)).holdStage s 2
    | .badLayer i => (p.raise (.stg s) EV_STG_LAYER_INVALID p.beatNo (arg1Of s i)).holdStage s 1
    | .start =>
      match (p.queue s d).head with
      | none => p
      | some (i, _) =>
        match p.descOf s d i with
        | none => p
        | some e => p.startChecked g s w d idx mb step i e
  | _, _ => p

/-- A late start: the first moment before the work deadline at which every condition holds (R37). -/
def phaseLateStart (dt s : Nat) (p : Package) : Package :=
  let p := p.pass dt
  if p.beforeDeadline && (p.stg s).gaveUp.isNone && ((p.grp (p.leader s)).cur.map (·.owner)) = some s then p.tryStart (p.leader s) else p

/-- The work deadline passes: a group whose owner has started no phase gives up its slot to the unmet condition's cause (R37). -/
def workDeadline (dt : Nat) (p : Package) : Package :=
  let p := p.pass dt
  p.each p.countingStages (fun p s =>
    match p.nextOf s with
    | none => p
    | some _ => if (p.stg s).slotUsed then p else
        let c := p.stageCause s
        p.modStg s (fun x => { x with gaveUp := some c }))

/-! ### The end of a phase (R57, R72, R86) -/

/-- An offset from the tick in 10 ns units, saturating (R77). -/
def recOfs (t tick : Nat) : Nat := min ((t - tick) / 2560) 0xFFFFF

/-- Code of an overrun cause. -/
def overrunCause (ph : Phase) (deadlineAt : Nat) : Nat :=
  if ph.late then (match ph.lastCond with
    | .input => 2
    | .other => 3)
  else match ph.endAt with
    | none => 0
    | some t => if deadlineAt < t then 0 else 1

/-- Clock of the work deadline of a phase's beat. -/
def Package.deadlineOf (p : Package) (ph : Phase) : Nat := ph.tickAt + p.periodUnits - p.landingUnits

/-- A phase's compute ended after its deadline (R39). -/
def Package.slotLate (p : Package) (ph : Phase) : Bool := match ph.endAt with
  | some t => decide (p.deadlineOf ph < t)
  | none => false

/-- Write the beat record of a phase that lands (R72, Table 3-10). -/
def Package.writeRecord (p : Package) (s : Nat) (ph : Phase) (land : Nat) : Package :=
  let a := ph.beat % 2 ^ 48 + 2 ^ 48 + 2 ^ 49 * qIndex ph.dir + 2 ^ 50 * b2n (p.slotLate ph) + 2 ^ 51 * b2n ph.overrun.isSome
    + 2 ^ 52 * ((ph.overrun).getD 0) + 2 ^ 56 * (ph.index % 64)
  let b := recOfs ph.startAt ph.tickAt + 2 ^ 20 * recOfs (ph.endAt.getD land) ph.tickAt + 2 ^ 40 * recOfs land ph.tickAt
  (p.wr (HAL_BEAT_REC_A s) a).wr (HAL_BEAT_REC_B s) b

/-- Clear VALID of an entry in memory and free it (R57). -/
def Package.freeEntry (p : Package) (s : Nat) (d : Dir) (i : Nat) : Package :=
  let q := p.queue s d
  ((p.clearEntry s d i).setQueue s d { q with entries := q.entries.filter (fun e => e.1 ≠ i) }).returnCredit s d

/-- Set COMPLETE of a forward's record (R92). -/
def Package.completeRecord (p : Package) (s step mb : Nat) : Package :=
  match (p.stg s).record step mb with
  | none => p
  | some r =>
    let r' := { r with complete := true }
    let p := p.modStg s (fun x => { x with stash := x.stash.map (fun q => if q = r then r' else q) })
    p.tryStore (p.rd (HAL_STASH_DIR s) + 64 * r.dirIndex + 10) [BitVec.ofNat 8 (3 + 4 * b2n r.stageCkpt + 8 * b2n r.inputCopy)]

/-- The last phase of the window has ended: the window completes (R86). -/
def Package.windowDone (p : Package) (g : Nat) (w : Window) : Package :=
  let p := (p.modGrp g (fun x => { x with completed := true })).bump48 (HAL_WIN_DONE w.owner) 1
  if w.notify then p.raise (.hal w.owner) EV_HAL_WIN_DONE p.beatNo (arg1Of w.tag 0) else p

/-- A phase ends. -/
def Package.endPhase (p : Package) (s : Nat) : Package :=
  match (p.stg s).phase with
  | none => p
  | some ph =>
    let p := p.writeRecord s ph p.clock
    let p := p.freeEntry s ph.dir ph.entry
    let p := match ph.dir with
      | .fwd => p.completeRecord s ph.step ph.microBatch
      | .bwd => p.freeRecord s ph.step ph.microBatch
    let p := p.modStg s (fun x => { x with phase := none })
    let p := if ph.dir = .bwd && ph.lastOfStep then p.modStg s (fun x => { x with lastBackward := some ph.step }) else p
    let g := p.leader s
    match (p.grp g).cur with
    | none => p
    | some w =>
      if w.owner ≠ s then p
      else
        let n := (p.grp g).ended + 1
        let p := p.modGrp g (fun x => { x with ended := n })
        if n = w.fwdCount + w.bwdCount then p.windowDone g w else p

/-! ### The end of compute (R100, R133, R177, R233) -/

/-- Nothing of a core's commands is unfinished: every list begun and given, no queue holds a command. -/
def Core.drained (co : Core) : Bool :=
  decide (co.left = 0) && co.mx.isEmpty && co.ac.isEmpty && co.ve.isEmpty && co.dm.isEmpty && co.seq.isNone && co.behind.isEmpty

/-- Every core of a stage has completed the last command of the phase's last list, and no Assay check of the phase is unfinished. -/
def Package.computeDone (p : Package) (s : Nat) (ph : Phase) : Bool :=
  (p.stageCores s).all (fun e =>
    let co := p.core e.1 e.2
    decide (co.serving = some (1 + s, ph.startAt)) && decide (co.layerPos = p.listCount s ph) && co.drained && co.assay.isNone)

/-- Groups open on a core. -/
def Core.openGroups (co : Core) : Nat := (co.groups.filter (fun g => g.2.slot.isSome)).length

/-- A core's work is over: lost groups count (R133), and held statistics are released. -/
def Package.closeCore (p : Package) (e : Nat × Nat) : Package :=
  let n := (p.core e.1 e.2).openGroups
  ((p.when (decide (0 < n)) (fun p => p.bump64 (ACC_ORPHAN_COUNT e.1) n)).put ⟨ACC_STATUS e.1, e.2, 1⟩ 0).releaseStats e.1 e.2

def Package.closeCores (p : Package) (s : Nat) : Package := p.each (p.stageCores s) Package.closeCore

/-- The output's bytes: those stored, a byte never stored being free (R233). -/
def Package.outBytes (p : Package) (ph : Phase) (n : Nat) : List Byte :=
  (List.range n).map (fun i => match mapFind ph.outBuf i with
    | some b => b
    | none => Config.freeByte (p.fresh + i))

/-- The output that channel n of a phase sends (R55, R185). -/
def Package.outputOf (p : Package) (s n : Nat) (ph : Phase) (o : OutDesc) : Output :=
  let data := p.outBytes ph o.bytes
  let route := p.get (STG_CH_CFG_ROUTE s n)
  let target := if route = 0 then s else p.get (STG_CH_DEST_DEST_STAGE s n)
  { stage := target, dir := qDir (p.get (STG_CH_CFG_TARGET_Q s n)),
    src := { node := p.node, stage := s, chan := n, route := route },
    last := ph.lastOfStep, microBatch := ph.microBatch, format := o.format, step := ph.step, version := ph.version, bytes := o.bytes,
    check := crc32c data, scale := o.scale, data := data }

/-- The output of one channel leaves: a loopback lands at once; inside the package and over links it travels, the payload in messages
of at most 4,096 bytes and the descriptor behind them. -/
def Package.sendOutput (p : Package) (s n : Nat) (ph : Phase) (o : OutDesc) : Package :=
  let out := p.outputOf s n ph o
  let route := p.get (STG_CH_CFG_ROUTE s n)
  if route = 0 then
    (p.land out).modStg s (fun x => { x with phase := x.phase.map (fun q => { q with landed := n :: q.landed }) })
  else if route = 1 then p.sendInside CLS_STAGE o.bytes (.output out)
  else
    let mask := p.rd (STG_CH_LINKS s n)
    let node := p.get (STG_CH_DEST_DEST_NODE s n)
    let p := p.each (List.range ((o.bytes + 4095) / 4096)) (fun p i =>
      let part := (out.data.drop (4096 * i)).take 4096
      p.sendMask mask node CLS_STAGE part.length (.fields 0 [out.stage, qIndex out.dir, s, n, 4096 * i] part))
    p.sendMask mask node CLS_STAGE 64 (.output out)

/-- The output has landed on every channel. -/
def allLanded (ph : Phase) : Bool := ph.channels.all (fun n => ph.landed.contains n)

/-- Cores of shared clusters that now serve another phase start it afresh (R49, R130). -/
def Package.nextOnClusters (p : Package) (s : Nat) : Package :=
  p.each (p.stg s).clusters (fun p c => match p.servedStage c with
    | some (t, ph) => p.startCores ((p.activeCores c).map (fun k => (c, k))) (1 + t, ph.startAt)
    | none => p)

/-- The compute of a stage's phase ends; the core (c, k) completed last. -/
def computeEnd (dt s c k : Nat) (p : Package) : Package :=
  let p := p.pass dt
  match (p.stg s).phase with
  | none => p
  | some ph =>
    if ph.endAt.isSome || !p.computeDone s ph then p
    else
      let p := p.closeCores s
      let ph := { ph with endAt := some p.clock }
      let p := p.modStg s (fun x => { x with phase := some ph })
      let p := if p.slotLate ph then p.bump48 (HAL_LATE_COUNT s) 1 else p
      let p := p.nextOnClusters s
      if ph.channels.isEmpty then p.endPhase s
      else match ph.out with
        | none =>
          let x : Ctx := { stage := s, run := none, step := ph.step, microBatch := ph.microBatch, dir := ph.dir, layer := Layer.none, layerIdx := 0,
                           rank := 0, recompute := false, inScale := 0, version := ph.version }
          p.cmdError c k x 0x83 (p.core c k).index 17
        | some o =>
          let p := p.each ph.channels (fun p n => p.sendOutput s n ph o)
          let p := { p with fresh := p.fresh + o.bytes }
          match (p.stg s).phase with
          | some q => if allLanded q then p.endPhase s else p
          | none => p

/-- The output of a phase has landed on a channel (R38). -/
def outputLanded (dt s n : Nat) (p : Package) : Package :=
  let p := p.pass dt
  match (p.stg s).phase with
  | none => p
  | some ph =>
    if ph.endAt.isNone || !ph.channels.contains n then p
    else
      let ph := { ph with landed := if ph.landed.contains n then ph.landed else n :: ph.landed }
      let p := p.modStg s (fun x => { x with phase := some ph })
      if allLanded ph then p.endPhase s else p

/-- The lowest index of an unfinished command among a stage's cores, with its core. -/
def Package.oldestCommand (p : Package) (s : Nat) : Nat :=
  ((p.stageCores s).filterMap (fun e =>
    let co := p.core e.1 e.2
    minOf ((co.mx ++ co.ac ++ co.ve ++ co.dm ++ co.seq.toList).map (fun h => h.index)))).foldl min (2 ^ 32 - 1)

/-- A hung phase (R41, R380): abandoned, its stage HELD with cause 4, an UNCORRECTED entry logged. -/
def phaseHung (dt s : Nat) (p : Package) : Package :=
  let p := p.pass dt
  match (p.stg s).phase with
  | none => p
  | some ph =>
    if p.beatNo < ph.beat + p.get BEAT_SLOT_CFG_HUNG_BEATS + 1 then p
    else
      let p := p.raise .beat EV_BEAT_SLOT_HUNG p.beatNo (arg1Of s 0)
      let idx := p.oldestCommand s
      let p := (p.stopCores s).abandon s
      let p := (p.holdStage s 4).modStg s (fun x => { x with recovery := true })
      p.report (.hal s) 8 1 EV_BEAT_SLOT_HUNG p.beatNo (arg1Of s idx) false false

/-! ### The commands' meanings -/

def execPhaseLateStart (dt stage : Nat) (s : State) := onPkg (phaseLateStart dt stage) s
def execWorkDeadline (dt : Nat) (s : State) := onPkg (workDeadline dt) s
def execComputeEnd (dt stage cluster core : Nat) (s : State) := onPkg (computeEnd dt stage cluster core) s
def execOutputLanded (dt stage chan : Nat) (s : State) := onPkg (outputLanded dt stage chan) s
def execPhaseHung (dt stage : Nat) (s : State) := onPkg (phaseHung dt stage) s
def execWinIssueStage (stage : Nat) (regB : Bool) (half : Option Nat) (value : Nat) (s : State) := onPkg (winStage stage regB half value) s
def execWinPush (stage : Nat) (half : Option Nat) (value : Nat) (s : State) := onPkg (winPush stage half value) s
def execWinFlush (stage : Nat) (s : State) := onPkg (winFlush stage) s

end Sys2Proof.Machine
end

