-- ==== Sys2Proof/Machine/Num.lean ====
section
/-! DEFINITION. Formats, scaling and the selector (07_numerics.md): packing (R115, R116), random draws (R163), scale references (R156 to
R159), conversions (R161, R162) with their statistics (R164), the history record (R166 to R171), current-amax mode (R172, R173) and
silent layers (R174, R175). -/

namespace Sys2Proof.Machine

open Sys2Proof

/-! ### Packing -/

/-- The codes of `n` elements of `b` bits packed without gaps, lower index in lower bits. -/
def unpackCodes (b n : Nat) (bs : List Byte) : List Nat :=
  let v := leNat bs
  (List.range n).map (fun i => bitsOf v (i * b) b)

/-- Value of codes packed at `b` bits. -/
def packValue (b : Nat) : List Nat → Nat
  | [] => 0
  | c :: cs => c % 2 ^ b + 2 ^ b * packValue b cs

def packCodes (b : Nat) (l : List Nat) : List Byte := leBytes ((l.length * b + 7) / 8) (packValue b l)

/-- Bytes of `n` elements of a payload code. -/
def spanOf (code n : Nat) : Nat := (n * bitsOfCode code + 7) / 8

/-! ### Random draws (R163, Table 7-5) -/

/-- Attempted-step coordinate: the step less the stream offset (R390). -/
def Package.streamStep (p : Package) (step : Nat) : Nat := (step + 2 ^ 48 - p.rd (ERR_POS_STREAM 8)) % 2 ^ 48

/-- The four words of call `i` of a command: use 0 rounding, 1 RNG, 2 Assay. -/
def Package.drawCall (p : Package) (x : Ctx) (ordinal use i : Nat) : List Nat :=
  philox (p.rd NUM_SEED) i (x.layer.id % 2 ^ 16 + 2 ^ 16 * (x.rank % 2 ^ 14) + 2 ^ 30 * use)
    (ordinal % 2 ^ 16 + 2 ^ 16 * (x.microBatch % 2 ^ 16)) (p.streamStep x.step % 2 ^ 27 + 2 ^ 27 * (x.stage % 32))

/-- The 16-bit draw of element e: eight elements a call, low half of a word first. -/
def drawOf (words : List Nat) (e : Nat) : Nat := bitsOf (listAt 0 words (e % 8 / 2)) (16 * (e % 2)) 16

def Package.draw16 (p : Package) (x : Ctx) (ordinal use e : Nat) : Nat := drawOf (p.drawCall x ordinal use (e / 8)) e

/-! ### The history record (R170, Table 7-7) -/

/-- Payload code of a ladder position (R167). -/
def ladderCode (f : Nat) : Nat := listAt 0x10 [4, 2, 0, 1, 5, 0x10] f

/-- Replace `n` bytes at offset `o` of a record. -/
def setField (b : List Byte) (o n v : Nat) : List Byte := b.take o ++ leBytes n v ++ b.drop (o + n)

/-- CHECK of a record: CRC-32C of bytes 0 to 39 and 44 to 255. -/
def histCheck (b : List Byte) : Nat := crc32c (b.take 40 ++ b.drop 44)

def histSeal (b : List Byte) : List Byte := setField b 40 4 (histCheck b)

/-- Decision i of a record, newest 0: exponent, position, STEP[15:0]. -/
def histDecision (b : List Byte) (i : Nat) : Int × Nat × Nat :=
  (toSigned 8 (fieldAt b (24 + 4 * i) 1), fieldAt b (25 + 4 * i) 1, fieldAt b (26 + 4 * i) 2)

/-- Four bytes of a decision. -/
def decisionWord (k : Int) (f step : Nat) : Nat := ofSigned 8 k + 2 ^ 8 * (f % 256) + 2 ^ 16 * (step % 2 ^ 16)

/-- A history entry (Table 7-8). -/
structure HistEntry where
  amax : Nat
  nonzero : Nat
  underCur : Nat
  underNext : Nat
  position : Nat
  flags : Nat
deriving DecidableEq, Repr

def histEntry (b : List Byte) (i : Nat) : HistEntry :=
  let o := 64 + 12 * i
  { amax := fieldAt b o 4, nonzero := fieldAt b (o + 4) 2, underCur := fieldAt b (o + 6) 2, underNext := fieldAt b (o + 8) 2,
    position := fieldAt b (o + 10) 1, flags := fieldAt b (o + 11) 1 }

def HistEntry.nonfinite (e : HistEntry) : Bool := bitAt e.flags 0
def HistEntry.sat (e : HistEntry) : Bool := bitAt e.flags 1
def HistEntry.empty (e : HistEntry) : Bool := bitAt e.flags 3
/-- A silent entry: elements, none of which survived, and no non-finite one (R168). -/
def HistEntry.silent (e : HistEntry) : Bool := !e.empty && decide (e.nonzero = 0) && !e.nonfinite

/-- The valid entries of a record, newest first. -/
def histEntries (b : List Byte) : List HistEntry :=
  let head := fieldAt b 16 1
  (List.range (min 16 (fieldAt b 17 1))).map (fun i => histEntry b ((head + 16 - i) % 16))

/-- History validity (R171). -/
def histValid (b : List Byte) : Bool :=
  bitAt (fieldAt b 3 1) 0 && decide (fieldAt b 40 4 = histCheck b) && decide (fieldAt b 17 1 ≤ 16)
    && (List.range 4).all (fun i => decide (fieldAt b 4 1 ≤ (histDecision b i).2.1) && decide ((histDecision b i).2.1 ≤ fieldAt b 5 1))
    && (histEntries b).all (fun e => decide (e.amax < 0x7F800000))

def histWarm (b : List Byte) : Bool := bitAt (fieldAt b 3 1) 1

/-- Store a record with its CHECK. -/
def Package.putHist (p : Package) (slot : Nat) (b : List Byte) : Package := p.tryStore (p.rd NUM_HIST_BASE + 256 * slot) (histSeal b)

/-- Oldest step not yet resolved: one beyond the oldest RESOLVED_STEP of the enabled stages. -/
def Package.oldestOpenStep (p : Package) : Nat :=
  match minOf ((p.countingStages).map (fun s => (p.resolved s + 1).toNat)) with
  | some k => k
  | none => 0

/-- Count a slot that enters current-amax mode in a step (R172). -/
def Package.noteWarm (p : Package) (step : Nat) : Package :=
  { p with num := { p.num with entered := mapSet 0 p.num.entered step (mapGet 0 p.num.entered step + 1) } }

/-- A slot enters current-amax mode for WARM_STEPS steps (R172). -/
def Package.enterWarm (p : Package) (slot step : Nat) (b : List Byte) : Package :=
  let b' := setField (setField b 3 1 (putBits (fieldAt b 3 1) 1 1 1)) 6 2 (p.get NUM_CFG_WARM_STEPS)
  let p := p.putHist slot b'
  let p := if histWarm b then p else p.put NUM_STATUS_WARM_SLOTS (p.get NUM_STATUS_WARM_SLOTS + 1)
  p.noteWarm step

/-- An invalid history is discarded: four decisions at FMT_MAX, no entries, HIST_VALID set; the slot enters current-amax mode (R171). -/
def Package.resetHist (p : Package) (slot step : Nat) (b : List Byte) : Package :=
  let was := bitAt (fieldAt b 3 1) 0
  let d := decisionWord 0 (fieldAt b 5 1) 0
  let b1 := b.take 3 ++ leBytes 1 1 ++ (b.drop 4).take 2 ++ leBytes 2 0 ++ (b.drop 8).take 8 ++ leBytes 1 0 ++ leBytes 1 0 ++ (b.drop 18).take 2
    ++ leBytes 4 0 ++ leBytes 4 d ++ leBytes 4 d ++ leBytes 4 d ++ leBytes 4 d ++ b.drop 40
  let p := if was && !histWarm b then p else if was then p.put NUM_STATUS_WARM_SLOTS (p.get NUM_STATUS_WARM_SLOTS - 1) else p
  let p := p.enterWarm slot step b1
  if was then p.raise .num EV_NUM_HIST_INVALID p.beatNo (arg1Of slot 0) else p

/-- A slot is used in a step: an invalid history is discarded first (R171, R172). -/
def Package.useSlot (p : Package) (slot step : Nat) : Package :=
  match p.histBytes slot with
  | none => p
  | some b => if histConfigOk (p.feature 6) b && !histValid b then p.resetHist slot step b else p

/-- The decision in force for a step on a stage (R169): that of step k − 1 − STALE_MAX, else the newest held. -/
def Package.decision (p : Package) (stage step : Nat) (b : List Byte) : Int × Nat :=
  let want := step - 1 - p.staleMax stage
  match (List.range 4).find? (fun i => decide (p.staleMax stage < step) && (histDecision b i).2.2 = want % 2 ^ 16) with
  | some i => ((histDecision b i).1, (histDecision b i).2.1)
  | none => ((histDecision b 0).1, (histDecision b 0).2.1)

/-- Barrier of a slot in a stage's phase. -/
def Package.barrier (p : Package) (stage slot : Nat) : Barrier := mapGet {} p.num.barriers (4096 * stage + slot)
def Package.setBarrier (p : Package) (stage slot : Nat) (b : Barrier) : Package :=
  { p with num := { p.num with barriers := mapSet {} p.num.barriers (4096 * stage + slot) b } }

/-! ### Stash tensors (R231) and the exponent a scale block holds (R154, R158) -/

/-- Where a tensor of the running layer lies: address, size, form, elements; in the record, or in the recompute region at planned forms. -/
def tensorWalk (level : Nat) (ck : Bool) (layer tid : Nat) : Nat → List (Nat × Tensor) → Option (Nat × Nat × Nat × Nat)
  | _, [] => none
  | a, (i, t) :: r =>
    let f := formIn level ck t
    if i = layer && t.id = tid then some (a, formSpace f t.elements, f, t.elements)
    else tensorWalk level ck layer tid (a + formSpace f t.elements) r

def Package.tensorPlace (p : Package) (x : Ctx) (tid : Nat) : Option (Nat × Nat × Nat × Nat) :=
  let ts := p.tensors x.stage
  let region := p.rd (BWD_RECOMP_BASE x.stage)
  if x.recompute then tensorWalk 0 false x.layerIdx tid region ts
  else match (p.stg x.stage).record x.step x.microBatch with
    | none => none
    | some r =>
      -- a backward whose record is checkpoint-only reads the planned forms of the recompute region (R189)
      if x.dir = .bwd && r.stageCkpt then tensorWalk 0 false x.layerIdx tid region ts
      else tensorWalk r.level r.stageCkpt x.layerIdx tid r.start ts

/-- Exponent that a FULL_FP8 tensor's scale block holds for a slot, in a backward phase (R158). The block lies behind the elements. -/
def Package.stashExponent (p : Package) (x : Ctx) (slot : Nat) : Option Int :=
  if x.dir ≠ .bwd || x.recompute then none
  else
    (((p.policy x.stage x.layer.policy).getD []).filterMap (fun t =>
      match p.tensorPlace x t.id with
      | none => none
      | some (a, _, f, n) =>
        if f ≠ FORM_FULL_FP8 then none
        else match p.load (a + roundUp n 64) 64 with
          | .ok b => if fieldAt b 6 2 = slot then (match f32 (fieldAt b 0 4) with
              | .fin _ m e => if m = 0 then none else some (floorLog m e)
              | _ => none) else none
          | _ => none)).head?

/-! ### Scale references (R157 to R159) -/

/-- A term of a reference: sign code and slot offset. -/
def refTerms (w : Nat) : List (Nat × Nat) :=
  [(bitsOf w 20 2, bitsOf w 16 4), (bitsOf w 14 2, bitsOf w 10 4), (bitsOf w 8 2, bitsOf w 4 4)]

def isRef (w : Nat) : Bool := decide (bitsOf w 22 10 = 0x3FF)

/-- What a scale word resolves to. -/
inductive RefEnd where
  /-- the scale word, and for a quantising reference its slot, phase exponent and position -/
  | ok (p : Package) (scale : Nat) (quant : Option (Nat × Int × Nat))
  | bad
  | waits
deriving DecidableEq

/-- Phase exponent and position of a slot for a context; none where its barrier has not released (R158, R173). -/
def Package.phaseExponent (p : Package) (x : Ctx) (slot : Nat) (minus : Bool) : Option (Int × Nat) :=
  match p.histBytes slot with
  | none => some (0, 5)
  | some b =>
    let d := p.decision x.stage x.step b
    match (if minus then p.stashExponent x slot else none) with
    | some k => some (k, d.2)
    | none => if histWarm b then (p.barrier x.stage slot).exponent.map (fun k => (k, d.2)) else some d

/-- Resolve a scale word for a command that writes payload code `out` (none: the command quantises nothing). -/
def Package.resolve (p : Package) (x : Ctx) (w : Nat) (out : Option Nat) : RefEnd :=
  if !isRef w then .ok p w none
  else
    let terms := (refTerms w).filter (fun t => t.1 ≠ 0)
    let plus := terms.filter (fun t => t.1 = 1)
    let slotOf := fun (t : Nat × Nat) => x.layer.numSlot + t.2
    if terms.any (fun t => t.1 = 3 || p.rd NUM_HIST_SLOTS ≤ slotOf t) || 1 < plus.length then .bad
    else
      let p := p.each terms (fun p t => p.useSlot (slotOf t) x.step)
      let exps := terms.map (fun t => (t, p.phaseExponent x (slotOf t) (t.1 = 2)))
      if exps.any (fun e => e.2.isNone) then .waits
      else
        let inExp : Int := match f32 x.inScale with
          | .fin _ m e => if m = 0 then 0 else floorLog m e
          | _ => 0
        let sum : Int := (exps.map (fun e => match e.2 with
          | some (k, _) => if e.1.1 = 1 then k else -k
          | none => 0)).sum
        let e := sum - (if bitAt w 3 then inExp else 0) + toSigned 3 (bitsOf w 0 3)
        let c := max (-126) (min 127 e)
        let p := if c = e then p else p.bump64 NUM_SCALE_CLAMP 1
        match plus with
        | [] => .ok p (pow2w c) none
        | t :: _ =>
          let slot := slotOf t
          let d := (p.phaseExponent x slot false).getD (0, 5)
          let kind := match p.histBytes slot with
            | some b => fieldAt b 2 1
            | none => 9
          match out with
          | none => .ok p (pow2w c) none
          | some f =>
            if f ≠ ladderCode d.2 || (kind = 3 && f ≠ 0x10) then .bad
            else .ok p (pow2w c) (some (slot, d.1, d.2))

/-! ### Conversion (R161, R162) -/

/-- m of Table 7-1's MX targets: 2 for E2M1 and E2M3, 4 for E3M2. -/
def mxShift (code : Nat) : Int := if code = 2 then 4 else 2

/-- E8M0 code of a block of scaled values. -/
def blockScale (code : Nat) (xs : List Fp) : Nat :=
  if xs.any (fun v => !v.isFinite) then 0xFF
  else
    let a := xs.foldl (fun (acc : Fp) v => if acc.lt v.abs then v.abs else acc) (.fin false 0 0)
    match a with
    | .fin _ m e => if m = 0 then 0 else (max 0 (floorLog m e - mxShift code + 127)).toNat
    | _ => 0xFF

/-- Value divided by 2^(scale − 127). -/
def unscale (scale : Nat) : Fp → Fp
  | .fin n m e => .fin n m (e - ((scale : Int) - 127))
  | v => v

/-- Round one scaled value to a format: its code and whether it saturated. -/
def roundTo (f : Format) (sr : Bool) (u : Nat) (v : Fp) : Nat × Bool := if sr then f.roundStoch u v else f.roundSat v

/-- Is a code a zero of its format. -/
def codeZero (f : Format) (c : Nat) : Bool := decide (c % 2 ^ (f.ebits + f.mbits) = 0)

/-- Convert a block of values (32 for MX targets): the block scale, and per element its code and saturation. -/
def convertBlock (code : Nat) (sr : Bool) (u : Nat → Nat) (i0 : Nat) (xs : List Fp) : Nat × List (Nat × Bool) :=
  match fmtOf code with
  | none => (0, xs.map (fun _ => (0, false)))
  | some f =>
    if isMX code then
      let s := blockScale code xs
      if s = 0xFF then (s, xs.map (fun _ => (0, false)))
      else (s, xs.mapIdx (fun i v => roundTo f sr (u (i0 + i)) (unscale s v)))
    else (0, xs.mapIdx (fun i v => roundTo f sr (u (i0 + i)) v))

/-- Would a value be zero in the next narrower format of the ladder, with that format's own scaling (R164). `raw` is the unscaled value,
`v` the value scaled at position f; `kOwn` the exponent that E5M2 would take; `bs` the MX block scale of the raw block. -/
def zeroNext (f : Nat) (raw v : Fp) (kOwn : Int) (bs : Nat) : Bool :=
  let shift := fun (k : Int) (y : Fp) => match y with
    | .fin n m e => Fp.fin n m (e + k)
    | y => y
  if f = 5 then codeZero fmtBF16 (fmtBF16.round raw)
  else if f = 4 then codeZero fmtE5M2 (fmtE5M2.round (shift kOwn raw))
  else if f = 3 then codeZero fmtE4M3 (fmtE4M3.round (shift (-7) v))
  else if f = 2 then codeZero fmtE3M2 (fmtE3M2.round (unscale bs raw))
  else if f = 1 then codeZero fmtE2M1 (fmtE2M1.round (unscale bs raw))
  else false

/-- Largest t with A × 2^t ≤ F (R168), for a positive A. -/
def log2Ratio (fmax : Fp) (m : Nat) (e : Int) : Int :=
  match fmax with
  | .fin _ fm fe =>
    let t := floorLog fm fe - floorLog m e
    if Fp.cmp (.fin false m (e + t)) (.fin false fm fe) = some .gt then t - 1 else t
  | _ => 0

/-- Largest finite value of a ladder position. -/
def fMax (f : Nat) : Fp :=
  match fmtOf (ladderCode f) with
  | some g => g.decode g.maxCode
  | none => .fin false 0 0

/-- AMAX of the window of R168: the entries after the newest silent one, that one included. -/
def windowAmax : List HistEntry → Nat
  | [] => 0
  | e :: r => if e.silent then e.amax else max e.amax (windowAmax r)

/-- The exponent that R168 targets for a position, from an AMAX word; `k` is the exponent before. -/
def kTarget (margin : Nat) (f amax : Nat) (k : Int) : Int :=
  match f32 amax with
  | .fin _ m e => if m = 0 then k + 4 else log2Ratio (fMax f) m e - (margin : Int)
  | _ => k + 4

/-- Statistics of one converted block. -/
def blockStats (code f : Nat) (k kOwn : Int) (keep : List Bool) (xs : List Fp) (out : List (Nat × Bool)) : Stats :=
  let fmt := (fmtOf code).getD fmtFP32
  let raws := xs.map (fun v => match v with
    | .fin n m e => Fp.fin n m (e - k)
    | v => v)
  let bs := blockScale (if f = 2 then 2 else 4) raws
  let rows := (keep.zip (raws.zip (xs.zip out))).filter (fun r => r.1)
  rows.foldl (fun (st : Stats) r =>
    let raw := r.2.1
    let v := r.2.2.1
    let o := r.2.2.2
    let nz := !v.isZero
    let z := codeZero fmt o.1
    { amax := if raw.isFinite then max st.amax (r32 raw.abs) else st.amax, count := st.count + 1, preNz := st.preNz + b2n nz,
      nonzero := st.nonzero + b2n (!z), underCur := st.underCur + b2n (nz && z),
      underNext := st.underNext + b2n (nz && zeroNext f raw v kOwn bs), sat := st.sat + b2n o.2, nonfinite := st.nonfinite || !v.isFinite,
      position := f }) {}

/-- Elements in blocks of 32. -/
def blocks32 {α : Type} (l : List α) : List (List α) := (List.range ((l.length + 31) / 32)).map (fun i => (l.drop (32 * i)).take 32)

/-- Convert elements: codes, block scales, statistics (when a quantising reference names slot, exponent and position), and how many
were non-finite or saturated. -/
def convertAll (code : Nat) (sr : Bool) (u : Nat → Nat) (quant : Option (Nat × Int × Nat)) (kOwn : Int) (keep : List Bool) (xs : List Fp) :
    List Nat × List Nat × Stats × Nat × Nat :=
  let bl := blocks32 xs
  let kb := blocks32 keep
  let res := bl.mapIdx (fun i b => convertBlock code sr u (32 * i) b)
  let codes := res.flatMap (fun r => r.2.map (·.1))
  let scales := res.map (·.1)
  let st := match quant with
    | none => {}
    | some (_, k, f) => (bl.zip (kb.zip (res.map (·.2)))).foldl (fun (a : Stats) r => a.merge (blockStats code f k kOwn r.2.1 r.1 r.2.2)) {}
  let nonf := ((keep.zip xs).filter (fun e => e.1 && !e.2.isFinite)).length
  let sats := ((keep.zip (res.flatMap (·.2))).filter (fun e => e.1 && e.2.2)).length
  (codes, scales, st, nonf, sats)

/-- Own exponent of E5M2 for a slot, from its history (for UNDER_NEXT at position 4). -/
def Package.ownExponent (p : Package) (slot : Nat) : Int :=
  match p.histBytes slot with
  | some b => max (-64) (min 63 (kTarget (p.get NUM_CFG_MARGIN) 3 (windowAmax (histEntries b)) 0))
  | none => 0

/-- Count a quantising conversion: statistics fold into the slot unless the list recomputes (R164, R189). -/
def Package.countConversion (p : Package) (c k : Nat) (x : Ctx) (quant : Option (Nat × Int × Nat)) (st : Stats) (nonf sats : Nat) : Package :=
  match quant with
  | none => p.when (decide (0 < sats)) (fun p => p.bump64 NUM_SAT_COUNT sats)
  | some (slot, _, _) =>
    if x.recompute then p
    else
      let p := (p.when (decide (0 < nonf)) (fun p => p.bump64 NUM_NONFINITE_COUNT nonf)).when (decide (0 < sats)) (fun p => p.bump64 NUM_SAT_COUNT sats)
      p.foldStats c k slot x.step st

/-! ### The entry and decision of a resolved step (R166 to R168, R174, R175) -/

/-- A ratio in units of 2^-16, saturating at 0xFFFF: rounded up, or to nearest. -/
def ratioUp (a b : Nat) : Nat := if b = 0 then 0 else min 0xFFFF ((a * 65536 + b - 1) / b)
def ratioNear (a b : Nat) : Nat := if b = 0 then 0 else min 0xFFFF ((2 * a * 65536 + b) / (2 * b))

/-- The entry of reduced statistics (Table 7-8). -/
def entryOf (st : Stats) (warm : Bool) : HistEntry :=
  { amax := if st.amax < 0x7F800000 then st.amax else 0x7F7FFFFF, nonzero := ratioUp st.nonzero st.count, underCur := ratioNear st.underCur st.preNz,
    underNext := ratioNear st.underNext st.preNz, position := st.position,
    flags := b2n st.nonfinite + 2 * b2n (decide (0 < st.sat)) + 4 * b2n warm + 8 * b2n (decide (st.count = 0)) }

def entryBytes (e : HistEntry) : List Byte :=
  leBytes 4 e.amax ++ leBytes 2 e.nonzero ++ leBytes 2 e.underCur ++ leBytes 2 e.underNext ++ leBytes 1 e.position ++ leBytes 1 e.flags

/-- The new position (Table 7-6). `es` are the valid entries, newest first. -/
def nextPosition (warm : Bool) (f lo hi widen narrow : Nat) (es : List HistEntry) : Nat :=
  match es with
  | [] => if warm then hi else f
  | e :: _ =>
    if warm then hi
    else if (e.sat || e.nonfinite || decide (2 ^ 16 < e.underCur * 2 ^ widen)) && decide (f < hi) then f + 1
    else if decide (es.length = 16) && es.all (fun d => decide (d.position = f) && !d.sat && !d.nonfinite && decide (0 < d.nonzero)
        && decide (d.underNext * 2 ^ narrow ≤ 2 ^ 16)) && decide (lo < f) then f - 1
    else f

/-- The new exponent at position f (R168). -/
def nextExponent (margin f : Nat) (k : Int) (es : List HistEntry) : Int :=
  if f = 2 || f = 3 then
    let t := if es.isEmpty then k + 4 else kTarget margin f (windowAmax es) k
    let n := min t (k + 4)
    let n := match es with
      | e :: _ => if e.nonfinite then min n (k - 1) else n
      | [] => n
    max (-64) (min 63 n)
  else 0

/-- SILENT_RUN after an entry (R174). -/
def nextRun (kind run : Nat) (e : HistEntry) : Nat :=
  if 1 < kind then run
  else if e.silent then min (run + 1) (2 ^ 32 - 1)
  else if e.nonfinite || e.empty then run
  else 0

/-- Raise `NUM_LAYER_SILENT` (R175). -/
def Package.alarm (p : Package) (slot layer run : Nat) (k : Int) (backstop : Bool) : Package :=
  let v := slot % 2 ^ 12 + 2 ^ 12 * b2n backstop + 2 ^ 16 * (layer % 2 ^ 16) + 2 ^ 32 * (run % 2 ^ 32)
  ((p.bump64 NUM_SILENT_COUNT 1).wr NUM_SILENT_LAST v).raise .num EV_NUM_LAYER_SILENT v (slot % 2 ^ 16 + 2 ^ 16 * ofSigned 16 k)

/-- Alarms of a silent run that an entry has just reached. -/
def Package.alarms (p : Package) (slot layer old run : Nat) (k : Int) : Package :=
  let n := p.rd NUM_SILENT_CFG % 2 ^ 16
  if n = 0 || run = old then p
  else
    let p := if 0 < run && run % n = 0 then p.alarm slot layer run k false else p
    if 1000 < n && run = 1000 then p.alarm slot layer run k true else p

/-- Append the entry of a step's reduced statistics and make the decision (R166). -/
def Package.appendHist (p : Package) (slot step : Nat) (st : Stats) : Package :=
  let p := p.useSlot slot step
  match p.histBytes slot with
  | none => p
  | some b =>
    if !histConfigOk (p.feature 6) b then p
    else
      let warm := histWarm b
      let left := fieldAt b 6 2
      let head := if fieldAt b 17 1 = 0 then 0 else (fieldAt b 16 1 + 1) % 16
      let count := min 16 (fieldAt b 17 1 + 1)
      let e := entryOf st warm
      let b := setField (setField (setField b 16 1 head) 17 1 count) 8 8 (step % 2 ^ 48)
      let b := b.take (64 + 12 * head) ++ entryBytes e ++ b.drop (76 + 12 * head)
      let ends := warm && decide (left ≤ 1)
      let b := if warm then setField (setField b 6 2 (left - 1)) 3 1 (putBits (fieldAt b 3 1) 1 1 (b2n (!ends))) else b
      let kind := fieldAt b 2 1
      let run0 := fieldAt b 20 4
      let run := nextRun kind run0 e
      let b := setField b 20 4 run
      let d := histDecision b 0
      let es := histEntries b
      let f := nextPosition (warm && !ends) d.2.1 (fieldAt b 4 1) (fieldAt b 5 1) (p.get NUM_CFG_U_WIDEN) (p.get NUM_CFG_U_NARROW) es
      let k := nextExponent (p.get NUM_CFG_MARGIN) f d.1 es
      let b := b.take 24 ++ leBytes 4 (decisionWord k f step) ++ (b.drop 24).take 12 ++ b.drop 40
      let p := p.putHist slot b
      let p := if f = d.2.1 then p else p.bump64 NUM_FMT_CHANGES 1
      let p := if ends then (p.put NUM_STATUS_WARM_SLOTS (p.get NUM_STATUS_WARM_SLOTS - 1)).raise .num EV_NUM_WARM_END p.beatNo (arg1Of slot 0) else p
      p.alarms slot (fieldAt b 0 2) run0 run k

/-- One `NUM_WARM_START` for a step in which slots entered current-amax mode (R172). -/
def Package.warmStart (p : Package) (step : Nat) : Package :=
  let n := mapGet 0 p.num.entered step
  if n = 0 then p
  else ({ p with num := { p.num with entered := mapDel p.num.entered step } }).raise .num EV_NUM_WARM_START step (min n 65535)

/-! ### Forcing the mode (R172) -/

/-- A slot is forced into the mode: an invalid history is discarded first, which is itself an entry; a slot already in the mode starts
its count again. -/
def Package.forceSlot (p : Package) (slot : Nat) : Package :=
  let p := p.useSlot slot p.oldestOpenStep
  match p.histBytes slot with
  | none => p
  | some b => if histWarm b then p.putHist slot (setField b 6 2 (p.get NUM_CFG_WARM_STEPS)) else p.enterWarm slot p.oldestOpenStep b

def warmForce (slot : Nat) (p : Package) : Package := if slot < p.rd NUM_HIST_SLOTS then p.forceSlot slot else p

def warmForceAll (p : Package) : Package := p.each (List.range (p.rd NUM_HIST_SLOTS)) (fun p i => p.forceSlot i)

/-! ### The AMAX barrier (R173) -/

/-- A core publishes the maximum of an AMAX pass; with `last` it has published all. -/
def Package.publish (p : Package) (stage slot c k amax : Nat) (last : Bool) : Package :=
  let b := p.barrier stage slot
  p.setBarrier stage slot { b with amax := max b.amax amax, cores := if last && !b.cores.contains (c, k) then (c, k) :: b.cores else b.cores }

/-- The barrier of a slot releases once every core of the stage has published: it sets the phase exponent, at the position that the phase
writes. -/
def Package.releaseBarrier (p : Package) (stage slot : Nat) : Package :=
  let b := p.barrier stage slot
  if b.exponent.isSome || !((p.stageCores stage).all (fun e => b.cores.contains e)) || p.stageCores stage = [] then p
  else
    let f := match p.histBytes slot, (p.stg stage).phase with
      | some h, some ph => (p.decision stage ph.step h).2
      | some h, none => (histDecision h 0).2.1
      | none, _ => 5
    let k : Int := match f32 b.amax with
      | .fin _ m e => if m = 0 then 0 else max (-64) (min 63 (log2Ratio (fMax f) m e - (p.get NUM_CFG_MARGIN : Int)))
      | _ => 0
    p.setBarrier stage slot { b with exponent := some (if f = 2 || f = 3 then k else 0) }

def execWarmForce (slot : Nat) (s : State) := onPkg (warmForce slot) s
def execWarmForceAll (s : State) := onPkg warmForceAll s

end Sys2Proof.Machine
end

