-- ==== Sys2Proof/Machine/Accum.lean ====
section
/-! DEFINITION. The accumulator (06_accumulation.md): slots, groups and blocks (R129 to R132), the K-step's addition (R136), the Ladle
(R137 to R142), draining with row statistics (R143 to R146) and the other accumulator commands (R147, R148). -/

namespace Sys2Proof.Machine

open Sys2Proof

/-! ### Slots, groups and pairs -/

def Core.slot (co : Core) (j : Nat) : AccSlot := mapGet {} co.slots j
def Core.setSlot (co : Core) (j : Nat) (s : AccSlot) : Core := { co with slots := mapSet {} co.slots j s }
def Core.group (co : Core) (g : Nat) : AccGroup := mapGet {} co.groups g
def Core.setGroup (co : Core) (g : Nat) (x : AccGroup) : Core := { co with groups := mapSet {} co.groups g x }

/-- Element i = 32m + n of a slot: its value, and whether it is open. -/
def AccSlot.val (s : AccSlot) (i : Nat) : Nat := mapGet 0 s.elems i
def AccSlot.isOpen (s : AccSlot) (i : Nat) : Bool := bitAt s.opened i
def AccSlot.put (s : AccSlot) (i v : Nat) : AccSlot := { s with elems := mapSet 0 s.elems i v }

/-- Block of an element (R129). -/
def blockOf (i : Nat) : Nat := 2 * (i / 256) + i % 32 / 16

/-- Elements of a slot. -/
def slotElems : List Nat := List.range 1024

/-- Elements of a block. -/
def blockElems (b : Nat) : List Nat := slotElems.filter (fun i => blockOf i = b)

/-- The blocks that a list of elements touches. -/
def blocksOf (l : List Nat) : List Nat := (List.range 8).filter (fun b => l.any (fun i => blockOf i = b))

/-- The bit mask of the elements of a list. -/
def elemMask (l : List Nat) : Nat := l.foldl (fun m i => m ||| 2 ^ i) 0

/-- The mask without the elements of a list. -/
def clearMask (m : Nat) (l : List Nat) : Nat := m &&& (2 ^ 1024 - 1 - elemMask l)

def Core.pair (co : Core) (g i : Nat) : Nat × Nat := mapGet (0, 0) co.ladle (1024 * g + i)
def Core.setPair (co : Core) (g i : Nat) (v : Nat × Nat) : Core := { co with ladle := mapSet (0, 0) co.ladle (1024 * g + i) v }

/-- Tile status of a slot (Table 6-8). -/
def AccSlot.status (s : AccSlot) (bound : Bool) : Nat :=
  maskOf ((List.range 8).filter (fun b => (blockElems b).any s.isOpen)) + 2 ^ 8 * b2n bound + 2 ^ 9 * (s.group % 8) + 2 ^ 12 * b2n s.longSum
    + 2 ^ 13 * b2n s.nonfinite + 2 ^ 16 * (s.sMinus1 % 256) + 2 ^ 32 * (s.spills % 4096)

/-- The group bound to a slot. -/
def Core.boundTo (co : Core) (j : Nat) : Option Nat := (List.range 8).find? (fun g => (co.group g).slot = some j)

/-- `ACC_STATUS.OPEN` of a core. -/
def Package.showOpen (p : Package) (c k : Nat) : Package := p.setBit (ACC_STATUS c) k (0 < (p.core c k).openGroups)

/-! ### Adding a K-step (R136) -/

/-- A finite value truncated toward zero in units of 2^g. -/
def truncTo (g : Int) : Fp → Int
  | .fin n m e =>
    let v : Int := if g ≤ e then ((m * 2 ^ (e - g).toNat : Nat) : Int) else ((m / 2 ^ (g - e).toNat : Nat) : Int)
    if n then -v else v
  | _ => 0

/-- Sum of values that include a non-finite one (R153). -/
def nonfiniteSum (l : List Fp) : Nat := r32 (l.foldl Fp.add (.fin false 0 0))

/-- The internal adder: one sum of all addends, truncated at 2^(e − 26) and rounded once. -/
def addStep (l : List Fp) : Nat :=
  if l.any (fun v => !v.isFinite) then nonfiniteSum l
  else
    match maxOf ((l.filter (fun v => !v.isZero)).map (fun v => match v with
        | .fin _ m e => (floorLog m e + 2000).toNat
        | _ => 0)) with
    | none => 0
    | some t =>
      let g : Int := (t : Int) - 2000 - 26
      let v := (l.map (truncTo g)).sum
      if v = 0 then 0 else r32 (fpOf v g)

/-! ### The Ladle (R137 to R142) -/

/-- A spill of v into a pair (R138). -/
def spillPair (hi lo v : Nat) : Nat × Nat :=
  let t := fadd hi v
  if !f32Finite hi || !f32Finite t then (t, 0)
  else
    let d := r32 (((f32 hi).add (f32 v)).add (f32 t).neg)
    let u := fadd lo d
    let h := fadd t u
    if !f32Finite h then (h, 0) else (h, fsub u (fsub h t))

/-- The first saturation of an accumulation (R142, R148). -/
def Package.longSum (p : Package) (c k : Nat) (x : Ctx) (index j g : Nat) (status : Nat) : Package :=
  let v := j % 16 + 2 ^ 4 * (g % 8) + 2 ^ 8 * (k % 32) + 2 ^ 16 * (x.stage % 32) + 2 ^ 32 * (index % 2 ^ 32)
  ((p.bump64 (ACC_LONG_SUM_COUNT c) 1).wr (ACC_LONG_LAST c) v).wr (ACC_TILE_LAST c) status

/-- Block b of an open group spills: every open element goes into its pair, the counts move on (R137). -/
def Package.spillBlock (p : Package) (c k : Nat) (x : Ctx) (index g b : Nat) : Package :=
  let co := p.core c k
  let gr := co.group g
  match gr.slot with
  | none => p
  | some j =>
    let sl := co.slot j
    let es := (blockElems b).filter sl.isOpen
    let co := es.foldl (fun (a : Core) i =>
      let v := spillPair (a.pair g i).1 (a.pair g i).2 (sl.val i)
      a.setPair g i v) co
    let bad := es.any (fun i => !f32Finite (co.pair g i).1)
    let n := listAt 0 gr.spills b
    let full := decide (4095 ≤ n)
    let n' := min 4095 (n + 1)
    let sl' := es.foldl (fun (a : AccSlot) i => a.put i 0) sl
    let sl' := { sl' with nonfinite := sl'.nonfinite || bad, spills := max sl'.spills n', longSum := sl'.longSum || full }
    let co := (co.setSlot j sl').setGroup g { gr with steps := listPut 0 gr.steps b 0, spills := listPut 0 gr.spills b n' }
    let p := (p.setCore c k co).bump64 (ACC_SPILLS c) 1
    if full && !sl.longSum then p.longSum c k x index j g (sl'.status true) else p

/-- Collapse and close elements of a group (R132, R139); the group closes with its last open element. -/
def Package.collapse (p : Package) (c k g : Nat) (es : List Nat) : Package :=
  let co := p.core c k
  match (co.group g).slot with
  | none => p
  | some j =>
    let sl := co.slot j
    let es := es.filter sl.isOpen
    let sl' := es.foldl (fun (a : AccSlot) i => a.put i (fadd (co.pair g i).1 (co.pair g i).2)) sl
    let bad := es.any (fun i => !f32Finite (sl'.val i))
    let sl' := { sl' with opened := clearMask sl.opened es, nonfinite := sl'.nonfinite || bad }
    let co := (es.foldl (fun (a : Core) i => a.setPair g i (0, 0)) co).setSlot j sl'
    let co := if sl'.opened = 0 then co.setGroup g { co.group g with slot := none } else co
    let clu := p.clu c
    let n := clu.collapseRest + es.length
    let p := (p.setCore c k co).bump64 (ACC_COLLAPSES c) (n / 1024)
    (p.modClu c (fun y => { y with collapseRest := n % 1024 })).showOpen c k

/-- The END of R132 on elements of a group: blocks with a K-step since their last spill take a final one. -/
def Package.endElems (p : Package) (c k : Nat) (x : Ctx) (index g : Nat) (es : List Nat) : Package :=
  let owed := (blocksOf es).filter (fun b => 0 < listAt 0 ((p.core c k).group g).steps b)
  (p.each owed (fun p b => p.spillBlock c k x index g b)).collapse c k g es

/-! ### Binding (R131) -/

/-- What Table 6-1 says of an MMA on covered elements: none is cause 9, else whether the elements open. -/
def bindCase (co : Core) (g j : Nat) (begin' : Bool) (es : List Nat) : Option Bool :=
  let sl := co.slot j
  match (co.group g).slot with
  | none => if begin' && (co.boundTo j).isNone then some true else none
  | some i =>
    if i ≠ j then none
    else if begin' && es.all (fun e => !sl.isOpen e) then some true
    else if !begin' && es.all sl.isOpen then some false
    else none

/-- Open elements at given values: the group binds, their pairs clear, their blocks count from 0. -/
def Core.openElems (co : Core) (g j : Nat) (es : List (Nat × Nat)) : Core :=
  let gr := co.group g
  let fresh := gr.slot.isNone
  let sl := co.slot j
  let blocks := blocksOf (es.map (·.1))
  let sl := es.foldl (fun (a : AccSlot) e => a.put e.1 e.2) sl
  let zero := fun (l : List Nat) => blocks.foldl (fun (a : List Nat) b => listPut 0 a b 0) (if fresh then [] else l)
  let spills := zero gr.spills
  let sl := { sl with opened := sl.opened ||| elemMask (es.map (·.1)), group := g, longSum := false,
                      nonfinite := es.any (fun e => !f32Finite e.2), sMinus1 := gr.s - 1, spills := spills.foldl max 0 }
  let co := es.foldl (fun (a : Core) e => a.setPair g e.1 (0, 0)) co
  (co.setSlot j sl).setGroup g { gr with slot := some j, steps := zero gr.steps, spills := spills }

/-- A block has taken a K-step: at its s-th it spills (R137). -/
def Package.countStep (p : Package) (c k : Nat) (x : Ctx) (index g b : Nat) : Package :=
  let gr := (p.core c k).group g
  let n := listAt 0 gr.steps b + 1
  let p := p.modCore c k (fun co => co.setGroup g { gr with steps := listPut 0 gr.steps b n })
  if gr.s ≤ n then p.spillBlock c k x index g b else p

/-- Deliver one K-step: the addends of each element, then the count of every block that took part. -/
def Package.deliver (p : Package) (c k : Nat) (x : Ctx) (index g j : Nat) (adds : List (Nat × List Fp)) : Package :=
  let p := p.modCore c k (fun co =>
    let sl := co.slot j
    let sl' := adds.foldl (fun (a : AccSlot) e => a.put e.1 (addStep (f32 (a.val e.1) :: e.2))) sl
    co.setSlot j { sl' with nonfinite := sl'.nonfinite || adds.any (fun e => !f32Finite (sl'.val e.1)) })
  p.each (blocksOf (adds.map (·.1))) (fun p b => p.countStep c k x index g b)

/-! ### Row statistics (R145, R146) -/

/-- Row r of a row-statistic entry. -/
def Core.rowStat (co : Core) (e r : Nat) : Nat × Nat := mapGet (F32_NEG_INF, 0) co.rowStats (32 * e + r)
def Core.setRowStat (co : Core) (e r : Nat) (v : Nat × Nat) : Core := { co with rowStats := mapSet (F32_NEG_INF, 0) co.rowStats (32 * e + r) v }
def Core.clearRowStat (co : Core) (e : Nat) : Core := (List.range 32).foldl (fun (a : Core) r => a.setRowStat e r (F32_NEG_INF, 0)) co

/-- One level of the pairwise tree in column order; an excluded element takes no part. -/
def pairLevel : List (Option Nat) → List (Option Nat)
  | a :: b :: r => (match a, b with
    | some x, some y => some (fadd x y)
    | some x, none => some x
    | none, y => y) :: pairLevel r
  | l => l

/-- Sum of the kept values of a row of 32 along the fixed tree. -/
def rowSum (l : List (Option Nat)) : Nat := (listAt none (pairLevel (pairLevel (pairLevel (pairLevel (pairLevel l))))) 0).getD 0

/-- Maximum of the kept values, −∞ where none is kept. -/
def rowMax (l : List (Option Nat)) : Nat := (l.filterMap id).foldl fmax F32_NEG_INF

/-- Fold a row into (A, L) (Table 6-6). -/
def foldRow (mode : Nat) (al : Nat × Nat) (l : List (Option Nat)) : Nat × Nat :=
  if mode = 1 then (fmax al.1 (rowMax l), fadd al.2 (rowSum l))
  else if mode = 2 then (fmax al.1 (rowMax (l.map (·.map fabs))), fadd al.2 (rowSum (l.map (·.map (fun v => fmul v v)))))
  else if mode = 3 then
    let a := fmax al.1 (rowMax l)
    let factor := if al.1 = F32_NEG_INF then (if a = F32_NEG_INF then F32_ONE else 0) else fexp (fsub al.1 a)
    (a, fadd (fmul al.2 factor) (rowSum (l.map (·.map (fun v => fexp (fsub v a))))))
  else al

/-! ### Draining (R143, R144) -/

/-- Row length of a format code in 16-byte units; FP32 when `fp32`. -/
def rowUnits (fp32 : Bool) (code : Nat) : Nat := if fp32 then 8 else (32 * bitsOfCode code + 127) / 128

/-- Bits set in a 32-bit mask. -/
def maskBits (m : Nat) : List Nat := bitsSet 32 m

/-- A predicate index without PRED is an unused field. -/
def predUnused (w : CmdWord) : Bool := !predBit w && decide (predIndex w ≠ 0)

/-- Checks of an ACC_DRAIN; 0 when it passes. A reserved output code counts as a format that R108 does not allow. -/
def drainCheck (co : Core) (w : CmdWord) : Nat :=
  let fp32 := bitAt w.toNat 11
  let fmt := cw w 32 4
  let mode := cw w 28 2
  let code := if fp32 then 0x10 else fmt
  let mx := !fp32 && isMX fmt
  let stride := cw w 80 16
  let cl := bitAt w.toNat 8
  let rows := maskBits (cw w 128 32)
  let len := rowUnits fp32 fmt
  if cw w 13 3 ≠ 0 || cw w 30 1 ≠ 0 || cw w 39 1 ≠ 0 || cw w 52 12 ≠ 0 || cw w 208 48 ≠ 0 || predUnused w
      || (!bitAt w.toNat 10 && cw w 40 8 ≠ 0) || (!mx && cw w 192 16 ≠ 0) || (mode = 0 && !bitAt w.toNat 9 && cw w 36 3 ≠ 0) then 1
  else if fp32 && fmt ≠ 0 then 11
  else if (fmtOf code).isNone then 2
  else if (co.slot (cw w 24 4)).opened ≠ 0 then 10
  else if stride < len then 11
  else if mx && (mode = 3 || OP_BYTES < cw w 192 16 * 16 + 32) then 12
  else if rows.any (fun m => !locFits cl (16 * (cw w 64 16 + m * stride)) (16 * len)) then 3
  else 0

/-! ### The partial-training mask (R195, Table 8-8) -/

/-- What a drain takes of its layer's mask: no mask, a mask word, a failed check, or poison. -/
inductive MaskEnd where
  | none
  | word (v : Nat)
  | bad
  | poisoned
deriving DecidableEq, Repr

/-- Mask word of a drain of the running backward list whose quantising term names a slot of kind WGRAD. -/
def Package.maskFor (p : Package) (co : Core) (x : Ctx) (quant : Option (Nat × Int × Nat)) : MaskEnd :=
  let wgrad := match quant with
    | some (slot, _, _) => (match p.histBytes slot with
      | some b => decide (fieldAt b 2 1 = 0)
      | none => false)
    | none => false
  if !x.layer.masked || x.dir = .fwd || x.recompute || x.run.isSome || !wgrad then .none
  else
    match p.load x.layer.maskAddr 64 with
    | .refused => .bad
    | .poison => .poisoned
    | .ok b =>
      let words := fieldAt b 0 4
      if fieldAt b 4 2 ≤ x.rank || words ≤ co.maskWord then .bad
      else match p.load (x.layer.maskAddr + 64 + 8 * (words * x.rank + co.maskWord)) 8 with
        | .ok v => .word (leNat v)
        | .refused => .bad
        | .poison => .poisoned

/-- Is element (m, n) kept by a mask. -/
def MaskEnd.keeps (k : MaskEnd) (m n : Nat) : Bool := match k with
  | .word v => bitAt v m && bitAt v (32 + n)
  | _ => true

/-- The kept values of a row, scaled. -/
def drainRow (sl : AccSlot) (w : CmdWord) (mask : MaskEnd) (scale m : Nat) : List (Option Nat) :=
  (List.range 32).map (fun n =>
    let out := !mask.keeps m n || !bitAt (cw w 96 32) n || (bitAt w.toNat 10 && decide ((m : Int) + toSigned 8 (cw w 40 8) < (n : Int)))
    if out then none else some (fmul scale (sl.val (32 * m + n))))

/-- Payload code that an ACC_DRAIN writes. -/
def drainCode (w : CmdWord) : Nat := if bitAt w.toNat 11 then 0x10 else cw w 32 4

/-- The check of an ACC_DRAIN; 0 when it passes. -/
def Package.drainCause (p : Package) (co : Core) (w : CmdWord) : Nat :=
  if !bitAt w.toNat 11 && isMX (cw w 32 4) && !p.feature 5 then 1 else drainCheck co w

/-- An ACC_DRAIN that passed its checks, of a core `co`, at a scale. -/
def Package.drainRun (p : Package) (co : Core) (c k : Nat) (x : Ctx) (h : Held) (mask : MaskEnd) (scale : Nat) (quant : Option (Nat × Int × Nat)) :
    Package :=
  let w := h.word
  let code := drainCode w
  let sl := co.slot (cw w 24 4)
  let rs := cw w 36 3
  let mode := cw w 28 2
  let cl := bitAt w.toNat 8
  let ms := maskBits (cw w 128 32)
  let rows := ms.map (fun m => (m, drainRow sl w mask scale m))
  let vals := rows.flatMap (fun r => r.2)
  let kOwn := match quant with
    | some (slot, _, _) => p.ownExponent slot
    | none => 0
  let sr := bitAt w.toNat 12
  let r := convertAll code sr (fun e => p.draw16 x h.ordinal 0 e) quant kOwn (vals.map (·.isSome)) (vals.map (fun v => f32 (v.getD 0)))
  let b := bitsOfCode code
  let p := p.each (rows.mapIdx (fun i r => (i, r.1))) (fun p e =>
    let bs := packCodes b ((r.1.drop (32 * e.1)).take 32)
    let p := p.locWrite c k cl (16 * (cw w 64 16 + e.2 * cw w 80 16)) bs
    if isMX code then p.opWrite c k (16 * cw w 192 16 + e.2) [BitVec.ofNat 8 (listAt 0 r.2.1 e.1)] else p)
  let p := p.modCore c k (fun co => if bitAt w.toNat 9 then co.clearRowStat rs else co)
  let p := p.modCore c k (fun co => rows.foldl (fun (a : Core) e => a.setRowStat rs e.1 (foldRow mode (a.rowStat rs e.1) e.2)) co)
  let p := match mask with
    | .word _ =>
      let out := (ms.map (fun m => ((List.range 32).filter (fun n => !mask.keeps m n)).length)).sum
      ((p.modCore c k (fun co => { co with maskWord := co.maskWord + 1 })).bump64 BWD_MASK_DRAINS 1).bump64 BWD_MASK_EXCLUDED out
    | _ => p
  (p.countConversion c k x quant r.2.2.1 r.2.2.2.1 r.2.2.2.2).bump64 (ACC_DRAINS c) 1

/-- ACC_DRAIN. -/
def accDrain (p : Package) (c k : Nat) (x : Ctx) (h : Held) : CmdEnd :=
  let co := p.core c k
  let cause := p.drainCause co h.word
  if cause ≠ 0 then .fail cause
  else match p.resolve x (cw h.word 160 32) (some (drainCode h.word)) with
    | .bad => .fail 13
    | .waits => .wait p
    | .ok p scale quant => match p.maskFor co x quant with
      | .bad => .fail 3
      | .poisoned => .poisoned
      | mask => .done (p.drainRun co c k x h mask scale quant)

/-! ### The other accumulator commands (R147, R148) -/

/-- The bits of a command word outside a set of fields (lowest bit, length), with PRED_INDEX counted as unused where PRED is clear. -/
def strayBits (w : CmdWord) (fields : List (Nat × Nat)) : Bool :=
  decide (fields.foldl (fun v f => putBits v f.1 f.2 0) w.toNat ≠ 0) || predUnused w

/-- Fields of every command: OPCODE, WAIT and SIGNAL, PRED, PRED_INDEX. -/
def baseFields : List (Nat × Nat) := [(0, 8), (16, 8), (31, 1), (48, 4)]

/-- Byte fields of a command: slot, group, address, stride. -/
def accSlotOf (w : CmdWord) : Nat := cw w 24 4
def accGroupOf (w : CmdWord) : Nat := cw w 28 3
def accAddr (w : CmdWord) : Nat := 16 * cw w 64 16
def accStride (w : CmdWord) : Nat := 16 * cw w 80 16

/-- Address of row m of an ACC_LOAD, and the FP32 words of all its rows with their places in the slot. -/
def accRow (w : CmdWord) (m : Nat) : Nat := accAddr w + m * accStride w
def Package.accLoadVals (p : Package) (c k : Nat) (w : CmdWord) : List (Nat × Nat) :=
  (List.range 32).flatMap (fun m => (unpackCodes 32 32 (p.locRead c k (bitAt w.toNat 8) (accRow w m) 128)).mapIdx (fun n v => (32 * m + n, v)))

/-- An ACC_LOAD that passed its checks: with OPEN the slot's elements open at the loaded values, else the slot just holds them. -/
def Package.accLoadRun (p : Package) (c k : Nat) (w : CmdWord) : Package :=
  let co := p.core c k
  let j := accSlotOf w
  let vals := p.accLoadVals c k w
  if bitAt w.toNat 9 then (p.setCore c k (co.openElems (accGroupOf w) j vals)).showOpen c k
  else
    let sl := vals.foldl (fun (a : AccSlot) e => a.put e.1 e.2) (co.slot j)
    p.setCore c k (co.setSlot j { sl with nonfinite := vals.any (fun e => !f32Finite e.2), sMinus1 := 0, spills := 0 })

/-- The checks of an ACC_LOAD; 0 when they pass. -/
def accLoadCheck (co : Core) (w : CmdWord) : Nat :=
  let opn := bitAt w.toNat 9
  if strayBits w (baseFields ++ [(8, 2), (24, 4), (64, 32)] ++ (if opn then [(28, 3)] else [])) then 1
  else if (co.slot (accSlotOf w)).opened ≠ 0 then 10
  else if opn && (bindCase co (accGroupOf w) (accSlotOf w) true slotElems).isNone then 9
  else if accStride w < 128 then 11
  else if (List.range 32).any (fun m => !locFits (bitAt w.toNat 8) (accRow w m) 128) then 3
  else 0

/-- A row that an ACC_LOAD reads holds poison. -/
def Package.accLoadPoison (p : Package) (c : Nat) (w : CmdWord) : Bool :=
  bitAt w.toNat 8 && (List.range 32).any (fun m => p.cluPoisoned c (accRow w m) 128)

/-- ACC_LOAD. -/
def accLoad (p : Package) (c k : Nat) (h : Held) : CmdEnd :=
  let cause := accLoadCheck (p.core c k) h.word
  if cause ≠ 0 then .fail cause else if p.accLoadPoison c h.word then .poisoned else .done (p.accLoadRun c k h.word)

/-- ACC_ZERO. -/
def accZero (p : Package) (c k : Nat) (h : Held) : CmdEnd :=
  let co := p.core c k
  let j := accSlotOf h.word
  if strayBits h.word (baseFields ++ [(24, 4)]) then .fail 1
  else if (co.slot j).opened ≠ 0 then .fail 10
  else .done (p.setCore c k (co.setSlot j {}))

/-- ACC_GCFG. -/
def accGcfg (p : Package) (c k : Nat) (h : Held) : CmdEnd :=
  let co := p.core c k
  let g := accGroupOf h.word
  if strayBits h.word (baseFields ++ [(28, 3), (32, 8)]) then .fail 1
  else if (co.group g).slot.isSome then .fail 9
  else .done (p.setCore c k (co.setGroup g { co.group g with s := cw h.word 32 8 + 1 }))

/-- ACC_SPILL. -/
def accSpill (p : Package) (c k : Nat) (x : Ctx) (h : Held) : CmdEnd :=
  let gr := (p.core c k).group (accGroupOf h.word)
  if strayBits h.word (baseFields ++ [(28, 3)]) then .fail 1
  else if gr.slot.isNone then .fail 9
  else .done (p.each ((List.range 8).filter (fun b => 0 < listAt 0 gr.steps b)) (fun p b => p.spillBlock c k x h.index (accGroupOf h.word) b))

/-- ACC_CLOSE. -/
def accClose (p : Package) (c k : Nat) (x : Ctx) (h : Held) : CmdEnd :=
  let co := p.core c k
  let g := accGroupOf h.word
  if strayBits h.word (baseFields ++ [(28, 3)]) then .fail 1
  else match (co.group g).slot with
    | none => .fail 9
    | some j => .done (p.endElems c k x h.index g (slotElems.filter (co.slot j).isOpen))

/-- A core without the open accumulation of group g in slot j: nothing of it is kept. -/
def Core.discard (co : Core) (g j : Nat) : Core :=
  let co := { co with ladle := co.ladle.filter (fun e => e.1 / 1024 ≠ g) }
  (co.setSlot j { co.slot j with elems := [], opened := 0 }).setGroup g { co.group g with slot := none, steps := [], spills := [] }

/-- ACC_DISCARD. -/
def accDiscard (p : Package) (c k : Nat) (h : Held) : CmdEnd :=
  let g := accGroupOf h.word
  if strayBits h.word (baseFields ++ [(28, 3)]) then .fail 1
  else match ((p.core c k).group g).slot with
    | none => .fail 9
    | some j => .done ((p.setCore c k ((p.core c k).discard g j)).showOpen c k)

/-- ACC_RS_STORE. -/
def accRsStore (p : Package) (c k : Nat) (h : Held) : CmdEnd :=
  let w := h.word
  let co := p.core c k
  let e := cw w 32 3
  let cl := bitAt w.toNat 8
  if strayBits w (baseFields ++ [(8, 2), (32, 3), (64, 16)]) then .fail 1
  else if !locFits cl (accAddr w) 256 then .fail 3
  else
    let bs := (List.range 32).flatMap (fun r => leBytes 4 (co.rowStat e r).1) ++ (List.range 32).flatMap (fun r => leBytes 4 (co.rowStat e r).2)
    let p := p.locWrite c k cl (accAddr w) bs
    .done (if bitAt w.toNat 9 then p.modCore c k (fun co => co.clearRowStat e) else p)

/-- ACC_TS_STORE. -/
def accTsStore (p : Package) (c k : Nat) (h : Held) : CmdEnd :=
  let w := h.word
  let co := p.core c k
  let j := accSlotOf w
  let cl := bitAt w.toNat 8
  if strayBits w (baseFields ++ [(8, 1), (24, 4), (64, 16)]) then .fail 1
  else if !locFits cl (accAddr w) 8 then .fail 3
  else .done (p.locWrite c k cl (accAddr w) (leBytes 8 ((co.slot j).status (co.boundTo j).isSome)))

end Sys2Proof.Machine
end

