-- ==== Sys2Proof/Machine/Matrix.lean ====
section
/-! DEFINITION. The matrix engine (05_matrix_engine.md): the MMA command and its checks (R107 to R119, R131, R132), the current of the array
(R122 to R126), and the Assay's selection and check (R176 to R178). -/

namespace Sys2Proof.Machine

open Sys2Proof

/-! ### The fields of an MMA (Table 5-2) -/

def mmaBegin (w : CmdWord) : Bool := bitAt w.toNat 8
def mmaEnd (w : CmdWord) : Bool := bitAt w.toNat 9
def mmaPair (w : CmdWord) : Bool := bitAt w.toNat 10
def mmaTrans (w : CmdWord) : Bool := bitAt w.toNat 11
def mmaGather (w : CmdWord) : Bool := bitAt w.toNat 12
def mmaSkip (w : CmdWord) : Bool := bitAt w.toNat 13
def mmaSpx (w : CmdWord) : Bool := bitAt w.toNat 14
def mmaShape (w : CmdWord) : Nat := cw w 24 4
def mmaSub (w : CmdWord) : Nat := cw w 28 2
def mmaKind (w : CmdWord) : Nat := cw w 30 1
def mmaFmtA (w : CmdWord) : Nat := cw w 32 4
def mmaFmtB (w : CmdWord) : Nat := cw w 36 4
def mmaSlot (w : CmdWord) : Nat := cw w 40 4
def mmaGroup (w : CmdWord) : Nat := cw w 44 3
/-- Address field of the operands in bytes 8 to 23. -/
def mmaAddr (w : CmdWord) (byte : Nat) : Nat := cw w (8 * byte) 16
def mmaCols (w : CmdWord) : Nat := cw w 192 32
def mmaRows (w : CmdWord) : Nat := cw w 224 32

/-- Classes of operand formats (R108): 0 FP8, 1 16-bit, 2 MX, 3 not allowed. -/
def fmtClass (a b : Nat) : Nat :=
  if a ≤ 1 && b ≤ 1 then 0 else if (a = 5 && b = 5) || (a = 6 && b = 6) then 1 else if isMX a && isMX b then 2 else 3

/-- M, N and K of a shape code (Table 5-4). -/
def shapeM (s : Nat) : Nat := if s = 2 || s = 3 then 16 else if s = 4 then 8 else 32
def shapeN (s : Nat) : Nat := if s = 3 then 16 else 32
def shapeK (s : Nat) : Nat := if s = 1 then 16 else if s = 5 || s = 7 then 64 else if s = 6 then 128 else 32

/-- Formats that a shape lists in Table 5-4. -/
def shapeFmtOk (s cls : Nat) (gather : Bool) : Bool :=
  if s = 0 then (if gather then cls ≤ 1 else cls ≤ 2) else if s ≤ 4 then cls ≤ 1 else if s ≤ 6 then cls = 0 else if s = 7 then cls = 2 else false

/-- Bytes of an A row. -/
def rowBytesA (w : CmdWord) : Nat := spanOf (mmaFmtA w) (shapeK (mmaShape w))

/-- Bytes of the stored tile (Table 5-5). -/
def tileBytes (w : CmdWord) : Nat := spanOf (mmaFmtB w) ((if mmaShape w = 1 then 16 else if mmaShape w = 7 then 64 else 32) * 32)

/-- The tile's metadata is read: sparse shapes, or an expanded transposed read. -/
def usesMeta (w : CmdWord) : Bool := mmaShape w = 5 || mmaShape w = 6 || mmaSpx w

/-- The stored form is 2:4; otherwise 1:4. -/
def isTwoFour (w : CmdWord) : Bool := if mmaSpx w then mmaKind w = 0 else mmaShape w = 5

/-- The fields that an MMA may use. -/
def mmaFields (w : CmdWord) : List (Nat × Nat) :=
  baseFields ++ [(8, 7), (24, 6), (32, 15), (96, 16), (192, 64)]
    ++ (if mmaSpx w then [(30, 1)] else []) ++ (if mmaGather w then [(160, 16)] else [(64, 32)]) ++ (if usesMeta w then [(112, 16)] else [])
    ++ (if fmtClass (mmaFmtA w) (mmaFmtB w) = 2 then [(128, 32)] else []) ++ (if mmaSkip w then [(176, 16)] else [])

/-- Address fields whose bits [15:14] are reserved. -/
def mmaAddrFields : List Nat := [8, 12, 14, 16, 18, 20, 22]

/-- Row addresses of A, bytes. -/
def Package.rowsA (p : Package) (c k : Nat) (w : CmdWord) : List Nat :=
  let m := shapeM (mmaShape w)
  if mmaGather w then (unpackCodes 16 32 (p.opRead c k (16 * mmaAddr w 20) 64)).take m |>.map (16 * ·)
  else (List.range m).map (fun i => 16 * (mmaAddr w 8 + i * mmaAddr w 10))

/-- Metadata word of column n. -/
def Package.metaWord (p : Package) (c k : Nat) (w : CmdWord) (n : Nat) : Nat := leNat (p.opRead c k (16 * mmaAddr w 14 + 8 * n) 8)

/-- First index below second in every group of every column (R117). -/
def Package.metaOk (p : Package) (c k : Nat) (w : CmdWord) : Bool :=
  (List.range 32).all (fun n => (List.range 16).all (fun g =>
    let v := p.metaWord c k w n
    decide (bitsOf v (4 * g) 2 < bitsOf v (4 * g + 2) 2)))

/-- The checks of an MMA in the order of their causes; 0 when it passes. Shapes and formats of absent features are reserved (R348). -/
def Package.mmaCheck (p : Package) (c k : Nat) (w : CmdWord) : Nat :=
  let s := mmaShape w
  let cls := fmtClass (mmaFmtA w) (mmaFmtB w)
  let two := isTwoFour w
  let sparse := s = 5 || s = 6 || mmaSpx w
  if 7 < s then 2
  else if cls = 3 then 2
  else if strayBits w (mmaFields w) || mmaAddrFields.any (fun b => mmaAddr w b ≥ 2 ^ 14)
      || (sparse && !p.feature (if two then 3 else 4)) || (cls = 2 && !p.feature 5) then 1
  else if mmaTrans w && cls = 2 then 8
  else if !shapeFmtOk s cls (mmaGather w) || (mmaSpx w && cls ≠ 0) then 2
  else if (mmaPair w && s ≠ 2) || (mmaTrans w && s ≠ 0 && s ≠ 2) || (mmaSpx w && !mmaTrans w) || (mmaGather w && (mmaTrans w || (s ≠ 0 && s ≠ 7)))
      || (s = 2 && 1 < mmaSub w) || (s ≠ 2 && s ≠ 3 && s ≠ 4 && !mmaSpx w && mmaSub w ≠ 0) || (mmaSpx w && two && 1 < mmaSub w) then 5
  else if 2 ^ shapeM s ≤ mmaRows w || 2 ^ shapeN s ≤ mmaCols w then 6
  else
    let rb := rowBytesA w
    let kb := shapeK s / 32
    if mmaAddr w 12 % 4 ≠ 0 || OP_BYTES < 16 * mmaAddr w 12 + tileBytes w
        || (mmaGather w && (mmaAddr w 20 % 4 ≠ 0 || OP_BYTES < 16 * mmaAddr w 20 + 64))
        || (!mmaGather w && mmaAddr w 10 < (rb + 15) / 16)
        || (usesMeta w && (mmaAddr w 14 % 4 ≠ 0 || OP_BYTES < 16 * mmaAddr w 14 + 256))
        || (cls = 2 && (OP_BYTES < 16 * mmaAddr w 16 + shapeM s * kb || OP_BYTES < 16 * mmaAddr w 18 + 32 * kb))
        || (mmaSkip w && OP_BYTES ≤ 16 * mmaAddr w 22)
        || (p.rowsA c k w).any (fun a => OP_BYTES < a + rb) then 3
    else if usesMeta w && two && !p.metaOk c k w then 4
    else 0

/-! ### The product (R98, R111 to R119, R135) -/

/-- Value of an element of an MX block. -/
def mxScaled (scale : Nat) (v : Fp) : Fp :=
  if scale = 0xFF then .nan else match v with
    | .fin n m e => .fin n m (e + (scale : Int) - 127)
    | y => y

/-- A row's elements as values. -/
def Package.rowA (p : Package) (c k : Nat) (w : CmdWord) (m a : Nat) : List Fp :=
  let kk := shapeK (mmaShape w)
  let f := (fmtOf (mmaFmtA w)).getD fmtE4M3
  let es := (unpackCodes (bitsOfCode (mmaFmtA w)) kk (p.opRead c k a (rowBytesA w))).map f.decode
  if isMX (mmaFmtA w) then
    let sc := p.opRead c k (16 * mmaAddr w 16 + m * (kk / 32)) (kk / 32)
    es.mapIdx (fun i v => mxScaled ((listAt 0 sc (i / 32)).toNat) v)
  else es

/-- The stored elements of the tile as values, by 32 × stored row + column. -/
def Package.tileB (p : Package) (c k : Nat) (w : CmdWord) : List Fp :=
  let f := (fmtOf (mmaFmtB w)).getD fmtE4M3
  let b := bitsOfCode (mmaFmtB w)
  let es := (unpackCodes b (tileBytes w * 8 / b) (p.opRead c k (16 * mmaAddr w 12) (tileBytes w))).map f.decode
  if isMX (mmaFmtB w) then
    let sc := p.opRead c k (16 * mmaAddr w 18) (shapeK (mmaShape w))
    es.mapIdx (fun i v => mxScaled ((listAt 0 sc (32 * (i / 32 / 32) + i % 32)).toNat) v)
  else es

/-- K position that stored row j of a column holds, from its metadata. -/
def keptAt (two : Bool) (meta' j : Nat) : Nat :=
  if two then 4 * (j / 2) + bitsOf meta' (4 * (j / 2) + 2 * (j % 2)) 2 else 4 * j + bitsOf meta' (2 * j) 2

/-- The cells of column n: for each product the A element it takes and its B value, in K order, one list per K-step. -/
def Package.columnB (p : Package) (c k : Nat) (w : CmdWord) (tile : List Fp) (n : Nat) : List (List (Nat × Fp)) :=
  let s := mmaShape w
  let at' := fun j col => listAt (.fin false 0 0) tile (32 * j + col)
  if s = 5 || s = 6 then
    let mw := p.metaWord c k w n
    [(List.range 32).map (fun j => (keptAt (s = 5) mw j, at' j n))]
  else if mmaSpx w then
    -- dense row 32·SUB + n of the tile, along its 32 columns
    [(List.range 32).map (fun q =>
      let mw := p.metaWord c k w q
      let d := 32 * mmaSub w + n
      match (List.range 32).find? (fun j => keptAt (mmaKind w = 0) mw j = d) with
      | some j => (q, at' j q)
      | none => (q, .fin false 0 0))]
  else if mmaTrans w then [(List.range 32).map (fun q => (q, at' n q))]
  else if s = 3 then [(List.range 32).map (fun q => (q, at' q (16 * (mmaSub w % 2) + n)))]
  else if s = 7 then [(List.range 32).map (fun q => (q, at' q n)), (List.range 32).map (fun q => (32 + q, at' (32 + q) n))]
  else [(List.range (shapeK s)).map (fun q => (q, at' q n))]

/-- Slot element of output (m, n) of a shape. -/
def outElem (w : CmdWord) (m n : Nat) : Nat :=
  let s := mmaShape w
  let r := if s = 2 then 16 * mmaSub w else if s = 3 then 16 * (mmaSub w / 2) else if s = 4 then 8 * mmaSub w else 0
  let q := if s = 3 then 16 * (mmaSub w % 2) else 0
  32 * (r + m) + q + n

/-- Covered elements of an MMA (R130). -/
def coveredElems (w : CmdWord) : List Nat :=
  (List.range (shapeM (mmaShape w))).flatMap (fun m => (List.range (shapeN (mmaShape w))).map (fun n => outElem w m n))

/-- The skip byte in force, and the output rows that stream. -/
def Package.skipByte (p : Package) (c k : Nat) (w : CmdWord) : Nat :=
  if mmaSkip w then fieldAt (p.opRead c k (16 * mmaAddr w 22) 1) 0 1 % 2 ^ (shapeM (mmaShape w) / 8) else 0
def liveRows (w : CmdWord) (skip : Nat) : List Nat :=
  (List.range (shapeM (mmaShape w))).filter (fun m => bitAt (mmaRows w) m && !bitAt skip (m / 8))
def liveCols (w : CmdWord) : List Nat := (List.range (shapeN (mmaShape w))).filter (fun n => bitAt (mmaCols w) n)

/-- The products of every K-step: per step, per live output, its slot element and its exact products as (A, B) pairs. -/
def Package.mmaSteps (p : Package) (c k : Nat) (w : CmdWord) (skip : Nat) : List (List (Nat × List (Fp × Fp))) :=
  let tile := p.tileB c k w
  let cols := (liveCols w).map (fun n => (n, p.columnB c k w tile n))
  let ras := p.rowsA c k w
  let rows := (liveRows w skip).map (fun m => (m, p.rowA c k w m (listAt 0 ras m)))
  (List.range (if mmaShape w = 7 then 2 else 1)).map (fun i =>
    rows.flatMap (fun r => cols.map (fun q =>
      (outElem w r.1 q.1, (listAt [] q.2 i).map (fun t => (listAt (.fin false 0 0) r.2 t.1, t.2))))))

/-! ### Intervals (R109, R113, R114) -/

/-- Halves of operand SRAM that a byte range touches. -/
def halvesOf (a n : Nat) : List Nat := [a / 0x18000, (a + n - 1) / 0x18000]

/-- A and B share a half. -/
def Package.halfConflict (p : Package) (c k : Nat) (w : CmdWord) : Bool :=
  let b := halvesOf (16 * mmaAddr w 12) (tileBytes w)
  (p.rowsA c k w).any (fun a => (halvesOf a (rowBytesA w)).any b.contains)

/-- Load, full streaming and fixed extra cycles of an MMA. -/
def loadCycles (w : CmdWord) : Nat := if mmaShape w = 1 then 16 else if mmaTrans w then 33 else 32
def streamCycles (w : CmdWord) (wide : Bool) : Nat :=
  (if mmaShape w = 1 then 16 else if mmaShape w = 3 then 32 else shapeM (mmaShape w)) * (if wide then 2 else 1)
def extraCycles (w : CmdWord) (wide : Bool) : Nat :=
  (if mmaShape w = 1 then (if wide then 4 else 2) else 0) + (if mmaGather w then 8 else 0)

/-- Streaming after the skipped blocks, never below the load. -/
def skippedStream (w : CmdWord) (wide : Bool) (blocks : Nat) : Nat :=
  let st := streamCycles w wide
  if blocks = 0 then st else max (min st (loadCycles w)) (st - blocks * 8 * (if wide then 2 else 1))

/-- Interval that an MMA adds with a given number of skipped blocks. The second command of an FP8 pair streams within the interval of the
first; in one half of operand SRAM it adds no load (R114). -/
def mmaInterval (w : CmdWord) (wide conflict second : Bool) (blocks : Nat) : Nat :=
  let st := skippedStream w wide blocks
  if conflict then st + (if second then 0 else loadCycles w) + extraCycles w wide
  else if second && !wide then 0
  else max st (loadCycles w) + extraCycles w wide

/-! ### The array's level (R122 to R126) -/

/-- Relative current of full streaming, hundredths (Table 5-8). -/
def streamCurrent (w : CmdWord) : Nat :=
  let a := mmaFmtA w
  let b := mmaFmtB w
  if mmaShape w = 5 then 94 else if mmaShape w = 6 then 90
  else if a = 2 || a = 3 || b = 2 || b = 3 then 96 else if a = 4 then 82 else if a ≤ 1 then 100 else 94

/-- Current of a command with `cols` live cell-columns, in 1/3,200 of full dense work. -/
def commandCurrent (w : CmdWord) (cols : Nat) : Nat := streamCurrent w * cols + 3 * (32 - cols)

/-- The last 32 work cycles of a list of (cycles, current), newest first. -/
def lastWork : Nat → List (Nat × Nat) → List (Nat × Nat)
  | _, [] => []
  | n, (c, i) :: r => if n ≤ c then [(n, i)] else (c, i) :: lastWork (n - c) r

/-- Trim level: 32 times the mean current of the last 32 work cycles, to nearest, 1 to 32. -/
def trimLevel (recent : List (Nat × Nat)) : Nat :=
  let n := (recent.map (·.1)).sum
  let s := (recent.map (fun e => e.1 * e.2)).sum
  if n = 0 then 1 else max 1 (min 32 ((2 * 32 * s + 3200 * n) / (2 * 3200 * n)))

/-- Trim operations for n cycles at a level count into the cycles and the energy: 125 pJ × ℓ/32 a cycle. -/
def Package.trimRun (p : Package) (c n level : Nat) : Package :=
  let e := (p.clu c).trimRest + n * level * 125
  let p := (p.bump64 (XE_TRIM_CYCLES c) n).bump64 (XE_TRIM_ENERGY c) (e / 32000)
  p.modClu c (fun y => { y with trimRest := e % 32000 })

/-- Show a core's array in `XE_STATUS`. -/
def Package.showArray (p : Package) (c k : Nat) : Package :=
  let co := p.core c k
  (p.setBit (XE_STATUS c) k (0 < co.level)).setBit (XE_STATUS c) (32 + k) (co.array = .up || co.array = .down)

/-- The die's duty cap. -/
def Package.dutyCap (p : Package) (c : Nat) : Nat := p.get (XE_DUTY_CAP_CAP c)

/-- Account the gap of a core up to the clock: trim operations at the level held. -/
def Package.closeGap (p : Package) (c k : Nat) : Package :=
  let co := p.core c k
  if p.clock ≤ co.mark then p
  else
    let n := p.cyclesIn (c / 72) (p.clock - co.mark)
    let p := p.modCore c k (fun co => { co with mark := p.clock })
    if co.array = .idle then p else p.trimRun c n co.level

/-- Run `u` 32nds of a cycle of work from a level while the array ramps up: cycles taken, the level and the cycles of its interval then,
by steps of 8 cycles; `cap` limits what is delivered. -/
def rampRun (cap : Nat) : Nat → Nat → Nat → Nat → Nat × Nat × Nat
  | 0, level, part, u => let r := max 1 (min cap level)
                         ((u + r - 1) / r, level, part)
  | fuel + 1, level, part, u =>
    let r := max 1 (min cap level)
    if 32 ≤ level then ((u + r - 1) / r, 32, 0)
    else
      let room := (8 - part) * r
      if u ≤ room then ((u + r - 1) / r, level, part + (u + r - 1) / r)
      else
        let t := rampRun cap fuel (level + 1) 0 (u - room)
        (8 - part + t.1, t.2)

/-- The array issues n cycles of work of a given streaming share and current. -/
def Package.work (p : Package) (c k n stream current : Nat) : Package :=
  let p := p.closeGap c k
  let co := p.core c k
  let d := c / 72
  let start := max p.clock co.busyUntil
  let ramps := co.array = .idle || co.array = .down || co.array = .up
  let fresh := co.array = .idle || co.array = .down
  let level := if fresh then co.level + 1 else if co.array = .up then co.level else 32
  let r := rampRun (p.dutyCap c) 40 level (if fresh then 0 else co.rampPart) (32 * n)
  let loss := 32 * r.1 - 32 * n
  let recent := lastWork 32 ((stream, current) :: (n - stream, 12 * 32) :: co.recent)
  let up := ramps && r.2.1 < 32
  let until' := start + p.cycles d r.1
  let p := p.modCore c k (fun co =>
    { co with recent := recent, busyUntil := until', mark := until', rampPart := r.2.2, array := if up then .up else .trim,
              level := if up then r.2.1 else min (p.dutyCap c) (trimLevel recent) })
  let p := (p.bump64 (XE_WORK_CYCLES c) n).bump64 (XE_RAMP_LOSS c) loss
  (if fresh then p.bump64 (XE_RAMP_STARTS c) 1 else p).showArray c k

/-- A gap outlasts TRIM_WINDOW: the ramp-down starts (R123). -/
def trimWindowEnd (dt c k : Nat) (p : Package) : Package :=
  let p := p.pass dt
  let co := p.core c k
  if (co.array = .trim || co.array = .up) && co.busyUntil + p.cycles (c / 72) (p.get (XE_TRIM_CFG_TRIM_WINDOW c)) ≤ p.clock then
    let p := p.closeGap c k
    (p.modCore c k (fun co => { co with array := if co.level ≤ 1 then .idle else .down, level := co.level - 1 })).showArray c k
  else p

/-- The next 8-cycle interval of a ramp-down: the level falls by one; at 0 the array clock-gates. -/
def rampDownStep (dt c k : Nat) (p : Package) : Package :=
  let p := p.pass dt
  if (p.core c k).array = .down then
    let p := p.closeGap c k
    (p.modCore c k (fun co => { co with array := if co.level ≤ 1 then .idle else .down, level := co.level - 1 })).showArray c k
  else p

/-! ### Pairs and quadrant groups (R110, R111) -/

/-- The second command of a pair: an M16 on the same tile with another SUB. -/
def pairsWith (a b : CmdWord) : Bool :=
  mmaShape b = 2 && mmaAddr a 12 = mmaAddr b 12 && mmaFmtB a = mmaFmtB b && mmaTrans a = mmaTrans b && mmaSub a ≠ mmaSub b

/-- A pending pair whose second command did not come ran alone. -/
def Package.breakPair (p : Package) (c k : Nat) : Package :=
  if (p.core c k).paired.isSome then (p.modCore c k (fun co => { co with paired := none })).bump64 (XE_PAIR_BROKEN c) 1 else p

/-- An open quadrant group closes; one of fewer than four counts. -/
def Package.closeQuads (p : Package) (c k : Nat) : Package :=
  if (p.core c k).quads = [] then p else (p.modCore c k (fun co => { co with quads := [] })).bump64 (XE_QUAD_SHORT c) 1

/-- Account the issue of an MMA: pairs, quadrant groups, its interval and the array's work. -/
def Package.issueMma (p : Package) (c k : Nat) (w : CmdWord) (blocks : Nat) (none' : Bool) : Package :=
  let wide := fmtClass (mmaFmtA w) (mmaFmtB w) = 1
  let co := p.core c k
  let conflict := p.halfConflict c k w
  let cols := (liveCols w).length
  let cur := commandCurrent w cols
  let fmts := mmaFmtA w + 16 * mmaFmtB w
  let second := match co.paired with
    | some a => pairsWith a w && decide (p.clock ≤ co.pairBy)
    | none => false
  let joins := mmaShape w = 3 && co.quads ≠ [] && !co.quads.contains (mmaSub w) && co.quadFmt = fmts && decide (p.clock ≤ co.quadAt)
  let p := if second then p.modCore c k (fun co => { co with paired := none }) else p.breakPair c k
  let p := if joins then p else p.closeQuads c k
  let p := if conflict then p.bump64 (XE_HALF_CONFLICT c) 1 else p
  let start := max p.clock co.busyUntil
  let full := mmaInterval w wide conflict second 0
  let n := if none' then 1 else mmaInterval w wide conflict second blocks
  let p := if 0 < blocks then p.bump64 (XE_SKIP_CYCLES c) (full - n) else p
  let p := if joins then p else p.work c k n (if none' then 0 else skippedStream w wide blocks) cur
  let p := if mmaPair w && !second then
      p.modCore c k (fun co => { co with paired := some w, pairBy := start + p.cycles (c / 72) (streamCycles w wide) })
    else p
  if mmaShape w ≠ 3 then p
  else
    let q := if joins then co.quads ++ [mmaSub w] else [mmaSub w]
    p.modCore c k (fun co => { co with quads := if q.length = 4 then [] else q, quadFmt := fmts, quadAt := if joins then co.quadAt else start })

/-! ### The Assay (R176 to R178) -/

/-- One K-step recomputed: the array's sum n, w by fused multiply-adds in ascending K order, S of the magnitudes. -/
def sampleStep (l : List (Fp × Fp)) : Sampled :=
  { n := addStep (l.map (fun e => e.1.mul e.2)),
    w := l.foldl (fun a e => r32 ((e.1.mul e.2).add (f32 a))) 0,
    s := l.foldl (fun a e => r32 ((e.1.mul e.2).abs.add (f32 a))) 0 }

/-- An MMA is selected with probability 2^-RATE_LOG2: the draw of use 2 for its ordinal is 0 in its low RATE_LOG2 bits. -/
def Package.assayPick (p : Package) (x : Ctx) (ordinal : Nat) : Bool :=
  let r := p.get NUM_ASSAY_CFG_RATE_LOG2
  p.feature 9 && !x.recompute && decide (r ≠ 0) && decide (p.draw16 x ordinal 2 0 % 2 ^ r = 0)

def Package.assaySelect (p : Package) (c k : Nat) (x : Ctx) (ordinal : Nat) (steps : List (List (Nat × List (Fp × Fp)))) : Package :=
  if !p.assayPick x ordinal then p
  else if (p.core c k).assay.isSome then p.bump64 NUM_ASSAY_SKIPPED 1
  else p.modCore c k (fun co => { co with assay := some { stage := x.stage, step := x.step,
                                                          sums := steps.flatMap (fun s => s.map (fun e => sampleStep e.2)) } })

/-- |n − w| > 2^-6 × S, S = 0 with n ≠ 0, or exactly one of n and w non-finite (R177). -/
def Sampled.diverges (s : Sampled) : Bool :=
  if f32Finite s.n && f32Finite s.w then
    let d := ((f32 s.n).add (f32 s.w).neg).abs
    let bound := match f32 s.s with
      | .fin _ m e => Fp.fin false m (e - 6)
      | v => v
    if (f32 s.s).isZero then !(f32 s.n).isZero else bound.lt d
  else f32Finite s.n || f32Finite s.w

/-! ### The MMA (R131, R132, R135, R136) -/

/-- A free wait of 0 to 16 cycles at an END at s = 1 on K16 or MX64 (R140). -/
def Package.spillStall (p : Package) (c k : Nat) (w : CmdWord) (s : Nat) : Package :=
  if mmaEnd w && s = 1 && (mmaShape w = 1 || mmaShape w = 7) then
    let d := p.draw
    let n := d.1.toNat % 17
    ((d.2.bump64 (ACC_SPILL_STALL c) n)).modCore c k (fun co => { co with busyUntil := co.busyUntil + p.cycles (c / 72) n })
  else p

/-- Multiply-accumulates delivered, in units of 1,024. -/
def Package.countMacs (p : Package) (c n : Nat) : Package :=
  let t := (p.clu c).macRest + n
  (p.bump64 (XE_MAC_UNITS c) (t / 1024)).modClu c (fun y => { y with macRest := t % 1024 })

/-- An MMA that passed its checks; `opens`: its covered elements open. -/
def Package.mmaRun (p : Package) (c k : Nat) (x : Ctx) (h : Held) (opens : Bool) : Package :=
  let w := h.word
  let g := mmaGroup w
  let j := mmaSlot w
  let es := coveredElems w
  let skip := p.skipByte c k w
  let blocks := (bitsSet 4 skip).length
  let none' := (liveRows w skip).isEmpty || (liveCols w).isEmpty
  let steps := if none' then [] else p.mmaSteps c k w skip
  let p := p.issueMma c k w blocks none'
  let p := if none' then p else p.assaySelect c k x h.ordinal steps
  let p := if opens then p.modCore c k (fun co => co.openElems g j (es.map (fun e => (e, 0)))) else p
  let s := ((p.core c k).group g).s
  let p := p.each steps (fun p st => p.deliver c k x h.index g j (st.map (fun e => (e.1, e.2.map (fun q => q.1.mul q.2)))))
  let p := p.countMacs c ((liveRows w skip).length * (liveCols w).length * shapeK (mmaShape w))
  let p := if mmaEnd w then p.endElems c k x h.index g es else p
  (p.spillStall c k w s).showOpen c k

def mma (p : Package) (c k : Nat) (x : Ctx) (h : Held) : CmdEnd :=
  let cause := p.mmaCheck c k h.word
  if cause ≠ 0 then .fail cause
  else match bindCase (p.core c k) (mmaGroup h.word) (mmaSlot h.word) (mmaBegin h.word) (coveredElems h.word) with
    | none => .fail 9
    | some opens => .done (p.mmaRun c k x h opens)

/-- An MMA with a false predicate takes one cycle and leaves slot and group alone (R113). -/
def mmaFalse (p : Package) (c k : Nat) : Package := (p.breakPair c k).work c k 1 0 96

def execTrimWindowEnd (dt cluster core : Nat) (s : State) := onPkg (trimWindowEnd dt cluster core) s
def execRampDownStep (dt cluster core : Nat) (s : State) := onPkg (rampDownStep dt cluster core) s

end Sys2Proof.Machine
end

