-- ==== Sys2Proof/Machine/Vector.lean ====
section
/-! DEFINITION. The vector engine: its operand form and commands (R120, Table 5-6), CVT with its measuring pass (R160, R161, R173) and
DERIV (R187, R188). -/

namespace Sys2Proof.Machine

open Sys2Proof

/-! ### The operand form -/

/-- Address and space of operand i, 1 to 3. Spaces: 0 operand SRAM, 1 cluster SRAM, 2 accumulator slots in order, 4 KiB each. -/
def vAddr (w : CmdWord) (i : Nat) : Nat := 16 * cw w (64 + 16 * (i - 1)) 16
def vSpace (w : CmdWord) (i : Nat) : Nat := cw w (56 + 2 * (i - 1)) 2
def vSub (w : CmdWord) : Nat := cw w 112 16
def vCount (w : CmdWord) : Nat := cw w 128 32
def vImm (w : CmdWord) : Nat := cw w 160 32

/-- Fields of operand i in a vector command. -/
def vField (i : Nat) : List (Nat × Nat) := [(64 + 16 * (i - 1), 16), (56 + 2 * (i - 1), 2)]

/-- The 64 KiB of the accumulator slots as bytes. -/
def Core.slotBytes (co : Core) (a n : Nat) : List Byte :=
  (addrs a n).map (fun x => BitVec.ofNat 8 ((co.slot (x / 4096)).val (x % 4096 / 4) / 256 ^ (x % 4)))

def Core.putSlotBytes (co : Core) : Nat → List Byte → Core
  | _, [] => co
  | a, b :: bs =>
    let sl := co.slot (a / 4096)
    let v := putBits (sl.val (a % 4096 / 4)) (8 * (a % 4)) 8 b.toNat
    Core.putSlotBytes (co.setSlot (a / 4096) (sl.put (a % 4096 / 4) v)) (a + 1) bs

def vSize (space : Nat) : Nat := if space = 0 then OP_BYTES else if space = 1 then CLU_BYTES else if space = 2 then 65536 else 0

def Package.vRead (p : Package) (c k : Nat) (w : CmdWord) (i n : Nat) : List Byte :=
  if vSpace w i = 2 then (p.core c k).slotBytes (vAddr w i) n else p.locRead c k (vSpace w i = 1) (vAddr w i) n

def Package.vWrite (p : Package) (c k : Nat) (w : CmdWord) (i : Nat) (bs : List Byte) : Package :=
  if vSpace w i = 2 then p.modCore c k (fun co => co.putSlotBytes (vAddr w i) bs) else p.locWrite c k (vSpace w i = 1) (vAddr w i) bs

/-- Check of a vector command that uses operands `ops` with their lengths in bytes and further fields `more`; 0 when it passes. -/
def vCheck (w : CmdWord) (ops : List (Nat × Nat)) (more : List (Nat × Nat)) : Nat :=
  if strayBits w (baseFields ++ [(128, 32)] ++ ops.flatMap (fun o => vField o.1) ++ more) || ops.any (fun o => vSpace w o.1 = 3) then 1
  else if ops.any (fun o => vSize (vSpace w o.1) < vAddr w o.1 + o.2) then 3
  else 0

/-- A source in cluster SRAM holds poison. -/
def Package.vPoison (p : Package) (c : Nat) (w : CmdWord) (srcs : List (Nat × Nat)) : Bool :=
  srcs.any (fun o => vSpace w o.1 = 1 && p.cluPoisoned c (vAddr w o.1) o.2)

/-- Run a vector command: the check, poison in its sources, its effect. -/
def vRun (p : Package) (c : Nat) (w : CmdWord) (srcs dsts : List (Nat × Nat)) (more : List (Nat × Nat)) (f : Package → CmdEnd) : CmdEnd :=
  let cause := vCheck w (srcs ++ dsts) more
  if cause ≠ 0 then .fail cause else if p.vPoison c w srcs then .poisoned else f p

def Package.vWords (p : Package) (c k : Nat) (w : CmdWord) (i : Nat) : List Nat := unpackCodes 32 (vCount w) (p.vRead c k w i (4 * vCount w))

/-! ### Element-wise commands -/

/-- ADD, MUL, MAX, MIN: operand 2 ← operand 1 ∘ operand 3. -/
def vBinary (f : Nat → Nat → Nat) (p : Package) (c k : Nat) (w : CmdWord) : CmdEnd :=
  let n := 4 * vCount w
  vRun p c w [(1, n), (3, n)] [(2, n)] [] (fun p =>
    .done (p.vWrite c k w 2 (packCodes 32 (List.zipWith f (p.vWords c k w 1) (p.vWords c k w 3)))))

/-- FMA: operand 2 ← operand 1 × operand 3 + operand 2, rounded once. -/
def vFma (p : Package) (c k : Nat) (w : CmdWord) : CmdEnd :=
  let n := 4 * vCount w
  vRun p c w [(1, n), (3, n), (2, n)] [] [] (fun p =>
    .done (p.vWrite c k w 2 (packCodes 32 (List.zipWith (fun ab z => ffma ab.1 ab.2 z) ((p.vWords c k w 1).zip (p.vWords c k w 3)) (p.vWords c k w 2)))))

/-- The functions of one operand: operand 2 ← f(operand 1). -/
def vUnary (op : Nat) (p : Package) (c k : Nat) (w : CmdWord) : CmdEnd :=
  let n := 4 * vCount w
  vRun p c w [(1, n)] [(2, n)] [] (fun p => .done (p.vWrite c k w 2 (packCodes 32 ((p.vWords c k w 1).map (vecFn op)))))

/-- MASK_BITS and SIGN_BITS: bit e mod 8 of byte e ÷ 8 for element e. -/
def vBits (f : Nat → Bool) (p : Package) (c k : Nat) (w : CmdWord) : CmdEnd :=
  vRun p c w [(1, 4 * vCount w)] [(2, (vCount w + 7) / 8)] [] (fun p =>
    .done (p.vWrite c k w 2 (packCodes 1 ((p.vWords c k w 1).map (fun v => b2n (f v))))))

def maskBit (v : Nat) : Bool := !(f32 v).isZero
def signOf (v : Nat) : Bool := v.testBit 31

/-! ### ROWREDUCE and RNG -/

/-- Rows of `m` elements of a list. -/
def rowsOf {α : Type} (m : Nat) (l : List α) : List (List α) := (List.range ((l.length + m - 1) / max m 1)).map (fun i => (l.drop (m * i)).take m)

/-- Row length of a ROWREDUCE, 0 for all elements, and its rows. -/
def rowLen (w : CmdWord) : Nat := if vSub w / 2 = 0 then max (vCount w) 1 else vSub w / 2
def rowCount (w : CmdWord) : Nat := (vCount w + rowLen w - 1) / rowLen w

/-- Results of a ROWREDUCE: maxima, or sums whose order is open (R120). -/
def Package.rowResults (p : Package) (c k : Nat) (w : CmdWord) : List Nat :=
  let rs := rowsOf (rowLen w) (p.vWords c k w 1)
  if vSub w % 2 = 1 then rs.map (fun r => r.foldl fmax F32_NEG_INF) else rs.mapIdx (fun i r => sumFree (p.fresh + i) r.length r)

/-- ROWREDUCE: one FP32 result a row. Sub-function [0] chooses sum or maximum, [15:1] the row length, 0 for all elements. -/
def vRowReduce (p : Package) (c k : Nat) (w : CmdWord) : CmdEnd :=
  vRun p c w [(1, 4 * vCount w)] [(2, 4 * rowCount w)] [(112, 16)] (fun p =>
    .done ({ p with fresh := p.fresh + rowCount w }.vWrite c k w 2 (packCodes 32 (p.rowResults c k w))))

/-- RNG: element e is the 16-bit draw e of use 1. -/
def vRng (p : Package) (c k : Nat) (x : Ctx) (h : Held) : CmdEnd :=
  let w := h.word
  vRun p c w [] [(2, 2 * vCount w)] [] (fun p =>
    .done (p.vWrite c k w 2 (packCodes 16 ((List.range (vCount w)).map (fun e => p.draw16 x h.ordinal 1 e)))))

/-! ### CVT (R160, R161, R173) -/

/-- The slot that an AMAX pass publishes for: that of its reference's quantising term. -/
def amaxSlot (x : Ctx) (imm : Nat) : Option Nat :=
  if isRef imm then ((refTerms imm).find? (fun t => t.1 = 1)).map (fun t => x.layer.numSlot + t.2) else none

/-- A slot is in current-amax mode. -/
def Package.slotWarm (p : Package) (slot : Nat) : Bool := match p.histBytes slot with
  | some b => histWarm b
  | none => false

/-- Elements of a source of `n` elements in payload code `code`; `scales` are its block scales. -/
def decodeAll (code n : Nat) (bs scales : List Byte) : List Fp :=
  match fmtOf code with
  | none => []
  | some f =>
    let es := (unpackCodes (bitsOfCode code) n bs).map f.decode
    if isMX code then es.mapIdx (fun i v => mxScaled (listAt 0 scales (i / 32)).toNat v) else es

/-- A measuring pass: the largest finite magnitude of the source is published, nothing is written. -/
def cvtAmax (p : Package) (c k : Nat) (x : Ctx) (w : CmdWord) (src : List Fp) : Package :=
  match amaxSlot x (vImm w) with
  | none => p
  | some slot =>
    let p := p.useSlot slot x.step
    if !p.slotWarm slot || x.recompute then p
    else p.publish x.stage slot c k (src.foldl (fun a v => if v.isFinite then max a (r32 v.abs) else a) 0) (bitAt (vSub w) 12)

/-- Where the scales of an MX destination go: operand 3, or, where operand 3 holds the source's, the next 64-byte boundary behind the
elements. -/
def cvtScaleAddr (w : CmdWord) (srcMx : Bool) (bytes : Nat) : Nat := if srcMx then roundUp (vAddr w 2 + bytes) 64 else vAddr w 3

/-- Payload codes and flags of a CVT. -/
def cvtDst (w : CmdWord) : Nat := bitsOf (vSub w) 0 5
def cvtSrc (w : CmdWord) : Nat := bitsOf (vSub w) 5 5
def cvtIsAmax (w : CmdWord) : Bool := bitAt (vSub w) 11
def cvtDstMx (w : CmdWord) : Bool := !cvtIsAmax w && isMX (cvtDst w)
def cvtDstBytes (w : CmdWord) : Nat := if cvtIsAmax w then 0 else spanOf (cvtDst w) (vCount w)
def cvtBlocks (w : CmdWord) : Nat := (vCount w + 31) / 32

/-- Operands that a CVT reads, and writes. -/
def cvtSrcs (w : CmdWord) : List (Nat × Nat) := [(1, spanOf (cvtSrc w) (vCount w))] ++ (if isMX (cvtSrc w) then [(3, cvtBlocks w)] else [])
def cvtDsts (w : CmdWord) : List (Nat × Nat) :=
  (if cvtIsAmax w then [] else [(2, cvtDstBytes w)]) ++ (if cvtDstMx w && !isMX (cvtSrc w) then [(3, cvtBlocks w)] else [])

/-- The checks of a CVT before those of every vector command; 0 when they pass. -/
def Package.cvtCheck (p : Package) (w : CmdWord) : Nat :=
  if bitsOf (vSub w) 13 3 ≠ 0 || (bitAt (vSub w) 12 && !cvtIsAmax w) || ((isMX (cvtSrc w) || cvtDstMx w) && !p.feature 5) then 1
  else if (fmtOf (cvtSrc w)).isNone || (cvtIsAmax w && cvtDst w ≠ 0) || (!cvtIsAmax w && (fmtOf (cvtDst w)).isNone) then 15
  else if vCount w % 32 ≠ 0 && (isMX (cvtSrc w) || cvtDstMx w) then 14
  else if cvtDstMx w && isMX (cvtSrc w) && vSize (vSpace w 2) < cvtScaleAddr w true (cvtDstBytes w) + cvtBlocks w then 3
  else 0

/-- The values of a CVT's source. -/
def Package.cvtValues (p : Package) (c k : Nat) (w : CmdWord) : List Fp :=
  decodeAll (cvtSrc w) (vCount w) (p.vRead c k w 1 (spanOf (cvtSrc w) (vCount w))) (if isMX (cvtSrc w) then p.vRead c k w 3 (cvtBlocks w) else [])

/-- A conversion of given source values at a scale. -/
def Package.cvtRun (p : Package) (c k : Nat) (x : Ctx) (h : Held) (vals : List Fp) (scale : Nat) (quant : Option (Nat × Int × Nat)) : Package :=
  let w := h.word
  let dst := cvtDst w
  let xs := vals.map (fun v => f32 (r32 (v.mul (f32 scale))))
  let kOwn := match quant with
    | some (slot, _, _) => p.ownExponent slot
    | none => 0
  let r := convertAll dst (bitAt (vSub w) 10) (fun e => p.draw16 x h.ordinal 0 e) quant kOwn (xs.map (fun _ => true)) xs
  let p := p.vWrite c k w 2 (packCodes (bitsOfCode dst) r.1)
  let sc := r.2.1.map (BitVec.ofNat 8)
  let p := if !cvtDstMx w then p
    else if !isMX (cvtSrc w) then p.vWrite c k w 3 sc
    else if vSpace w 2 = 2 then p.modCore c k (fun co => co.putSlotBytes (cvtScaleAddr w true (cvtDstBytes w)) sc)
    else p.locWrite c k (vSpace w 2 = 1) (cvtScaleAddr w true (cvtDstBytes w)) sc
  p.countConversion c k x quant r.2.2.1 r.2.2.2.1 r.2.2.2.2

def cvt (p : Package) (c k : Nat) (x : Ctx) (h : Held) : CmdEnd :=
  let w := h.word
  let cause := p.cvtCheck w
  if cause ≠ 0 then .fail cause
  else vRun p c w (cvtSrcs w) (cvtDsts w) [(112, 16), (160, 32)] (fun p =>
    if cvtIsAmax w then .done (cvtAmax p c k x w (p.cvtValues c k w))
    else match p.resolve x (vImm w) (some (cvtDst w)) with
      | .bad => .fail 13
      | .waits => .wait p
      | .ok q scale quant => .done (q.cvtRun c k x h (p.cvtValues c k w) scale quant))

/-! ### DERIV (R188, Tables 8-4 and 8-5) -/

/-- 2^-22 × |dy|. -/
def dyBound (dy : Nat) : Fp := match f32 dy with
  | .fin _ m e => .fin false m (e - 22)
  | v => v

/-- 1 − v. -/
def oneMinus (v : Fp) : Fp := Fp.one.add v.neg

/-- A result of a value function on a saved value y and a gradient dy. -/
def derivValue (fn : Nat) (y : Fp) (yw dy : Nat) : Nat :=
  let d := f32 dy
  let key := yw + 2 ^ 32 * dy
  if fn = 4 then within 0x100 key 2 none (r32 (d.mul (y.mul (oneMinus y))))
  else if fn = 5 then within 0x101 key 2 (some (dyBound dy)) (r32 (d.mul (oneMinus (y.mul y))))
  else if fn = 6 then r32 (d.mul y)
  else if fn = 7 then (if y = .nan then F32_NAN else r32 (d.mul (f32 (Config.geluSlope yw))))
  else if fn = 8 then
    let s := sigmoidOf y
    within 0x102 key 4 (some (dyBound dy)) (r32 (d.mul (s.mul (Fp.one.add (y.mul (oneMinus s))))))
  else if fn = 9 then
    let s := sigmoidOf y
    within 0x103 key 4 (some (dyBound dy)) (r32 (d.mul (s.mul (oneMinus s))))
  else
    let t := tanhOf y
    within 0x104 key 4 (some (dyBound dy)) (r32 (d.mul (oneMinus (t.mul t))))

/-- A result of a bit function. -/
def derivBit (fn : Nat) (bit : Bool) (imm dy : Nat) : Nat :=
  if fn = 1 then (if bit then dy else 0) else if fn = 2 then (if bit then fmul dy imm else dy) else (if bit then fmul dy imm else 0)

/-- Function, format and source span of a DERIV. -/
def derivFn (w : CmdWord) : Nat := bitsOf (vSub w) 0 5
def derivFmt (w : CmdWord) : Nat := bitsOf (vSub w) 5 5
def derivIsBits (w : CmdWord) : Bool := decide (1 ≤ derivFn w) && decide (derivFn w ≤ 3)
def derivSpan (w : CmdWord) : Nat := if derivIsBits w then (vCount w + 7) / 8 else spanOf (derivFmt w) (vCount w)

/-- A DERIV's own fields are legal. -/
def derivLegal (w : CmdWord) : Bool :=
  !(derivFn w = 0 || 0x0A < derivFn w || bitsOf (vSub w) 10 6 ≠ 0 || (derivIsBits w && derivFmt w ≠ 0)
    || (!derivIsBits w && derivFmt w ≠ 0 && derivFmt w ≠ 1 && derivFmt w ≠ 5 && derivFmt w ≠ 0x10))

/-- Further fields of a DERIV: the sub-function, and the immediate where its function uses one. -/
def derivFields (w : CmdWord) : List (Nat × Nat) := [(112, 16)] ++ (if derivFn w = 1 then [] else [(160, 32)])

/-- Results of a bit function. -/
def Package.derivBits (p : Package) (c k : Nat) (w : CmdWord) : List Nat :=
  List.zipWith (fun b dy => derivBit (derivFn w) (b = 1) (vImm w) dy) (unpackCodes 1 (vCount w) (p.vRead c k w 1 (derivSpan w))) (p.vWords c k w 3)

/-- Results of a value function on values scaled by `scale`. -/
def Package.derivValues (p : Package) (c k : Nat) (w : CmdWord) (scale : Nat) : List Nat :=
  List.zipWith (fun y dy => derivValue (derivFn w) (f32 y) y dy)
    ((decodeAll (derivFmt w) (vCount w) (p.vRead c k w 1 (derivSpan w)) []).map (fun v => r32 (v.mul (f32 scale)))) (p.vWords c k w 3)

def deriv (p : Package) (c k : Nat) (x : Ctx) (w : CmdWord) : CmdEnd :=
  if !derivLegal w then .fail 1
  else
    vRun p c w [(1, derivSpan w), (3, 4 * vCount w)] [(2, 4 * vCount w)] (derivFields w) (fun p =>
      if derivIsBits w then .done (p.vWrite c k w 2 (packCodes 32 (p.derivBits c k w)))
      else match p.resolve x (vImm w) none with
        | .bad => .fail 13
        | .waits => .wait p
        | .ok q scale _ => .done (q.vWrite c k w 2 (packCodes 32 (q.derivValues c k w scale))))

/-! ### The commands by opcode -/

/-- Run the vector command of an opcode that Table 5-6 defines. -/
def vectorCommand (op : Nat) (p : Package) (c k : Nat) (x : Ctx) (h : Held) : CmdEnd :=
  if op = 0x40 then vBinary fadd p c k h.word
  else if op = 0x41 then vBinary fmul p c k h.word
  else if op = 0x42 then vFma p c k h.word
  else if op = 0x43 then vBinary fmax p c k h.word
  else if op = 0x44 then vBinary fmin p c k h.word
  else if 0x48 ≤ op && op ≤ 0x4F then vUnary op p c k h.word
  else if op = 0x50 then cvt p c k x h
  else if op = 0x51 then vBits maskBit p c k h.word
  else if op = 0x52 then vBits signOf p c k h.word
  else if op = 0x53 then deriv p c k x h.word
  else if op = 0x54 then vRowReduce p c k h.word
  else if op = 0x55 then vRng p c k x h
  else .fail 1

end Sys2Proof.Machine
end

