-- ==== Sys2Proof/Machine/DataMove.lean ====
section
/-! DEFINITION. Data movement (10_memory_stacks.md, R229 to R234): the address modes, loads, stores, local copies and the output
description; the operand map of R382. -/

namespace Sys2Proof.Machine

open Sys2Proof

/-! ### Fields (Table 10-3) -/

def dmMode (w : CmdWord) : Nat := cw w 8 3
def dmCluster (w : CmdWord) : Bool := bitAt w.toNat 11
def dmTensor (w : CmdWord) : Nat := cw w 32 16
def dmLocal (w : CmdWord) : Nat := 16 * cw w 64 16
def dmLocalStride (w : CmdWord) : Nat := 16 * cw w 80 16
def dmRowBytes (w : CmdWord) : Nat := 16 * cw w 96 16
def dmRows (w : CmdWord) : Nat := cw w 112 16
def dmMem (w : CmdWord) : Nat := cw w 128 48
def dmMemStride (w : CmdWord) : Nat := cw w 192 32
def dmRankStride (w : CmdWord) : Nat := cw w 224 32

/-! ### Address modes (R230, Table 10-4) -/

/-- Address of ring slot n of a stage, and the replica of an address on die d (R250). -/
def Package.vslotAddr (p : Package) (s n : Nat) : Nat := bitsOf (p.rd (STG_VSLOT s n)) 0 48
def replicaAddr (d a : Nat) : Nat := putBits a 38 3 d

/-- Smallest target slot over the channels of a phase, bytes. -/
def Package.outBound (p : Package) (s : Nat) (ph : Phase) : Option Nat :=
  minOf (ph.channels.map (fun n => p.get (STG_CH_STATE_PEER_SLOT_UNITS s n) * 4096))

/-- Where a mode's offsets start and how many bytes they may reach; none where the mode is not allowed. -/
inductive ModeBase where
  /-- base and bound in memory; no bound beyond R222 in mode 0 -/
  | mem (base : Nat) (bound : Option Nat)
  /-- the phase's output, of a bound -/
  | out (bound : Nat)
  /-- completes without effect -/
  | nothing
  | bad
deriving DecidableEq, Repr

def Package.modeBase (p : Package) (c : Nat) (x : Ctx) (load : Bool) (w : CmdWord) : ModeBase :=
  let mode := dmMode w
  if mode = 0 then .mem 0 none
  else match p.phaseOf x with
    | none => .bad
    | some ph =>
      if mode = 1 then
        if !load then .bad
        else match p.slotOf x.stage x.version with
          | none => .bad
          | some n =>
            let a := p.vslotAddr x.stage n
            let a := if bitAt (p.get (GATHER_GRP_REPL x.stage)) (c / 72) then replicaAddr (c / 72) a else a
            .mem (a + x.layer.weightOffset) (some x.layer.weightBytes)
      else if mode = 2 then
        match p.tensorPlace x (dmTensor w) with
        | none => .bad
        | some (a, n, _, _) => .mem a (some n)
      else if mode = 3 then
        if !load then .bad
        else if x.recompute then
          match (p.stg x.stage).record x.step x.microBatch with
          | none => .bad
          | some r => .mem (r.start + (recordBytes (p.tensors x.stage) r.level r.stageCkpt 0).1) (some r.copyBytes)
        else .mem ph.payload (some ph.bytes)
      else if mode = 4 then
        if load then .bad else if x.recompute then .nothing else match p.outBound x.stage ph with
          | none => .bad
          | some b => .out b
      else .bad

/-- Offsets of a command's rows from the mode's base. -/
def dmOffsets (x : Ctx) (w : CmdWord) : List Nat :=
  (List.range (dmRows w)).map (fun r => dmMem w + x.rank * dmRankStride w + r * dmMemStride w)

/-- Local addresses of a command's rows. -/
def dmLocals (w : CmdWord) : List Nat := (List.range (dmRows w)).map (fun r => dmLocal w + r * dmLocalStride w)

/-- The checks that loads and stores share: unused fields and lengths, then the local side; 0 when they pass. -/
def dmCheck (w : CmdWord) : Nat :=
  let fields := baseFields ++ [(8, 4), (64, 112), (192, 64)] ++ (if dmMode w = 2 then [(32, 16)] else [])
  if strayBits w fields || cw w 96 16 = 0 || 4096 < cw w 96 16 || dmRows w = 0 || 4096 < dmRows w then 1
  else if (dmLocals w).any (fun a => !locFits (dmCluster w) a (dmRowBytes w)) then 16
  else 0

/-- Offsets lie within a bound and are multiples of 16. -/
def dmWithin (w : CmdWord) (bound : Option Nat) (ofs : List Nat) : Bool :=
  ofs.all (fun o => decide (o % 16 = 0) && (match bound with
    | some b => decide (o + dmRowBytes w ≤ b)
    | none => true))

/-! ### The operand map (R382) -/

/-- A load into operand SRAM enters the map; where it is full the oldest entry leaves and is counted. -/
def Package.mapLoad (p : Package) (c k : Nat) (w : CmdWord) : Package :=
  let co := p.core c k
  let e : MapEntry := { word := w, rows := (dmLocals w).map (fun a => (a, dmRowBytes w)), layer := co.layerPos }
  if co.opMap.length < 64 then p.setCore c k { co with opMap := co.opMap ++ [e] }
  else (p.setCore c k { co with opMap := co.opMap.drop 1 ++ [e] }).bump64 (CLU_MAP_EVICT c) 1

/-! ### Loads and stores -/

def dmLoad (p : Package) (c k : Nat) (x : Ctx) (h : Held) : CmdEnd :=
  let w := h.word
  let cause := dmCheck w
  if cause ≠ 0 then .fail cause
  else match p.modeBase c x true w with
    | .mem base bound =>
      let ofs := dmOffsets x w
      let n := dmRowBytes w
      if !dmWithin w bound ofs || ofs.any (fun o => !p.rangeOk (base + o) n) then .fail 16
      else if ofs.any (fun o => p.rangePoisoned (base + o) n) then .poisoned
      else
        let p := p.each ((dmLocals w).zip ofs) (fun p e => (p.locWrite c k (dmCluster w) e.1 (p.bytesAt (base + e.2) n)).countReadBy (c / 72) (base + e.2) n)
        .done (if dmCluster w then p else p.mapLoad c k w)
    | _ => .fail 16

/-- Store a row of the output at an offset (R230, R233). -/
def putOut (m : List Host.Cell) : Nat → List Byte → List Host.Cell
  | _, [] => m
  | a, b :: bs => putOut (mapPut m a b) (a + 1) bs

def dmStore (p : Package) (c k : Nat) (x : Ctx) (h : Held) : CmdEnd :=
  let w := h.word
  let cause := dmCheck w
  if cause ≠ 0 then .fail cause
  else
    let rows := (dmLocals w).zip (dmOffsets x w)
    let n := dmRowBytes w
    match p.modeBase c x false w with
    | .nothing => .done p
    | .bad => .fail 16
    | .mem base bound =>
      if !dmWithin w bound (dmOffsets x w) || rows.any (fun e => !p.rangeOk (base + e.2) n) then .fail 16
      else if dmCluster w && rows.any (fun e => p.cluPoisoned c e.1 n) then .poisoned
      else .done (p.each rows (fun p e => p.storeBy (c / 72) (base + e.2) (p.locRead c k (dmCluster w) e.1 n)))
    | .out b =>
      if !dmWithin w (some b) (dmOffsets x w) then .fail 16
      else if dmCluster w && rows.any (fun e => p.cluPoisoned c e.1 n) then .poisoned
      else .done (p.modStg x.stage (fun y => { y with phase := y.phase.map (fun ph =>
        { ph with outBuf := rows.foldl (fun m e => putOut m e.2 (p.locRead c k (dmCluster w) e.1 n)) ph.outBuf }) }))

/-- Cluster SRAM addresses of a DM_LOCAL's rows. -/
def dmClusterRows (w : CmdWord) : List Nat := (List.range (dmRows w)).map (fun r => 16 * dmMem w + r * dmMemStride w)

/-- The checks of a DM_LOCAL; 0 when they pass. -/
def dmLocalCheck (w : CmdWord) : Nat :=
  let n := dmRowBytes w
  if strayBits w (baseFields ++ [(11, 1), (64, 80), (192, 32)]) || cw w 96 16 = 0 || 4096 < cw w 96 16 || dmRows w = 0 || 4096 < dmRows w then 1
  else if (dmLocals w).any (fun a => !locFits false a n) || (dmClusterRows w).any (fun a => !locFits true a n || decide (a % 16 ≠ 0)) then 16
  else 0

/-- DM_LOCAL: rows between operand SRAM and cluster SRAM of the core's cluster. -/
def dmLocalCopy (p : Package) (c k : Nat) (h : Held) : CmdEnd :=
  let w := h.word
  let n := dmRowBytes w
  let rows := (dmLocals w).zip (dmClusterRows w)
  let cause := dmLocalCheck w
  if cause ≠ 0 then .fail cause
  else if dmCluster w then .done (p.each rows (fun p e => p.cluWrite c e.2 (p.opRead c k e.1 n)))
  else if (dmClusterRows w).any (fun a => p.cluPoisoned c a n) then .poisoned
  else .done ((p.each rows (fun p e => p.opWrite c k e.1 (p.cluRead c e.2 n))).mapLoad c k w)

/-! ### The output description (R233) -/

def dmOutdesc (p : Package) (c k : Nat) (x : Ctx) (h : Held) : CmdEnd :=
  let w := h.word
  let bytes := cw w 160 32
  if strayBits w (baseFields ++ [(128, 16), (160, 64)]) then .fail 1
  else match p.phaseOf x with
    | none => .fail 17
    | some ph =>
      if x.recompute || ((p.core c k).replaying && ph.out.isSome) then .done p
      else if ph.out.isSome || decide ((p.outBound x.stage ph).getD bytes < bytes) then .fail 17
      else match p.resolve x (cw w 192 32) none with
        | .bad => .fail 13
        | .waits => .wait p
        | .ok p scale _ =>
          .done (p.modStg x.stage (fun y => { y with phase := y.phase.map (fun q =>
            { q with out := some { format := cw w 128 16, bytes := bytes, scale := scale } }) }))

end Sys2Proof.Machine
end

