-- ==== Sys2Proof/Machine/Moe.lean ====
section
/-! DEFINITION. Predicates, skip bytes and expert dispatch (09_conditional_computation.md): PSET and gates (R199 to R202), SKIPGEN (R203),
dispatch tables (R205), placement (R209), the rows sent, received and returned (R210 to R212) and the log (R213, R214). -/

namespace Sys2Proof.Machine

open Sys2Proof

/-! ### PSET (R200 to R202) -/

def Core.pred (co : Core) (i : Nat) : Bool := bitAt co.preds i
def Core.setPred (co : Core) (i : Nat) (b : Bool) : Core := { co with preds := putBits co.preds i 1 (b2n b) }

/-- Address of the conditional log slot of a step and micro-batch, where a record holds one. -/
def Package.logSlot (p : Package) (s step mb : Nat) : Option Nat :=
  ((p.stg s).record step mb).map (fun r => p.rd (MOE_LOG_BASE s) + r.dirIndex * p.rd (MOE_LOG_SLOT s))

/-- The recorded gate of the running layer. -/
def Package.recordedGate (p : Package) (x : Ctx) : Bool :=
  match p.logSlot x.stage x.step x.microBatch with
  | none => false
  | some a => match p.load (a + x.layerIdx / 8) 1 with
    | .ok b => bitAt (fieldAt b 0 1) (x.layerIdx % 8)
    | _ => false

/-- Record a gate in the log (R202). -/
def Package.recordGate (p : Package) (x : Ctx) (g : Bool) : Package :=
  match p.logSlot x.stage x.step x.microBatch with
  | none => p
  | some a => match p.load (a + x.layerIdx / 8) 1 with
    | .ok b => p.tryStore (a + x.layerIdx / 8) [BitVec.ofNat 8 (putBits (fieldAt b 0 1) (x.layerIdx % 8) 1 (b2n g))]
    | _ => p

/-- The gate takes effect on a core: register 6, and on a false gate the skip of the list. -/
def Package.takeGate (p : Package) (c k : Nat) (g : Bool) : Package :=
  let p := p.modCore c k (fun co => { co.setPred 6 g with skip := !g })
  if g then p else p.bump64 MOE_GATE_SKIPS 1

def psetForm (w : CmdWord) : Nat := cw w 8 3
def isGate (w : CmdWord) : Bool := opcodeOf w = 0xA0 && psetForm w = 6

/-- The GATE form. -/
def psetGate (p : Package) (c k : Nat) (x : Ctx) (w : CmdWord) : CmdEnd :=
  if x.run.isSome then .fail 5
  else if x.dir = .bwd then .done (p.takeGate c k (p.recordedGate x))
  else
    let a := cw w 128 48
    if a % 4 ≠ 0 then .fail 3
    else match p.load (a + 4 * x.microBatch) 4 with
      | .refused => .fail 16
      | .poison => .poisoned
      | .ok b =>
        let g := decide (leNat b ≠ 0)
        .done ((p.recordGate x g).takeGate c k g)

def pset (p : Package) (c k : Nat) (x : Ctx) (h : Held) : CmdEnd :=
  let w := h.word
  let form := psetForm w
  let dst := cw w 32 4
  let co := p.core c k
  let s1 := co.pred (cw w 40 4)
  let s2 := co.pred (cw w 44 4)
  let fields := baseFields ++ [(8, 3), (32, 4)] ++ (if form = 0 then [(56, 1)] else if form = 1 || form = 2 then [(40, 4)] else if form = 3 || form = 4 then [(40, 8)]
    else if form = 5 then [(64, 16)] else [(128, 48)])
  if strayBits w fields || (form = 6 && !p.feature 11) then .fail 1
  else if form = 7 || (form = 6 && dst ≠ 6) || (form ≠ 6 && 5 < dst) then .fail 5
  else if form = 6 then psetGate p c k x w
  else if form = 5 && OP_BYTES < 16 * cw w 64 16 + 4 then .fail 3
  else
    let v := if form = 0 then decide (cw w 56 1 = 1) else if form = 1 then s1 else if form = 2 then !s1 else if form = 3 then s1 && s2
      else if form = 4 then s1 || s2 else decide (leNat (p.opRead c k (16 * cw w 64 16) 4) ≠ 0)
    .done (p.setCore c k (co.setPred dst v))

/-! ### SKIPGEN (R203) -/

/-- Row r, columns from `a` for `n`: every element is a mask bit of 0 or a value of ±0. -/
def Package.rowZero (p : Package) (c k : Nat) (w : CmdWord) (r a n : Nat) : Bool :=
  let at' := 16 * (cw w 64 16 + r * cw w 80 16)
  if cw w 8 1 = 0 then (p.opRead c k (at' + a / 8) (n / 8)).all (fun b => decide (b = 0))
  else
    let code := cw w 32 5
    match fmtOf code with
    | none => false
    | some f => (unpackCodes (bitsOfCode code) n (p.opRead c k (at' + spanOf code a) (spanOf code n))).all (fun v => (f.decode v).isZero)

def skipTiles (w : CmdWord) : Nat := cw w 112 16
def skipCols (w : CmdWord) : Nat := cw w 128 16
def skipSlices (w : CmdWord) : Nat := cw w 144 16

/-- The checks of a SKIPGEN; 0 when they pass. -/
def Package.skipCheck (p : Package) (w : CmdWord) : Nat :=
  let kind := cw w 8 1
  let fmt := cw w 32 5
  let cols := skipCols w
  let slices := skipSlices w
  let tiles := skipTiles w
  let rowBytes := if kind = 0 then cols * slices / 8 else spanOf fmt (cols * slices)
  if strayBits w (baseFields ++ [(8, 1), (64, 96)] ++ (if kind = 1 then [(32, 5)] else [])) || (kind = 0 && !p.feature 7)
      || (kind = 1 && fmt ≠ 0 && fmt ≠ 1 && fmt ≠ 5 && fmt ≠ 0x10) then 1
  else if cols = 0 || cols % 32 ≠ 0 || tiles = 0 || 64 < tiles || slices = 0 || 16 < slices || OP_BYTES < 16 * cw w 96 16 + tiles * slices
      || (List.range (32 * tiles)).any (fun r => OP_BYTES < 16 * (cw w 64 16 + r * cw w 80 16) + rowBytes) then 3
  else 0

/-- The skip bytes: for each tile and slice, bit b where the block of eight rows b of the tile is all zero in the slice. -/
def Package.skipBytes (p : Package) (c k : Nat) (w : CmdWord) : List Nat :=
  (List.range (skipTiles w)).flatMap (fun t => (List.range (skipSlices w)).map (fun s =>
    maskOf ((List.range 4).filter (fun b => (List.range 8).all (fun i => p.rowZero c k w (32 * t + 8 * b + i) (s * skipCols w) (skipCols w))))))

def skipgen (p : Package) (c k : Nat) (h : Held) : CmdEnd :=
  let w := h.word
  let cause := p.skipCheck w
  if cause ≠ 0 then .fail cause
  else
    let bytes := p.skipBytes c k w
    .done ((p.opWrite c k (16 * cw w 96 16) (bytes.map (BitVec.ofNat 8))).bump64 MOE_SKIPGEN_BLOCKS (bytes.map (fun b => (bitsSet 4 b).length)).sum)

/-! ### Dispatch tables (R205, Tables 9-2 and 9-3) -/

structure MoeTable where
  experts : Nat
  kRoute : Nat
  rowFmt : Nat
  rowElems : Nat
  retFmt : Nat
  tokensMax : Nat
  logOffset : Nat
  logBytes : Nat
  addr : Nat
deriving DecidableEq, Repr

structure Expert where
  capacity : Nat
  owned : Bool
  remote : Bool
  sender : Nat
  senders : Nat
  node : Nat
  recv : Nat
  rankFirst : Nat
  rankCount : Nat
  links : Nat
  destStage : Nat
deriving DecidableEq, Repr

def MoeTable.rowStride (t : MoeTable) : Nat := roundUp (spanOf t.rowFmt t.rowElems) 64
def MoeTable.retStride (t : MoeTable) : Nat := roundUp (spanOf t.retFmt t.rowElems) 64

def Package.moeTable (p : Package) (t : Nat) : Option MoeTable :=
  if p.rd MOE_TDIR_COUNT ≤ t then none
  else match p.load (p.rd MOE_TDIR_BASE + 8 * t) 8 with
    | .ok d =>
      let a := bitsOf (leNat d) 6 42 * 64
      match p.load a 64 with
      | .ok b => some { experts := fieldAt b 0 2, kRoute := fieldAt b 2 1, rowFmt := fieldAt b 3 1, rowElems := fieldAt b 4 2, retFmt := fieldAt b 6 1,
                        tokensMax := fieldAt b 8 4, logOffset := fieldAt b 16 4, logBytes := fieldAt b 20 4, addr := a }
      | _ => none
    | _ => none

def Package.expertBytes (p : Package) (t : MoeTable) (e : Nat) : List Byte :=
  match p.load (t.addr + 64 + 32 * e) 32 with
  | .ok b => b
  | _ => []

def Package.expert (p : Package) (t : MoeTable) (e : Nat) : Expert :=
  let b := p.expertBytes t e
  { capacity := fieldAt b 0 2, owned := bitAt (fieldAt b 2 1) 0, remote := bitAt (fieldAt b 2 1) 1, sender := fieldAt b 3 1, senders := fieldAt b 4 2,
    node := fieldAt b 6 2 % 2 ^ 12, recv := bitsOf (fieldAt b 8 8) 6 42 * 64, rankFirst := fieldAt b 16 2, rankCount := fieldAt b 18 2,
    links := fieldAt b 20 4 % 2 ^ 24, destStage := fieldAt b 24 1 % 32 }

/-- The check of a table at its first use by a phase of a stage. -/
def Package.tableOk (p : Package) (s ti : Nat) : Bool :=
  match p.moeTable ti with
  | none => false
  | some t =>
    let hb := p.bytesAt t.addr 64
    decide (1 ≤ t.experts) && decide (t.experts ≤ 256) && decide (1 ≤ t.kRoute) && decide (t.kRoute ≤ 3)
      && [0x00, 0x01, 0x05, 0x10].contains t.rowFmt && [0x05, 0x10].contains t.retFmt
      && decide (t.logOffset + t.logBytes ≤ p.rd (MOE_LOG_SLOT s))
      && zerosAt hb 7 1 && zerosAt hb 12 4 && zerosAt hb 24 40
      && (List.range t.experts).all (fun e =>
        let x := p.expert t e
        let b := p.expertBytes t e
        b.length = 32 && decide (x.capacity % 8 = 0) && (!x.owned || decide (x.senders * x.capacity ≤ 8192))
          && decide (fieldAt b 2 1 < 4) && decide (fieldAt b 6 2 < 2 ^ 12) && decide (fieldAt b 20 4 < 2 ^ 24) && decide (fieldAt b 24 1 / 32 = 0) && zerosAt b 25 7)

/-- `MOE_LAST` of an event. -/
def Package.moeLast (p : Package) (ev table expert stage node step : Nat) : Package :=
  p.wr MOE_LAST (ev % 16 + 2 ^ 4 * (table % 64) + 2 ^ 10 * (expert % 256) + 2 ^ 18 * (stage % 32) + 2 ^ 24 * (node % 2 ^ 12) + 2 ^ 40 * (step % 2 ^ 24))

/-- A table fails its check: the event, and the stage is HELD with cause 1 until it is disabled and enabled again. -/
def Package.badTable (p : Package) (x : Ctx) (ti : Nat) : Package :=
  let p := (p.moeLast 4 ti 0 x.stage p.node x.step).raise .moe EV_MOE_TABLE_INVALID x.step (arg1Of x.stage ti)
  ((p.stopCores x.stage).abandon x.stage).holdStage x.stage 1

/-- Clock at which the phase of a context started. -/
def Package.startOf (p : Package) (x : Ctx) : Nat := match p.phaseOf x with
  | some ph => ph.startAt
  | none => 0

/-- Every dispatch command first checks its opcode's feature and its table: the table, a failed check, or a command error. -/
inductive TableEnd where
  | ok (p : Package) (t : MoeTable)
  | held (p : Package)
  | fail (cause : Nat)
deriving DecidableEq

def Package.useTable (p : Package) (x : Ctx) (w : CmdWord) (fields : List (Nat × Nat)) : TableEnd :=
  let ti := cw w 32 6
  if strayBits w (baseFields ++ [(32, 6)] ++ fields) || !p.feature 10 then .fail 1
  else if x.run.isSome then .fail 5
  else
    let key := (x.stage, ti, p.startOf x)
    if p.moe.checked.contains key then
      (match p.moeTable ti with
       | some t => .ok p t
       | none => .held (p.badTable x ti))
    else if !p.tableOk x.stage ti then .held (p.badTable x ti)
    else match p.moeTable ti with
      | some t => .ok { p with moe := { p.moe with checked := key :: p.moe.checked } } t
      | none => .held (p.badTable x ti)

/-! ### Routings of a phase -/

def Package.moeRoute (p : Package) (key : Nat × Nat × Nat) : MoeRoute :=
  match p.moe.routes.find? (fun r => r.1 = key) with
  | some r => r.2
  | none => {}

def Package.setMoeRoute (p : Package) (key : Nat × Nat × Nat) (r : MoeRoute) : Package :=
  let l := p.moe.routes
  { p with moe := { p.moe with routes := if l.any (fun e => e.1 = key) then l.map (fun e => if e.1 = key then (key, r) else e) else l ++ [(key, r)] } }

/-- `MOE_STATUS.BUSY`: the dies whose unit has a routing without placement, or a core that waits, in a running phase of a stage that lives
there. -/
def Package.moeBusy (p : Package) : Nat :=
  let busy := allStages.filter (fun s => match (p.stg s).phase with
    | none => false
    | some ph => p.moe.routes.any (fun r => r.1.1 = s && !r.2.placed && decide (r.1.2.2 = ph.startAt))
        || (p.stageCores s).any (fun e => match (p.core e.1 e.2).seq with
          | some h => h.since.isSome
          | none => false))
  maskOf ((List.range 8).filter (fun d => busy.any (fun s => p.get (STG_STATUS_HOME_DIE s) = d)))

/-! ### Choices and placements (R207, R209) -/

def roCount (w : CmdWord) : Nat := cw w 96 16
def roBase (w : CmdWord) : Nat := cw w 112 16
def roChoices (w : CmdWord) : Nat := 16 * cw w 64 16
def roPlace (w : CmdWord) : Nat := 16 * cw w 80 16
def roAddr (w : CmdWord) : Nat := cw w 128 48
def roRet (w : CmdWord) : Nat := cw w 192 48

/-- Choice entry i of a core's list: expert indices and weights. -/
def Package.choice (p : Package) (c k a i : Nat) : List Nat × List Nat :=
  let b := p.opRead c k (a + 32 * i) 32
  ((List.range 4).map (fun r => fieldAt b (2 * r) 2), (List.range 4).map (fun r => fieldAt b (8 + 4 * r) 4))

/-- A token with the experts of its choice ranks. -/
structure TokenChoice where
  token : Nat
  experts : List Nat
deriving DecidableEq, Repr

/-- What placement knows while it runs. -/
structure PlaceSt where
  used : List (Nat × Nat) := []
  places : List Placement := []
  overflow : List (Nat × Nat) := []
  badChoices : Nat := 0
deriving DecidableEq, Repr

def PlaceSt.place (st : PlaceSt) (t j e : Nat) (re : Bool) : PlaceSt :=
  let n := mapGet 0 st.used e
  { st with used := mapSet 0 st.used e (n + 1),
            places := st.places ++ [{ token := t, rank := j, expert := e, pos := n, placed := true, rerouted := re, dropped := false, last := re }] }

def PlaceSt.drop (st : PlaceSt) (t j e : Nat) : PlaceSt :=
  { st with places := st.places ++ [{ token := t, rank := j, expert := e, pos := 0, placed := false, rerouted := false, dropped := true, last := false }] }

def PlaceSt.holds (st : PlaceSt) (t e : Nat) : Bool := st.places.any (fun q => q.token = t && q.placed && q.expert = e)

/-- Pass 1 on one rank of one token. -/
def pass1 (experts : Nat) (cap : Nat → Nat) (st : PlaceSt) (t j e : Nat) : PlaceSt :=
  if e = 0xFFFF then st.drop t j e
  else if experts ≤ e then { st.drop t j e with badChoices := st.badChoices + 1 }
  else if mapGet 0 st.used e < cap e && !st.holds t e then st.place t j e false
  else { st with overflow := st.overflow ++ [(t, j)] }

/-- Pass 2 on one overflowed placement; `first`: it is its token's first. -/
def pass2 (experts : Nat) (cap : Nat → Nat) (st : PlaceSt) (t j e n : Nat) (first : Bool) : PlaceSt :=
  if !first || n = 0xFFFF || experts ≤ n then st.drop t j e
  else if mapGet 0 st.used n < cap n && !st.holds t n then st.place t j n true
  else st.drop t j n

/-- Placement over all tokens, in ascending order. -/
def placeAll (experts kRoute : Nat) (cap : Nat → Nat) (ts : List TokenChoice) : PlaceSt :=
  let st := ts.foldl (fun st t => (List.range kRoute).foldl (fun st j => pass1 experts cap st t.token j (listAt 0xFFFF t.experts j)) st) {}
  st.overflow.mapIdx (fun i o => (i, o)) |>.foldl (fun a io =>
    let o := io.2
    let es := ((ts.find? (fun t => t.token = o.1)).map (·.experts)).getD []
    let first := !((st.overflow.take io.1).any (fun q => q.1 = o.1))
    pass2 experts cap a o.1 o.2 (listAt 0xFFFF es o.2) (listAt 0xFFFF es kRoute) first) st

/-- The 4-byte entry of a placement (Table 9-5). -/
def Placement.word (q : Placement) : Nat :=
  q.expert % 256 + 2 ^ 8 * (q.pos % 2 ^ 16) + 2 ^ 24 * b2n q.placed + 2 ^ 25 * b2n q.rerouted + 2 ^ 26 * b2n q.dropped + 2 ^ 27 * b2n q.missing
    + 2 ^ 28 * b2n q.last

def placementOf (t j v : Nat) : Placement :=
  { token := t, rank := j, expert := bitsOf v 0 8, pos := bitsOf v 8 16, placed := bitAt v 24, rerouted := bitAt v 25, dropped := bitAt v 26,
    missing := bitAt v 27, last := bitAt v 28 }

/-- The entry of token t and rank j among placements. -/
def entryAt (ps : List Placement) (t j : Nat) : Nat := match ps.find? (fun q => q.token = t && q.rank = j) with
  | some q => q.word
  | none => 0

/-- Bytes of the placement list of tokens `base` to `base + n − 1`. -/
def placeBytes (kRoute : Nat) (ps : List Placement) (base n : Nat) : List Byte :=
  (List.range n).flatMap (fun i => (List.range kRoute).flatMap (fun j => leBytes 4 (entryAt ps (base + i) j)))

/-! ### The log (R214) -/

/-- Addresses of the placement list, of the returned rows and of an owned expert's received rows in a log section. -/
def MoeTable.logReturns (t : MoeTable) : Nat := roundUp (t.tokensMax * t.kRoute * 4) 64
def Package.logReceived (p : Package) (t : MoeTable) (e : Nat) : Nat :=
  t.logReturns + roundUp (t.tokensMax * t.kRoute * t.retStride) 64
    + ((List.range e).map (fun i => let x := p.expert t i
                                    if x.owned then roundUp (x.senders * x.capacity * t.rowStride) 64 else 0)).sum

def Package.moeLog (p : Package) (t : MoeTable) (s step mb : Nat) : Option Nat := (p.logSlot s step mb).map (· + t.logOffset)

/-- Write bytes into the log section at an offset, where the phase has one. -/
def Package.logWrite (p : Package) (t : MoeTable) (s step mb ofs : Nat) (bs : List Byte) : Package :=
  match p.moeLog t s step mb with
  | some a => p.tryStore (a + ofs) bs
  | none => p

def Package.logRead (p : Package) (t : MoeTable) (s step mb ofs n : Nat) : List Byte :=
  match p.moeLog t s step mb with
  | some a => (match p.load (a + ofs) n with
    | .ok b => b
    | _ => List.replicate n 0)
  | none => List.replicate n 0

/-- The logged placements of tokens. -/
def Package.loggedPlaces (p : Package) (t : MoeTable) (s step mb base n : Nat) : List Placement :=
  (List.range n).flatMap (fun i => (List.range t.kRoute).map (fun j =>
    placementOf (base + i) j (leNat (p.logRead t s step mb (4 * ((base + i) * t.kRoute + j)) 4))))

/-! ### Rows (R210, R212) -/

/-- Offset of a half of a receive or return buffer: the second half in backward phases. -/
def halfOf (d : Dir) (bytes : Nat) : Nat := match d with
  | .fwd => 0
  | .bwd => bytes

/-- A row scaled by a weight in FP32 and rounded to its format. -/
def weighRow (code n weight : Nat) (bs : List Byte) : List Byte :=
  match fmtOf code with
  | none => bs
  | some f => packCodes (bitsOfCode code) ((unpackCodes (bitsOfCode code) n bs).map (fun v => f.round (f32 (r32 ((f.decode v).mul (f32 weight))))))

/-- Stack bytes, zeros where they cannot be read. -/
def Package.stackBytes (p : Package) (a n : Nat) : List Byte := match p.load a n with
  | .ok b => b
  | _ => List.replicate n 0

/-- Discard late rows (R211, R212). -/
def Package.lateDiscard (p : Package) (table expert stage node step n : Nat) : Package :=
  (p.bump64 MOE_LATE_DISCARD n).moeLast 5 table expert stage node step

/-- A core of the stage waits on an expert with MOE_WAIT for the running phase, under another table or for another phase than the header's. -/
def Package.orderMismatch (p : Package) (h : MoeHeader) : Bool :=
  (p.stageCores h.stage).any (fun e => match (p.core e.1 e.2).seq, p.ctx e.1 e.2 with
    | some q, some x => q.since.isSome && opcodeOf q.word = 0xA5 && cw q.word 40 8 = h.expert
        && (decide (cw q.word 32 6 ≠ h.table) || decide (x.step ≠ h.step) || decide (x.microBatch ≠ h.microBatch) || decide (x.dir ≠ h.dir))
    | _, _ => false)

/-- `MOE_ORDER_MISMATCH`: the stage is HELD with cause 4. -/
def Package.mismatch (p : Package) (h : MoeHeader) : Package :=
  let p := (p.moeLast 3 h.table h.expert h.stage h.src.node h.step).raise .moe EV_MOE_ORDER_MISMATCH h.step (arg1Of h.stage h.table)
  (p.stopCores h.stage).holdStage h.stage 4

/-- A header and its rows arrive at the owner (R210, R211, R214). -/
def Package.moeArrive (p : Package) (h : MoeHeader) (rows : List Byte) : Package :=
  let gone := p.moe.missing.any (fun m => m.stage = h.stage && m.table = h.table && m.expert = h.expert && m.sender = some h.sender && m.step = h.step
    && m.microBatch = h.microBatch && m.dir = h.dir)
  if gone then p.lateDiscard h.table h.expert h.stage h.src.node h.step h.count
  else match p.moeTable h.table with
    | none => p
    | some t =>
      let x := p.expert t h.expert
      let region := h.sender * x.capacity * t.rowStride
      let a := x.recv + halfOf h.dir (x.senders * x.capacity * t.rowStride) + region
      let pad := List.replicate ((roundUp h.count 8 - h.count) * t.rowStride) (0 : Byte)
      let p := p.tryStoreBy (if h.src.node = p.node then p.get (STG_STATUS_HOME_DIE h.src.stage) else 8) a (rows.take (h.count * t.rowStride) ++ pad)
      let p := if h.dir = .fwd then p.logWrite t h.stage h.step h.microBatch (p.logReceived t h.expert + region) (rows ++ pad) else p
      let keep := p.moe.headers.filter (fun q => !(q.stage = h.stage && q.table = h.table && q.expert = h.expert && q.sender = h.sender))
      let p := { p with moe := { p.moe with headers := keep ++ [h] } }
      if p.orderMismatch h then p.mismatch h else p

/-- Kinds of the fields of dispatch messages: 1 rows and header to an owner, 2 rows returned to a sender. -/
def moeHeaderMsg (h : MoeHeader) (rows : List Byte) : MsgBody :=
  .fields 1 [h.stage, h.table, h.expert, h.sender, h.step, h.microBatch, qIndex h.dir, h.count, h.src.stage, h.src.route] rows

def moeReturnMsg (stage table expert step mb : Nat) (d : Dir) (rows : List Byte) : MsgBody :=
  .fields 2 [stage, table, expert, step, mb, qIndex d] rows

/-- Send an expert's rows and header (R210). -/
def Package.sendExpert (p : Package) (x : Ctx) (ti : Nat) (t : MoeTable) (e : Nat) (rows : List (List Byte)) : Package :=
  let ex := p.expert t e
  let data := rows.flatMap (fun r => r ++ List.replicate (t.rowStride - r.length) (0 : Byte))
  let route := if ex.owned then 0 else if ex.remote then 2 else 1
  let h : MoeHeader := { stage := if ex.owned then x.stage else ex.destStage, table := ti, expert := e, sender := ex.sender, step := x.step,
                         microBatch := x.microBatch, dir := x.dir, count := rows.length,
                         src := { node := p.node, stage := x.stage, chan := 0, route := route } }
  if ex.owned then p.moeArrive h data
  else if ex.remote then p.sendMask ex.links ex.node CLS_STAGE data.length (moeHeaderMsg h data)
  else p.sendInside CLS_STAGE data.length (moeHeaderMsg h data)

/-- The row of a token that its core's MOE_ROUTE names, weighted in a weighted backward. -/
def Package.rowFor (p : Package) (x : Ctx) (t : MoeTable) (iss : RouteIssue) (q : Placement) : List Byte :=
  let n := spanOf t.rowFmt t.rowElems
  let row := p.stackBytes (roAddr iss.word + q.token * t.rowStride) n
  if x.dir = .bwd && bitAt iss.word.toNat 8 then
    let ws := (p.choice iss.cluster iss.core (roChoices iss.word) (q.token - iss.base)).2
    weighRow t.rowFmt t.rowElems (listAt 0 ws (if q.last then t.kRoute else q.rank)) row
  else row

def RouteIssue.has (i : RouteIssue) (t : Nat) : Bool := decide (i.base ≤ t) && decide (t < i.base + i.tokens)

/-- Send every expert its placed rows in position order, and its header. -/
def Package.sendPlaced (p : Package) (x : Ctx) (ti : Nat) (t : MoeTable) (r : MoeRoute) : Package :=
  p.each (List.range t.experts) (fun p e =>
    let qs := (r.places.filter (fun q => q.placed && q.expert = e)).mergeSort (fun a b => decide (a.pos ≤ b.pos))
    let rows := qs.map (fun q => match r.issues.find? (fun i => i.has q.token) with
      | some i => p.rowFor x t i q
      | none => [])
    p.sendExpert x ti t e rows)

/-! ### MOE_ROUTE and placement (R209, R210, R213) -/

/-- Fields of MOE_ROUTE and MOE_COMBINE. -/
def routeFields : List (Nat × Nat) := [(8, 1), (64, 64), (128, 48), (192, 48)]

/-- Every core of the stage has issued the table's MOE_ROUTE in the phase. -/
def Package.allIssued (p : Package) (s : Nat) (r : MoeRoute) : Bool :=
  (p.stageCores s).all (fun e => r.issues.any (fun i => i.cluster = e.1 && i.core = e.2))

/-- Write a core's part of the placement list. -/
def Package.writePlaces (p : Package) (t : MoeTable) (r : MoeRoute) (i : RouteIssue) : Package :=
  p.opWrite i.cluster i.core (roPlace i.word) (placeBytes t.kRoute r.places i.base i.tokens)

/-- Restore a core's returned rows from the log into the first half of its return buffer (R213). -/
def Package.restoreReturns (p : Package) (x : Ctx) (t : MoeTable) (i : RouteIssue) : Package :=
  let o := i.base * t.kRoute * t.retStride
  let n := i.tokens * t.kRoute * t.retStride
  p.tryStore (roRet i.word + o) (p.logRead t x.stage x.step x.microBatch (t.logReturns + o) n)

/-- The entry of a core's MOE_ROUTE in its table's routing; a core that issues again replaces its own. -/
def routeIssue (c k : Nat) (w : CmdWord) : RouteIssue := { cluster := c, core := k, word := w, base := roBase w, tokens := roCount w }
def MoeRoute.join (r : MoeRoute) (i : RouteIssue) : MoeRoute :=
  { r with issues := if r.issues.any (fun q => q.cluster = i.cluster && q.core = i.core)
                     then r.issues.map (fun q => if q.cluster = i.cluster && q.core = i.core then i else q) else r.issues ++ [i] }

/-- Address of a core's rows. -/
def routeAt (t : MoeTable) (w : CmdWord) : Nat := roAddr w + roBase w * t.rowStride

/-- The checks of a MOE_ROUTE after its table's; 0 when they pass. -/
def Package.routeCheck (p : Package) (t : MoeTable) (w : CmdWord) : Nat :=
  let n := roCount w
  if 1024 < n then 5
  else if OP_BYTES < roChoices w + 32 * n || OP_BYTES < roPlace w + 4 * t.kRoute * n || roAddr w % 64 ≠ 0 || roRet w % 64 ≠ 0 then 3
  else if 0 < n && !p.rangeOk (routeAt t w) (n * t.rowStride) then 16
  else 0

/-- A row of a core's tokens holds poison. -/
def Package.routePoison (p : Package) (t : MoeTable) (w : CmdWord) : Bool :=
  0 < roCount w && p.rangePoisoned (routeAt t w) (roCount w * t.rowStride)

/-- A MOE_ROUTE of a backward phase: placements and returned rows come from the log; the last core to issue sends the rows. -/
def Package.routeBack (p : Package) (c k : Nat) (x : Ctx) (t : MoeTable) (r : MoeRoute) (w : CmdWord) : Package :=
  let i := routeIssue c k w
  let ti := cw w 32 6
  let ps := p.loggedPlaces t x.stage x.step x.microBatch i.base i.tokens
  let r := { r with places := r.places.filter (fun q => !i.has q.token) ++ ps }
  let p := ((p.countReadBy (c / 72) (routeAt t w) (roCount w * t.rowStride)).opWrite c k (roPlace w) (placeBytes t.kRoute ps i.base i.tokens)).restoreReturns x t i
  let all := p.allIssued x.stage r
  let p := p.setMoeRoute (x.stage, ti, p.startOf x) { r with placed := all }
  if all then p.sendPlaced x ti t r else p

def moeRouteCmd (p : Package) (c k : Nat) (x : Ctx) (h : Held) : CmdEnd :=
  let w := h.word
  match p.useTable x w routeFields with
  | .fail n => .fail n
  | .held p => .wait p
  | .ok p t =>
    let key := (x.stage, cw w 32 6, p.startOf x)
    let cause := p.routeCheck t w
    if cause ≠ 0 then .fail cause
    else if p.routePoison t w then .poisoned
    else
      let i := routeIssue c k w
      let r := (p.moeRoute key).join i
      if r.placed && (p.core c k).replaying then .done (p.writePlaces t r i)
      else if x.recompute then
        .done (p.opWrite c k (roPlace w) (placeBytes t.kRoute (p.loggedPlaces t x.stage x.step x.microBatch i.base i.tokens) i.base i.tokens))
      else if x.dir = .bwd then .done (p.routeBack c k x t r w)
      else .wait ((p.countReadBy (c / 72) (routeAt t w) (roCount w * t.rowStride)).setMoeRoute key r)

/-- The core ranges of a routing are disjoint and below TOKENS_MAX. -/
def rangesOk (tokensMax : Nat) (l : List RouteIssue) : Bool :=
  l.all (fun i => decide (i.base + i.tokens ≤ tokensMax))
    && (List.range l.length).all (fun a => (List.range a).all (fun b => match l[a]?, l[b]? with
      | some i, some j => !overlaps i.base i.tokens j.base j.tokens
      | _, _ => true))

/-- The tokens of a routing with their choices, ascending. -/
def Package.tokensOf (p : Package) (r : MoeRoute) : List TokenChoice :=
  ((r.issues.filter (fun i => 0 < i.tokens)).mergeSort (fun a b => decide (a.base ≤ b.base))).flatMap (fun i =>
    (List.range i.tokens).map (fun n => { token := i.base + n, experts := (p.choice i.cluster i.core (roChoices i.word) n).1 }))

/-- The unit places a routing's tokens, writes the lists and the log and sends the rows. -/
def Package.placeTokens (p : Package) (x : Ctx) (ti : Nat) (t : MoeTable) (r : MoeRoute) : Package :=
  let st := placeAll t.experts t.kRoute (fun e => (p.expert t e).capacity) (p.tokensOf r)
  let placed := (st.places.filter (·.placed)).length
  let re := (st.places.filter (·.rerouted)).length
  let lost := st.overflow.length - re
  let p := (((p.bump64 MOE_TOKENS placed).bump64 MOE_REROUTED re).bump64 MOE_OVERFLOW lost).bump64 MOE_BAD_CHOICE st.badChoices
  let r := { r with placed := true, places := st.places }
  let p := p.each r.issues (fun p i => (p.writePlaces t r i).logWrite t x.stage x.step x.microBatch (4 * i.base * t.kRoute)
    (placeBytes t.kRoute r.places i.base i.tokens))
  let p := p.setMoeRoute (x.stage, ti, p.startOf x) r
  p.sendPlaced x ti t r

/-! ### MOE_WAIT (R211, R213) -/

/-- Headers of an expert for a context. -/
def Package.headersFor (p : Package) (x : Ctx) (ti e : Nat) : List MoeHeader :=
  p.moe.headers.filter (fun h => h.stage = x.stage && h.table = ti && h.expert = e && h.step = x.step && h.microBatch = x.microBatch && h.dir = x.dir)

/-- Senders of an expert still to come: neither arrived nor given up. -/
def Package.sendersOwed (p : Package) (x : Ctx) (ti : Nat) (ex : Expert) (e : Nat) : List Nat :=
  let hs := p.headersFor x ti e
  (List.range ex.senders).filter (fun j => !hs.any (fun h => h.sender = j)
    && !p.moe.missing.any (fun m => m.stage = x.stage && m.table = ti && m.expert = e && m.sender = some j && m.step = x.step && m.microBatch = x.microBatch
      && m.dir = x.dir))

/-- Rows that each sender of an expert has delivered. -/
def Package.senderCounts (p : Package) (x : Ctx) (ti : Nat) (ex : Expert) (e : Nat) : List Nat :=
  (List.range ex.senders).map (fun j => match (p.headersFor x ti e).find? (fun h => h.sender = j) with
    | some h => h.count
    | none => 0)

/-- Skip bytes over the tiles of a receive half: a block of eight rows wholly beyond its sender's count is marked. -/
def skipBytesFor (cap : Nat) (counts : List Nat) : List Byte :=
  let rows := cap * counts.length
  (List.range ((rows + 31) / 32)).map (fun t =>
    BitVec.ofNat 8 (maskOf ((List.range 4).filter (fun b =>
      let r := 32 * t + 8 * b
      decide (rows ≤ r) || decide (listAt 0 counts (r / max cap 1) ≤ r % max cap 1)))))

/-- Write the result of a wait: skip bytes, PDST, and the restored rows of a backward or recompute. -/
def Package.waitResult (p : Package) (c k : Nat) (x : Ctx) (w : CmdWord) (t : MoeTable) (ex : Expert) (e : Nat) (counts : List Nat) : Package :=
  let n := ex.senders * ex.capacity * t.rowStride
  let p := if x.dir = .bwd || x.recompute then p.tryStore ex.recv (p.logRead t x.stage x.step x.microBatch (p.logReceived t e) n) else p
  let p := p.opWrite c k (16 * cw w 64 16) (skipBytesFor ex.capacity counts)
  p.modCore c k (fun co => co.setPred (cw w 56 3) (counts.any (fun v => 0 < v)))

/-- Sender counts that the forward of a context recorded. -/
def Package.forwardCounts (p : Package) (x : Ctx) (ti e : Nat) : List Nat :=
  match p.moe.counts.find? (fun r => r.1 = (x.stage, x.step, x.microBatch, ti, e)) with
  | some r => r.2
  | none => []

/-- Keep the counts of a forward while its record lives. -/
def Package.keepCounts (p : Package) (x : Ctx) (ti e : Nat) (counts : List Nat) : Package :=
  if x.dir = .bwd then p
  else
    let key := (x.stage, x.step, x.microBatch, ti, e)
    let l := p.moe.counts.filter (fun r => r.1 ≠ key && ((p.stg r.1.1).record r.1.2.1 r.1.2.2.1).isSome)
    { p with moe := { p.moe with counts := l ++ [(key, counts)] } }

/-- Mark an expert's headers as taken. -/
def Package.takeHeaders (p : Package) (x : Ctx) (ti e : Nat) : Package :=
  { p with moe := { p.moe with headers := p.moe.headers.map (fun h =>
      if h.stage = x.stage && h.table = ti && h.expert = e then { h with used := true } else h) } }

/-- A wait whose senders have all come or been given up: its effect, none while one is owed. -/
def Package.waitDone (p : Package) (c k : Nat) (x : Ctx) (w : CmdWord) : Option Package :=
  let ti := cw w 32 6
  let e := cw w 40 8
  match p.moeTable ti with
  | none => none
  | some t =>
    let ex := p.expert t e
    if x.recompute then some (p.waitResult c k x w t ex e (p.forwardCounts x ti e))
    else if !(p.sendersOwed x ti ex e).isEmpty then none
    else
      let counts := p.senderCounts x ti ex e
      some (((p.waitResult c k x w t ex e counts).keepCounts x ti e counts).takeHeaders x ti e)

/-- The checks of a MOE_WAIT after its table's; 0 when they pass. -/
def Package.waitCheck (p : Package) (x : Ctx) (t : MoeTable) (w : CmdWord) : Nat :=
  let e := cw w 40 8
  let ex := p.expert t e
  if t.experts ≤ e || !ex.owned || x.rank < ex.rankFirst || ex.rankFirst + ex.rankCount ≤ x.rank || 5 < cw w 56 3 then 5
  else if OP_BYTES < 16 * cw w 64 16 + (ex.senders * ex.capacity + 31) / 32 then 3
  else 0

/-- A header that waits for the expert under another table or for another phase. -/
def Package.waitClash (p : Package) (x : Ctx) (w : CmdWord) : Option MoeHeader :=
  p.moe.headers.find? (fun q => q.stage = x.stage && q.expert = cw w 40 8 && !q.used
    && (decide (q.table ≠ cw w 32 6) || decide (q.step ≠ x.step) || decide (q.microBatch ≠ x.microBatch) || decide (q.dir ≠ x.dir)))

def moeWaitCmd (p : Package) (c k : Nat) (x : Ctx) (h : Held) : CmdEnd :=
  let w := h.word
  match p.useTable x w [(40, 8), (56, 3), (64, 16)] with
  | .fail n => .fail n
  | .held p => .wait p
  | .ok p t =>
    let cause := p.waitCheck x t w
    if cause ≠ 0 then .fail cause
    else if x.recompute || (p.core c k).replaying then
      (match p.waitDone c k x w with
       | some q => .done q
       | none => .wait p)
    else
      match p.waitClash x w with
      | some q => .wait (p.mismatch q)
      | none => .wait p

/-- The deadline of a wait passes: every owed sender is missing (R211, R212). -/
def Package.giveUpSenders (p : Package) (x : Ctx) (w : CmdWord) : Package :=
  let ti := cw w 32 6
  let e := cw w 40 8
  match p.moeTable ti with
  | none => p
  | some t =>
    let owed := p.sendersOwed x ti (p.expert t e) e
    let p := p.each owed (fun p j =>
      let m : MoeMissing := { stage := x.stage, table := ti, expert := e, sender := some j, step := x.step, microBatch := x.microBatch, dir := x.dir }
      let p := { p with moe := { p.moe with missing := p.moe.missing ++ [m] } }
      ((p.bump64 MOE_SENDER_MISSING_COUNT 1).moeLast 1 ti e x.stage p.node x.step).raise .moe EV_MOE_SENDER_MISSING x.step (arg1Of x.stage j))
    if owed.isEmpty || p.get MOE_CFG_MISSING_ACTION = 0 then p
    else { p with num := { p.num with nonfinite := if p.num.nonfinite.contains x.step then p.num.nonfinite else p.num.nonfinite ++ [x.step] } }

/-! ### MOE_RETURN (R212) -/

/-- Send one sender's rows back. -/
def Package.sendReturn (p : Package) (x : Ctx) (ti e : Nat) (t : MoeTable) (ex : Expert) (out : Nat) (h : MoeHeader) : Package :=
  let rows := p.stackBytes (out + h.sender * ex.capacity * t.retStride) (h.count * t.retStride)
  let body := moeReturnMsg h.src.stage ti e x.step x.microBatch x.dir rows
  if h.src.route = 2 then p.sendRoute h.src.node CLS_STAGE rows.length body else p.sendInside CLS_STAGE rows.length body

/-- Bytes of an expert's outputs. -/
def Package.returnBytes (p : Package) (t : MoeTable) (w : CmdWord) : Nat :=
  let ex := p.expert t (cw w 40 8)
  ex.senders * ex.capacity * t.retStride

/-- The checks of a MOE_RETURN after its table's; 0 when they pass. -/
def Package.returnCheck (p : Package) (t : MoeTable) (w : CmdWord) : Nat :=
  if t.experts ≤ cw w 40 8 || !(p.expert t (cw w 40 8)).owned then 5
  else if roAddr w % 64 ≠ 0 then 3
  else if !p.rangeOk (roAddr w) (p.returnBytes t w) then 16
  else 0

/-- An expert's results go back to its senders, once in a phase. -/
def Package.returnRun (p : Package) (x : Ctx) (t : MoeTable) (w : CmdWord) : Package :=
  let ti := cw w 32 6
  let e := cw w 40 8
  let ex := p.expert t e
  let p := { p with moe := { p.moe with sent := (x.stage, ti, e, p.startOf x) :: p.moe.sent } }
  (p.countReadBy (p.get (STG_STATUS_HOME_DIE x.stage)) (roAddr w) (p.returnBytes t w)).each ((p.headersFor x ti e).filter (fun q => 0 < q.count))
    (fun p q => p.sendReturn x ti e t ex (roAddr w) q)

def moeReturnCmd (p : Package) (x : Ctx) (h : Held) : CmdEnd :=
  let w := h.word
  match p.useTable x w [(40, 8), (128, 48)] with
  | .fail n => .fail n
  | .held p => .wait p
  | .ok p t =>
    let cause := p.returnCheck t w
    if cause ≠ 0 then .fail cause
    else if p.rangePoisoned (roAddr w) (p.returnBytes t w) then .poisoned
    else if x.recompute || p.moe.sent.contains (x.stage, cw w 32 6, cw w 40 8, p.startOf x) then .done p
    else .done (p.returnRun x t w)

/-- A returned result arrives at its sender (R212, R214). -/
def Package.returnArrive (p : Package) (s ti e step mb : Nat) (d : Dir) (rows : List Byte) : Package :=
  match (p.stg s).phase, p.moeTable ti with
  | some ph, some t =>
    let key := (s, ti, ph.startAt)
    let r := p.moeRoute key
    let count := rows.length / max 1 t.retStride
    if ph.step ≠ step || ph.microBatch ≠ mb || ph.dir ≠ d || r.missing.contains e then p.lateDiscard ti e s p.node step count
    else
      let half := halfOf d (t.tokensMax * t.kRoute * t.retStride)
      let p := p.each (r.places.filter (fun q => q.placed && q.expert = e)) (fun p q =>
        let o := (q.token * t.kRoute + q.rank) * t.retStride
        let row := (rows.drop (q.pos * t.retStride)).take t.retStride
        match r.issues.find? (fun i => i.has q.token) with
        | none => p
        | some i =>
          let p := p.tryStore (roRet i.word + half + o) row
          if d = .fwd then p.logWrite t s step mb (t.logReturns + o) row else p)
      p.setMoeRoute key { r with returned := if r.returned.contains e then r.returned else e :: r.returned }
  | _, _ => p.lateDiscard ti e s p.node step 1

/-! ### MOE_COMBINE (R212, R213) -/

/-- The placements of a core's tokens as its list at PLACE holds them. -/
def Package.corePlaces (p : Package) (c k : Nat) (t : MoeTable) (w : CmdWord) : List Placement :=
  (List.range (roCount w)).flatMap (fun i => (List.range t.kRoute).map (fun j =>
    placementOf (roBase w + i) j (leNat (p.opRead c k (roPlace w + 4 * (i * t.kRoute + j)) 4))))

/-- Experts whose returns a combine still awaits. -/
def Package.returnsOwed (p : Package) (c k : Nat) (x : Ctx) (t : MoeTable) (w : CmdWord) : List Nat :=
  let r := p.moeRoute (x.stage, cw w 32 6, p.startOf x)
  (((p.corePlaces c k t w).filter (·.placed)).map (·.expert)).eraseDups.filter (fun e => !r.returned.contains e && !r.missing.contains e)

/-- The gate-weighted sum of one token (R212). -/
def Package.tokenSum (p : Package) (c k : Nat) (x : Ctx) (t : MoeTable) (w : CmdWord) (i : Nat) (ps : List Placement) : List Nat :=
  let tok := roBase w + i
  let ws := (p.choice c k (roChoices w) i).2
  let f := (fmtOf t.retFmt).getD fmtFP32
  let half := halfOf x.dir (t.tokensMax * t.kRoute * t.retStride)
  let rows := (ps.filter (fun q => q.token = tok && q.placed && !q.missing)).map (fun q =>
    let o := (tok * t.kRoute + q.rank) * t.retStride
    let n := spanOf t.retFmt t.rowElems
    let bs := if x.recompute then p.logRead t x.stage x.step x.microBatch (t.logReturns + o) n else p.stackBytes (roRet w + half + o) n
    let wt := listAt 0 ws (if q.last then t.kRoute else q.rank)
    (unpackCodes (bitsOfCode t.retFmt) t.rowElems bs).map (fun v => r32 ((f.decode v).mul (f32 wt))))
  match rows with
  | [] => List.replicate t.rowElems 0
  | r :: rs => rs.foldl (fun a b => List.zipWith fadd a b) r

/-- Write the sums of a combine. -/
def Package.combine (p : Package) (c k : Nat) (x : Ctx) (t : MoeTable) (w : CmdWord) : Package :=
  let code := if bitAt w.toNat 8 then 0x10 else 0x05
  let stride := roundUp (spanOf code t.rowElems) 64
  let ps := p.corePlaces c k t w
  p.each (List.range (roCount w)) (fun p i =>
    let y := p.tokenSum c k x t w i ps
    let bs := if code = 0x10 then packCodes 32 y else packCodes 16 (y.map (fun v => fmtBF16.round (f32 v)))
    p.tryStoreBy (c / 72) (roAddr w + (roBase w + i) * stride) bs)

/-- The checks of a MOE_COMBINE after its table's; 0 when they pass. -/
def Package.combineCheck (p : Package) (t : MoeTable) (w : CmdWord) : Nat :=
  let n := roCount w
  let stride := roundUp (spanOf (if bitAt w.toNat 8 then 0x10 else 0x05) t.rowElems) 64
  if 1024 < n then 5
  else if OP_BYTES < roChoices w + 32 * n || OP_BYTES < roPlace w + 4 * t.kRoute * n || roAddr w % 64 ≠ 0 || roRet w % 64 ≠ 0 then 3
  else if 0 < n && !p.rangeOk (roAddr w + roBase w * stride) (n * stride) then 16
  else 0

def moeCombineCmd (p : Package) (c k : Nat) (x : Ctx) (h : Held) : CmdEnd :=
  let w := h.word
  match p.useTable x w routeFields with
  | .fail n => .fail n
  | .held p => .wait p
  | .ok p t =>
    let cause := p.combineCheck t w
    if cause ≠ 0 then .fail cause
    else if x.recompute || (p.core c k).replaying then .done (p.combine c k x t w)
    else .wait p

/-- A combine whose returns are all in or given up: its effect. -/
def Package.combineDone (p : Package) (c k : Nat) (x : Ctx) (w : CmdWord) : Option Package :=
  match p.moeTable (cw w 32 6) with
  | none => none
  | some t => if (p.returnsOwed c k x t w).isEmpty then some (p.combine c k x t w) else none

/-- The deadline of a combine passes: the returns owed are missing, and their entries are marked. -/
def Package.giveUpReturns (p : Package) (c k : Nat) (x : Ctx) (w : CmdWord) : Package :=
  let ti := cw w 32 6
  match p.moeTable ti with
  | none => p
  | some t =>
    let owed := p.returnsOwed c k x t w
    let key := (x.stage, ti, p.startOf x)
    let p := p.each owed (fun p e =>
      let r := p.moeRoute key
      let p := p.setMoeRoute key { r with missing := e :: r.missing, places := r.places.map (fun q => if q.placed && q.expert = e then { q with missing := true } else q) }
      ((p.bump64 MOE_RETURN_MISSING_COUNT 1).moeLast 2 ti e x.stage p.node x.step).raise .moe EV_MOE_RETURN_MISSING x.step (arg1Of x.stage e))
    let ps := (p.corePlaces c k t w).map (fun q => if q.placed && owed.contains q.expert then { q with missing := true } else q)
    let p := if owed.isEmpty then p else p.opWrite c k (roPlace w) (placeBytes t.kRoute ps (roBase w) (roCount w))
    if owed.isEmpty || p.get MOE_CFG_MISSING_ACTION = 0 then p
    else { p with num := { p.num with nonfinite := if p.num.nonfinite.contains x.step then p.num.nonfinite else p.num.nonfinite ++ [x.step] } }

end Sys2Proof.Machine
end

