-- ==== Sys2Proof/Machine/Seq.lean ====
section
/-! DEFINITION. A core's sequencer (R100 to R106): the start of a layer's list, dispatch into the unit queues, tokens, predicates, replay
points (R381), and the rows of the opcode table that are commands of a core. A command runs whole at the moment it starts. -/

namespace Sys2Proof.Machine

open Sys2Proof

/-! ### Units (Table 5-1) -/

inductive CoreUnit where
  | mx | ac | ve | dm
deriving DecidableEq, Repr

/-- The queue of an opcode; none for the sequencer's own commands. -/
def unitOf (op : Nat) : Option CoreUnit :=
  if op = 0x10 then some .mx
  else if 0x20 ≤ op && op ≤ 0x2F then some .ac
  else if 0x40 ≤ op && op ≤ 0x5F then some .ve
  else if 0x80 ≤ op && op ≤ 0x8F then some .dm
  else none

/-- The opcodes that name a command. -/
def opcodeDefined (op : Nat) : Bool :=
  op ≤ 1 || op = 0x10 || (0x20 ≤ op && op ≤ 0x28) || (0x40 ≤ op && op ≤ 0x44) || (0x48 ≤ op && op ≤ 0x55) || (0x80 ≤ op && op ≤ 0x83)
    || op = 0xA0 || op = 0xA1 || (0xA4 ≤ op && op ≤ 0xA7)

def Core.queue (co : Core) : CoreUnit → List Held
  | .mx => co.mx
  | .ac => co.ac
  | .ve => co.ve
  | .dm => co.dm

def Core.setQueue (co : Core) (u : CoreUnit) (l : List Held) : Core :=
  match u with
  | .mx => { co with mx := l }
  | .ac => { co with ac := l }
  | .ve => { co with ve := l }
  | .dm => { co with dm := l }

/-- Nothing waits in the queues. -/
def Core.queuesEmpty (co : Core) : Bool := co.mx.isEmpty && co.ac.isEmpty && co.ve.isEmpty && co.dm.isEmpty

/-- A WAIT is satisfied. -/
def Core.tokenReady (co : Core) (w : CmdWord) : Bool := waitOf w = 0 || decide (0 < co.token (waitOf w))

/-! ### Replay points (R381) -/

/-- The record of a core's position. -/
def Core.here (co : Core) (now : Nat) : ReplayPoint :=
  { layerPos := co.layerPos, index := co.index, ordinal := co.ordinal, left := co.left + co.behind.length, tokens := co.tokens, preds := co.preds % 128,
    maskWord := co.maskWord, clock := now }

/-- A core passes a replay point. -/
def Package.passPoint (p : Package) (c k : Nat) : Package :=
  let p := p.releaseStats c k
  p.modCore c k (fun co => { co with point := co.here p.clock, since := co.behind, replaying := false })

/-- A SYNC with RPOINT: refused while a group is open. -/
def Package.syncPoint (p : Package) (c k : Nat) : Package :=
  if 0 < (p.core c k).openGroups then p.bump64 (CLU_RP_REFUSED c) 1 else p.passPoint c k

/-- A core that passes RP_LIMIT cycles without a replay point counts once (R385). -/
def Package.watchPoint (p : Package) (c k : Nat) : Package :=
  let co := p.core c k
  if !co.point.long && (p.clu c).rpLimit < p.cyclesIn (c / 72) (p.clock - co.point.clock) then
    (p.modCore c k (fun co => { co with point := { co.point with long := true } })).bump64 (CLU_RP_LONG c) 1
  else p

/-! ### Running one command -/

/-- The effect of a command by its opcode. -/
def runCommand (p : Package) (c k : Nat) (x : Ctx) (h : Held) : CmdEnd :=
  let op := opcodeOf h.word
  if op = 0x00 then (if strayBits h.word baseFields then .fail 1 else .done p)
  else if op = 0x01 then (if strayBits h.word (baseFields ++ [(8, 1)]) then .fail 1 else .done p)
  else if op = 0x10 then mma p c k x h
  else if op = 0x20 then accDrain p c k x h
  else if op = 0x21 then accLoad p c k h
  else if op = 0x22 then accZero p c k h
  else if op = 0x23 then accGcfg p c k h
  else if op = 0x24 then accSpill p c k x h
  else if op = 0x25 then accClose p c k x h
  else if op = 0x26 then accDiscard p c k h
  else if op = 0x27 then accRsStore p c k h
  else if op = 0x28 then accTsStore p c k h
  else if 0x40 ≤ op && op ≤ 0x5F then vectorCommand op p c k x h
  else if op = 0x80 then dmLoad p c k x h
  else if op = 0x81 then dmStore p c k x h
  else if op = 0x82 then dmLocalCopy p c k h
  else if op = 0x83 then dmOutdesc p c k x h
  else if op = 0xA0 then pset p c k x h
  else if op = 0xA1 then skipgen p c k h
  else if op = 0xA4 then moeRouteCmd p c k x h
  else if op = 0xA5 then moeWaitCmd p c k x h
  else if op = 0xA6 then moeReturnCmd p x h
  else if op = 0xA7 then moeCombineCmd p c k x h
  else .fail 1

/-- A command completes: it signals its token, and a SYNC with RPOINT passes a replay point. -/
def Package.complete (p : Package) (c k : Nat) (h : Held) : Package :=
  let p := p.modCore c k (fun co => co.giveToken (signalOf h.word))
  if h.pred && opcodeOf h.word = 0x01 && bitAt h.word.toNat 8 then p.syncPoint c k else p

/-- What starting a command did: it has left its place, or it keeps it and waits. -/
inductive StartEnd where
  | gone (p : Package)
  | stays (p : Package) (h : Held)

/-- Start a command whose WAIT is satisfied, or look again at one that has started and waits. -/
def startCmd (p : Package) (c k : Nat) (x : Ctx) (h : Held) : StartEnd :=
  let w := h.word
  let p := if h.since.isNone then p.modCore c k (fun co => co.takeToken (waitOf w)) else p
  if signalOf w ≠ 0 && decide (255 ≤ (p.core c k).token (signalOf w)) then .gone (p.cmdError c k x (opcodeOf w) h.index 7)
  else if !h.pred then
    .gone ((if opcodeOf w = 0x10 && !(p.core c k).skip then mmaFalse p c k else p).complete c k h)
  else match runCommand p c k x h with
    | .done p => .gone (p.complete c k h)
    | .fail cause => .gone (p.cmdError c k x (opcodeOf w) h.index cause)
    | .poisoned => .gone (p.cmdPoison c k x)
    | .wait p => .stays p { h with since := some (h.since.getD p.clock) }

/-! ### Dispatch (R102, R104, R199, R201) -/

/-- Put a word that can be dispatched where it belongs: its predicate is read now. -/
def Package.dispatch (p : Package) (c k : Nat) (x : Ctx) (w : CmdWord) : Package :=
  let co := p.core c k
  let op := opcodeOf w
  let h : Held := { word := w, index := co.index, ordinal := co.ordinal, pred := !co.skip && (!predBit w || co.pred (predIndex w)) }
  let p := p.setCore c k { co with index := co.index + 1, ordinal := co.ordinal + 1 }
  if !opcodeDefined op then p.cmdError c k x op h.index 1
  else if h.ordinal = 0 && x.layer.predicated && x.run.isNone && (x.dir = .fwd || x.recompute) && !isGate w then p.cmdError c k x op h.index 5
  else match unitOf op with
    | none => p.modCore c k (fun co => { co with seq := some h })
    | some u => p.modCore c k (fun co => co.setQueue u (co.queue u ++ [h]))

/-- Can the next word be dispatched: no sequencer command holds dispatch, and its queue has room. -/
def Core.canDispatch (co : Core) (w : CmdWord) : Bool :=
  co.seq.isNone && (match unitOf (opcodeOf w) with
    | none => true
    | some u => decide ((co.queue u).length < 8))

/-- Try the head of one queue; none when nothing moved. -/
def Package.tryUnit (p : Package) (c k : Nat) (x : Ctx) (u : CoreUnit) : Option Package :=
  let co := p.core c k
  match co.queue u with
  | [] => none
  | h :: rest =>
    if h.since.isNone && !co.tokenReady h.word then none
    else
      let p0 := p.setCore c k (co.setQueue u rest)
      match startCmd p0 c k x h with
      | .gone q => some q
      | .stays q h' => if h.since.isSome then none else some (q.modCore c k (fun co => co.setQueue u (h' :: co.queue u)))

/-- Try the sequencer's own command; one that has started waits for its event. -/
def Package.trySeq (p : Package) (c k : Nat) (x : Ctx) : Option Package :=
  let co := p.core c k
  match co.seq with
  | none => none
  | some h =>
    if h.since.isSome || !co.tokenReady h.word || (opcodeOf h.word = 0x01 && !co.queuesEmpty) then none
    else match startCmd (p.setCore c k { co with seq := none }) c k x h with
      | .gone q => some q
      | .stays q h' => some (if (q.core c k).stopped then q else q.modCore c k (fun co => { co with seq := some h' }))

/-- Dispatch the next word held back, if it can go. -/
def Package.tryBehind (p : Package) (c k : Nat) (x : Ctx) : Option Package :=
  let co := p.core c k
  match co.behind with
  | [] => none
  | w :: rest => if co.canDispatch w then some ((p.setCore c k { co with behind := rest }).dispatch c k x w) else none

/-- The core is a spare that is still being filled (R383). -/
def Package.filling (p : Package) (c k : Nat) : Bool := match (p.clu c).refill with
  | some r => decide (r.spare = k)
  | none => false

/-- One move of a core, in the fixed order matrix engine, accumulator, vector engine, data mover, sequencer, dispatch. -/
def Package.advance (p : Package) (c k : Nat) : Option Package :=
  match p.ctx c k with
  | none => none
  | some x =>
    if (p.core c k).stopped || p.filling c k then none
    else (p.tryUnit c k x .mx) <|> (p.tryUnit c k x .ac) <|> (p.tryUnit c k x .ve) <|> (p.tryUnit c k x .dm) <|> (p.trySeq c k x) <|> (p.tryBehind c k x)

/-- Let a core run until nothing moves. -/
def Package.settle (c k : Nat) : Nat → Package → Package
  | 0, p => p
  | fuel + 1, p => match p.advance c k with
    | none => p
    | some q => Package.settle c k fuel q

/-- Moves that a core's held commands can take at most: each is dispatched, started and looked at again. -/
def Core.moves (co : Core) : Nat :=
  3 * (co.mx.length + co.ac.length + co.ve.length + co.dm.length + co.behind.length + co.seq.toList.length) + 3

def Package.run (p : Package) (c k : Nat) : Package := p.settle c k (p.core c k).moves

/-- The core serves what its cluster runs now, and may take commands. -/
def Package.serves (p : Package) (c k : Nat) (x : Ctx) : Bool :=
  let co := p.core c k
  let want : Option (Nat × Nat) := match x.run with
    | some r => some (0, r.startAt)
    | none => some (1 + x.stage, p.startOf x)
  co.serving = want && !co.stopped && (p.posOf c k).isSome

/-- The next command of the running list reaches a core. -/
def issue (op dt c k : Nat) (w : CmdWord) (p : Package) : Package :=
  let p := p.pass dt
  match p.ctx c k with
  | none => p
  | some x =>
    let co := p.core c k
    if !p.serves c k x || co.left = 0 then p
    else
      let w := withOpcode op w
      let p := (p.setCore c k { co with left := co.left - 1, since := co.since ++ [w], behind := co.behind ++ [w] }).watchPoint c k
      p.run c k

/-! ### The start of a layer's list (R169, R186, R199, R201, R249, R381) -/

/-- Predicates 7 to 11 of a list (Table 8-2). -/
def Package.phasePreds (p : Package) (x : Ctx) (ph : Phase) : List Bool :=
  let r := (p.stg x.stage).record x.step x.microBatch
  let ck := match r with
    | some r => r.stageCkpt
    | none => false
  let level := match r with
    | some r => r.level
    | none => 0
  let bwd := decide (x.dir = .bwd)
  [x.recompute, bwd && ck, bwd && decide (level = 1), decide (x.microBatch = 0), ph.lastOfStep]

/-- Predicates 12 to 15 of a list, from the layer's slot (R169). -/
def Package.slotPreds (p : Package) (x : Ctx) : List Bool :=
  match p.histBytes x.layer.numSlot with
  | none => [false, false, false, false]
  | some b =>
    let f := (p.decision x.stage x.step b).2
    let lo := fieldAt b 4 1
    [decide (f = lo), decide (f = lo + 1), decide (f = lo + 2), histWarm b]

/-- Set predicates from register i up. -/
def Core.setPreds (co : Core) : Nat → List Bool → Core
  | _, [] => co
  | i, b :: bs => Core.setPreds (co.setPred i b) (i + 1) bs

/-- Begin the list of a context on a core: `n` commands. -/
def Package.beginList (p : Package) (c k : Nat) (x : Ctx) (n : Nat) (preds : List Bool) : Package :=
  let p := p.modCore c k (fun co => { co.setPreds 7 preds with left := n, ordinal := 0, skip := false, maskWord := 0 })
  let p := if x.layer.predicated && x.dir = .bwd && !x.recompute && x.run.isNone then p.takeGate c k (p.recordedGate x) else p
  p.passPoint c k

/-- The next list of a phase starts on a core. -/
def Package.startPhaseList (p : Package) (c k s : Nat) (ph : Phase) : Package :=
  let n := (p.core c k).layerPos
  let at' := p.listAtPos s ph n
  let p := p.modCore c k (fun co => { co with layerPos := n + 1 })
  match p.ctx c k with
  | none => p
  | some x =>
    let p := p.useSlot x.layer.numSlot x.step
    p.beginList c k x (if at'.2.1 then x.layer.fwdLen else x.layer.bwdLen) (p.phasePreds x ph ++ p.slotPreds x)

/-- The RUN of a core's cluster starts its one list. -/
def Package.startRunList (p : Package) (c k : Nat) (r : RunJob) : Package :=
  let p := p.modCore c k (fun co => { co with layerPos := 1 })
  match p.ctx c k with
  | none => p
  | some x => p.beginList c k x r.len [false, false, false, false, false, false, false, false, false]

/-- Every command of the running list has been given and dispatched. -/
def Core.listGiven (co : Core) : Bool := co.left = 0 && co.behind.isEmpty && co.seq.isNone

def layerListStart (dt c k : Nat) (p : Package) : Package :=
  let p := p.pass dt
  let co := p.core c k
  if (p.posOf c k).isNone || co.stopped || !co.listGiven || p.filling c k then p
  else match p.servedRun c with
    | some r => if co.serving = some (0, r.startAt) && co.layerPos = 0 then p.startRunList c k r else p
    | none => match p.servedStage c with
      | none => p
      | some (s, ph) =>
        let at' := p.listAtPos s ph co.layerPos
        if co.serving = some (1 + s, ph.startAt) && co.layerPos < p.listCount s ph && p.layerReady s ph.version at'.1 then p.startPhaseList c k s ph else p

/-! ### Events that a core waits for -/

/-- The sequencer's waiting command completes. -/
def Package.finishSeq (p : Package) (c k : Nat) : Package :=
  match (p.core c k).seq with
  | none => p
  | some h => ((p.modCore c k (fun co => { co with seq := none })).complete c k h).run c k

/-- The waiting command of an opcode on a core, with its context. -/
def Package.waiting (p : Package) (c k op : Nat) : Option (Ctx × Held) :=
  match (p.core c k).seq, p.ctx c k with
  | some h, some x => if opcodeOf h.word = op && h.since.isSome then some (x, h) else none
  | _, _ => none

def amaxBarrierRelease (dt s slot : Nat) (p : Package) : Package :=
  let p := (p.pass dt).releaseBarrier s slot
  p.each (p.stageCores s) (fun p e => p.run e.1 e.2)

/-- A core whose MOE_ROUTE waits for placement goes on. -/
def Package.placedAt (p : Package) (i : RouteIssue) : Package :=
  if (p.waiting i.cluster i.core 0xA4).isSome then p.finishSeq i.cluster i.core else p

def moePlacement (dt s ti : Nat) (p : Package) : Package :=
  let p := p.pass dt
  match (p.stg s).phase, p.moeTable ti with
  | some ph, some t =>
    let r := p.moeRoute (s, ti, ph.startAt)
    if r.placed || r.issues.isEmpty || !p.allIssued s r || ph.dir = .bwd then p
    else match r.issues with
      | [] => p
      | i :: _ =>
        match p.ctx i.cluster i.core with
        | none => p
        | some x =>
          if rangesOk t.tokensMax r.issues then
            (p.placeTokens x ti t r).each r.issues Package.placedAt
          else p.each r.issues (fun p i => match (p.core i.cluster i.core).seq with
            | some h => p.cmdError i.cluster i.core x 0xA4 h.index 5
            | none => p)
  | _, _ => p

/-- Count the cycles of a core's wait (R215). -/
def Package.countWait (p : Package) (c : Nat) (h : Held) : Package := p.bump64 MOE_WAIT_CYCLES (p.cyclesIn (c / 72) (p.clock - h.since.getD p.clock))

/-- A wait that is over completes. -/
def Package.endWait (p : Package) (c k : Nat) (x : Ctx) (h : Held) : Package :=
  match p.waitDone c k x h.word with
  | none => p
  | some q => (q.countWait c h).finishSeq c k

def Package.endCombine (p : Package) (c k : Nat) (x : Ctx) (h : Held) : Package :=
  match p.combineDone c k x h.word with
  | none => p
  | some q => (q.countWait c h).finishSeq c k

def moeWaitComplete (dt c k : Nat) (p : Package) : Package :=
  let p := p.pass dt
  match p.waiting c k 0xA5 with
  | none => p
  | some (x, h) => p.endWait c k x h

/-- The deadline of a wait has come. -/
def Package.deadlinePassed (p : Package) (h : Held) : Bool := decide (h.since.getD p.clock + p.get MOE_CFG_ARRIVE_US * Config.usUnits ≤ p.clock)

def moeArriveDeadline (dt c k : Nat) (p : Package) : Package :=
  let p := p.pass dt
  match p.waiting c k 0xA5 with
  | none => p
  | some (x, h) => if p.deadlinePassed h then (p.giveUpSenders x h.word).endWait c k x h else p

def moeCombineComplete (dt c k : Nat) (p : Package) : Package :=
  let p := p.pass dt
  match p.waiting c k 0xA7 with
  | none => p
  | some (x, h) => p.endCombine c k x h

def moeReturnDeadline (dt c k : Nat) (p : Package) : Package :=
  let p := p.pass dt
  match p.waiting c k 0xA7 with
  | none => p
  | some (x, h) => if p.deadlinePassed h then (p.giveUpReturns c k x h.word).endCombine c k x h else p

def moeHeaderReceive (dt : Nat) (h : MoeHeader) (rows : List Byte) (p : Package) : Package :=
  ((p.pass dt).arrived (moeHeaderMsg h rows)).moeArrive { h with used := false } rows

def moeReturnReceive (dt s ti e step mb : Nat) (d : Dir) (rows : List Byte) (p : Package) : Package :=
  ((p.pass dt).arrived (moeReturnMsg s ti e step mb d rows)).returnArrive s ti e step mb d rows

/-! ### The commands' meanings -/

def execLayerListStart (dt cluster core : Nat) (s : State) := onPkg (layerListStart dt cluster core) s
def execNop (dt cluster core : Nat) (w : CmdWord) (s : State) := onPkg (issue 0x00 dt cluster core w) s
def execSync (dt cluster core : Nat) (w : CmdWord) (s : State) := onPkg (issue 0x01 dt cluster core w) s
def execMma (dt cluster core : Nat) (w : CmdWord) (s : State) := onPkg (issue 0x10 dt cluster core w) s
def execAdd (dt cluster core : Nat) (w : CmdWord) (s : State) := onPkg (issue 0x40 dt cluster core w) s
def execMul (dt cluster core : Nat) (w : CmdWord) (s : State) := onPkg (issue 0x41 dt cluster core w) s
def execFma (dt cluster core : Nat) (w : CmdWord) (s : State) := onPkg (issue 0x42 dt cluster core w) s
def execMax (dt cluster core : Nat) (w : CmdWord) (s : State) := onPkg (issue 0x43 dt cluster core w) s
def execMin (dt cluster core : Nat) (w : CmdWord) (s : State) := onPkg (issue 0x44 dt cluster core w) s
def execExp (dt cluster core : Nat) (w : CmdWord) (s : State) := onPkg (issue 0x48 dt cluster core w) s
def execLog (dt cluster core : Nat) (w : CmdWord) (s : State) := onPkg (issue 0x49 dt cluster core w) s
def execRcp (dt cluster core : Nat) (w : CmdWord) (s : State) := onPkg (issue 0x4A dt cluster core w) s
def execRsqrt (dt cluster core : Nat) (w : CmdWord) (s : State) := onPkg (issue 0x4B dt cluster core w) s
def execTanh (dt cluster core : Nat) (w : CmdWord) (s : State) := onPkg (issue 0x4C dt cluster core w) s
def execGelu (dt cluster core : Nat) (w : CmdWord) (s : State) := onPkg (issue 0x4D dt cluster core w) s
def execSilu (dt cluster core : Nat) (w : CmdWord) (s : State) := onPkg (issue 0x4E dt cluster core w) s
def execSigmoid (dt cluster core : Nat) (w : CmdWord) (s : State) := onPkg (issue 0x4F dt cluster core w) s
def execCvt (dt cluster core : Nat) (w : CmdWord) (s : State) := onPkg (issue 0x50 dt cluster core w) s
def execMaskBits (dt cluster core : Nat) (w : CmdWord) (s : State) := onPkg (issue 0x51 dt cluster core w) s
def execSignBits (dt cluster core : Nat) (w : CmdWord) (s : State) := onPkg (issue 0x52 dt cluster core w) s
def execDeriv (dt cluster core : Nat) (w : CmdWord) (s : State) := onPkg (issue 0x53 dt cluster core w) s
def execRowreduce (dt cluster core : Nat) (w : CmdWord) (s : State) := onPkg (issue 0x54 dt cluster core w) s
def execRng (dt cluster core : Nat) (w : CmdWord) (s : State) := onPkg (issue 0x55 dt cluster core w) s
def execAmaxBarrierRelease (dt stage slot : Nat) (s : State) := onPkg (amaxBarrierRelease dt stage slot) s
def execAccDrain (dt cluster core : Nat) (w : CmdWord) (s : State) := onPkg (issue 0x20 dt cluster core w) s
def execAccLoad (dt cluster core : Nat) (w : CmdWord) (s : State) := onPkg (issue 0x21 dt cluster core w) s
def execAccZero (dt cluster core : Nat) (w : CmdWord) (s : State) := onPkg (issue 0x22 dt cluster core w) s
def execAccGcfg (dt cluster core : Nat) (w : CmdWord) (s : State) := onPkg (issue 0x23 dt cluster core w) s
def execAccSpill (dt cluster core : Nat) (w : CmdWord) (s : State) := onPkg (issue 0x24 dt cluster core w) s
def execAccClose (dt cluster core : Nat) (w : CmdWord) (s : State) := onPkg (issue 0x25 dt cluster core w) s
def execAccDiscard (dt cluster core : Nat) (w : CmdWord) (s : State) := onPkg (issue 0x26 dt cluster core w) s
def execAccRsStore (dt cluster core : Nat) (w : CmdWord) (s : State) := onPkg (issue 0x27 dt cluster core w) s
def execAccTsStore (dt cluster core : Nat) (w : CmdWord) (s : State) := onPkg (issue 0x28 dt cluster core w) s
def execDmStore (dt cluster core : Nat) (w : CmdWord) (s : State) := onPkg (issue 0x81 dt cluster core w) s
def execDmLocal (dt cluster core : Nat) (w : CmdWord) (s : State) := onPkg (issue 0x82 dt cluster core w) s
def execDmOutdesc (dt cluster core : Nat) (w : CmdWord) (s : State) := onPkg (issue 0x83 dt cluster core w) s
def execPset (dt cluster core : Nat) (w : CmdWord) (s : State) := onPkg (issue 0xA0 dt cluster core w) s
def execSkipgen (dt cluster core : Nat) (w : CmdWord) (s : State) := onPkg (issue 0xA1 dt cluster core w) s
def execMoeRoute (dt cluster core : Nat) (w : CmdWord) (s : State) := onPkg (issue 0xA4 dt cluster core w) s
def execMoePlacement (dt stage table : Nat) (s : State) := onPkg (moePlacement dt stage table) s
def execMoeWait (dt cluster core : Nat) (w : CmdWord) (s : State) := onPkg (issue 0xA5 dt cluster core w) s
def execMoeHeaderReceive (dt : Nat) (h : MoeHeader) (rows : List Byte) (s : State) := onPkg (moeHeaderReceive dt h rows) s
def execMoeWaitComplete (dt cluster core : Nat) (s : State) := onPkg (moeWaitComplete dt cluster core) s
def execMoeArriveDeadline (dt cluster core : Nat) (s : State) := onPkg (moeArriveDeadline dt cluster core) s
def execMoeReturn (dt cluster core : Nat) (w : CmdWord) (s : State) := onPkg (issue 0xA6 dt cluster core w) s
def execMoeReturnReceive (dt stage table expert step microBatch : Nat) (d : Dir) (rows : List Byte) (s : State) :=
  onPkg (moeReturnReceive dt stage table expert step microBatch d rows) s
def execMoeCombine (dt cluster core : Nat) (w : CmdWord) (s : State) := onPkg (issue 0xA7 dt cluster core w) s
def execMoeCombineComplete (dt cluster core : Nat) (s : State) := onPkg (moeCombineComplete dt cluster core) s
def execMoeReturnDeadline (dt cluster core : Nat) (s : State) := onPkg (moeReturnDeadline dt cluster core) s

end Sys2Proof.Machine
end

