-- ==== Sys2Proof/Machine/Mem.lean ====
section
/-! DEFINITION. The stacks' base dies (10_memory_stacks.md): the line code (R226), patrol scrub (R228) and temperature (R225); a load
whose read finds an error. -/

namespace Sys2Proof.Machine

open Sys2Proof

/-! ### The line code (R226) -/

/-- Requester classes of `MEM_UE_LAST` (Table 10-10). -/
def MEM_BY_DM : Nat := 0
def MEM_BY_POUR : Nat := 1
def MEM_BY_GATHER : Nat := 2
def MEM_BY_SNAP : Nat := 3
def MEM_BY_SCRUB : Nat := 4
def MEM_BY_LINK : Nat := 5

/-- Insert into a rising list without repeats. -/
def insertRising (x : Nat) : List Nat → List Nat
  | [] => [x]
  | y :: ys => if x = y then y :: ys else if x < y then x :: y :: ys else y :: insertRising x ys

/-- An uncorrectable read poisons the line, counts it and raises `MEM_UNCORRECTABLE`; a line already poisoned counts nothing more. -/
def Package.linePoisoned (p : Package) (x cls : Nat) : Package :=
  if p.poisoned x then p
  else
    let k := physStack x
    let last := x % 2 ^ 36 / 64 * 64 + 2 ^ 36 * cls
    let p := { p with poison := insertRising (x / 64) p.poison }
    let p := (p.bump64 (MEM_UE_COUNT k) 1).wr (MEM_UE_LAST k) last
    (p.raise (.mem k) EV_MEM_UNCORRECTABLE last (arg1Of k 0)).report (.mem k) (k / 4) 1 cls last (arg1Of k 0) false false

/-- A corrected read writes the line back and counts it. -/
def Package.lineCorrected (p : Package) (x : Nat) : Package :=
  let k := physStack x
  (p.bump64 (MEM_CE_COUNT k) 1).report (.mem k) (k / 4) 0 (Config.openCode 11) p.beatNo (arg1Of k 0) false false

/-- What a read of the line at physical byte x finds. -/
def Package.lineRead (p : Package) (x cls : Nat) : LineCheck → Package
  | .clean => p
  | .corrected => if p.poisoned x then p else p.lineCorrected x
  | .uncorrectable => p.linePoisoned x cls

/-- What a read of the `n` bytes at `a` finds: `found` names addresses of lines and what the line code says of them. -/
def Package.readFinds (p : Package) (found : List (Nat × LineCheck)) (a n cls : Nat) : Package :=
  p.each found (fun p f =>
    if overlaps a n (f.1 / 64 * 64) 64 && p.memOk f.1 then
      match physOf f.1 with
      | some x => p.lineRead x cls f.2
      | none => p
    else p)

/-! ### SCRUB_READ (R228) -/

/-- Scrub reads the line at an offset of a stack; reading the stack's last line completes a pass. -/
def scrubRead (dt k ofs : Nat) (found : LineCheck) (p : Package) : Package :=
  let p := p.pass dt
  if !p.stackFitted k || p.dieFenced (k / 4) || 2 ^ 36 ≤ ofs then p
  else
    let p := p.lineRead (k * 2 ^ 36 + ofs) MEM_BY_SCRUB found
    if ofs / 64 = 2 ^ 30 - 1 then p.bump64 (MEM_SCRUB_PASSES k) 1 else p

/-! ### STACK_THERMAL (R225) -/

/-- The hotter sensor of a stack reads `temp` °C. -/
def stackThermal (dt k temp : Nat) (p : Package) : Package :=
  let p := p.pass dt
  if !p.stackFitted k then p
  else
    let was := p.has (MEM_STATUS_THERMAL_CAP k)
    let cap := if 93 ≤ temp then true else if temp < 90 then false else was
    let p := ((p.put (MEM_STATUS_TEMP k) temp).put (MEM_STATUS_REFRESH_2X k) (b2n (decide (85 < temp)))).put (MEM_STATUS_THERMAL_CAP k) (b2n cap)
    if cap && !was then p.raise (.mem k) EV_MEM_THERMAL_CAP p.beatNo (arg1Of k 0) else p

/-! ### DM_LOAD -/

/-- The memory ranges that a load on a core would read now. -/
def Package.loadRanges (p : Package) (c k : Nat) (w : CmdWord) : List (Nat × Nat) :=
  match p.ctx c k with
  | none => []
  | some x => match p.modeBase c x true w with
    | .mem base _ => (dmOffsets x w).map (fun o => (base + o, dmRowBytes w))
    | _ => []

/-- What the reads of a load on a core find. -/
def Package.loadFinds (p : Package) (c k : Nat) (w : CmdWord) (found : List (Nat × LineCheck)) : Package :=
  p.each (p.loadRanges c k w) (fun p r => p.readFinds found r.1 r.2 MEM_BY_DM)

/-- A DM_LOAD reaches a core; `found` says what the line code finds in the lines it reads. -/
def issueLoad (dt c k : Nat) (w : CmdWord) (found : List (Nat × LineCheck)) (p : Package) : Package :=
  issue 0x80 0 c k w ((p.pass dt).loadFinds c k w found)

/-- RESERVED_OPCODE: a command whose opcode lies outside the listed ranges (R105); a word with a listed opcode has its own row. -/
def issueReserved (dt c k : Nat) (w : CmdWord) (p : Package) : Package :=
  if opcodeDefined (opcodeOf w) then p.pass dt else issue (opcodeOf w) dt c k w p

/-! ### The commands' meanings -/

def execScrubRead (dt stack offset : Nat) (found : LineCheck) (s : State) := onPkg (scrubRead dt stack offset found) s
def execStackThermal (dt stack temp : Nat) (s : State) := onPkg (stackThermal dt stack temp) s
def execDmLoad (dt cluster core : Nat) (w : CmdWord) (found : List (Nat × LineCheck)) (s : State) := onPkg (issueLoad dt cluster core w found) s
def execReservedOpcode (dt cluster core : Nat) (w : CmdWord) (s : State) := onPkg (issueReserved dt cluster core w) s

end Sys2Proof.Machine
end

