-- ==== Sys2Proof/Machine/Faults.lean ====
section
/-! DEFINITION. Faults and recovery (R377 to R400): core failures and their repair by a spare, compound faults, the retirement of a cluster,
the Assay's verdict (R177, R178), and the error log's own commands. -/

namespace Sys2Proof.Machine

open Sys2Proof

/-! ### Reports of a cluster -/

/-- `CLU_LAST` (Table 15-9). -/
def cluLast (core spare pos cause : Nat) (compound retired : Bool) (us : Nat) : Nat :=
  core % 32 + 2 ^ 8 * (spare % 32) + 2 ^ 16 * (pos % 16) + 2 ^ 20 * (cause % 16) + 2 ^ 24 * b2n compound + 2 ^ 25 * b2n retired
    + 2 ^ 32 * min us 65535

/-- A field BIST run holds a core (R434). -/
def Package.underTest (p : Package) (c k : Nat) : Bool :=
  match mapFind p.bists (c / 72) with
  | some b => b.startAt.isSome && b.cluster = c % 72 && (b.core.isNone || b.core = some k)
  | none => false

/-- The lowest-numbered working spare of a cluster: a physical core that is neither mapped nor retired nor under test. -/
def Package.spareOf (p : Package) (c : Nat) : Option Nat :=
  if p.get (CLU_STATUS_SPARES c) = 0 then none
  else (List.range Config.coresPerCluster).find? (fun k =>
    !bitAt (p.get (CLU_STATUS_RETIRED c)) k && (p.posOf c k).isNone && !p.underTest c k)

def Package.showQueued (p : Package) (c : Nat) : Package := p.put (CLU_STATUS_QUEUED c) (min 7 (p.clu c).queued.length)

/-- The stages that a cluster serves. -/
def Package.stagesOn (p : Package) (c : Nat) : List Nat := allStages.filter (fun s => p.stgState s ≠ STG_DISABLED && (p.stg s).clusters.contains c)

/-- A RUN that holds a cluster ends with a RESULT. -/
def Package.failRun (p : Package) (c res : Nat) : Package :=
  { p with runs := p.runs.map (fun (r : RunJob) =>
      if 72 * r.die + r.first ≤ c && c < 72 * r.die + r.first + r.count && r.failed.isNone then { r with failed := some res } else r) }

/-! ### Retiring a cluster (R388) -/

/-- A cluster retires: its cores stop, its phases are abandoned, its SRAM is lost, its RUN fails with cause 18; its stages shrink at
the next tick. -/
def Package.retireCluster (p : Package) (c k pos cause : Nat) (compound : Bool) : Package :=
  let ss := p.stagesOn c
  let p := p.each ss (fun p s => ((p.stopCores s).abandon s).modStg s (fun x => { x with shrinkPending := true }))
  let p := p.each (List.range Config.coresPerCluster) (fun p k => p.setCore c k {})
  let p := p.modClu c (fun x => { x with sram := [], poison := [], refill := none, queued := [] })
  let p := p.failRun c 18
  let last := cluLast k 0x1F pos cause compound true 0
  let p := (((p.put (CLU_STATUS_STATE c) 2).put (CLU_STATUS_SPARES c) 0).showQueued c).wr (CLU_LAST c) last
  let p := p.raise (.clu c) EV_CLU_RETIRED last (maskOf ss)
  p.report (.clu c) (c / 72) 1 cause last (maskOf ss) compound false

/-- At the tick after a retirement the cluster leaves the stage's set; an empty set holds the stage with cause 4 (R388). -/
def Package.shrinkStage (p : Package) (s : Nat) : Package :=
  if !(p.stg s).shrinkPending then p
  else
    let p := (p.modStg s (fun x => { x with shrinkPending := false })).bind s
    if (p.stg s).clusters.isEmpty && p.stgState s ≠ STG_DISABLED then (p.holdStage s 4).modStg s (fun x => { x with recovery := true }) else p

/-! ### Replacing a core (R383 to R387) -/

/-- Work recorded outside the failed core follows the logical position to the spare; what it had not finished is asked for again. -/
def Package.renameCore (p : Package) (c k spare : Nat) : Package :=
  let ren := fun (e : Nat × Nat) => if e = (c, k) then (c, spare) else e
  let routes := p.moe.routes.map (fun (e : (Nat × Nat × Nat) × MoeRoute) =>
    (e.1, { e.2 with issues := (e.2.issues.filter (fun (i : RouteIssue) => e.2.placed || !(i.cluster = c && i.core = k))).map (fun (i : RouteIssue) =>
      if i.cluster = c && i.core = k then { i with core := spare } else i) }))
  { p with
    moe := { p.moe with routes := routes }
    num := { p.num with barriers := p.num.barriers.map (fun (e : Nat × Barrier) => (e.1, { e.2 with cores := e.2.cores.map ren })) } }

/-- Steps 1 and 2 of R383: the failed core stops and is isolated, the spare takes its position and its record. -/
def Package.startRefill (p : Package) (c k spare cause startAt : Nat) (compound : Bool) : Package :=
  let pos := (p.posOf c k).getD 0
  let co := p.core c k
  let p := if co.assay.isSome then p.bump64 NUM_ASSAY_SKIPPED 1 else p
  let p := p.renameCore c k spare
  let p := p.setCore c spare { ({} : Core) with opMem := (p.core c spare).opMem, serving := co.serving, layerPos := co.layerPos, left := co.left,
                                                 stopped := co.stopped && !co.failing,
                                                 groups := (List.range 8).map (fun g => (g, { s := p.get (ACC_CFG_SPILL_S c) })),
                                                 point := co.point, since := co.since, behind := co.since, opMap := co.opMap }
  let p := (p.setCore c k {}).mapCore c pos spare
  let left := p.get (CLU_STATUS_SPARES c) - 1
  let p := (((p.put (CLU_STATUS_SPARES c) left).setBit (CLU_STATUS c) (12 + k) true).put (CLU_STATUS_STATE c) 1).bump64 (CLU_CORE_RETIRES c) 1
  let p := p.modClu c (fun x => { x with refill := some { core := k, spare := spare, position := pos, cause := cause, startAt := startAt,
                                                           compound := compound } })
  let last := cluLast k spare pos cause compound false 0
  let p := (p.wr (CLU_LAST c) last).raise (.clu c) EV_CLU_CORE_RETIRED last (arg1Of k left)
  p.report (.clu c) (c / 72) 1 cause last (arg1Of k left) compound false

/-- A fault is served: by the next working spare, or by the retirement of the cluster. -/
def Package.serveFault (p : Package) (c k cause startAt : Nat) (compound : Bool) : Package :=
  match p.spareOf c with
  | some spare => p.startRefill c k spare cause startAt compound
  | none => p.retireCluster c k ((p.posOf c k).getD 0) cause compound

/-- Can a physical core fail: its die works, its cluster serves, and it is mapped and has not failed already. -/
def Package.canFail (p : Package) (c k : Nat) : Bool :=
  p.dieActive (c / 72) && !p.dieFenced (c / 72) && decide (k < Config.coresPerCluster) && decide (p.get (CLU_STATUS_STATE c) ≠ 2)
    && (p.posOf c k).isSome && !(p.clu c).queued.any (fun e => e.1 = k)

/-- A core failure (R378): CAUSE 0 lockstep, 1 watchdog, 2 core ECC, 3 Assay. During a refill it is compound (R387). -/
def Package.coreFault (p : Package) (c k cause : Nat) : Package :=
  if !p.canFail c k then p
  else match (p.clu c).refill with
    | none => p.serveFault c k cause p.clock false
    | some r =>
      if r.spare = k then
        match p.spareOf c with
        | some spare => (p.startRefill c k spare cause r.startAt true).bump64 (CLU_REFILL_RESTARTS c) 1
        | none => p.retireCluster c k r.position cause true
      else
        ((p.modCore c k (fun co => { co with stopped := true, failing := !co.stopped })).modClu c (fun x => { x with queued := x.queued ++ [(k, (cause, p.clock))] })).showQueued c

def lockstepMismatch (dt c k : Nat) (p : Package) : Package := (p.pass dt).coreFault c k 0

/-- The watchdog fires only on a core that runs commands (R379). -/
def watchdogExpiry (dt c k : Nat) (p : Package) : Package :=
  let p := p.pass dt
  if (p.ctx c k).isSome && !(p.core c k).stopped then p.coreFault c k 1 else p

/-- A corrected error in core or cluster SRAM: counted and logged. -/
def Package.sramCorrected (p : Package) (c index : Nat) : Package :=
  (p.bump64 (CLU_ECC_CORR c) 1).report (.clu c) (c / 72) 0 2 p.beatNo (arg1Of index 0) false false

def coreEcc (dt c k : Nat) (double : Bool) (p : Package) : Package :=
  let p := p.pass dt
  if !p.canFail c k then p
  else if double then p.coreFault c k 2
  else p.sramCorrected c k

/-- An error in a line of cluster SRAM. Two bits in a command list: the list is fetched again, and nothing is lost; two bits elsewhere: the
line is poisoned (R378). -/
def clusterEcc (dt c line : Nat) (double inList : Bool) (p : Package) : Package :=
  let p := p.pass dt
  if !p.dieActive (c / 72) || p.dieFenced (c / 72) || p.get (CLU_STATUS_STATE c) = 2 then p
  else if !double then p.sramCorrected c line
  else
    let p := if inList then p else p.modClu c (fun x => { x with poison := insertRising (line % (CLU_BYTES / 64)) x.poison })
    p.report (.clu c) (c / 72) 1 2 p.beatNo (arg1Of line (b2n inList)) false false

/-- Step 3 of R383: the spare runs one live entry of the operand map again. -/
def Package.reloadEntry (c k : Nat) (p : Package) (e : MapEntry) : Package :=
  let p := p.modCore c k (fun co => { co with layerPos := e.layer })
  match p.ctx c k with
  | none => p
  | some x =>
    match runCommand p c k x { word := e.word, index := 0, ordinal := 0, pred := true } with
    | .done q => q
    | .poisoned => p.cmdPoison c k x
    | _ => p

/-- Step 4 of R383: tokens and predicates come back from the record; registers 7 to 15 and the layer's gate are set again. -/
def Package.restoreCore (p : Package) (c k : Nat) (since : List CmdWord) (pt : ReplayPoint) : Package :=
  let p := p.modCore c k (fun co => { co with
    layerPos := pt.layerPos, index := pt.index, ordinal := pt.ordinal, left := pt.left - since.length, tokens := pt.tokens, preds := pt.preds % 128,
    maskWord := pt.maskWord, behind := since, replaying := true })
  match p.ctx c k with
  | none => p
  | some x =>
    let preds := match p.phaseOf x with
      | some ph => p.phasePreds x ph ++ p.slotPreds x
      | none => []
    p.modCore c k (fun co =>
      let co := co.setPreds 7 preds
      if x.layer.predicated && x.dir = .bwd && !x.recompute && x.run.isNone then { co with skip := !p.recordedGate x } else co)

/-- The replay is over once every replayed command has left the core. -/
def Package.replayDone (p : Package) (c k : Nat) : Package :=
  let co := p.core c k
  if co.queuesEmpty && co.behind.isEmpty && co.seq.isNone then p.setCore c k { co with replaying := false } else p

/-- The phase or RUN of a core is still the one that its cluster serves, and the core may take its commands. -/
def Package.resumes (p : Package) (c k : Nat) : Bool := match p.ctx c k with
  | some x => p.serves c k x
  | none => false

/-- The spare runs the operand map and replays the commands since the replay point (R383); the repair ends (R386). -/
def coreRepairDone (dt c : Nat) (p : Package) : Package :=
  let p := p.pass dt
  match (p.clu c).refill with
  | none => p
  | some r =>
    let k := r.spare
    let co := p.core c k
    let p := (p.modClu c (fun x => { x with refill := none })).put (CLU_STATUS_STATE c) 0
    let p := p.wr (CLU_LAST c) (cluLast r.core k r.position r.cause r.compound false ((p.clock - r.startAt) / Config.usUnits))
    let p := { p with runs := p.runs.map (fun (q : RunJob) =>
      if 72 * q.die + q.first ≤ c && c < 72 * q.die + q.first + q.count then { q with replayed := true } else q) }
    if co.point.layerPos = 0 || !p.resumes c k then p
    else
      let p := p.modCore c k (fun co => { co with opMap := [] })
      let p := p.each co.opMap (Package.reloadEntry c k)
      if (p.core c k).stopped then p
      else
        let p := (p.restoreCore c k co.since co.point).bump64 (CLU_REPLAYED_CMDS c) co.since.length
        (p.run c k).replayDone c k

/-- The turn of the oldest queued fault (R387). -/
def queuedFaultServe (dt c : Nat) (p : Package) : Package :=
  let p := p.pass dt
  match (p.clu c).refill, (p.clu c).queued with
  | none, (k, cause, at') :: rest =>
    ((p.modClu c (fun x => { x with queued := rest })).showQueued c).serveFault c k cause at' true
  | _, _ => p

/-! ### The Assay (R177, R178) -/

/-- A check ends. `upset`: some element that the array summed differs from its recomputation beyond what the exact sums explain. -/
def assayCheckDone (dt c k : Nat) (upset : Bool) (p : Package) : Package :=
  let p := p.pass dt
  match (p.core c k).assay with
  | none => p
  | some j =>
    let p := (p.modCore c k (fun co => { co with assay := none })).bump64 NUM_ASSAY_SAMPLES 1
    if !upset && !j.sums.any Sampled.diverges then p
    else
      let last := c % 2 ^ 12 + 2 ^ 12 * k + 2 ^ 17 * j.stage + 2 ^ 22 * (j.step % 2 ^ 42)
      let p := (p.bump64 NUM_ASSAY_DIVERGE_COUNT 1).wr NUM_ASSAY_LAST last
      let p := p.raise .num EV_NUM_ASSAY_DIVERGE last (arg1Of j.stage c)
      let p := p.report .num (c / 72) 1 EV_NUM_ASSAY_DIVERGE last (arg1Of j.stage c) false false
      let act := p.get NUM_ASSAY_CFG_ACTION
      let p := if act = 2 then { p with num := { p.num with nonfinite := insertRising j.step p.num.nonfinite } } else p
      if act = 1 || act = 2 then p.coreFault c k 3 else p

/-! ### The hub die and the error log (R392 to R397) -/

/-- A FATAL report of a die; the hub die's stops the package (R397). -/
def Package.reportFatal (p : Package) (g : Page) (d cause a0 a1 : Nat) : Package :=
  let p := p.report g d 2 cause a0 a1 false false
  if d = 8 then (p.put (ERR_STATUS_FATAL 8) 1).raise (.err 8) EV_ERR_FATAL p.beatNo (arg1Of 8 cause) else p

def hubFatal (dt cause : Nat) (p : Package) : Package :=
  let p := p.pass dt
  p.reportFatal (.err 8) 8 cause p.beatNo 0

/-- Software reaches a die's log: not while the die is fenced (R392). -/
def Package.errReach (p : Package) (d : Nat) : Bool := decide (d = 8) || (p.dieFitted d && !p.dieFenced d)

/-- The log slots that entries from head to a new head hold. -/
def freedSlots (head n : Nat) : List Nat := (List.range n).map (fun i => (head + i) % 2 ^ 16 % 1008)

/-- A write of `ERR_LOG_HEAD`: a head beyond the tail is ignored; the entries before it are freed (R396). -/
def errLogHead (d v : Nat) (p : Package) : Package :=
  let head := p.rd (ERR_LOG_HEAD d)
  let n := (v % 2 ^ 16 + 2 ^ 16 - head) % 2 ^ 16
  if !p.errReach d || p.errUsed d < n then p
  else
    let gone := freedSlots head n
    let l := p.errLog d
    let l := { l with slots := gone.foldl mapDel l.slots }
    ((p.setErrLog d l).wr (ERR_LOG_HEAD d) (v % 2 ^ 16)).errStatus d

/-- `ERR_FATAL_CLEAR` frees the fatal slots, only while `ERR_STATUS.FATAL` is clear (R396). -/
def errFatalClear (d : Nat) (p : Package) : Package :=
  if !p.errReach d || p.has (ERR_STATUS_FATAL d) then p
  else
    let l := p.errLog d
    let l := { l with slots := l.slots.filter (fun e => e.1 < 1008), fatalUsed := 0 }
    (p.setErrLog d l).errStatus d

/-- The life-cycle state TEST (Table 17-7). -/
def LC_TEST : Nat := 0

/-- A write of `ERR_INJECT`: a report of block ERR; class 2 is ignored outside TEST, class 3 names no class (Table 15-6). -/
def errInject (d v : Nat) (p : Package) : Package :=
  let cls := v % 4
  let cause := bitsOf v 16 16
  if !p.errReach d || cls = 3 || (cls = 2 && p.get PWR_STATUS_LC_STATE ≠ LC_TEST) then p
  else if cls = 2 then p.reportFatal (.err d) d cause p.beatNo 0
  else p.report (.err d) d cls cause p.beatNo 0 false false

/-! ### The commands' meanings -/

def execAssayCheckDone (dt cluster core : Nat) (upset : Bool) (s : State) := onPkg (assayCheckDone dt cluster core upset) s
def execLockstepMismatch (dt cluster core : Nat) (s : State) := onPkg (lockstepMismatch dt cluster core) s
def execWatchdogExpiry (dt cluster core : Nat) (s : State) := onPkg (watchdogExpiry dt cluster core) s
def execCoreEccError (dt cluster core : Nat) (double : Bool) (s : State) := onPkg (coreEcc dt cluster core double) s
def execClusterEccError (dt cluster line : Nat) (double inList : Bool) (s : State) := onPkg (clusterEcc dt cluster line double inList) s
def execCoreRepairDone (dt cluster : Nat) (s : State) := onPkg (coreRepairDone dt cluster) s
def execQueuedFaultServe (dt cluster : Nat) (s : State) := onPkg (queuedFaultServe dt cluster) s
def execHubFatal (dt cause : Nat) (s : State) := onPkg (hubFatal dt cause) s
def execErrLogHeadWrite (die value : Nat) (s : State) := onPkg (errLogHead die value) s
def execErrFatalClear (die : Nat) (s : State) := onPkg (errFatalClear die) s
def execErrInject (die value : Nat) (s : State) := onPkg (errInject die value) s

end Sys2Proof.Machine
end

