-- ==== Sys2Proof/Machine/Rings.lean ====
section
/-! DEFINITION. Command rings (R354 to R365): completion records, aborts, the drain, and what every command class shares. The classes
themselves are in `Machine/Ring.lean`. -/

namespace Sys2Proof.Machine

open Sys2Proof

/-- Ring states (Table 14-19). -/
def RING_DISABLED : Nat := 0
def RING_ACTIVE : Nat := 1
def RING_DRAINING : Nat := 2
def RING_HALTED : Nat := 3

/-- Completion statuses (Table 14-10). -/
def ST_OK : Nat := 0
def ST_ABORTED : Nat := 1
def ST_ALREADY_DONE : Nat := 2
def ST_REJECTED_DISABLED : Nat := 3
def ST_ABORTED_BY_DISABLE : Nat := 4
def ST_DIE_ISOLATED : Nat := 5
def ST_BAD_DESCRIPTOR : Nat := 6
def ST_REFUSED_ADDR : Nat := 7
def ST_POISON : Nat := 8
def ST_MISMATCH : Nat := 9
def ST_NOT_PERMITTED : Nat := 10
def ST_FAILED : Nat := 11
def ST_ABORTED_BY_RESET : Nat := 12

/-- Command classes (Table 14-7). -/
def CC_NOP : Nat := 0x00
def CC_COPY : Nat := 0x01
def CC_FILL : Nat := 0x02
def CC_CHECK : Nat := 0x03
def CC_RUN : Nat := 0x08
def CC_BIST : Nat := 0x10
def CC_CAPTURE : Nat := 0x20
def CC_RESTORE : Nat := 0x21
def CC_REWIND : Nat := 0x30

def Package.ringSt (p : Package) (d : Nat) : RingSt := mapGet {} p.rings d
def Package.setRing (p : Package) (d : Nat) (r : RingSt) : Package := { p with rings := mapSet {} p.rings d r }

/-- Refresh INFLIGHT and ABORTS of `DIE_RING_STATUS`. -/
def Package.showRing (p : Package) (d : Nat) : Package :=
  let r := p.ringSt d
  (p.put (DIE_RING_STATUS_INFLIGHT d) r.inflight.length).put (DIE_RING_STATUS_ABORTS d) r.aborts.length

def Package.modRing (p : Package) (d : Nat) (f : RingSt → RingSt) : Package := (p.setRing d (f (p.ringSt d))).showRing d

def Package.ringState (p : Package) (d : Nat) : Nat := p.get (DIE_RING_STATUS_STATE d)
def Package.setRingState (p : Package) (d st : Nat) : Package := p.put (DIE_RING_STATUS_STATE d) st

/-- Is there a ring on die d: the hub die's is 8. -/
def Package.ringFitted (p : Package) (d : Nat) : Bool := decide (d = 8) || p.dieFitted d

/-- Depths of the command ring and of the completion ring. -/
def Package.ringDepth (p : Package) (d : Nat) : Nat := 2 ^ p.get (DIE_RING_CFG_DEPTH_LOG2 d)
def Package.cqDepth (p : Package) (d : Nat) : Nat := 2 ^ p.get (DIE_RING_CFG_CQ_DEPTH_LOG2 d)

/-- Entries between head and tail. -/
def Package.ringQueued (p : Package) (d : Nat) : Nat := ((p.ringSt d).tail + 2 ^ 16 - p.rd (DIE_RING_HEAD d)) % 2 ^ 16

/-- The address of entry e of a ring. -/
def Package.ringEntry (p : Package) (d e : Nat) : Nat := p.rd (DIE_RING_BASE d) + 64 * (e % p.ringDepth d)

/-- Records held in the completion ring. -/
def Package.cqUsed (p : Package) (d : Nat) : Nat := (p.rd (DIE_CQ_TAIL d) + 2 ^ 16 - p.rd (DIE_CQ_HEAD d)) % 2 ^ 16

/-- A completion record (Table 14-9). -/
def CqRec.toBytes (r : CqRec) (phase beat : Nat) : List Byte :=
  leBytes 2 r.tag ++ leBytes 1 r.status ++ leBytes 1 (phase + 2 * b2n r.abortResult + 4 * b2n r.replayed + 8 * b2n r.errLogged) ++ leBytes 4 r.result
    ++ leBytes 6 beat ++ leBytes 1 r.cls ++ leBytes 1 0

/-- Write a record into the completion ring; a ring that R222 refuses receives nothing. -/
def Package.writeRec (p : Package) (d : Nat) (r : CqRec) : Package :=
  let tail := p.rd (DIE_CQ_TAIL d)
  let a := p.rd (DIE_CQ_BASE d) + 16 * (tail % p.cqDepth d)
  if !p.rangeOk a 16 then p
  else
    let phase := if tail / p.cqDepth d % 2 = 0 then 1 else 0
    let p := (p.storeBy d a (r.toBytes phase p.beatNo)).wr (DIE_CQ_TAIL d) ((tail + 1) % 2 ^ 16)
    let p := p.bump64 (DIE_CQ_WAIT_NS d) ((p.clock - r.since) / Config.nsUnits)
    if r.abortResult then p
    else
      let p := p.bump64 (DIE_CMDS_DONE d) 1
      if r.status = ST_ABORTED || r.status = ST_ABORTED_BY_DISABLE then p.bump64 (DIE_CMDS_ABORTED d) 1 else p

/-- The record has reached the ring: its command is in flight no more, and an abort that is still pending answers ALREADY_DONE, or
ABORTED where it stopped the command (R363). -/
def Package.recordOut (p : Package) (d : Nat) (r : CqRec) : Package :=
  if r.abortResult then p
  else
    let st := p.ringSt d
    let owed := st.aborts.contains r.tag
    let res : CqRec := { r with status := if r.status = ST_ABORTED then ST_ABORTED else ST_ALREADY_DONE, result := 0, abortResult := true,
                                 replayed := false, errLogged := false, since := p.clock }
    p.modRing d (fun x => { x with inflight := x.inflight.filter (fun c => c.tag ≠ r.tag), aborts := x.aborts.filter (· ≠ r.tag),
                                   waiting := if owed then res :: x.waiting else x.waiting })

/-- Write the records that wait, oldest first, while the completion ring has space. -/
def Package.flushCq (d : Nat) : Nat → Package → Package
  | 0, p => p
  | fuel + 1, p =>
    match (p.ringSt d).waiting with
    | [] => p
    | r :: rest =>
      if p.cqDepth d ≤ p.cqUsed d then p
      else Package.flushCq d fuel (((p.modRing d (fun x => { x with waiting := rest })).writeRec d r).recordOut d r)

/-- A ring that drains becomes DISABLED when no command is in flight and none is left unfetched (R365). A committed ENABLE of 1 that
came meanwhile makes it ACTIVE again. -/
def Package.ringIdle (p : Package) (d : Nat) : Package :=
  let r := p.ringSt d
  if p.ringState d = RING_DRAINING && r.inflight.isEmpty && p.ringQueued d = 0 then
    (p.modRing d (fun x => { x with reopen := false })).setRingState d (if r.reopen then RING_ACTIVE else RING_DISABLED)
  else p

/-- Send what waits, then see whether the ring has drained. -/
def Package.settleRing (p : Package) (d : Nat) : Package := (p.flushCq d (2 * (p.ringSt d).waiting.length + 2)).ringIdle d

/-- A command ends: its record goes out, or waits behind those that wait. -/
def Package.ringEnd (p : Package) (d tag cls status result : Nat) (replayed errLogged : Bool) : Package :=
  let r : CqRec := { tag := tag, status := status, result := result % 2 ^ 32, cls := cls, abortResult := false, replayed := replayed,
                     errLogged := errLogged, since := p.clock }
  (p.modRing d (fun x => { x with waiting := x.waiting ++ [r] })).settleRing d

/-- A command in flight by its tag. -/
def Package.ringCmd (p : Package) (d tag : Nat) : Option RingCmd := (p.ringSt d).inflight.find? (fun c => c.tag = tag)

def Package.modCmd (p : Package) (d tag : Nat) (f : RingCmd → RingCmd) : Package :=
  p.modRing d (fun x => { x with inflight := x.inflight.map (fun c => if c.tag = tag then f c else c) })

/-- A command has ended inside the package with a status; COMMAND_COMPLETE writes its record. -/
def Package.cmdDone (p : Package) (d tag status result : Nat) : Package := p.modCmd d tag (fun c => { c with done := some (status, result) })

/-- A command of the hub die's ring ends, if there is one. -/
def Package.hubDone (p : Package) (tag : Option Nat) (status result : Nat) : Package := match tag with
  | some t => p.cmdDone 8 t status result
  | none => p

/-- A BIST run leaves its die: `BIST_LAST` names its outcome, 3 FAILED or 4 aborted, with a cause and the failing cores (R445). -/
def Package.bistStop (p : Package) (d : Nat) (b : BistRun) (outcome cause fails : Nat) : Package :=
  let c := 72 * d + b.cluster
  let last := d + 2 ^ 8 * b.cluster + 2 ^ 16 * b.core.getD 0 + 2 ^ 21 * b2n b.core.isSome + 2 ^ 24 * outcome + 2 ^ 28 * cause + 2 ^ 32 * fails
    + 2 ^ 50 * p.get (CLU_STATUS_SPARES c)
  let p := match b.pausedAt with
    | some t => p.bump64 BIST_PAUSE_NS ((p.clock - t) / Config.nsUnits)
    | none => p
  let p := (({ p with bists := mapDel p.bists d }.setBit BIST_STATUS d false).setBit BIST_STATUS (8 + d) false).wr BIST_LAST last
  if outcome < 3 then p.raise .bist EV_BIST_RUN_DONE last (arg1Of d b.cluster)
  else p.raise .bist EV_BIST_RUN_FAILED last (arg1Of d cause)

/-- End the work of a command that is stopped before it has ended: a RUN's cores, a BIST run, a REWIND. A capture and a restore
are stopped by the SNAP unit. -/
def Package.stopWork (p : Package) (d : Nat) (c : RingCmd) : Package :=
  if c.cls = CC_RUN then { p with runs := p.runs.filter (fun (r : RunJob) => !(r.ring = d && r.tag = c.tag)) }
  else if c.cls = CC_BIST then
    match mapFind p.bists d with
    | some b => if b.tag = c.tag then p.bistStop d b 4 0 0 else p
    | none => p
  else if c.cls = CC_REWIND then { p with rewind := none }
  else if c.cls = CC_CAPTURE then
    { p with snap := { p.snap with capture := match p.snap.capture with
      | some x => if x.tag = some c.tag then none else some x
      | none => none } }
  else if c.cls = CC_RESTORE then { p with snap := { p.snap with restore := none } }
  else p

/-- Every command of a die's ring that has not completed ends with one status (R324, R428). Its completion ring may be out of reach:
the answer counts the records lost. -/
def Package.endRing (p : Package) (d status : Nat) : Package × Nat :=
  let r := p.ringSt d
  let open' := r.inflight.filter (fun c => !r.waiting.any (fun w => !w.abortResult && w.tag = c.tag))
  let before := p.rd (DIE_CQ_TAIL d)
  let p := p.each open' (fun p c => p.stopWork d c)
  let p := p.each open' (fun p c => p.modRing d (fun x => { x with waiting := x.waiting ++ [
    { tag := c.tag, status := status, result := 0, cls := c.cls, abortResult := false, replayed := false, errLogged := false, since := p.clock }] }))
  let total := (p.ringSt d).waiting.length
  let p := p.settleRing d
  let wrote := (p.rd (DIE_CQ_TAIL d) + 2 ^ 16 - before) % 2 ^ 16
  ((p.modRing d (fun x => { x with inflight := [], waiting := [], aborts := [] })), total - min total wrote)

end Sys2Proof.Machine
end

