-- ==== Sys2Proof/Machine/Pour.lean ====
section
/-! DEFINITION. The Pour engines (10_memory_stacks.md, R236 to R245) and the tie folds that share them (08_backward_pass.md, R192 to R194). -/

namespace Sys2Proof.Machine

open Sys2Proof

/-! ### Elements in memory -/

/-- Values of `n` elements of a payload code; an MX payload carries its block scales behind them at the next 64-byte boundary. -/
def decodeElems (code n : Nat) (bs : List Byte) : List Fp :=
  let codes := unpackCodes (bitsOfCode code) n bs
  let scales := (bs.drop (roundUp (spanOf code n) 64)).map (·.toNat)
  match fmtOf code with
  | none => codes.map (fun _ => .nan)
  | some f =>
    if isMX code then codes.mapIdx (fun i c =>
      let s := listAt 0 scales (i / 32)
      if s = 0xFF then .nan else (match f.decode c with
        | .fin g m e => .fin g m (e + ((s : Int) - 127))
        | v => v))
    else codes.map f.decode

/-- Bytes of a payload of `n` elements, block scales included. -/
def payloadBytes (code n : Nat) : Nat := if isMX code then roundUp (spanOf code n) 64 + n / 32 else spanOf code n

/-- The bytes of codes and block scales as a payload. -/
def packPayload (code : Nat) (codes scales : List Nat) : List Byte :=
  let e := packCodes (bitsOfCode code) codes
  if isMX code then e ++ List.replicate (roundUp e.length 64 - e.length) 0 ++ scales.map (BitVec.ofNat 8) else e

/-! ### Region descriptors (R237, Table 10-6) and hyperparameters (R238) -/

structure Region where
  layer : Nat
  form : Nat
  flags : Nat
  stage : Nat
  gradFmt : Nat
  verFmt : Nat
  gradBufs : Nat
  hp : Nat
  slot : Nat
  cols : Nat
  elements : Nat
  master : Nat
  mom1 : Nat
  mom2 : Nat
  grads : List Nat
  verOfs : Nat
  freeze : Nat
  metaAt : Nat
  t : Nat
  reservedZero : Bool
deriving DecidableEq, Repr

def Region.ofBytes (b : List Byte) : Region :=
  { layer := fieldAt b 0 2, form := fieldAt b 2 1, flags := fieldAt b 3 1, stage := fieldAt b 4 1 % 32, gradFmt := fieldAt b 5 1,
    verFmt := fieldAt b 6 1, gradBufs := fieldAt b 7 1, hp := fieldAt b 8 2, slot := fieldAt b 10 2, cols := fieldAt b 12 4,
    elements := fieldAt b 16 8 % 2 ^ 40, master := fieldAt b 24 8, mom1 := fieldAt b 32 8, mom2 := fieldAt b 40 8,
    grads := [fieldAt b 48 8, fieldAt b 56 8, fieldAt b 64 8], verOfs := fieldAt b 72 8, freeze := fieldAt b 80 8, metaAt := fieldAt b 88 8,
    t := fieldAt b 96 6,
    reservedZero := decide (fieldAt b 3 1 < 64) && decide (fieldAt b 4 1 < 32) && decide (fieldAt b 16 8 < 2 ^ 40) && zerosAt b 102 26 }

def Region.masterBf16 (r : Region) : Bool := bitAt r.flags 0
def Region.momentsBf16 (r : Region) : Bool := bitAt r.flags 1
def Region.nesterov (r : Region) : Bool := bitAt r.flags 2
def Region.frozen (r : Region) : Bool := bitAt r.flags 3
def Region.sparse (r : Region) : Bool := bitAt r.flags 4
def Region.quarter (r : Region) : Bool := bitAt r.flags 5

/-- Where the region takes the gradient of step k. -/
def Region.grad (r : Region) (k : Nat) : Nat := listAt 0 r.grads (k % max 1 r.gradBufs)

def Package.regionAddr (p : Package) (i : Nat) : Nat := p.rd POUR_RTAB_BASE + 128 * i

def Package.region (p : Package) (i : Nat) : Option Region :=
  match p.load (p.regionAddr i) 128 with
  | .ok b => some (Region.ofBytes b)
  | _ => none

/-- Bytes of an element stored in FP32 or in BF16. -/
def wordBytes (bf16 : Bool) : Nat := if bf16 then 2 else 4

/-- Column factors of a FORM 3 region start at the next 64-byte boundary behind its row factors. -/
def Region.colFactors (r : Region) : Nat := r.mom2 + roundUp (4 * (r.elements / max 1 r.cols)) 64

/-- Bytes of the second moment or of the factors. -/
def Region.mom2Bytes (r : Region) : Nat :=
  if r.form = 3 then roundUp (4 * (r.elements / max 1 r.cols)) 64 + 4 * r.cols else wordBytes r.momentsBf16 * r.elements

/-- FORM 3 keeps a first moment where β1 is not 0. -/
def keepsMom1 (form beta1 : Nat) : Bool := form ≠ 3 || !(f32 beta1).isZero

/-- The state arrays that must lie in the region's stack: address and bytes. -/
def Region.arrays (r : Region) (beta1 : Nat) : List (Nat × Nat) :=
  [(r.master, wordBytes r.masterBf16 * r.elements)]
    ++ (if keepsMom1 r.form beta1 then [(r.mom1, wordBytes r.momentsBf16 * r.elements)] else [])
    ++ (if r.form = 1 || r.form = 3 then [(r.mom2, r.mom2Bytes)] else [])
    ++ (r.grads.take r.gradBufs).map (fun a => (a, payloadBytes r.gradFmt r.elements))
    ++ (if r.frozen then [(r.freeze, (r.elements + 7) / 8)] else [])

/-- The arrays that an image holds of a region: master weights and moments (Table 16-1). -/
def Region.stateArrays (r : Region) (beta1 : Nat) : List (Nat × Nat) :=
  [(r.master, wordBytes r.masterBf16 * r.elements)]
    ++ (if keepsMom1 r.form beta1 then [(r.mom1, wordBytes r.momentsBf16 * r.elements)] else [])
    ++ (if r.form = 1 || r.form = 3 then [(r.mom2, r.mom2Bytes)] else [])

/-- The stack of a region: that of its master weights. -/
def Region.stack (r : Region) : Nat := match physOf r.master with
  | some x => physStack x
  | none => 32

/-- An array lies whole in one stack: in the stack-direct view, or within one granule. -/
def inStack (k : Nat) (a n : Nat) : Bool := n = 0 || (stackPieces a n).all (fun e => e.1 = k) && decide (a + n ≤ 2 ^ 42)

/-- Dense elements of a sparse tile and its kept ones: 64 or 128 rows of 32 columns, of which 32 are stored (R117). -/
def Region.tileRows (r : Region) : Nat := if r.quarter then 128 else 64

/-- Bytes of the region's version output: dense, or the kept values of whole tiles (R117, R241). -/
def Region.verBytes (r : Region) : Nat :=
  if r.sparse then 2 * 1024 * ((r.elements + 32 * r.tileRows - 1) / (32 * r.tileRows)) else 2 * r.elements

/-- The nine FP32 values of a hyperparameter entry. -/
structure Hyper where
  lr : Nat
  beta1 : Nat
  beta2 : Nat
  eps : Nat
  lambda : Nat
  mu : Nat
  eps1 : Nat
  clipMax : Nat
  gradMul : Nat
deriving DecidableEq, Repr

def Hyper.ofBytes (b : List Byte) : Hyper :=
  let v := fun i => fieldAt b (4 * i) 4
  { lr := v 0, beta1 := v 1, beta2 := v 2, eps := v 3, lambda := v 4, mu := v 5, eps1 := v 6, clipMax := v 7, gradMul := v 8 }

def Package.hyperBytes (p : Package) (i : Nat) : Option (List Byte) :=
  match p.load (p.rd POUR_HP_BASE + 64 * i) 64 with
  | .ok b => some b
  | _ => none

/-! ### Engine status -/

/-- The engine of stack k works on this region of the oldest Pour that has one for it. -/
def Package.engineWork (p : Package) (k : Nat) : Option (PourJob × Nat) :=
  (p.pours.filterMap (fun j => (j.regions.find? (fun i => ((p.region i).map Region.stack) = some k)).map (fun i => (j, i)))).head?

/-- Stacks that hold a fold's use buffers. -/
def Package.foldStacks (p : Package) (f : Fold) : List Nat :=
  match p.tieBytes f.tie with
  | none => []
  | some b => ((tieUses b).flatMap (fun u => (stackPieces u.2.1 (4 * (fieldAt b 8 8 % 2 ^ 40))).map (·.1))).eraseDups

/-- Refresh the engines' status and `POUR_STATUS`. -/
def Package.showPour (p : Package) : Package :=
  let ks := (List.range 32).filter p.stackFitted
  let folding := p.folds.flatMap p.foldStacks
  let p := p.each ks (fun p k =>
    let w := p.engineWork k
    let p := { p with engSince := match w with
      | none => mapDel p.engSince k
      | some _ => if (mapFind p.engSince k).isSome then p.engSince else mapPut p.engSince k p.clock }
    ((p.put (POUR_ENG_STATUS_BUSY k) (b2n w.isSome)).put (POUR_ENG_STATUS_REGION k) ((w.map (·.2)).getD 0)).put (POUR_ENG_STATUS_FOLDING k)
      (b2n (folding.contains k)))
  (p.put POUR_STATUS_BUSY (b2n (!p.pours.isEmpty))).put POUR_STATUS_ENGINES (maskOf (ks.filter (fun k => (p.engineWork k).isSome)))

/-! ### The start and the end of a Pour (R236, R245) -/

/-- The Pour of a job whose regions are all done completes: `POUR_LAST`, `POUR_DONE`, and the flips of its stages wait for their tick;
a job with a failed region leaves out the stages of R243 and is incomplete. -/
def Package.finishPour (p : Package) (j : PourJob) : Package :=
  let p := { p with pours := p.pours.filter (fun q => q ≠ j) }
  let ok := j.failed.isEmpty
  let p := p.put POUR_STATUS_INCOMPLETE (b2n (!ok))
  let p := if ok then
      let us := min ((p.clock - j.startAt) / Config.usUnits) 0xFFFF
      let last := j.step % 2 ^ 48 + 2 ^ 48 * us
      ((p.wr POUR_LAST last).bump64 POUR_COUNT 1).raise .pour EV_POUR_DONE last 0
    else p
  p.each (j.stages.filter (fun s => !j.failed.contains s && p.stgState s ≠ STG_DISABLED))
    (fun p s => p.modStg s (fun x => { x with pourDone := some (j.step + 1, p.dtime) }))

/-- Complete every job with nothing left: no region, and no fold of its step. -/
def Package.checkPours (p : Package) : Package :=
  (p.each (p.pours.filter (fun j => j.regions.isEmpty && !(p.folds.any (fun f => f.step = j.step)))) Package.finishPour).showPour

/-- The Crucible hands the Pour engines a committed step (R236). Each hyperparameter entry is read now, as one line (R238). -/
def Package.startPour (p : Package) (step clip : Nat) (perRegion : Bool) : Package :=
  let stages := p.countingStages
  let rs := (List.range (p.rd POUR_RTAB_COUNT)).filterMap (fun i => (p.region i).map (fun r => (i, r)))
  let rs := rs.filter (fun e => stages.contains e.2.stage)
  let hps := (rs.map (fun e => e.2.hp)).eraseDups
  let hp := hps.foldl (fun (m : List (Nat × List Byte)) i => match p.hyperBytes i with
    | some b => mapPut m i b
    | none => m) []
  let j : PourJob := { step := step, clip := clip, perRegion := perRegion, startAt := p.clock, stages := stages, regions := rs.map (·.1), hp := hp }
  ({ p with pours := p.pours ++ [j] }).checkPours

/-! ### One region (R239 to R242) -/

/-- Values of an array as FP32 words. -/
def Package.loadWords (p : Package) (a n : Nat) (bf16 : Bool) : Option (List Nat) :=
  match p.load a (wordBytes bf16 * n) with
  | .ok bs => some (if bf16 then (unpackCodes 16 n bs).map (· * 65536) else unpackCodes 32 n bs)
  | _ => none

/-- State of an element before and after: master, first moment, second moment. -/
structure Elem where
  w : Nat
  m : Nat
  v : Nat
deriving DecidableEq, Repr

/-- The decoupled step of every form: w − lr·(u + λ·w). -/
def Hyper.apply (h : Hyper) (w u : Nat) : Nat := fsub w (fmul h.lr (fadd u (fmul h.lambda w)))

/-- (1 − β)·x. -/
def restOf (beta x : Nat) : Nat := fmul (fsub F32_ONE beta) x

/-- Sign of a value, with sign(0) = 0. -/
def fsign (x : Nat) : Nat := if f32IsNan x then F32_NAN else if (f32 x).isZero then 0 else if x.testBit 31 then 0xBF800000 else F32_ONE

/-- The update of one element (Table 10-7); `b1`, `b2` the bias factors, `uf` the factored form's u. -/
def updateElem (form : Nat) (nesterov : Bool) (h : Hyper) (b1 b2 g uf : Nat) (e : Elem) : Elem :=
  if form = 0 then
    let m := fadd (fmul h.mu e.m) g
    { w := h.apply e.w (if nesterov then fadd g (fmul h.mu m) else m), m := m, v := e.v }
  else if form = 1 then
    let m := fadd (fmul h.beta1 e.m) (restOf h.beta1 g)
    let v := fadd (fmul h.beta2 e.v) (restOf h.beta2 (fmul g g))
    { w := h.apply e.w (fdiv (fmul m b1) (fadd (fsqrt (fmul v b2)) h.eps)), m := m, v := v }
  else if form = 2 then
    { w := h.apply e.w (fsign (fadd (fmul h.beta1 e.m) (restOf h.beta1 g))), m := fadd (fmul h.beta2 e.m) (restOf h.beta2 g), v := e.v }
  else
    let u := if keepsMom1 3 h.beta1 then fadd (fmul h.beta1 e.m) (restOf h.beta1 uf) else uf
    { w := h.apply e.w u, m := if keepsMom1 3 h.beta1 then u else e.m, v := e.v }

/-- The draws of the engine for an array (0 master, 1 m, 2 v), R240. -/
def Package.pourDraw (p : Package) (r : Region) (idx step arr i : Nat) : Nat :=
  drawOf (philox (p.rd NUM_SEED) (i / 8) (r.layer % 2 ^ 16 + 2 ^ 30 * 3) (arr + 2 ^ 16 * (idx % 2 ^ 16))
    (p.streamStep step % 2 ^ 27 + 2 ^ 27 * (r.stage % 32))) i

/-- A value as it is stored: FP32 as computed, BF16 rounded stochastically. -/
def storeRound (bf16 : Bool) (u v : Nat) : Nat := if bf16 then (fmtBF16.roundStoch u (f32 v)).1 * 65536 else v

/-- Bytes of stored values. -/
def wordsBytes (bf16 : Bool) (l : List Nat) : List Byte := if bf16 then packCodes 16 (l.map (· / 65536)) else packCodes 32 l

/-- Mean of FP32 values, added in an order that is not fixed. -/
def fmean (seed : Nat) (l : List Nat) : Nat := fdiv (sumFree seed l.length l) (r32 (.fin false l.length 0))

/-- New row and column factors of a FORM 3 region and the u of every element (Table 10-7). -/
def factored (seed : Nat) (h : Hyper) (cols : Nat) (g rows colsF : List Nat) : List Nat × List Nat × List Nat :=
  let nr := g.length / max 1 cols
  let sq := g.map (fun x => fadd (fmul x x) h.eps1)
  let r' := (List.range nr).map (fun i => fadd (fmul h.beta2 (listAt 0 rows i)) (restOf h.beta2 (fmean (seed + i) ((sq.drop (cols * i)).take cols))))
  let c' := (List.range cols).map (fun j => fadd (fmul h.beta2 (listAt 0 colsF j))
    (restOf h.beta2 (fmean (seed + nr + j) ((List.range nr).map (fun i => listAt 0 sq (cols * i + j))))))
  let mr := fmean (seed + nr + cols) r'
  (r', c', g.mapIdx (fun i x => fdiv x (fsqrt (fdiv (fmul (listAt 0 r' (i / max 1 cols)) (listAt 0 c' (i % max 1 cols))) mr))))

/-- The version's bytes: the new master in VER_FMT, dense or only the kept elements that META names (R117, R241). -/
def versionBytes (r : Region) (metaBytes : List Byte) (w : List Nat) : List Byte :=
  let code := fun (x : Nat) => (if r.verFmt = 6 then fmtFP16 else fmtBF16).round (f32 x)
  if !r.sparse then packCodes 16 (w.map code)
  else
    let d := 32 * r.tileRows
    packCodes 16 ((List.range ((r.elements + d - 1) / d)).flatMap (fun t => (List.range 1024).map (fun q =>
      let j := q / 32
      let n := q % 32
      let word := fieldAt metaBytes (256 * t + 8 * n) 8
      let k := if r.quarter then 4 * j + bitsOf word (2 * j) 2 else 4 * (j / 2) + bitsOf word (4 * (j / 2) + 2 * (j % 2)) 2
      code (listAt 0 w (d * t + 32 * k + n)))))

/-- Bytes of the metadata of a sparse region. -/
def Region.metaBytes (r : Region) : Nat := if r.sparse then 256 * ((r.elements + 32 * r.tileRows - 1) / (32 * r.tileRows)) else 0

/-- The gradient g of R239 for each element before clipping. -/
def unclipped (gradMul : Nat) (e : Int) (grad : List Fp) : List Nat := grad.map (fun x => fmul (fmul (r32 x) (pow2w (-e))) gradMul)

/-- ‖g‖ in FP64, squares added in an order that is not fixed. -/
def normOf (seed : Nat) (g : List Nat) : Nat :=
  r64 (f64 (sumFreeBy dadd seed g.length (g.map (fun x => r64 ((f32 x).mul (f32 x)))))).sqrt

/-- The engine of stack k stops region i of a job (R243). -/
def Package.pourFail (p : Package) (k : Nat) (j : PourJob) (i : Nat) : Package :=
  let held := ((List.range (p.rd POUR_RTAB_COUNT)).filterMap p.region).filter (fun r => r.stack = k && p.stgState r.stage ≠ STG_DISABLED)
  let stages := (held.map Region.stage).eraseDups
  let p := { p with pours := p.pours.map (fun q => if q = j then { q with regions := q.regions.erase i, failed := q.failed ++ stages } else q) }
  let p := p.raise (.pourStack k) EV_POUR_FAIL j.step (arg1Of i 0)
  let p := (p.put POUR_STATUS_INCOMPLETE 1).each stages (fun p s => p.holdStage s 4)
  ({ p with engSince := mapDel p.engSince k }).checkPours

/-- β^t: exact or one rounded product up to t = 2, where every way of forming it agrees; free beyond. -/
def betaPow (b t : Nat) : Nat := if t = 1 then b else if t = 2 then fmul b b else (Config.betaPower b t).toNat

/-- The ranges that an update reads; a pass over the gradient for FORM 3 and one for per-region clipping come on top (R244). -/
def Region.ranges (r : Region) (beta1 step : Nat) (perRegion : Bool) : List (Nat × Nat) :=
  let g := (r.grad step, payloadBytes r.gradFmt r.elements)
  r.stateArrays beta1 ++ List.replicate (1 + b2n (decide (r.form = 3)) + b2n perRegion) g
    ++ (if r.frozen then [(r.freeze, (r.elements + 7) / 8)] else []) ++ (if r.sparse then [(r.metaAt, r.metaBytes)] else [])

/-- The update of a region: none where a read meets poison or a lost stack. -/
def Package.pourRegion (p : Package) (k : Nat) (j : PourJob) (i : Nat) (r : Region) : Option Package :=
  match mapFind j.hp r.hp, p.histBytes r.slot with
  | some hb, some hist =>
    let h := Hyper.ofBytes hb
    let n := r.elements
    let e := (p.decision r.stage j.step hist).1
    match p.load (r.grad j.step) (payloadBytes r.gradFmt n), p.loadWords r.master n r.masterBf16,
        (if keepsMom1 r.form h.beta1 then p.loadWords r.mom1 n r.momentsBf16 else some []),
        (if r.form = 1 then p.loadWords r.mom2 n r.momentsBf16 else some []),
        (if r.form = 3 then p.loadWords r.mom2 (n / max 1 r.cols) false else some []),
        (if r.form = 3 then p.loadWords r.colFactors r.cols false else some []),
        p.load r.freeze (if r.frozen then (n + 7) / 8 else 0), p.load r.metaAt r.metaBytes with
    | .ok gb, some ws, some ms, some vs, some rows, some cols, .ok fz, .ok mb =>
      let g0 := unclipped h.gradMul e (decodeElems r.gradFmt n gb)
      let c := if j.perRegion then clipFactor h.clipMax (normOf p.fresh g0) else j.clip
      let g := g0.map (fun x => fmul x c)
      let t := r.t + 1
      let bias := fun (b : Nat) => fdiv F32_ONE (fsub F32_ONE (betaPow b t))
      let b1 := bias h.beta1
      let b2 := bias h.beta2
      let fac := if r.form = 3 then factored (p.fresh + 1) h r.cols g rows cols else ([], [], [])
      let old := (List.range n).map (fun q => ({ w := listAt 0 ws q, m := listAt 0 ms q, v := listAt 0 vs q } : Elem))
      let isFrozen := fun (q : Nat) => r.frozen && bitAt (listAt 0 fz (q / 8)).toNat (q % 8)
      let new := old.mapIdx (fun q x =>
        let y := updateElem r.form r.nesterov h b1 b2 (listAt 0 g q) (listAt 0 fac.2.2 q) x
        ({ w := storeRound r.masterBf16 (p.pourDraw r i j.step 0 q) y.w, m := storeRound r.momentsBf16 (p.pourDraw r i j.step 1 q) y.m,
           v := storeRound r.momentsBf16 (p.pourDraw r i j.step 2 q) y.v } : Elem))
      let okay := fun (y : Elem) => f32Finite y.w && f32Finite y.m && f32Finite y.v
      let kept := (old.zip new).mapIdx (fun q y => if isFrozen q || !okay y.2 then y.1 else y.2)
      let nFrozen := ((List.range n).filter isFrozen).length
      let nBad := ((List.range n).filter (fun q => !isFrozen q && !((new[q]?).map okay).getD true)).length
      let p := (p.countReads (r.ranges h.beta1 j.step j.perRegion)).store r.master (wordsBytes r.masterBf16 (kept.map Elem.w))
      let p := if keepsMom1 r.form h.beta1 then p.store r.mom1 (wordsBytes r.momentsBf16 (kept.map Elem.m)) else p
      let p := if r.form = 1 then p.store r.mom2 (wordsBytes r.momentsBf16 (kept.map Elem.v)) else p
      let p := if r.form = 3 then (p.store r.mom2 (wordsBytes false fac.1)).store r.colFactors (wordsBytes false fac.2.1) else p
      let p := match p.pendingSlot r.stage with
        | none => p
        | some s =>
          let a := p.vslotAddr r.stage s + r.verOfs
          let vb := versionBytes r mb (kept.map Elem.w)
          let p := p.tryStoreBy (k / 4) a vb
          if r.sparse then p.tryStoreBy (k / 4) (a + roundUp vb.length 64) mb else p
      let p := p.tryStore (p.regionAddr i + 96) (leBytes 6 t)
      let p := (p.bump64 (POUR_ENG_ELEMS k) n).bump64 POUR_FROZEN_ELEMS nFrozen
      let p := if 0 < nBad then (p.bump64 POUR_NONFINITE_ELEMS nBad).raise (.pourStack k) EV_POUR_NONFINITE j.step (arg1Of i 0) else p
      some { p with fresh := p.fresh + 2 + (if r.form = 3 then n / max 1 r.cols + r.cols + 1 else 0) }
    | _, _, _, _, _, _, _, _ => none
  | _, _ => none

/-- The ranges that the engine reads for a region, for what the line code finds there. -/
def Package.regionReads (p : Package) (r : Region) : List (Nat × Nat) :=
  [(r.master, wordBytes r.masterBf16 * r.elements), (r.mom1, wordBytes r.momentsBf16 * r.elements), (r.mom2, r.mom2Bytes)]
    ++ r.grads.map (fun a => (a, payloadBytes r.gradFmt r.elements)) ++ [(r.freeze, (r.elements + 7) / 8), (r.metaAt, r.metaBytes)]
    ++ (p.hyperBytes r.hp).toList.map (fun b => (p.rd POUR_HP_BASE + 64 * r.hp, b.length))

/-- A capture still has to read the section of a type and index (R410). -/
def Package.snapHolds (p : Package) (typ index : Nat) : Bool := match p.snap.capture with
  | some c => c.todo.any (fun s => s.typ = typ && s.index = index)
  | none => false

/-- A region is done: its engine's cycles count, and the region leaves its Pour. -/
def Package.engineDone (p : Package) (k : Nat) (j : PourJob) (i : Nat) : Package :=
  let ran := (p.clock - mapGet p.clock p.engSince k) * 16 / 2560
  let p := p.bump64 (POUR_ENG_CYCLES k) ran
  ({ p with pours := p.pours.map (fun x => if x = j then { x with regions := x.regions.erase i } else x),
            engSince := mapDel p.engSince k }).checkPours

/-- The engine of stack k ends its region: completed, or stopped on poison or a lost stack. -/
def pourRegionDone (dt k : Nat) (found : List (Nat × LineCheck)) (p : Package) : Package :=
  let p := p.pass dt
  match p.engineWork k with
  | none => p
  | some (j, i) =>
    match p.region i with
    | none => p
    | some r =>
      -- the PENDING slot is still that of a Pour whose flip is deferred
      if p.fatal || (p.stg r.stage).pourDone.isSome || p.snapHolds 0x06 i then p
      else
        let p := p.each (p.regionReads r) (fun p e => p.readFinds found e.1 e.2 MEM_BY_POUR)
        match (if p.dieFenced (k / 4) then none else p.pourRegion k j i r) with
        | none => p.pourFail k j i
        | some q => q.engineDone k j i

/-! ### Tie folds (R193) -/

/-- The tie's uses have all ended the last backward of one step that has not been folded yet. -/
def Package.foldReady (p : Package) (t : Nat) : Option (Nat × List Byte) :=
  if p.get BWD_CFG_TIES ≤ t || p.folds.any (fun f => f.tie = t) then none
  else match p.tieBytes t with
    | none => none
    | some b => match (tieUses b).map (fun u => (p.stg u.1).lastBackward) with
      | some k :: rest => if rest.all (· = some k) && mapGet 0 p.folded t ≠ k + 1 then some (k, b) else none
      | _ => none

def tieFold (dt t : Nat) (p : Package) : Package :=
  let p := p.pass dt
  match p.foldReady t with
  | none => p
  | some (k, b) =>
    if p.fatal then p
    else
      let f : Fold := { tie := t, tieId := fieldAt b 0 2, step := k, startAt := p.clock, stages := ((tieUses b).map (·.1)).eraseDups }
      (({ p with folds := p.folds ++ [f] }).setBit BWD_STATUS t true).showPour

/-- The folded sums ((u0 + u1) + u2) + u3 of the use buffers; none on poison or a refused address. -/
def Package.foldSums (p : Package) (b : List Byte) : Option (List Nat) :=
  let n := fieldAt b 8 8 % 2 ^ 40
  ((tieUses b).map (fun u => p.loadWords u.2.1 n false)).foldl (fun acc o => match acc, o with
    | some [], some l => some l
    | some a, some l => some ((a.zip l).map (fun e => fadd e.1 e.2))
    | _, _ => none) (some [])

/-- Write a fold's result and its statistics. -/
def Package.writeFold (p : Package) (f : Fold) (b : List Byte) (sums : List Nat) : Package :=
  let slot := fieldAt b 4 2
  let stage := listAt 0 f.stages 0
  match p.histBytes slot with
  | none => p
  | some hist =>
    let d := p.decision stage f.step hist
    let code := ladderCode d.2
    let xs := sums.map (fun v => f32 (fmul v (pow2w d.1)))
    let r := convertAll code false (fun _ => 0) (some (slot, d.1, d.2)) (p.ownExponent slot) (xs.map (fun _ => true)) xs
    let p := p.tryStore (bitsOf (fieldAt b 16 8) 6 42 * 64) (packPayload code r.1 r.2.1)
    let p := (p.when (decide (0 < r.2.2.2.1)) (fun p => p.bump64 NUM_NONFINITE_COUNT r.2.2.2.1)).when (decide (0 < r.2.2.2.2))
      (fun p => p.bump64 NUM_SAT_COUNT r.2.2.2.2)
    p.addStats slot f.step r.2.2.1

/-- The fold of a tie completes and hands DEST to the Crucible; a fold that meets poison stops as a region does (R243). -/
def tieFoldDone (dt t : Nat) (p : Package) : Package :=
  let p := p.pass dt
  match p.folds.find? (fun f => f.tie = t), p.tieBytes t with
  | some f, some b =>
    if p.fatal then p
    else
      let ks := p.foldStacks f
      let p := ({ p with folds := p.folds.filter (fun g => g.tie ≠ t) }).setBit BWD_STATUS t false
      match p.foldSums b with
      | none =>
        let p := p.raise (.pourStack (listAt 0 ks 0)) EV_POUR_FAIL f.step (arg1Of t 0)
        (p.each f.stages (fun p s => p.holdStage s 4)).checkPours
      | some sums =>
        let p := (p.countReads ((tieUses b).map (fun u => (u.2.1, 4 * (fieldAt b 8 8 % 2 ^ 40))))).writeFold f b sums
        let p := (p.each ks (fun p k => p.bump64 (POUR_ENG_FOLDS k) 1)).bump64 BWD_FOLD_COUNT 1
        let us := min ((p.clock - f.startAt) / Config.usUnits) 0xFFFF
        let p := p.wr BWD_FOLD_LAST (t % 64 + 2 ^ 8 * f.tieId + 2 ^ 24 * us + 2 ^ 40 * (f.step % 2 ^ 24))
        ({ p with folded := mapPut p.folded t (f.step + 1) }).checkPours
  | _, _ => p

/-! ### The commands' meanings -/

def execPourRegionDone (dt stack : Nat) (found : List (Nat × LineCheck)) (s : State) := onPkg (pourRegionDone dt stack found) s
def execTieFold (dt tie : Nat) (s : State) := onPkg (tieFold dt tie) s
def execTieFoldDone (dt tie : Nat) (s : State) := onPkg (tieFoldDone dt tie) s

end Sys2Proof.Machine
end

