-- ==== Sys2Proof/Machine/Gather.lean ====
section
/-! DEFINITION. The parameter gather (10_memory_stacks.md, R246 to R250): shard groups, the fetches of a flip, what members answer, replicas.
A GATHER message is a request (kind 0: stage, version, offset, length), a block (kind 1: stage, version, offset, poisoned, CRC-32C)
or an ABSENT answer (kind 2: stage, version, offset). -/

namespace Sys2Proof.Machine

open Sys2Proof

/-! ### The shard group (R246) -/

def Package.members' (p : Package) (s : Nat) : Nat := max 1 (p.get (GATHER_GRP_MEMBERS s))

def Package.selfMember (p : Package) (s : Nat) : Nat := p.get (GATHER_GRP_SELF s)

/-- Bytes of a shard. -/
def Package.shardBytes (p : Package) (s : Nat) : Nat := p.get (GATHER_GRP_SHARD_UNITS s) * 4096

/-- Entry i of the member table: node, alternate node, first-hop mask. -/
def Package.memberEntry (p : Package) (s i : Nat) : Option (Nat × Nat × Nat) :=
  match p.load (p.rd (GATHER_NODES s) + 8 * i) 8 with
  | .ok b =>
    let v := leNat b
    some (bitsOf v 0 12, bitsOf v 12 12, bitsOf v 24 24)
  | _ => none

/-- The member that owns a byte of a slot. -/
def Package.ownerOf (p : Package) (s ofs : Nat) : Nat :=
  let sh := p.shardBytes s
  if sh = 0 then 0 else min (ofs / sh) (p.members' s - 1)

/-- First byte and end of a member's shard in a slot of n bytes. -/
def Package.shardOf (p : Package) (s m n : Nat) : Nat × Nat :=
  (min n (m * p.shardBytes s), if m + 1 = p.members' s then n else min n ((m + 1) * p.shardBytes s))

/-! ### Status -/

def Package.gather (p : Package) (s : Nat) : GatherSt := mapGet {} p.gathers s
def Package.setGather (p : Package) (s : Nat) (g : GatherSt) : Package := { p with gathers := mapSet {} p.gathers s g }

/-- Refresh `GATHER_READY_s` and `GATHER_STATUS`. -/
def Package.showGather (p : Package) (s : Nat) : Package :=
  let g := p.gather s
  let n := p.layerCount s
  let p := ((p.put (GATHER_READY_VERSION s) g.version).put (GATHER_READY_READY_LAYERS s) (n - g.notReady.length)).put (GATHER_READY_ALL s)
    (b2n g.notReady.isEmpty)
  p.setBit GATHER_STATUS s (!(g.todo.isEmpty && g.out.isEmpty))

/-! ### Replicas (R250) -/

/-- Write bytes at an offset of a slot to every replica. -/
def Package.replicate (p : Package) (s a : Nat) (bs : List Byte) : Package :=
  p.each (bitsSet 8 (p.get (GATHER_GRP_REPL s))) (fun p d => (p.tryStoreBy 8 (replicaAddr d a) bs).bump64 GATHER_REPL_BYTES bs.length)

/-! ### The engine's requests (R247) -/

/-- Send the request of a block, to its member or, where the member answered ABSENT, to ALT_NODE. -/
def Package.askBlock (p : Package) (s version : Nat) (b : GatherBlk) : Package :=
  match p.memberEntry s b.member with
  | none => p
  | some (node, alt, mask) =>
    p.sendMask mask (if b.alt then alt else node) CLS_CONTROL 0 (.fields 0 [s, version, b.ofs, b.len] [])

/-- Put further blocks in flight, up to `GATHER_CFG.OUTSTANDING`. -/
def Package.pumpGather (p : Package) (s : Nat) : Package :=
  let g := p.gather s
  let room := p.get GATHER_CFG_OUTSTANDING - g.out.length
  let next := g.todo.take room
  let p := p.setGather s { g with todo := g.todo.drop room, out := g.out ++ next }
  (p.each next (fun p b => p.askBlock s g.version b)).showGather s

/-- A range cut at multiples of 4 KiB. -/
def pages (lo hi : Nat) : List (Nat × Nat) :=
  (List.range ((hi + 4095) / 4096 - lo / 4096)).filterMap (fun i =>
    let a := max lo ((lo / 4096 + i) * 4096)
    let b := min hi ((lo / 4096 + i + 1) * 4096)
    if a < b then some (a, b - a) else none)

/-- The blocks of a layer that lie in other members' shards. -/
def Package.layerBlocks (p : Package) (s i : Nat) : List GatherBlk :=
  match p.layer s i with
  | none => []
  | some l =>
    if !l.hasWeights then []
    else ((pages l.weightOffset (l.weightOffset + l.weightBytes)).filter (fun e => p.ownerOf s e.1 ≠ p.selfMember s)).map
      (fun e => { layer := i, member := p.ownerOf s e.1, ofs := e.1, len := e.2 })

/-- The gather of a flip (R247): layers with bytes in other shards are not ready; this package's own shard goes to its replicas. -/
def Package.startGather (p : Package) (s version : Nat) : Package :=
  let layers := List.range (p.layerCount s)
  let blocks := if p.members' s = 1 then [] else layers.flatMap (p.layerBlocks s)
  let p := p.setGather s { version := version, todo := blocks, out := [], more := (p.gather s).more, notReady := layers.filter (fun i => blocks.any (fun b => b.layer = i)) }
  let p := match p.slotOf s version with
    | none => p
    | some n =>
      if p.get (GATHER_GRP_REPL s) = 0 then p
      else
        let sh := p.shardOf s (p.selfMember s) (p.rd (STG_VSLOT_BYTES s))
        let a := p.vslotAddr s n + sh.1
        match p.load a (sh.2 - sh.1) with
        | .ok bs => p.replicate s a bs
        | _ => p
  if p.fatal then p.showGather s else p.pumpGather s

/-- The gather of the next version that a restore brought back, once the running one is complete. -/
def Package.nextGather (p : Package) (s : Nat) : Package :=
  let g := p.gather s
  match g.more with
  | [] => p
  | v :: r => if g.todo.isEmpty && g.out.isEmpty then (p.setGather s { g with more := r }).startGather s v else p

/-- The gathers of a restored stage at its first enable, one for each version held (R420). -/
def Package.restoredGather (p : Package) (s : Nat) : List Nat → Package
  | [] => p
  | v :: r =>
    if p.members' s = 1 then p.each (v :: r) (fun p v => p.startGather s v)
    else (p.setGather s { p.gather s with more := r }).startGather s v

/-! ### Failures (R247, R248) -/

/-- The gather of a stage fails. -/
def Package.gatherFail (p : Package) (s : Nat) : Package :=
  let g := p.gather s
  let p := p.setGather s { g with todo := [], out := [] }
  let p := (p.bump64 GATHER_FAIL_COUNT 1).raise .gather EV_GATHER_FAIL p.beatNo (arg1Of s 0)
  (p.holdStage s 4).showGather s

/-- Replace a block in flight by another request of it. -/
def Package.askAgain (p : Package) (s : Nat) (b b' : GatherBlk) : Package :=
  let g := p.gather s
  (p.setGather s { g with out := g.out.map (fun x => if x = b then b' else x) }).askBlock s g.version b'

/-- A member has not got a block: ALT_NODE is asked once (R248). -/
def Package.blockAbsent (p : Package) (s : Nat) (b : GatherBlk) : Package :=
  match p.memberEntry s b.member with
  | none => p.gatherFail s
  | some (_, alt, _) =>
    if b.alt || alt = 0xFFF then p.gatherFail s
    else (p.bump64 GATHER_RETRIES 1).askAgain s b { b with alt := true }

/-- The block in flight at an offset of a stage's gather. -/
def GatherSt.flying (g : GatherSt) (version ofs : Nat) : Option GatherBlk :=
  if g.version = version then g.out.find? (fun b => b.ofs = ofs) else none

/-! ### GATHER_BLOCK_RECEIVE -/

/-- A good block is written to the CURRENT slot and its replicas; a layer with no block missing is ready. -/
def Package.takeBlock (p : Package) (s : Nat) (b : GatherBlk) (data : List Byte) : Package :=
  let g := p.gather s
  match p.slotOf s g.version with
  | none => p
  | some n =>
    let a := p.vslotAddr s n + b.ofs
    let p := ((p.tryStoreBy 8 a data).bump64 GATHER_BYTES data.length).replicate s a data
    let out := g.out.filter (fun x => x ≠ b)
    let more := (g.todo ++ out).any (fun x => x.layer = b.layer)
    ((p.setGather s { g with out := out, notReady := if more then g.notReady else g.notReady.filter (fun i => i ≠ b.layer) }).pumpGather s).nextGather s

def gatherBlockReceive (dt s version ofs crc : Nat) (poisoned : Bool) (data : List Byte) (p : Package) : Package :=
  let p := p.pass dt
  match (p.gather s).flying version ofs with
  | none => p
  | some b =>
    if p.fatal then p
    else if !poisoned && data.length = b.len && crc32c data = crc then p.takeBlock s b data
    else if b.alt then p.gatherFail s
    else if b.again then p.blockAbsent s b
    else p.askAgain s b { b with again := true }

/-! ### GATHER_ABSENT_RECEIVE -/

def gatherAbsentReceive (dt s version ofs : Nat) (p : Package) : Package :=
  let p := p.pass dt
  match (p.gather s).flying version ofs with
  | none => p
  | some b => if p.fatal then p else p.blockAbsent s b

/-! ### GATHER_REQUEST_RECEIVE and GATHER_WAIT_EXPIRE (R248) -/

/-- The first-hop mask towards a node of the stage's shard group. -/
def Package.memberMask (p : Package) (s node : Nat) : Option Nat :=
  ((List.range (p.members' s)).filterMap (p.memberEntry s)).findSome? (fun e => if e.1 = node then some e.2.2 else none)

/-- Answer a fetch: over the requester's member entry, else by the route table. -/
def Package.answerFetch (p : Package) (node s len : Nat) (body : MsgBody) : Package :=
  match p.memberMask s node with
  | some m => p.sendMask m node CLS_GATHER len body
  | none => p.sendRoute node CLS_GATHER len body

def Package.answerAbsent (p : Package) (node s version ofs : Nat) : Package := p.answerFetch node s 0 (.fields 2 [s, version, ofs] [])

/-- Serve a fetch from the slot that holds the version: each block of at most 4 KiB with its CRC-32C, or with its poison. -/
def Package.serveFetch (p : Package) (node s n version ofs len : Nat) : Package :=
  p.each (pages ofs (ofs + len)) (fun p e =>
    let a := p.vslotAddr s n + e.1
    match p.load a e.2 with
    | .ok bs => (p.countReadBy 8 a e.2).answerFetch node s e.2 (.fields 1 [s, version, e.1, 0, crc32c bs] bs)
    | _ => p.answerFetch node s 0 (.fields 1 [s, version, e.1, 1, 0] []))

def gatherRequestReceive (dt node s version ofs len : Nat) (p : Package) : Package :=
  let p := p.pass dt
  if p.fatal then p
  else match p.slotOf s version with
    | some n => p.serveFetch node s n version ofs len
    | none =>
      if p.stgState s ≠ STG_DISABLED && p.currentVersion s < version then
        let f : HeldFetch := { node := node, stage := s, version := version, ofs := ofs, len := len, since := p.clock }
        { p with heldFetches := p.heldFetches ++ [f] }
      else p.answerAbsent node s version ofs

/-- Versions of a stage whose fetches are still being served: blocks of them wait to leave (R248). -/
def Package.servedVersions (p : Package) (s : Nat) : List Nat :=
  allLinks.flatMap (fun k => ((p.port k).vcs.flatMap (·.msgs)).filterMap (fun m =>
    match m.body with
    | .fields 1 (t :: v :: _) _ => if m.cls = CLS_GATHER && m.src = p.node && t = s then some v else none
    | _ => none))

/-- Fetches held for a version that the stage now holds are served; those for a version that it has passed over are answered ABSENT. -/
def Package.serveHeld (p : Package) (s : Nat) : Package :=
  let mine := p.heldFetches.filter (fun f => f.stage = s && decide (f.version ≤ p.currentVersion s))
  let p := { p with heldFetches := p.heldFetches.filter (fun f => !mine.contains f) }
  p.each mine (fun p f => match p.slotOf s f.version with
    | some n => p.serveFetch f.node s n f.version f.ofs f.len
    | none => p.answerAbsent f.node s f.version f.ofs)

/-- The oldest fetch held for a node and stage has waited WAIT_US: it is answered ABSENT. -/
def gatherWaitExpire (dt node s : Nat) (p : Package) : Package :=
  let p := p.pass dt
  match p.heldFetches.find? (fun f => f.node = node && f.stage = s) with
  | none => p
  | some f =>
    if p.clock < f.since + p.get GATHER_CFG_WAIT_US * Config.usUnits then p
    else ({ p with heldFetches := p.heldFetches.erase f }).answerAbsent f.node f.stage f.version f.ofs

/-! ### The commands' meanings -/

def execGatherRequestReceive (dt node stage version offset len : Nat) (s : State) := onPkg (gatherRequestReceive dt node stage version offset len) s
def execGatherWaitExpire (dt node stage : Nat) (s : State) := onPkg (gatherWaitExpire dt node stage) s
def execGatherBlockReceive (dt stage version offset crc : Nat) (poisoned : Bool) (data : List Byte) (s : State) :=
  onPkg (gatherBlockReceive dt stage version offset crc poisoned data) s
def execGatherAbsentReceive (dt stage version offset : Nat) (s : State) := onPkg (gatherAbsentReceive dt stage version offset) s

end Sys2Proof.Machine
end

