-- ==== Sys2Proof/Machine/Bucket.lean ====
section
/-! DEFINITION. Gradient reduction (11_gradient_reduction.md, R255 to R272, R279 to R281): buckets, contributions, admission, adding, rings,
deadlines and results. A CONTROL message of kind 10 asks for admission (index, step), kind 11 grants it; a REDUCE message of kind 0
carries part of a transmission: its header's 64 bytes, then the payload. -/

namespace Sys2Proof.Machine

open Sys2Proof

/-! ### Bucket descriptors (R255, Table 11-1) -/

structure Bucket where
  id : Nat
  stage : Nat
  flags : Nat
  keepLog2 : Nat
  resultFmt : Nat
  layerIndex : Nat
  region : Nat
  parts : Nat
  elements : Nat
  shardElems : Nat
  src : Nat
  stride : Nat
  destOfs : Nat
  riser : Nat
  reservedZero : Bool
deriving DecidableEq, Repr

def Bucket.ofBytes (b : List Byte) : Bucket :=
  { id := fieldAt b 0 4, stage := fieldAt b 4 1 % 32, flags := fieldAt b 5 1, keepLog2 := fieldAt b 6 1, resultFmt := fieldAt b 7 1,
    layerIndex := fieldAt b 8 2, region := fieldAt b 10 2, parts := fieldAt b 12 1, elements := fieldAt b 16 8 % 2 ^ 40,
    shardElems := fieldAt b 24 8 % 2 ^ 40, src := fieldAt b 32 8, stride := fieldAt b 40 8, destOfs := fieldAt b 48 8, riser := fieldAt b 56 8,
    reservedZero := decide (fieldAt b 4 1 < 32) && decide (fieldAt b 5 1 < 16) && zerosAt b 13 3 && decide (fieldAt b 16 8 < 2 ^ 40)
      && decide (fieldAt b 24 8 < 2 ^ 40) && decide (fieldAt b 32 8 % 64 = 0) && decide (fieldAt b 32 8 < 2 ^ 48)
      && decide (fieldAt b 56 8 % 4096 = 0) && decide (fieldAt b 56 8 < 2 ^ 48) }

def Bucket.tie (b : Bucket) : Bool := bitAt b.flags 0
def Bucket.topk (b : Bucket) : Bool := bitAt b.flags 1
def Bucket.algo (b : Bucket) : Nat := bitsOf b.flags 2 2
def Bucket.keep (b : Bucket) : Nat := 4096 / 2 ^ b.keepLog2

def Package.bucket (p : Package) (i : Nat) : Option Bucket :=
  if p.rd CRU_BTAB_COUNT ≤ i then none
  else match p.load (p.rd CRU_BTAB_BASE + 64 * i) 64 with
    | .ok b => some (Bucket.ofBytes b)
    | _ => none

/-- History slot of a bucket: of its layer, or of its tie entry. -/
def Package.bucketSlot (p : Package) (b : Bucket) : Option Nat :=
  if b.tie then (p.tieBytes b.layerIndex).map (fun t => fieldAt t 4 2) else (p.layer b.stage b.layerIndex).map Layer.numSlot

/-- Exponent and payload code of a bucket's slot for a step (R169). -/
def Package.bucketScale (p : Package) (b : Bucket) (step : Nat) : Option (Int × Nat) :=
  match p.bucketSlot b with
  | none => none
  | some s => (p.histBytes s).map (fun h => ((p.decision b.stage step h).1, ladderCode (p.decision b.stage step h).2))

/-- First element and end of the range that member t owns. -/
def Package.ownedRange (p : Package) (b : Bucket) (t : Nat) : Nat × Nat :=
  (min b.elements (t * b.shardElems), if t + 1 = p.members' b.stage then b.elements else min b.elements ((t + 1) * b.shardElems))

def rangeLen (r : Nat × Nat) : Nat := r.2 - r.1

/-! ### The reduction group and its backups (R246, R271) -/

/-- Backup node of member i and its first-hop mask. -/
def Package.backupEntry (p : Package) (s i : Nat) : Option (Nat × Nat) :=
  let base := bitsOf (p.rd (CRU_BACKUP s)) 0 48
  if base = 0 then none
  else match p.load (base + 8 * i) 8 with
    | .ok b => if bitsOf (leNat b) 0 12 = 0xFFF then none else some (bitsOf (leNat b) 0 12, bitsOf (leNat b) 24 24)
    | _ => none

/-- A member of the stage's group has a backup worker. -/
def Package.hasBackup (p : Package) (s : Nat) : Bool := (List.range (p.members' s)).any (fun i => (p.backupEntry s i).isSome)

/-- The owners of member t's range: node and first-hop mask. -/
def Package.ownersOf (p : Package) (s t : Nat) : List (Nat × Nat) :=
  ((p.memberEntry s t).toList.map (fun e => (e.1, e.2.2))) ++ (p.backupEntry s t).toList

/-- RING or DIRECT (R265). -/
def Package.usesRing (p : Package) (b : Bucket) : Bool :=
  b.algo = 2 || (b.algo = 0 && !b.topk && !p.hasBackup b.stage && decide (p.get CRU_CFG_DIRECT_MAX < p.members' b.stage))

/-! ### Checksums (R279, R280) and digests (R281) -/

/-- q(x): the nearest integer to x·2^F, ties to even, saturated to ±(2^62 − 1); 0 for a non-finite x. -/
def ibkarQ (frac : Nat) : Fp → Int
  | .fin neg m e =>
    let s := e + frac
    let n : Nat :=
      if 0 ≤ s then m * 2 ^ s.toNat
      else
        let d := 2 ^ (-s).toNat
        let q := m / d
        let r := 2 * (m % d)
        if d < r || (r = d && q % 2 = 1) then q + 1 else q
    let n : Int := (min n (2 ^ 62 - 1) : Nat)
    if neg then -n else n
  | _ => 0

/-- F of `CRU_CFG` where the feature IBKAR_CKSUM is accepted; without it the checksum fields are zero and no check runs (R344). -/
def Package.frac (p : Package) : Option Nat := if p.feature 22 then some (p.get CRU_CFG_FRAC) else none

/-- SUM and ABS of elements. -/
def ibkar : Option Nat → List Fp → Nat × Nat
  | none, _ => (0, 0)
  | some frac, xs =>
    let qs := xs.map (ibkarQ frac)
    (ofSigned 64 (qs.foldl (· + ·) 0), min (2 ^ 64 - 1) ((qs.map Int.natAbs).foldl (· + ·) 0))

/-- The checks of a sum over J contributions (R280): Δ, and whether it lies beyond the tolerance. -/
def checkSum (frac : Option Nat) (j : Nat) (acc : List Nat) (sumC absC : Nat) : Int × Bool :=
  if frac.isNone then (0, false)
  else
    let e := acc.length
    let d := toSigned 64 (ofSigned 64 ((((ibkar frac (acc.map f32)).1 : Nat) : Int) - (sumC : Int)))
    let num := (j + 1) * e * 2 ^ 23 + (j - 1) * 2 * (absC + j * e)
    (d, decide ((num + 2 ^ 24 - 1) / 2 ^ 24 < d.natAbs))

/-- The 64 bytes of a header (Table 11-2). -/
def CruHeader.toBytes (h : CruHeader) (bytes : Nat) : List Byte :=
  leBytes 4 h.bucketId ++ leBytes 2 h.index ++ leBytes 1 h.flags ++ leBytes 1 h.format ++ leBytes 8 (h.step % 2 ^ 48) ++ leBytes 2 h.sender
    ++ leBytes 2 h.dest ++ leBytes 1 h.member ++ leBytes 1 h.count ++ leBytes 2 0 ++ leBytes 4 h.elements ++ leBytes 4 bytes ++ leBytes 8 h.sum
    ++ leBytes 8 h.abs ++ leBytes 8 h.sumC ++ leBytes 8 h.absC

/-- 16-byte blocks of a byte string, the last padded with zeros. -/
def blocks16 (bs : List Byte) : List Nat := (List.range ((bs.length + 15) / 16)).map (fun i => leNat ((bs.drop (16 * i)).take 16))

/-- The digest of a transmission. -/
def Package.digest (p : Package) (h : CruHeader) (data : List Byte) : Nat :=
  gfHash (p.rd CRU_DIGEST_KEY_LO + 2 ^ 64 * p.rd CRU_DIGEST_KEY_HI)
    (blocks16 ((h.toBytes data.length).take 32) ++ blocks16 data ++ [8 * data.length])

/-! ### The Crucible's records -/

def Package.modCru (p : Package) (f : CruUnit → CruUnit) : Package := { p with cru := f p.cru }

def Package.acct (p : Package) (step : Nat) : StepAcct := mapGet {} p.cru.steps step
def Package.modAcct (p : Package) (step : Nat) (f : StepAcct → StepAcct) : Package :=
  p.modCru (fun c => { c with steps := mapSet {} c.steps step (f (p.acct step)) })

/-- The context of a bucket index. -/
def Package.bctx (p : Package) (b : Nat) : Option BktCtx := mapFind p.cru.ctxs (b % 64)

/-- The context of a bucket where it holds this bucket and step. -/
def Package.bctxOf (p : Package) (b step : Nat) : Option BktCtx :=
  match p.bctx b with
  | some x => if x.bucket = b && x.step = step then some x else none
  | none => none

/-- Refresh `CRU_STATUS`. -/
def Package.showCru (p : Package) : Package := (p.put CRU_STATUS_OPEN p.cru.ctxs.length).put CRU_STATUS_STEP (p.cru.resolved % 2 ^ 32)

def Package.setBctx (p : Package) (x : BktCtx) : Package := (p.modCru (fun c => { c with ctxs := mapPut c.ctxs (x.bucket % 64) x })).showCru

/-- A step has resolved on the package. -/
def Package.stepResolved (p : Package) (step : Nat) : Bool := decide (step < p.cru.resolved)

/-- A step's bucket has written or stalled. -/
def Package.bucketClosed (p : Package) (b step : Nat) : Bool := p.cru.closed.contains (b, step)

/-- Bytes of the receive area in use: accumulators and copies held. -/
def Package.recvUsed (p : Package) : Nat :=
  (p.cru.ctxs.map (fun e => 4 * e.2.acc.length + ((e.2.held ++ e.2.partials).map (fun h => h.data.length)).sum)).sum

/-! ### Admission (R259) -/

/-- Can a bucket and step have its context: it holds it, or the context is free, the receive area takes its accumulator, and no earlier
step waits for the same index. -/
def Package.admits (p : Package) (b step : Nat) : Bool :=
  match p.bctx b with
  | some x => x.bucket = b && x.step = step
  | none =>
    match p.bucket b with
    | none => false
    | some d => decide (p.recvUsed + 4 * rangeLen (p.ownedRange d (p.selfMember d.stage)) ≤ p.rd CRU_RECV_SIZE)
        && !(p.cru.waiting.any (fun w => w.bucket % 64 = b % 64 && decide (w.step < step)))
        && !(p.cru.own.any (fun o => o.bucket % 64 = b % 64 && decide (o.step < step)))

/-- Take the context for a bucket and step. -/
def Package.takeCtx (p : Package) (b step : Nat) : Package :=
  match p.bctx b, p.bucket b with
  | none, some d =>
    p.setBctx { bucket := b, step := step, acc := List.replicate (rangeLen (p.ownedRange d (p.selfMember d.stage))) 0 }
  | _, _ => p

/-- First-hop mask of a node that is an owner or a contributor of a stage's group. -/
def Package.groupMask (p : Package) (s node : Nat) : Option Nat :=
  ((List.range (p.members' s)).flatMap (p.ownersOf s)).findSome? (fun e => if e.1 = node then some e.2 else none)

def Package.sendGroup (p : Package) (s node cls len : Nat) (body : MsgBody) : Package :=
  match p.groupMask s node with
  | some m => p.sendMask m node cls len body
  | none => p.sendRoute node cls len body

def Package.grant (p : Package) (node b step : Nat) : Package :=
  match p.bucket b with
  | none => p
  | some d => (p.takeCtx b step).sendGroup d.stage node CLS_CONTROL 0 (.fields 11 [b, step] [])

/-- ADMISSION_REQUEST at the owner; a contribution that waits is counted once. -/
def admissionRequest (dt node b step : Nat) (p : Package) : Package :=
  let p := p.pass dt
  match p.bucket b with
  | none => p
  | some d =>
    -- a bucket that has closed takes no context again: its late copy is discarded on arrival
    if (p.bucketClosed b step || p.stepResolved step) && (p.bctx b).isNone then p.sendGroup d.stage node CLS_CONTROL 0 (.fields 11 [b, step] [])
    else if p.admits b step then p.grant node b step
    else (p.modCru (fun c => { c with waiting := c.waiting ++ [{ node := node, bucket := b, step := step }] })).bump64 CRU_WINDOW_WAITS 1

/-- Ask the owners of the outbox's new transmissions for admission. -/
def Package.askAdmission (p : Package) (x : Xmit) : Package := p.sendMask x.mask x.node CLS_CONTROL 0 (.fields 10 [x.header.index, x.header.step] [])

/-- Bytes sent in messages of at most 4,096 bytes. -/
def Package.sendBytes (p : Package) (mask node cls kind : Nat) (vals : List Nat) (bs : List Byte) : Package :=
  p.each (List.range ((bs.length + 4095) / 4096)) (fun p i =>
    let part := (bs.drop (4096 * i)).take 4096
    p.sendMask mask node cls part.length (.fields kind (vals ++ [4096 * i]) part))

/-- Send a transmission, and add it to the step's SENT digest. -/
def Package.transmit (p : Package) (x : Xmit) : Package :=
  let p := p.sendBytes x.mask x.node CLS_REDUCE 0 [x.header.index, x.header.step] (x.header.toBytes x.data.length ++ x.data)
  let d := p.digest x.header x.data
  p.modAcct x.header.step (fun a => { a with digSent := a.digSent ^^^ d, nSent := (a.nSent + 1) % 2 ^ 32 })

/-- ADMISSION_GRANT at the sender. -/
def admissionGrant (dt node b step : Nat) (p : Package) : Package :=
  let p := p.pass dt
  if p.fatal then p
  else
    let mine := p.cru.outbox.filter (fun x => x.node = node && x.header.index = b && x.header.step = step)
    let p := p.modCru (fun c => { c with outbox := c.outbox.filter (fun x => !mine.contains x) })
    p.each mine Package.transmit

/-! ### Adding (R262, R263) -/

/-- Add a contribution of the owned range: the values, J counted by its member, its checksums. -/
def BktCtx.add (x : BktCtx) (member : Nat) (vals : List Nat) (sumC absC : Nat) : BktCtx :=
  { x with acc := (x.acc.zip vals).map (fun e => fadd e.1 e.2), added := x.added ++ [member], sumC := (x.sumC + sumC) % 2 ^ 64,
           absC := min (2 ^ 64 - 1) (x.absC + absC) }

/-- Dense values of a sparse payload of `n` elements (R268). -/
def sparseVals (n keep : Nat) (bs : List Byte) : List Nat :=
  let es := unpackCodes 32 (keep * (n / 4096)) bs
  let m := es.mapIdx (fun i e => (4096 * (i / max 1 keep) + e % 4096, e / 65536 * 65536))
  let t := m.foldl (fun (t : List (Nat × Nat)) e => mapPut t e.1 e.2) []
  (List.range n).map (fun i => mapGet 0 t i)

/-- FP32 values of a transmission's payload. -/
def xmitVals (b : Bucket) (h : CruHeader) (data : List Byte) : List Nat :=
  if bitAt h.flags 1 then sparseVals h.elements b.keep data else (decodeElems h.format h.elements data).map r32

/-- Payload elements for the checksum: a sparse one counts only its entries. -/
def xmitElems (b : Bucket) (h : CruHeader) (data : List Byte) : List Fp :=
  if bitAt h.flags 1 then (unpackCodes 32 (b.keep * (h.elements / 4096)) data).map (fun e => f32 (e / 65536 * 65536))
  else decodeElems h.format h.elements data

/-- The owner takes a copy into the sum. -/
def Package.addCopy (p : Package) (b : Bucket) (x : BktCtx) (h : CruHeader) (data : List Byte) : Package :=
  let p := if bitAt h.flags 3 then p.modAcct h.step (fun a => { a with nonfinite := true }) else p
  p.setBctx (x.add h.member (xmitVals b h data) h.sumC h.absC)

/-- A context takes its first contribution (R270). -/
def BktCtx.opened (x : BktCtx) (beat : Nat) : BktCtx := { x with openBeat := some (x.openBeat.getD beat) }

/-! ### Rings (R264) -/

/-- A partial of range t leaves for the member behind this one, or, at member t, completes the sum. -/
def Package.ringHop (p : Package) (i : Nat) (b : Bucket) (x : BktCtx) (own : OwnPart) (t : Nat) (inc : Option HeldCopy) : Package :=
  let m := p.members' b.stage
  let self := p.selfMember b.stage
  let r := p.ownedRange b t
  let mine := (own.vals.drop r.1).take (rangeLen r)
  let frac := p.frac
  let c := ibkar frac (mine.map f32)
  let sumC := match inc with
    | some q => (q.header.sumC + c.1) % 2 ^ 64
    | none => c.1
  let absC := match inc with
    | some q => min (2 ^ 64 - 1) (q.header.absC + c.2)
    | none => c.2
  let count := match inc with
    | some q => q.header.count + 1
    | none => 1
  let vals := match inc with
    | some q => ((decodeElems 0x10 q.header.elements q.data).map r32 |>.zip mine).map (fun e => fadd e.1 e.2)
    | none => mine.map (fun v => fadd 0 v)
  let p := if vals.any (fun v => !f32Finite v) then p.modAcct x.step (fun a => { a with nonfinite := true }) else p
  if t = self then
    p.setBctx { x with acc := vals, added := List.range m, sumC := sumC, absC := absC }
  else
    let chk := checkSum frac count vals sumC absC
    let p := if chk.2 then
        let last := i % 2 ^ 14 + 2 ^ 16 * (x.step % 2 ^ 24) + 2 ^ 40 * ofSigned 24 (max (-(2 ^ 23 - 1)) (min (2 ^ 23 - 1) chk.1))
        let p := ((p.bump64 CRU_CKSUM_MISMATCH_COUNT 1).wr CRU_CKSUM_LAST last).raise .cru EV_CRU_CKSUM_MISMATCH last (arg1Of i 0)
        if p.has CRU_CFG_CKSUM_BLOCK then p.modAcct x.step (fun a => { a with cksum := true }) else p
      else p
    match p.memberEntry b.stage ((self + 1) % m) with
    | none => p
    | some (node, _, mask) =>
      let bs := packCodes 32 vals
      let s := ibkar frac (vals.map f32)
      let h : CruHeader := { bucketId := b.id, index := i, flags := 4 + 8 * b2n (vals.any (fun v => !f32Finite v)), format := 0x10, step := x.step,
                             sender := p.node, dest := node, member := (t + 1) % m, count := count, elements := rangeLen r, sum := s.1, abs := s.2,
                             sumC := sumC, absC := absC }
      let q : Xmit := { node := node, mask := mask, header := h, data := bs }
      (p.modCru (fun c => { c with outbox := c.outbox ++ [q] })).askAdmission q

/-- Range of a ring partial, from its first member. -/
def ringRange (m first : Nat) : Nat := (first + m - 1) % m

/-- The own contribution to a ring is here: start the range before this member and take up the partials that waited. -/
def Package.ringStart (p : Package) (i : Nat) (b : Bucket) (x : BktCtx) (own : OwnPart) : Package :=
  let m := p.members' b.stage
  let x := { x with own := some own, partials := [] }
  let waits := match p.bctxOf i own.step with
    | some y => y.partials
    | none => []
  let p := p.setBctx x
  let p := p.ringHop i b x own (ringRange m (p.selfMember b.stage)) none
  p.each waits (fun p q => match p.bctxOf i own.step with
    | some y => p.ringHop i b y own (ringRange m q.header.member) (some q)
    | none => p)

/-- The own part of the owned range joins the sum, or the ring starts (R263, R264). -/
def Package.takeOwn (p : Package) (b : Bucket) (own : OwnPart) : Package :=
  let p := p.takeCtx own.bucket own.step
  match p.bctxOf own.bucket own.step with
  | none => p
  | some x =>
    let x := x.opened p.beatNo
    if p.usesRing b && 1 < p.members' b.stage then p.ringStart own.bucket b x own
    else
      let self := p.selfMember b.stage
      let r := p.ownedRange b self
      let vals := (own.vals.drop r.1).take (rangeLen r)
      let kept := match own.sent with
        | some l => ((vals.zip ((l.drop r.1).take (rangeLen r))).filter (fun (e : Nat × Bool) => e.2)).map (fun (e : Nat × Bool) => e.1)
        | none => vals
      let c := ibkar p.frac (kept.map f32)
      p.setBctx ({ x with own := some own }.add self vals c.1 c.2)

/-- An own part that waited takes its context where it can now. -/
def Package.wakeOwn (p : Package) (o : OwnPart) : Package :=
  match p.bucket o.bucket with
  | none => p
  | some b => if p.admits o.bucket o.step then (p.modCru (fun c => { c with own := c.own.erase o })).takeOwn b o else p

/-- A request that waited is answered where it can be now. -/
def Package.wakeRequest (p : Package) (w : AdmWait) : Package :=
  let q := p.modCru (fun c => { c with waiting := c.waiting.erase w })
  match p.bucket w.bucket with
  | none => q
  | some d =>
    if (p.bucketClosed w.bucket w.step || p.stepResolved w.step) && (p.bctx w.bucket).isNone then
      q.sendGroup d.stage w.node CLS_CONTROL 0 (.fields 11 [w.bucket, w.step] [])
    else if q.admits w.bucket w.step then q.grant w.node w.bucket w.step
    else p

/-- A context or room in the receive area is free: own parts and requests that waited are looked at again, earlier steps first. -/
def Package.wakeAll (p : Package) : Package :=
  let p := p.each (p.cru.own.mergeSort (fun a b => decide (a.step ≤ b.step))) Package.wakeOwn
  p.each (p.cru.waiting.mergeSort (fun a b => decide (a.step ≤ b.step))) Package.wakeRequest

/-- Free the context of a bucket that has written or stalled. -/
def Package.closeCtx (p : Package) (b step : Nat) : Package :=
  ((p.modCru (fun c => { c with ctxs := mapDel c.ctxs (b % 64), closed := (b, step) :: c.closed })).showCru).wakeAll

/-! ### A contribution of this package (R257, R258, R262, R268, R269) -/

/-- The list of a bucket's layer has been completed by every core in the backward phase with LAST_OF_STEP for a step. -/
def Package.layerDone (p : Package) (b : Bucket) (step : Nat) : Bool :=
  match (p.stg b.stage).phase with
  | some ph =>
    ph.dir = .bwd && ph.lastOfStep && ph.step = step && (p.stageCores b.stage).all (fun e =>
      let co := p.core e.1 e.2
      let pos := (if ph.recompute then p.layerCount b.stage else 0) + (p.layerCount b.stage - 1 - b.layerIndex)
      co.serving = some (1 + b.stage, ph.startAt) && (decide (pos + 1 < co.layerPos) || (decide (co.layerPos = pos + 1) && co.drained)))
  | none => false

def Package.contributionReady? (p : Package) (i : Nat) (b : Bucket) (step : Nat) : Bool :=
  !p.cru.made.contains (i, step) && !p.stepResolved step
    && (if b.tie then mapGet 0 p.folded b.layerIndex = step + 1 else (p.stg b.stage).lastBackward = some step || p.layerDone b step)

/-- Values of the bucket's parts, one list per part; none where a read fails. -/
def Package.partVals (p : Package) (b : Bucket) (code : Nat) : Option (List (List Fp)) :=
  ((List.range b.parts).map (fun j => match p.load (b.src + j * b.stride) (payloadBytes code b.elements) with
    | .ok bs => some (decodeElems code b.elements bs)
    | _ => none)).foldr (fun o acc => match o, acc with
    | some x, some l => some (x :: l)
    | _, _ => none) (some [])

/-- The parts added element by element in FP32 in ascending order. -/
def sumParts : List (List Fp) → List Nat
  | [] => []
  | x :: rest => rest.foldl (fun a y => (a.zip y).map (fun e => r32 ((f32 e.1).add e.2))) (x.map r32)

/-- The Riser of a bucket: header step, committed half and exponent (R269). -/
def Package.riser (p : Package) (b : Bucket) : Option (Nat × Nat × Int) :=
  match p.load b.riser 16 with
  | .ok h => some (fieldAt h 0 8, fieldAt h 8 1 % 2, toSigned 8 (fieldAt h 9 1))
  | _ => none

/-- Address of a half of a Riser. -/
def Bucket.half (b : Bucket) (h : Nat) : Nat := b.riser + 4096 + h * 4 * b.elements

/-- A value's rank in a block: non-finite values highest, then the magnitude. -/
def outranks (a b : Nat × Nat) : Bool :=
  let na := !f32Finite a.2
  let nb := !f32Finite b.2
  if na != nb then na
  else if na then decide (a.1 < b.1)
  else match (f32 a.2).abs.cmp (f32 b.2).abs with
    | some .gt => true
    | some .lt => false
    | _ => decide (a.1 < b.1)

/-- The k indices of largest magnitude of a block, ascending. -/
def topIndices (k : Nat) (l : List Nat) : List Nat :=
  let ix := l.mapIdx (fun i v => (i, v))
  (ix.filter (fun (e : Nat × Nat) => decide ((ix.filter (fun f => outranks f e)).length < k))).map (fun (e : Nat × Nat) => e.1)

/-- Thinning (R268): the values sent (zero elsewhere), which positions are sent, and the new Riser. -/
def thin (keep : Nat) (a : List Nat) : List Nat × List Bool × List Nat :=
  let bl := (List.range (a.length / 4096)).map (fun i => (a.drop (4096 * i)).take 4096)
  let out := bl.map (fun l =>
    let sel := topIndices keep l
    l.mapIdx (fun i v => if sel.contains i then (fmtBF16.round (f32 v) * 65536, true, fsub v (fmtBF16.round (f32 v) * 65536)) else (0, false, v)))
  let f := out.flatMap id
  (f.map (·.1), f.map (·.2.1), f.map (·.2.2))

/-- The sparse payload of a range: per block its entries in ascending index order. -/
def sparseBytes (vals : List Nat) (sent : List Bool) : List Byte :=
  packCodes 32 (((vals.zip sent).mapIdx (fun i e => (i % 4096, e))).filterMap (fun e => if e.2.2 then some (e.1 + 65536 * (e.2.1 / 65536)) else none))

/-- A header of this package's own contribution. -/
def Package.ownHeader (p : Package) (i : Nat) (b : Bucket) (step node flags format elements : Nat) (c : Nat × Nat) : CruHeader :=
  { bucketId := b.id, index := i, flags := flags + b2n (p.has (CRU_BACKUP_AS_BACKUP b.stage)), format := format, step := step, sender := p.node,
    dest := node, member := p.selfMember b.stage, count := 1, elements := elements, sum := c.1, abs := c.2, sumC := c.1, absC := c.2 }

/-- What is sent of one range: flags, format, payload and its elements. -/
def Package.rangePayload (p : Package) (b : Bucket) (own : OwnPart) (code : Nat) (r : Nat × Nat) : Nat × Nat × List Byte × List Fp :=
  let n := rangeLen r
  let vals := (own.vals.drop r.1).take n
  match own.sent with
  | some l =>
    let sel := (l.drop r.1).take n
    (2, 5, sparseBytes vals sel, ((vals.zip sel).filter (·.2)).map (fun e => f32 e.1))
  | none =>
    if 1 < b.parts then
      let codes := vals.map (fun v => fmtBF16.round (f32 v))
      (0, 5, packCodes 16 codes, codes.map fmtBF16.decode)
    else
      match p.load b.src (payloadBytes code b.elements) with
      | .ok bs =>
        let e := (bs.drop (spanOf code r.1)).take (spanOf code n)
        let sc := if isMX code then ((bs.drop (roundUp (spanOf code b.elements) 64 + r.1 / 32)).take (n / 32)) else []
        let pad := if isMX code then List.replicate (roundUp e.length 64 - e.length) 0 else []
        (0, code, e ++ pad ++ sc, decodeElems code n (e ++ pad ++ sc))
      | _ => (0, code, [], [])

/-- Send every other member's range to its owners under DIRECT. -/
def Package.sendRanges (p : Package) (b : Bucket) (own : OwnPart) (code : Nat) : Package :=
  let self := p.selfMember b.stage
  p.each ((List.range (p.members' b.stage)).filter (· ≠ self)) (fun p t =>
    let r := p.ownedRange b t
    let w := p.rangePayload b own code r
    let c := ibkar p.frac w.2.2.2
    let bad := w.2.2.2.any (fun v => !v.isFinite)
    p.each (p.ownersOf b.stage t) (fun p o =>
      let h := p.ownHeader own.bucket b own.step o.1 (w.1 + 8 * b2n bad) w.2.1 (rangeLen r) c
      let q : Xmit := { node := o.1, mask := o.2, header := h, data := w.2.2.1 }
      (p.modCru (fun c => { c with outbox := c.outbox ++ [q] })).askAdmission q))

/-- The own contribution waits for its context, or takes it. -/
def Package.placeOwn (p : Package) (b : Bucket) (own : OwnPart) : Package :=
  if p.admits own.bucket own.step then (p.takeOwn b own).wakeAll
  else (p.modCru (fun c => { c with own := c.own ++ [own] })).bump64 CRU_WINDOW_WAITS 1

/-- The values this package contributes: summed, and for a TOPK bucket thinned with its Riser's working half written. -/
def Package.makeOwn (p : Package) (i : Nat) (b : Bucket) (step : Nat) (ek : Int) (code : Nat) : Option (OwnPart × Package) :=
  match p.partVals b code with
  | none => none
  | some parts =>
    let p := p.countReads ((List.range b.parts).map (fun j => (b.src + j * b.stride, payloadBytes code b.elements)))
    let g := sumParts parts
    if !b.topk then some ({ bucket := i, step := step, vals := g }, p)
    else match p.riser b with
      | none => none
      | some (_, half, er) =>
        match p.loadWords (b.half half) b.elements false with
        | none => none
        | some rs =>
          let a := (g.zip rs).map (fun e => fadd e.1 (fmul e.2 (pow2w (ek - er))))
          let t := thin b.keep a
          some ({ bucket := i, step := step, vals := t.1, sent := some t.2.1 }, p.tryStore (b.half (1 - half)) (packCodes 32 t.2.2))

/-- Entries of a thinned contribution that are sent to others. -/
def OwnPart.entries (o : OwnPart) (r : Nat × Nat) : Nat :=
  match o.sent with
  | none => 0
  | some l => ((l.take r.1 ++ l.drop r.2).filter id).length

/-- Contribute: the step is made, a non-finite value counts in its account, the ranges of other members leave under DIRECT, and the own part
waits for its context or takes it. -/
def Package.contribute (p : Package) (i step : Nat) (b : Bucket) (code : Nat) (own : OwnPart) : Package :=
  let p := p.modCru (fun c => { c with made := (i, step) :: c.made })
  let p := if own.vals.any (fun v => !f32Finite v) then p.modAcct step (fun a => { a with nonfinite := true }) else p
  let p := p.bump64 CRU_TOPK_ENTRIES (own.entries (p.ownedRange b (p.selfMember b.stage)))
  let p := if p.usesRing b && 1 < p.members' b.stage then p else p.sendRanges b own code
  p.placeOwn b own

/-- CONTRIBUTION_READY: this package's contribution to bucket i for a step is complete. -/
def contributionReady (dt i step : Nat) (p : Package) : Package :=
  let p := p.pass dt
  match p.bucket i with
  | none => p
  | some b =>
    -- thinning needs the Riser that step k − 1 committed
    if p.fatal || !p.contributionReady? i b step || (b.topk && step ≠ 0 && !p.stepResolved (step - 1)) then p
    else match p.bucketScale b step with
      | none => p
      | some (ek, code) =>
        match p.makeOwn i b step ek code with
        | none => p
        | some (own, p) => p.contribute i step b code own

/-! ### CONTRIBUTION_RECEIVE (R260, R261, R270) -/

/-- Causes of `CRU_BUCKET_REFUSED`, numbered in the order of R260 (DESIGN CHOICE: the spec gives no codes). -/
def refuseCause (frac : Option Nat) (b : Bucket) (dense : List Nat) (elements : Nat) (h : CruHeader) (data : List Byte) : Nat :=
  let sparse := bitAt h.flags 1
  let fmtOk := if bitAt h.flags 2 then h.format = 0x10 && !sparse else if b.topk then sparse && h.format = 5 else !sparse && dense.contains h.format
  let n := if sparse then 4 * b.keep * (elements / 4096) else payloadBytes h.format elements
  if h.bucketId ≠ b.id then 1
  else if !fmtOk then 2
  else if h.elements ≠ elements || data.length ≠ n then 3
  else if frac.isSome && ibkar frac (xmitElems b h data) ≠ (h.sum, h.abs) then 4
  else 0

/-- Formats that R258 allows a dense contribution: the slot's decision, or BF16 for a sum of parts. -/
def Package.denseFormats (p : Package) (b : Bucket) (step : Nat) : List Nat := 5 :: ((p.bucketScale b step).map (·.2)).toList

/-- Refuse a transmission. -/
def Package.refuse (p : Package) (h : CruHeader) (cause : Nat) : Package :=
  (p.when (cause = 4) (fun p => p.bump64 CRU_CKSUM_XFER_FAIL 1)).raise .cru EV_CRU_BUCKET_REFUSED h.step (arg1Of h.index cause)

/-- A transmission that passes R260 counts in the RECV digest. -/
def Package.countRecv (p : Package) (h : CruHeader) (data : List Byte) : Package :=
  let d := p.digest h data
  p.modAcct h.step (fun a => { a with digRecv := a.digRecv ^^^ d, nRecv := (a.nRecv + 1) % 2 ^ 32 })

/-- A backup's copy is selected (R270). -/
def Package.backupUsed (p : Package) (i member step : Nat) : Package :=
  (p.bump64 CRU_BACKUP_USED_COUNT 1).raise .cru EV_CRU_BACKUP_USED step (arg1Of i member)

/-- The owner judges a copy that its context takes. -/
def Package.judgeCopy (p : Package) (b : Bucket) (x : BktCtx) (h : CruHeader) (data : List Byte) : Package :=
  let x := { x with seen := x.seen ++ [h.sender] }.opened p.beatNo
  let backup := bitAt h.flags 0
  if x.added.contains h.member then (p.setBctx x).bump64 CRU_DISCARDED 1
  else if backup && !x.soft then p.setBctx { x with held := x.held ++ [{ member := h.member, header := h, data := data }] }
  else
    let p := if backup then p.backupUsed h.index h.member h.step else p
    -- a backup's copy held for this member is the one not selected (R261)
    let lost := x.held.filter (fun q => q.member = h.member)
    let p := p.addCopy b { x with held := x.held.filter (fun q => q.member ≠ h.member) } h data
    p.when (!lost.isEmpty) (fun p => (p.bump64 CRU_DISCARDED lost.length).wakeAll)

def contributionReceive (dt : Nat) (h : CruHeader) (data : List Byte) (p : Package) : Package :=
  let p := p.pass dt
  match p.bucket h.index with
  | none => p.refuse h 1
  | some b =>
    let cause := refuseCause p.frac b (p.denseFormats b h.step) (rangeLen (p.ownedRange b (p.selfMember b.stage))) h data
    if cause ≠ 0 then p.refuse h cause
    else
      let p := p.countRecv h data
      match p.bctxOf h.index h.step with
      | none => p.bump64 CRU_DISCARDED 1
      | some x =>
        if p.bucketClosed h.index h.step || p.stepResolved h.step || x.seen.contains h.sender then p.bump64 CRU_DISCARDED 1
        else p.judgeCopy b x h data

/-! ### RING_PARTIAL_RECEIVE (R264) -/

def ringPartialReceive (dt : Nat) (h : CruHeader) (data : List Byte) (p : Package) : Package :=
  let p := p.pass dt
  match p.bucket h.index with
  | none => p.refuse h 1
  | some b =>
    let t := ringRange (p.members' b.stage) h.member
    let cause := refuseCause p.frac b [] (rangeLen (p.ownedRange b t)) { h with flags := h.flags ||| 4 } data
    if cause ≠ 0 then p.refuse h cause
    else
      let p := p.countRecv h data
      match p.bctxOf h.index h.step with
      | none => p.bump64 CRU_DISCARDED 1
      | some x =>
        if p.bucketClosed h.index h.step || p.stepResolved h.step then p.bump64 CRU_DISCARDED 1
        else
          let p := if bitAt h.flags 3 then p.modAcct h.step (fun a => { a with nonfinite := true }) else p
          let x := x.opened p.beatNo
          let q : HeldCopy := { member := h.member, header := h, data := data }
          match x.own with
          | none => p.setBctx { x with partials := x.partials ++ [q] }
          | some own => (p.setBctx x).ringHop h.index b x own t (some q)

/-! ### SOFT_DEADLINE and HARD_LIMIT (R270, R272) -/

/-- Members whose copy has not been added. -/
def Package.missingMembers (p : Package) (b : Bucket) (x : BktCtx) : List Nat :=
  (List.range (p.members' b.stage)).filter (fun m => !x.added.contains m)

def softDeadline (dt i : Nat) (p : Package) : Package :=
  let p := p.pass dt
  match p.bctx i with
  | none => p
  | some x =>
    match x.openBeat, p.bucket x.bucket with
    | some n, some b =>
      if x.soft || p.beatNo < n + p.get CRU_CFG_SOFT_BEATS then p
      else
        let p := p.setBctx { x with soft := true }
        p.each (p.missingMembers b x) (fun p m =>
          match p.bctxOf x.bucket x.step with
          | none => p
          | some y => match y.held.find? (fun q => q.member = m) with
            | none => p
            | some q => (p.backupUsed x.bucket m x.step).addCopy b { y with held := y.held.filter (fun r => r.member ≠ m) } q.header q.data)
    | _, _ => p

def hardLimit (dt i : Nat) (p : Package) : Package :=
  let p := p.pass dt
  match p.bctx i with
  | none => p
  | some x =>
    match x.openBeat, p.bucket x.bucket with
    | some n, some b =>
      let miss := p.missingMembers b x
      if miss.isEmpty || p.beatNo < n + p.get CRU_CFG_HARD_BEATS then p
      else
        let p := (p.modAcct x.step (fun a => { a with stall := true })).bump64 CRU_STALL_COUNT 1
        (p.raise .cru EV_CRU_STEP_STALL x.step (arg1Of x.bucket (listAt 0 miss 0))).closeCtx x.bucket x.step
    | _, _ => p

/-! ### RESULT_WRITE (R267, R277, R280) -/

/-- The gradient array of step k is free: step k − GRAD_BUFS has resolved, and its Pour, where it committed, has completed. -/
def Package.arrayFree (p : Package) (r : Region) (step : Nat) : Bool :=
  decide (step < r.gradBufs) || (p.stepResolved (step - r.gradBufs) && !(p.pours.any (fun j => j.step = step - r.gradBufs)))

/-- FP32 sums of squares of chunks of up to 4,096 written elements, in the units the Pour uses before clipping (R277). -/
def chunkNorms (seed : Nat) (gradMul : Nat) (e : Int) (xs : List Fp) : List Nat :=
  let g := unclipped gradMul e xs
  (List.range ((g.length + 4095) / 4096)).map (fun i =>
    let l := (g.drop (4096 * i)).take 4096
    sumFree (seed + i) l.length (l.map (fun v => fmul v v)))

/-- The reduction check of a finished sum. -/
def Package.checkResult (p : Package) (x : BktCtx) : Package :=
  let chk := checkSum p.frac x.added.length x.acc x.sumC x.absC
  if !chk.2 then p
  else
    let last := x.bucket % 2 ^ 14 + 2 ^ 16 * (x.step % 2 ^ 24) + 2 ^ 40 * ofSigned 24 (max (-(2 ^ 23 - 1)) (min (2 ^ 23 - 1) chk.1))
    let p := ((p.bump64 CRU_CKSUM_MISMATCH_COUNT 1).wr CRU_CKSUM_LAST last).raise .cru EV_CRU_CKSUM_MISMATCH last (arg1Of x.bucket 0)
    if p.has CRU_CFG_CKSUM_BLOCK then p.modAcct x.step (fun a => { a with cksum := true }) else p

/-- Write a finished sum into the gradient array, add its norm, free the context. -/
def Package.writeResult (p : Package) (b : Bucket) (r : Region) (x : BktCtx) (e : Int) : Package :=
  let p := p.checkResult x
  let f := if b.resultFmt = 5 then fmtBF16 else fmtFP32
  let codes := x.acc.map (fun v => f.round (f32 v))
  let w := if b.resultFmt = 5 then 16 else 32
  let p := p.tryStore (r.grad x.step + b.destOfs * (w / 8)) (packCodes w codes)
  let xs := codes.map f.decode
  let p := if xs.any (fun v => !v.isFinite) then p.modAcct x.step (fun a => { a with nonfinite := true }) else p
  let gm := match p.hyperBytes r.hp with
    | some h => (Hyper.ofBytes h).gradMul
    | none => 0
  let ns := chunkNorms p.fresh gm e xs
  let p := p.modAcct x.step (fun a => { a with n2 := sumFreeBy dadd (p.fresh + ns.length) (ns.length + 1) (a.n2 :: ns.map (fun v => r64 (f32 v))) })
  let p := { p with fresh := p.fresh + ns.length + 1 }
  (p.bump64 CRU_BUCKETS_DONE 1).closeCtx x.bucket x.step

def resultWrite (dt i : Nat) (p : Package) : Package :=
  let p := p.pass dt
  match p.bctx i with
  | none => p
  | some x =>
    match p.bucket x.bucket with
    | none => p
    | some b =>
      match p.region b.region, p.bucketScale b x.step with
      | some r, some (e, _) =>
        if p.fatal || !(p.missingMembers b x).isEmpty then p
        else if !p.arrayFree r x.step then
          if x.gradWait then p else (p.setBctx { x with gradWait := true }).bump64 CRU_GRADBUF_WAITS 1
        else p.writeResult b r x e
      | _, _ => p

/-! ### The commands' meanings -/

def execContributionReady (dt index step : Nat) (s : State) := onPkg (contributionReady dt index step) s
def execAdmissionRequest (dt node index step : Nat) (s : State) := onPkg (admissionRequest dt node index step) s
def execAdmissionGrant (dt node index step : Nat) (s : State) := onPkg (admissionGrant dt node index step) s
def execContributionReceive (dt : Nat) (h : CruHeader) (data : List Byte) (s : State) := onPkg (contributionReceive dt h data) s
def execRingPartialReceive (dt : Nat) (h : CruHeader) (data : List Byte) (s : State) := onPkg (ringPartialReceive dt h data) s
def execSoftDeadline (dt index : Nat) (s : State) := onPkg (softDeadline dt index) s
def execHardLimit (dt index : Nat) (s : State) := onPkg (hardLimit dt index) s
def execResultWrite (dt index : Nat) (s : State) := onPkg (resultWrite dt index) s

end Sys2Proof.Machine
end

