-- ==== Sys2Proof/Machine/Tree.lean ====
section
/-! DEFINITION. The step tree (11_gradient_reduction.md, R273 to R278, R282): reports, the root's decision, outcomes, and the resolution of
steps (R65) with the history entries of R166. A TREE message of kind 0 is a report, of kind 1 an outcome; the spec gives their contents
and no layout, so a message carries the values in the order of the structures and a length of 64 bytes and 48 for each record. -/

namespace Sys2Proof.Machine

open Sys2Proof

/-! ### Tree entries (R273) -/

structure TreeEntry where
  node : Nat
  backup : Bool
  backupOf : Nat
  mask : Nat
deriving DecidableEq, Repr

def Package.treeEntry (p : Package) (i : Nat) : Option TreeEntry :=
  match p.load (p.rd CRU_TREE_BASE + 8 * i) 8 with
  | .ok b =>
    let v := leNat b
    some { node := bitsOf v 0 12, backup := bitAt v 12, backupOf := bitsOf v 16 6, mask := bitsOf v 24 24 }
  | _ => none

/-- Tree entries of the children: 1 to CHILDREN. -/
def Package.children (p : Package) : List Nat := (List.range (p.get CRU_TREE_CFG_CHILDREN)).map (· + 1)

def Package.isBackupChild (p : Package) (i : Nat) : Bool := ((p.treeEntry i).map TreeEntry.backup).getD false

def Package.isRoot (p : Package) : Bool := p.has CRU_TREE_CFG_ROOT

/-! ### Reports (R274, R275) -/

def statVals (s : List ((Nat × Nat) × Stats)) : List Nat :=
  s.flatMap (fun e => [e.1.1, e.1.2, e.2.amax, e.2.count, e.2.preNz, e.2.nonzero, e.2.underCur, e.2.underNext, e.2.sat, b2n e.2.nonfinite, e.2.position])

def reportMsg (r : StepReport) : MsgBody :=
  .fields 0 ([r.step, b2n r.stall, b2n r.missing, b2n r.nonfinite, b2n r.cksum, r.n2] ++ statVals r.stats) []

def outcomeMsg (o : Outcome) : MsgBody :=
  .fields 1 ([o.step, b2n o.commit, o.cause, b2n o.perRegion, o.clip, o.norm] ++ statVals o.stats) []

/-- Merge records of equal key (R165). -/
def mergeStats (a b : List ((Nat × Nat) × Stats)) : List ((Nat × Nat) × Stats) :=
  b.foldl (fun acc e => if acc.any (fun f => f.1 = e.1) then acc.map (fun f => if f.1 = e.1 then (f.1, f.2.merge e.2) else f) else acc ++ [e]) a

/-- Combine two reports (R275). -/
def StepReport.combine (a b : StepReport) : StepReport :=
  { a with stall := a.stall || b.stall, missing := a.missing || b.missing, nonfinite := a.nonfinite || b.nonfinite, cksum := a.cksum || b.cksum,
           n2 := dadd a.n2 b.n2, stats := mergeStats a.stats b.stats }

/-- LAYER_ID and KIND of a history slot. -/
def Package.slotKey (p : Package) (slot : Nat) : Option (Nat × Nat) := (p.histBytes slot).map (fun b => (fieldAt b 0 2, fieldAt b 2 1))

/-- This package's slot statistics of a step, keyed (R165). -/
def Package.ownStats (p : Package) (step : Nat) : List ((Nat × Nat) × Stats) :=
  mergeStats [] (p.num.stats.filterMap (fun e => match e.2.find? (fun s => s.1 = step), p.slotKey e.1 with
    | some s, some k => some (k, s.2)
    | _, _ => none))

/-- The package's own report for a step (R274). -/
def Package.ownReport (p : Package) (step : Nat) : StepReport :=
  let a := p.acct step
  let st := p.ownStats step
  { step := step, stall := a.stall, missing := false,
    nonfinite := a.nonfinite || p.num.nonfinite.contains step || st.any (fun e => e.1.2 ≤ 1 && e.2.nonfinite),
    cksum := a.cksum, n2 := a.n2, stats := st }

/-- Every owned bucket has written or stalled, and every stage has ended the last backward of the step. -/
def Package.ownReady (p : Package) (step : Nat) : Bool :=
  (List.range (p.rd CRU_BTAB_COUNT)).all (fun i => p.bucketClosed i step)
    && p.countingStages.all (fun s => match (p.stg s).lastBackward with
      | some k => decide (step ≤ k)
      | none => false)

/-- The report taken for a child (R275): the primary's in time, else the backup's if it is here by the soft limit, else the first. -/
def Package.childReport (p : Package) (a : StepAcct) (readyBeat i : Nat) : Option StepReport :=
  let soft := readyBeat + p.get CRU_CFG_SOFT_BEATS
  let prim := a.children.find? (fun c => c.1 = i)
  let isB := fun (c : Nat × (Nat × StepReport)) => match p.treeEntry c.1 with
    | some e => e.backup && decide (e.backupOf = i)
    | none => false
  match prim with
  | some c => if c.2.1 ≤ soft then some c.2.2
      else match a.children.find? (fun c => isB c && decide (c.2.1 ≤ soft)) with
        | some b => some b.2.2
        | none => (a.children.find? (fun c => c.1 = i || isB c)).map (fun c => c.2.2)
  | none => if p.beatNo ≤ soft then none else (a.children.find? isB).map (fun c => c.2.2)

/-- The children whose report is still required. -/
def Package.missingChildren (p : Package) (a : StepAcct) (readyBeat : Nat) : List Nat :=
  p.children.filter (fun i => !p.isBackupChild i && (p.childReport a readyBeat i).isNone)

/-- Own report and those of the children that are here; N2 of more than two is added in an order that is not fixed. -/
def Package.combined (p : Package) (a : StepAcct) (readyBeat : Nat) (own : StepReport) : StepReport :=
  let l := p.children.filterMap (fun i => if p.isBackupChild i then none else p.childReport a readyBeat i)
  { l.foldl StepReport.combine own with n2 := sumFreeBy dadd p.fresh (l.length + 1) (own.n2 :: l.map StepReport.n2) }

/-- The combined report goes to the parent; the root keeps it. -/
def Package.sendUp (p : Package) (step : Nat) (r : StepReport) : Package :=
  let p := { p with fresh := p.fresh + 1 }.modAcct step (fun a => { a with sentUp := some r })
  if p.isRoot then p
  else match p.treeEntry 0 with
    | none => p
    | some e => p.sendMask e.mask e.node CLS_TREE (64 + 48 * r.stats.length) (reportMsg r)

/-- Send upward when the own report and every required child's are in. -/
def Package.tryUp (p : Package) (step : Nat) : Package :=
  let a := p.acct step
  match a.ready with
  | none => p
  | some (beat, own) =>
    if p.fatal || a.sentUp.isSome || !(p.missingChildren a beat).isEmpty then p else p.sendUp step (p.combined a beat own)

def ownReportReady (dt step : Nat) (p : Package) : Package :=
  let p := p.pass dt
  if p.fatal || (p.acct step).ready.isSome || step < p.cru.decided || !p.ownReady step then p
  else
    let r := p.ownReport step
    (p.modAcct step (fun a => { a with ready := some (p.beatNo, r) })).tryUp step

def childReportReceive (dt child : Nat) (r : StepReport) (p : Package) : Package :=
  let p := p.pass dt
  if r.step < p.cru.decided || !p.children.contains child || (p.acct r.step).children.any (fun c => c.1 = child) then p
  else (p.modAcct r.step (fun a => { a with children := a.children ++ [(child, (p.beatNo, r))] })).tryUp r.step

/-- At a tick: reports whose soft limit has passed may now go up with a backup's. -/
def Package.tickReports (p : Package) : Package := p.each (p.cru.steps.map (·.1)) (fun p k => p.tryUp k)

/-- MISSING_CHILD of Table 11-4. -/
def CAUSE_MISSING_CHILD : Nat := 2

def treeLimitExpiry (dt step : Nat) (p : Package) : Package :=
  let p := p.pass dt
  let a := p.acct step
  match a.ready with
  | none => p
  | some (beat, own) =>
    let miss := p.missingChildren a beat
    if p.fatal || a.sentUp.isSome || miss.isEmpty || p.beatNo < beat + p.get CRU_TREE_CFG_LIMIT then p
    else
      let p := p.raise .cru EV_CRU_STEP_STALL step (arg1Of (listAt 0 miss 0) CAUSE_MISSING_CHILD)
      p.sendUp step { p.combined a beat own with missing := true }

/-! ### The resolution of a step (R65, R166, R282) -/

/-- Append the merged statistics to the slots of this package that hold their keys. -/
def Package.appendAll (p : Package) (o : Outcome) : Package :=
  p.each (List.range (p.rd NUM_HIST_SLOTS)) (fun p slot => match p.slotKey slot with
    | none => p
    | some k => match o.stats.find? (fun e => e.1 = k) with
      | none => p
      | some e => p.appendHist slot o.step e.2)

/-- The 64-byte digest record of a resolved step (R282). -/
def digestRecord (a : StepAcct) (o : Outcome) : List Byte :=
  leBytes 8 o.step ++ leBytes 16 a.digSent ++ leBytes 16 a.digRecv ++ leBytes 4 a.nSent ++ leBytes 4 a.nRecv
    ++ leBytes 1 (b2n o.commit + 16 * o.cause) ++ leBytes 15 0

/-- A step resolves: history, digest record, and the Crucible forgets it. -/
def Package.resolve' (p : Package) (o : Outcome) : Package :=
  let p := (p.appendAll o).warmStart o.step
  let p := if !p.feature 23 then p else p.tryStore (p.rd CRU_DLOG_BASE + 64 * (o.step % 256)) (digestRecord (p.acct o.step) o)
  let p := if o.commit then p else p.each p.countingStages (fun p s => p.put (STG_VRING_STATE_RESOLVED_STEP s) o.step)
  let p := p.modCru (fun c => { c with steps := c.steps.filter (fun e => o.step < e.1), made := c.made.filter (fun e => o.step < e.2),
                                       closed := c.closed.filter (fun e => o.step < e.2), outbox := c.outbox.filter (fun x => o.step < x.header.step),
                                       own := c.own.filter (fun x => o.step < x.step), resolved := o.step + 1, rejected := !o.commit,
                                       outcomes := c.outcomes.filter (fun x => x.step ≠ o.step) })
  let p := { p with num := { p.num with stats := (p.num.stats.map (fun (e : Nat × List (Nat × Stats)) => (e.1, e.2.filter (fun (s : Nat × Stats) => decide (o.step < s.1))))).filter (fun e => !e.2.isEmpty),
                                        nonfinite := p.num.nonfinite.filter (fun k => o.step < k) } }
  let p := if o.commit then
      { p with snap := { p.snap with lastFlip := some o.step, prevFlip := p.snap.lastFlip, flips := (p.dtime :: p.snap.flips).take 17 } }
    else p
  p.showCru

/-- A committed step has flipped: its Pour is over, and no stage waits for its flip. -/
def Package.flipped (p : Package) (step : Nat) : Bool :=
  !(p.pours.any (fun j => j.step = step)) && p.countingStages.all (fun s => match (p.stg s).pourDone with
    | some d => decide (d.1 ≠ step + 1)
    | none => true)

/-- Resolve steps in step order as far as they are ready. -/
def Package.resolveSteps (p : Package) : Package :=
  p.cru.outcomes.foldl (fun (a : Package × Bool) o =>
    if a.2 && (!o.commit || a.1.flipped o.step) then (a.1.resolve' o, true) else (a.1, false)) (p, true) |>.1

/-! ### Outcomes (R276 to R278) -/

/-- Swap the Riser of a TOPK bucket (R269). -/
def Package.swapRiser (p : Package) (step i : Nat) : Package :=
  match p.bucket i with
  | none => p
  | some b =>
    if !b.topk then p
    else match p.riser b, p.bucketScale b step with
      | some (_, h, _), some (e, _) => p.tryStore b.riser (leBytes 8 step ++ leBytes 1 (1 - h) ++ leBytes 1 (ofSigned 8 e))
      | _, _ => p

/-- Swap the Risers of the buckets of a committed step; one whose section a capture has not read waits for it (R410). -/
def Package.swapRisers (p : Package) (step : Nat) : Package :=
  p.each (List.range (p.rd CRU_BTAB_COUNT)) (fun p i =>
    if !p.cru.made.contains (i, step) then p
    else if p.snapHolds 0x07 i then { p with snap := { p.snap with swaps := p.snap.swaps ++ [(i, step)] } }
    else p.swapRiser step i)

/-- The outcome goes to every child, backups included. -/
def Package.sendDown (p : Package) (o : Outcome) : Package :=
  p.each p.children (fun p i => match p.treeEntry i with
    | none => p
    | some e => p.sendMask e.mask e.node CLS_TREE (64 + 48 * o.stats.length) (outcomeMsg o))

/-- `CRU_STEP_LAST` of an outcome. -/
def stepLast (o : Outcome) : Nat := o.step % 2 ^ 48 + 2 ^ 48 * b2n o.commit + 2 ^ 52 * o.cause

/-- A package takes an outcome (R278): it forwards it, commits or rejects. -/
def Package.takeOutcome (p : Package) (o : Outcome) : Package :=
  let p := p.modCru (fun c => { c with decided := o.step + 1, outcomes := c.outcomes ++ [o] })
  let p := ((p.sendDown o).bump64 CRU_STEPS_ATTEMPTED 1).wr CRU_STEP_LAST (stepLast o)
  let p := if o.commit then
      let p := (p.swapRisers o.step).startPour o.step o.clip o.perRegion
      ((p.bump64 CRU_STEPS_COMMITTED 1).wr CRU_NORM_LAST o.norm).wr CRU_CLIP_LAST o.clip
    else p.raise .cru EV_CRU_STEP_REJECTED (stepLast o) (arg1Of 0 o.cause)
  p.resolveSteps

/-- The first failing cause of Table 11-4, 0 for a commit. -/
def decideCause (r : StepReport) (perRegion : Bool) : Nat :=
  if r.stall then 1
  else if r.missing then 2
  else if r.nonfinite then 3
  else if !perRegion && !(f64 r.n2).isFinite then 4
  else if r.cksum then 5
  else 0

/-- The root's outcome of a complete report (R276). -/
def Package.outcomeOf (p : Package) (r : StepReport) : Outcome :=
  let per := p.has CRU_CFG_CLIP_MODE
  let cause := decideCause r per
  let n := if per then 0 else r64 (f64 r.n2).sqrt
  { step := r.step, commit := decide (cause = 0), cause := cause, perRegion := per,
    clip := if cause = 0 && !per then clipFactor (p.rd CRU_CLIP_MAX % 2 ^ 32) n else F32_ONE, norm := n, stats := r.stats }

/-- The step whose complete report the root may decide now: the earlier steps have their outcomes. -/
def Package.decidable (p : Package) (step : Nat) : Option StepReport :=
  if p.fatal || !p.isRoot || step < p.cru.decided || p.cru.steps.any (fun e => decide (p.cru.decided ≤ e.1) && decide (e.1 < step)) then none
  else (p.acct step).sentUp

def Package.stepDecide (p : Package) (step : Nat) : Package :=
  match p.decidable step with
  | none => p
  | some r => p.takeOutcome (p.outcomeOf r)

/-- An outcome from the parent; one already taken has no effect. -/
def Package.stepOutcome (p : Package) (o : Outcome) : Package := if o.step < p.cru.decided then p else p.takeOutcome o

/-! ### The commands' meanings: STEP_DECIDE and STEP_OUTCOME_RECEIVE stand in Machine/Snap.lean, behind the cadence of R414 -/

def execOwnReportReady (dt step : Nat) (s : State) := onPkg (ownReportReady dt step) s
def execChildReportReceive (dt child : Nat) (r : StepReport) (s : State) := onPkg (childReportReceive dt child r) s
def execTreeLimitExpiry (dt step : Nat) (s : State) := onPkg (treeLimitExpiry dt step) s

end Sys2Proof.Machine
end

