-- ==== Sys2Proof/Machine/Snap.lean ====
section
/-! DEFINITION. Mould images (R402 to R415): what a capture takes, its freeze and its streaming, the receive side of a buddy, and the
cadence; with them the step's decision and outcome, which drive the cadence. Restores are in `Machine/Restore.lean`. -/

namespace Sys2Proof.Machine

open Sys2Proof

/-- States of `SNAP_STATUS` (Table 16-8). -/
def SNAP_IDLE : Nat := 0
def SNAP_FREEZING : Nat := 1
def SNAP_STREAMING : Nat := 2
def SNAP_VERIFYING : Nat := 3
def SNAP_WRITING : Nat := 4

/-- Causes of Table 16-6. -/
def SC_BUSY : Nat := 1
def SC_NO_IMAGE : Nat := 2
def SC_DIRECTORY : Nat := 3
def SC_SECTION : Nat := 4
def SC_MISMATCH : Nat := 5
def SC_RESOURCE : Nat := 6
def SC_SKEW : Nat := 7
def SC_ALIGN : Nat := 8
def SC_LATE : Nat := 9
def SC_NO_SLOT : Nat := 10
def SC_SPACE : Nat := 11
def SC_FENCED : Nat := 12
def SC_LINK : Nat := 13

/-- Slot states (Table 16-8). -/
def SLOT_EMPTY : Nat := 0
def SLOT_WRITING : Nat := 1
def SLOT_COMPLETE : Nat := 2
def SLOT_READING : Nat := 3

def MOULD_MAGIC : Nat := 0x4D4C4431

def Package.modSnap (p : Package) (f : SnapUnit → SnapUnit) : Package := { p with snap := f p.snap }
def Package.setSnapState (p : Package) (st : Nat) : Package := p.put SNAP_STATUS_STATE st

/-! ### Sections (R402, R403) -/

/-- The pages whose RWT registers an image holds. -/
def Package.imagePages (p : Package) : List Page :=
  allStages.map .stg ++ allStages.map .hal ++ [.num, .bwd, .moe, .gather, .pour, .cru]
    ++ (List.range (72 * p.variant.dies)).flatMap (fun c => [Page.acc c, Page.xe c, Page.clu c])

/-- Addresses of a page's RWT registers. -/
def rwtRegs (g : Page) : List Nat :=
  g.regs.flatMap (fun (r : RegDef) => if r.access = .rwt then (List.range r.count).map (fun i => g.base + r.off + i * r.stride) else [])

/-- A register's value in the REGS section: `STG_CTRL.ENABLE` is recorded as 0. -/
def Package.imageValue (p : Package) (a : Nat) : Nat :=
  if allStages.any (fun s => STG_CTRL s = a) then putBits (p.rd a) 0 1 0 else p.rd a

def Package.regsSection (p : Package) : List Byte :=
  (p.imagePages.flatMap rwtRegs).flatMap (fun a => leBytes 8 a ++ leBytes 8 (p.imageValue a))

/-- Stages that an image covers. -/
def Package.imageStages (p : Package) : List Nat := allStages.filter (fun s => p.stgState s ≠ STG_DISABLED)

/-- A stage's ring: four roles, four version numbers, RESOLVED_STEP. -/
def Package.vringSection (p : Package) (s : Nat) : List Byte :=
  (List.range 4).flatMap (fun n => leBytes 1 (p.vRole s n)) ++ leBytes 4 0 ++ (List.range 4).flatMap (fun n => leBytes 8 (p.vNum s n))
    ++ leBytes 8 (p.get (STG_VRING_STATE_RESOLVED_STEP s))

def Package.historySection (p : Package) : List Byte := p.bytesAt (p.rd NUM_HIST_BASE) (256 * p.rd NUM_HIST_SLOTS)

/-- Domain time since the last `SNAP_CAD_EPOCH`, in clock units. -/
def Package.tObs (p : Package) : Nat := (dsub p.dtime p.snap.epochAt).toNat

def Package.countersSection (p : Package) : List Byte :=
  leBytes 8 (p.rd CRU_STEPS_ATTEMPTED) ++ leBytes 8 (p.rd CRU_STEPS_COMMITTED)
    ++ (if p.feature 23 then p.bytesAt (p.rd CRU_DLOG_BASE) (64 * 256) else leBytes (64 * 256) 0)
    ++ leBytes 8 (p.rd SNAP_CAD_FAILS) ++ leBytes 8 p.tObs ++ leBytes 8 p.snap.lastNotice

/-- The slots of a stage that an image holds: CURRENT, and OLDER ones whose number is at least N − STALE_MAX (R403). -/
def Package.imageSlots (p : Package) (s n : Nat) : List Nat :=
  (List.range 4).filter (fun i => p.vRole s i = V_CURRENT || (p.vRole s i = V_OLDER && n ≤ p.vNum s i + p.staleMax s))

def Package.versionSections (p : Package) (n : Nat) : List Section :=
  p.imageStages.flatMap (fun s => (p.imageSlots s n).map (fun i =>
    let r := p.shardOf s (p.selfMember s) (p.rd (STG_VSLOT_BYTES s))
    let a := p.vslotAddr s i + r.1
    { typ := 0x05, index := s + 256 * i, dest := a, ranges := [(a, r.2 - r.1)] }))

def Package.pourSections (p : Package) : List Section :=
  (List.range (p.rd POUR_RTAB_COUNT)).filterMap (fun i => match p.region i with
    | none => none
    | some r =>
      let b1 := match p.hyperBytes r.hp with
        | some b => (Hyper.ofBytes b).beta1
        | none => 0
      some { typ := 0x06, index := i, dest := r.master, ranges := r.stateArrays b1, lead := leBytes 8 r.t })

def Package.riserSections (p : Package) : List Section :=
  (List.range (p.rd CRU_BTAB_COUNT)).filterMap (fun i => match p.bucket i with
    | none => none
    | some b =>
      if !b.topk then none
      else match p.riser b with
        | none => none
        | some (_, h, _) => some { typ := 0x07, index := i, dest := b.riser, ranges := [(b.riser, 4096), (b.half h, 4 * b.elements)] })

def Package.extraSections (p : Package) : List Section :=
  (List.range (p.rd SNAP_EXTRA_COUNT)).filterMap (fun i => match p.load (p.rd SNAP_EXTRA_BASE + 16 * i) 16 with
    | .ok b => some { typ := 0x08, index := i, dest := fieldAt b 0 8, ranges := [(fieldAt b 0 8, fieldAt b 8 8)] }
    | _ => none)

def Package.frameSections (p : Package) : List Section :=
  [{ typ := 0x01, index := 0, dest := 0, bytes := p.regsSection }]
    ++ p.imageStages.map (fun s => { typ := 0x02, index := s, dest := 0, bytes := p.vringSection s })
    ++ [{ typ := 0x03, index := 0, dest := 0, bytes := p.historySection }, { typ := 0x04, index := 0, dest := 0, bytes := p.countersSection }]

/-- The sections of an image of step k in the order they are sent (R410). -/
def Package.imageSections (p : Package) (k : Nat) : List Section :=
  p.frameSections ++ p.pourSections ++ p.riserSections ++ p.versionSections (k + 1) ++ p.extraSections

def Section.length (s : Section) : Nat := s.bytes.length + s.lead.length + (s.ranges.map (·.2)).foldl (· + ·) 0

/-- Bytes of an image: header, directory, sections at 64-byte boundaries. -/
def imageBytes (l : List Section) : Nat := l.foldl (fun a s => roundUp a 64 + s.length) (256 + 32 * l.length)

/-! ### Positions (R405) -/

/-- The logged steps, newest first: (step, start). -/
def Package.posLog (p : Package) : List (Nat × Nat) :=
  (List.range (min 4 p.posCount)).map (fun i => (p.rd (SNAP_POS_STEP ((p.posCount - 1 - i) % 4)), p.rd (SNAP_POS_START ((p.posCount - 1 - i) % 4))))

/-- DATA_STEP and DATA_POS of a frame with resume step n. -/
def Package.dataPos (p : Package) (n : Nat) : Nat × Nat :=
  match p.posLog.find? (fun e => e.1 = n) with
  | some e => e
  | none =>
    if p.posLog.all (fun e => decide (e.1 < n)) then (n, p.rd (ERR_POS_DATA 8))
    else (p.posLog.filter (fun e => decide (n ≤ e.1))).foldl (fun a e => if e.1 < a.1 then e else a) (p.posLog.headD (n, 0))

/-- M_STEP: the difference of the starts of the two latest consecutive logged steps. -/
def mStep : List (Nat × Nat) → Nat
  | a :: b :: r => if a.1 = b.1 + 1 then a.2 - b.2 else mStep (b :: r)
  | _ => 0

/-! ### The header (Table 16-2) -/

/-- `PKG_VARIANT` and `PKG_FITTED`. -/
def Package.variantWord (p : Package) : Nat := p.variant.code + 2 ^ 8 * p.variant.powerClass + 2 ^ 16 * 0xB0
def Package.fittedWord (p : Package) : Nat := (2 ^ p.variant.dies - 1) + 2 ^ 8 * b2n p.variant.guest + 2 ^ 32 * (2 ^ (4 * p.variant.dies) - 1)

/-- FITTED: fenced dies and their stacks cleared. -/
def Package.fittedNow (p : Package) : Nat :=
  maskOf (p.dies.filter (fun d => !p.dieFenced d)) + 2 ^ 8 * b2n p.variant.guest
    + 2 ^ 32 * maskOf ((List.range (4 * p.variant.dies)).filter (fun k => !p.dieFenced (k / 4)))

/-- Bytes 0 to 119 and 120 to 135 of a header with a STATE. -/
def Package.mouldHead (p : Package) (k sections bytes : Nat) : List Byte :=
  let d := p.dataPos (k + 1)
  leBytes 4 MOULD_MAGIC ++ leBytes 2 1 ++ leBytes 1 1 ++ leBytes 1 0 ++ leBytes 8 p.serial ++ leBytes 8 p.variantWord
    ++ (List.range 4).flatMap (fun n => leBytes 8 (p.rd (FEATURE_ACCEPT .pkg n))) ++ leBytes 8 p.fittedNow ++ leBytes 8 k ++ leBytes 8 (k + 1)
    ++ leBytes 8 (p.rd (ERR_POS_STREAM 8)) ++ leBytes 8 d.1 ++ leBytes 8 d.2 ++ leBytes 4 (mStep p.posLog) ++ leBytes 4 sections ++ leBytes 8 bytes
    ++ leBytes 8 p.beatNo ++ leBytes 8 p.beat.lastTick

/-- The whole header: DIR_CHECK, and HDR_CHECK with byte 6 taken as 1. -/
def sealHeader (head dir : List Byte) (state : Nat) : List Byte :=
  let h := head ++ leBytes 4 (crc32c dir)
  let h := h ++ leBytes 4 (crc32c h)
  h.take 6 ++ leBytes 1 state ++ h.drop 7 ++ leBytes 112 0

/-! ### Slots (R408) -/

/-- First slot number of an area: receive 0, local 2. -/
def areaSlot (local' : Bool) (i : Nat) : Nat := (if local' then 2 else 0) + i

def Package.slotState (p : Package) (n : Nat) : Nat := p.get (SNAP_SLOT_STATE n)
def Package.setSlotState (p : Package) (n st : Nat) : Package := p.put (SNAP_SLOT_STATE n) st

def Package.slotBytes' (p : Package) (n : Nat) : Nat := (if n < 2 then p.rd SNAP_RECV_SIZE else p.rd SNAP_LOCAL_SIZE) / 2
def Package.slotBase (p : Package) (n : Nat) : Nat := (if n < 2 then p.rd SNAP_RECV_BASE else p.rd SNAP_LOCAL_BASE) + n % 2 * p.slotBytes' n

/-- The slot that holds an area's newest COMPLETE image. -/
def Package.newestSlot (p : Package) (local' : Bool) : Option Nat :=
  let n := areaSlot local' (p.get (if local' then SNAP_SLOT_STATUS_NEWEST_LOCAL else SNAP_SLOT_STATUS_NEWEST_RECV))
  if p.slotState n = SLOT_COMPLETE || p.slotState n = SLOT_READING then some n else none

/-- The slot that a capture may write into. -/
def Package.freeSlot (p : Package) (local' : Bool) : Option Nat :=
  ((List.range 2).map (areaSlot local')).find? (fun n =>
    p.newestSlot local' ≠ some n && !bitAt (p.rd SNAP_SLOT_HOLD) n && p.slotState n ≠ SLOT_READING && decide (0 < p.slotBytes' n))

def Package.slotComplete (p : Package) (n : Nat) : Package :=
  (p.setSlotState n SLOT_COMPLETE).put (if n < 2 then SNAP_SLOT_STATUS_NEWEST_RECV else SNAP_SLOT_STATUS_NEWEST_LOCAL) (n % 2)

/-! ### The end of a capture -/

def snapLast (step cause kind : Nat) (cadence : Bool) : Nat := step % 2 ^ 48 + 2 ^ 48 * (cause % 256) + 2 ^ 56 * kind + 2 ^ 57 * b2n cadence

/-- Release every hold: Riser swaps that waited are made. -/
def Package.releaseHolds (p : Package) : Package :=
  let l := p.snap.swaps
  let p := (p.modSnap (fun s => { s with swaps := [] })).put SNAP_STATUS_HOLDING 0
  { p with snapPause := false }.each l (fun p e => p.swapRiser e.2 e.1)

/-- Stop counting a hold (R410). -/
def Package.endHold (p : Package) : Package :=
  match p.snap.capture with
  | none => p
  | some c => match c.holdSince with
    | none => p
    | some t =>
      let ns := (p.clock - t) / Config.nsUnits
      (p.modSnap (fun s => { s with capture := some { c with holdSince := none, heldNs := c.heldNs + ns } })).bump64 SNAP_HOLD_NS ns

/-- A capture fails (R411): its holds go, its slot stays INVALID. `cause` none: a poisoned line or an abort, for which Table 16-6 has no
number; CAUSE is then free. -/
def Package.captureFail (p : Package) (cause : Option Nat) (poison : Bool) : Package :=
  match p.snap.capture with
  | none => p
  | some _ =>
    let p := p.endHold
    match p.snap.capture with
    | none => p
    | some c =>
      let f := p.draw
      let p := if cause.isSome then p else f.2
      let code := cause.getD (f.1.toNat % 256)
      let p := p.modSnap (fun s => { s with capture := none })
      let p := p.releaseHolds
      let p := if c.buddy || !c.streaming then p else p.setSlotState c.slot SLOT_EMPTY
      let last := snapLast c.step code 0 c.tag.isNone
      let p := ((p.setSnapState SNAP_IDLE).wr SNAP_LAST last).bump64 SNAP_CAPTURE_FAILS 1
      let p := p.raise .snap EV_SNAP_CAPTURE_FAILED last (arg1Of 0 code)
      p.hubDone c.tag (if poison then ST_POISON else ST_FAILED) (if poison then 0 else code)

/-- A section of a running capture lies in a stack of die d (R411). -/
def Package.captureUses (p : Package) (d : Nat) : Bool := match p.snap.capture with
  | none => false
  | some c => c.frozen && c.dies.contains d

/-- The dies whose stacks hold a byte of some ranges. -/
def Package.diesOf (p : Package) (l : List (Nat × Nat)) : List Nat :=
  p.dies.filter (fun d => l.any (fun r => (stackPieces r.1 r.2).any (fun e => e.1 / 4 = d)))

/-! ### The freeze (R409) -/

/-- Send or store image bytes at an offset. -/
def Package.putImage (p : Package) (c : Capture) (ofs : Nat) (bs : List Byte) : Package :=
  let p := p.bump64 SNAP_BYTES bs.length
  if c.buddy then p.sendBytes (p.get SNAP_BUDDY_LINKS) (p.get SNAP_BUDDY_NODE) CLS_SNAPSHOT 0 [ofs] bs
  else p.tryStoreBy 8 (c.base + ofs) bs

/-- A line of what the frame copies from memory is poisoned (R411). -/
def Package.framePoisoned (p : Package) : Bool :=
  p.rangePoisoned (p.rd NUM_HIST_BASE) (256 * p.rd NUM_HIST_SLOTS) || (p.feature 23 && p.rangePoisoned (p.rd CRU_DLOG_BASE) (64 * 256))

/-- The frame of step k is taken: sections are listed, frame bytes go to staging. -/
def Package.freeze (p : Package) (c : Capture) (k : Nat) : Package :=
  let l := p.imageSections k
  let frame := (p.frameSections).flatMap (·.bytes)
  let total := imageBytes l
  let c := { c with step := k }
  let p := p.modSnap (fun s => { s with capture := some c })
  if p.framePoisoned then p.captureFail none true
  else if p.rd SNAP_STAGE_SIZE < frame.length || !p.rangeOk (p.rd SNAP_STAGE_BASE) frame.length then p.captureFail (some SC_SPACE) false
  else
    let slot := if c.buddy then some 0 else p.freeSlot true
    match slot with
    | none => p.captureFail (some SC_NO_SLOT) false
    | some n =>
      if !c.buddy && p.slotBytes' n < total then p.captureFail (some SC_SPACE) false
      else
        let c := { c with slot := n, base := if c.buddy then 0 else p.slotBase n, frozen := true, freezeAt := p.clock,
                          header := p.mouldHead k l.length total, todo := l,
                          dies := p.diesOf (l.flatMap (·.ranges) ++ [(p.rd SNAP_STAGE_BASE, frame.length)]
                            ++ (if c.buddy then [] else [(p.slotBase n, p.slotBytes' n)])),
                          offset := 256 + 32 * l.length, sections := l.length }
        let p := (p.tryStore (p.rd SNAP_STAGE_BASE) frame).modSnap (fun s => { s with capture := some c })
        let p := { p with snapPause := true, lnk := { p.lnk with snapLost := false } }
        ((p.setSnapState SNAP_FREEZING).put SNAP_STATUS_STEP k).put SNAP_STATUS_SECTION 0

/-- What a tick does for an armed capture, after the flips: freeze, or fail as LATE. A notice names its step; a command takes the
first committed step at or after its own (R412), and comes too late where another has flipped since that one. -/
def Package.snapTick (p : Package) : Package :=
  match p.snap.capture, p.snap.lastFlip with
  | some c, some k =>
    if c.frozen || p.fatal then p
    else if c.tag.isNone then
      if k < c.step then p
      else if c.step < k || c.step + 1 < p.cru.decided then p.captureFail (some SC_LATE) false
      else p.freeze c k
    else if k < c.step then p
    else if k + 1 < p.cru.decided || p.snap.prevFlip.any (fun j => decide (c.step ≤ j)) then p.captureFail (some SC_LATE) false
    else p.freeze c k
  | _, _ => p

/-- The freeze ends: phase starts resume, the header goes out with STATE 0, streaming begins. -/
def captureFreezeEnd (dt : Nat) (p : Package) : Package :=
  let p := p.pass dt
  match p.snap.capture with
  | none => p
  | some c =>
    if !c.frozen || c.streaming || p.fatal then p
    else
      let c := { c with streaming := true, freezeUs := (p.clock - c.freezeAt) / Config.usUnits }
      let p := { p with snapPause := false, snap := { p.snap with capture := some c } }
      let p := if c.buddy then p else p.setSlotState c.slot SLOT_WRITING
      (p.setSnapState SNAP_STREAMING).putImage c 0 (sealHeader c.header [] 0)

/-! ### Streaming (R410) -/

/-- The bytes of a section as they stand in memory now; none where a line is poisoned or out of reach. -/
def Package.sectionBytes (p : Package) (s : Section) : Option (List Byte) :=
  s.ranges.foldl (fun acc r => match acc, p.load r.1 r.2 with
    | some bs, .ok b => some (bs ++ b)
    | _, _ => none) (some (s.bytes ++ s.lead))

/-- A directory entry (Table 16-3). -/
def dirEntry (s : Section) (check ofs len : Nat) : List Byte :=
  leBytes 1 s.typ ++ leBytes 1 0 ++ leBytes 2 s.index ++ leBytes 4 check ++ leBytes 8 ofs ++ leBytes 8 len ++ leBytes 8 s.dest

/-- The image is complete: directory, final header, and the capture's end. -/
def Package.finishCapture (p : Package) (c : Capture) : Package :=
  let p := (p.putImage c 256 c.dir).putImage c 0 (sealHeader c.header c.dir 1)
  let p := p.endHold
  let held := match p.snap.capture with
    | some x => x.heldNs
    | none => 0
  let p := p.modSnap (fun s => { s with capture := none, measured := true })
  let p := p.releaseHolds
  let p := if c.buddy then p else p.slotComplete c.slot
  let last := snapLast c.step 0 0 c.tag.isNone
  let p := ((p.setSnapState SNAP_IDLE).wr SNAP_LAST last).bump64 SNAP_CAPTURES 1
  let p := p.wr SNAP_CAD_COST (min (2 ^ 32 - 1) (c.freezeUs + held / 1000))
  let p := p.raise .snap EV_SNAP_CAPTURE_DONE last 0
  p.hubDone c.tag ST_OK (c.step % 2 ^ 32)

/-- The next section has been read and sent; its holds go. -/
def sectionReadDone (dt : Nat) (found : List (Nat × LineCheck)) (p : Package) : Package :=
  let p := p.pass dt
  match p.snap.capture with
  | none => p
  | some c =>
    if !c.streaming || p.fatal then p
    else if c.buddy && p.lnk.snapLost then p.captureFail (some SC_LINK) false
    else match c.todo with
      | [] => p.finishCapture c
      | s :: rest =>
        let p := p.each s.ranges (fun p r => p.readFinds found r.1 r.2 MEM_BY_SNAP)
        match p.sectionBytes s with
        | none => p.captureFail none true
        | some bs =>
          let ofs := roundUp c.offset 64
          let p := (p.each s.ranges (fun p r => p.countReadBy 8 r.1 r.2)).putImage c ofs bs
          let c := { c with todo := rest, dir := c.dir ++ dirEntry s (crc32c bs) ofs bs.length, offset := ofs + bs.length }
          let p := p.modSnap (fun x => { x with capture := some c })
          let p := p.put SNAP_STATUS_SECTION (c.sections - rest.length)
          let p := if s.typ = 0x07 then
              let mine := p.snap.swaps.filter (fun e => e.1 = s.index)
              (p.modSnap (fun x => { x with swaps := x.swaps.filter (fun e => e.1 ≠ s.index) })).each mine (fun p e => p.swapRiser e.2 e.1)
            else p
          if rest.isEmpty then p.finishCapture c else p

/-! ### The buddy's side (R407, R408) -/

/-- Image bytes for an offset arrive from a node. A header with STATE 0 opens a slot, one with STATE 1 completes it. -/
def snapshotReceive (dt node ofs : Nat) (data : List Byte) (p : Package) : Package :=
  let p := p.pass dt
  if !p.has SNAP_RECV_CFG_VALID || p.get SNAP_RECV_CFG_SRC ≠ node then p
  else
    let p := if ofs = 0 && fieldAt data 6 1 = 0 then
        match p.freeSlot false with
        | some n =>
          let p := match p.snap.receiving with
            | some m => if m = n then p else p.setSlotState m SLOT_EMPTY
            | none => p
          (p.setSlotState n SLOT_WRITING).modSnap (fun s => { s with receiving := some n })
        | none => p.modSnap (fun s => { s with receiving := none })
      else p
    match p.snap.receiving with
    | none => p
    | some n =>
      if p.slotBytes' n < ofs + data.length then (p.setSlotState n SLOT_EMPTY).modSnap (fun s => { s with receiving := none })
      else
        let p := p.tryStore (p.slotBase n + ofs) data
        if ofs = 0 && fieldAt data 6 1 = 1 then
          let p := (p.slotComplete n).modSnap (fun s => { s with receiving := none })
          p.raise .snap EV_SNAP_RECV_DONE (fieldAt data 64 8) (arg1Of n 0)
        else p

/-! ### Cadence (R413 to R415) -/

/-- Does this package run the cadence controller. -/
def Package.runsCadence (p : Package) : Bool := p.has CRU_TREE_CFG_ROOT && p.has SNAP_CFG_CAD_ENABLE

/-- Intervals between the latest flips, at most 16 of them: their sum in clock units and their number. -/
def flipSpan : List Nat → Nat × Nat
  | a :: b :: r => let x := flipSpan (b :: r); (x.1 + (dsub a b).toNat, x.2 + 1)
  | _ => (0, 0)

/-- S in ns: the mean interval between the flips of the last 16 committed steps. -/
def Package.meanStepNs (p : Package) : Nat :=
  let x := flipSpan p.snap.flips
  if x.2 = 0 then 0 else x.1 / (x.2 * Config.nsUnits)

/-- i = clamp(round(√(2·C·m) / S), MIN_STEPS, MAX_STEPS): with C in µs, m = T ÷ (F + 1) in clock units and S in ns. -/
def cadenceInterval (cUs t f sNs lo hi : Nat) : Nat :=
  if sNs = 0 then lo
  else
    let fourV := 4 * 2 * cUs * t * 10 ^ 12 / ((f + 1) * Config.secUnits * sNs * sNs)
    max lo (min hi ((isqrt fourV 64 0 + 1) / 2))

/-- Arm a capture by a notice, or count it as skipped. -/
def Package.noticeCapture (p : Package) (step : Nat) : Package :=
  if !p.has SNAP_CFG_CAD_ENABLE then p
  else if p.snap.capture.isSome then p.bump64 SNAP_CAD_SKIPPED 1
  else p.modSnap (fun s => { s with capture := some { tag := none, buddy := decide (p.get SNAP_CFG_TARGET = 0), step := step } })

/-- A capture notice goes down the tree. -/
def Package.sendNotice (p : Package) (step : Nat) : Package :=
  p.each p.children (fun p i => match p.treeEntry i with
    | none => p
    | some e => p.sendMask e.mask e.node CLS_TREE 16 (.fields 2 [step] []))

/-- What the controller does with an outcome. -/
def Package.cadence (p : Package) (o : Outcome) : Package :=
  if !p.runsCadence then p
  else
    let p := if !o.commit && (o.cause = 1 || o.cause = 2) then p.wr SNAP_CAD_FAILS (min (2 ^ 32 - 1) (p.rd SNAP_CAD_FAILS + 1)) else p
    if !o.commit then p
    else
      let f := p.rd SNAP_CAD_FAILS
      let t := p.tObs + p.rd SNAP_CAD_PRIOR % 2 ^ 32 * Config.secUnits
      let s := p.meanStepNs
      let lo := p.get SNAP_CFG_MIN_STEPS
      let i := if p.snap.measured then cadenceInterval (p.rd SNAP_CAD_COST) t f s lo (p.get SNAP_CFG_MAX_STEPS) else lo
      let p := (p.wr SNAP_CAD_MTBF (min (2 ^ 32 - 1) (t / ((f + 1) * Config.secUnits)))).wr SNAP_CAD_STEP_NS (min (2 ^ 40 - 1) s)
      let p := if i = p.snap.interval then p
        else (p.modSnap (fun x => { x with interval := i })).raise .snap EV_SNAP_CAD_INTERVAL o.step (arg1Of 0 i)
      let since := p.snap.sinceNotice + 1
      let due := decide (i ≤ since)
      let p := p.modSnap (fun x => { x with sinceNotice := if due then 0 else since, lastNotice := if due then o.step else x.lastNotice })
      let p := (p.put SNAP_CAD_INTERVAL_INTERVAL i).put SNAP_CAD_INTERVAL_SINCE (if due then 0 else since)
      if due then (p.sendNotice o.step).noticeCapture o.step else p

/-- A capture that a notice armed is too late once the next step's outcome has come (R409). -/
def Package.lateCapture (p : Package) (o : Outcome) : Package :=
  match p.snap.capture with
  | some c => if c.tag.isNone && !c.frozen && decide (c.step < o.step) then p.captureFail (some SC_LATE) false else p
  | none => p

def captureNotice (dt step : Nat) (p : Package) : Package := ((p.pass dt).sendNotice step).noticeCapture step

def cadEpoch (p : Package) : Package := (p.modSnap (fun s => { s with epochAt := p.dtime })).wr SNAP_CAD_FAILS 0

def failNote (v : Nat) (p : Package) : Package := p.wr SNAP_CAD_FAILS (min (2 ^ 32 - 1) (p.rd SNAP_CAD_FAILS + v % 256))

/-! ### The step's decision and outcome (R276 to R278) -/

def stepDecision (dt step : Nat) (p : Package) : Package :=
  let p := p.pass dt
  match p.decidable step with
  | none => p
  | some r =>
    let o := p.outcomeOf r
    ((p.lateCapture o).takeOutcome o).cadence o

def stepOutcomeReceive (dt : Nat) (o : Outcome) (p : Package) : Package :=
  let p := p.pass dt
  if o.step < p.cru.decided then p else ((p.lateCapture o).takeOutcome o).cadence o

/-! ### The commands' meanings -/

def execStepDecide (dt step : Nat) (s : State) := onPkg (stepDecision dt step) s
def execStepOutcomeReceive (dt : Nat) (o : Outcome) (s : State) := onPkg (stepOutcomeReceive dt o) s
def execCaptureFreezeEnd (dt : Nat) (s : State) := onPkg (captureFreezeEnd dt) s
def execSectionReadDone (dt : Nat) (found : List (Nat × LineCheck)) (s : State) := onPkg (sectionReadDone dt found) s
def execSnapshotReceive (dt node offset : Nat) (data : List Byte) (s : State) := onPkg (snapshotReceive dt node offset data) s
def execCaptureNoticeReceive (dt step : Nat) (s : State) := onPkg (captureNotice dt step) s
def execSnapCadEpoch (s : State) := onPkg cadEpoch s
def execSnapFailNote (value : Nat) (s : State) := onPkg (failNote value) s

end Sys2Proof.Machine
end

