-- ==== Sys2Proof/Machine/Fabric.lean ====
section
/-! DEFINITION. The package fabric (R314 to R329): shrouds and their width, heartbeats, the fence of a die, re-admission, capability
records and the feature offer. -/

namespace Sys2Proof.Machine

open Sys2Proof

/-- Die states (Table 13-8). -/
def DIE_UNFITTED : Nat := 0
def DIE_TRAINING : Nat := 1
def DIE_ACTIVE : Nat := 2
def DIE_FENCED : Nat := 3
def DIE_RECOVERING : Nat := 4
def DIE_WAIT_STEP : Nat := 5

/-- Shroud states (Table 13-8). -/
def SHROUD_ABSENT : Nat := 0
def SHROUD_TRAINING : Nat := 1
def SHROUD_UP : Nat := 2
def SHROUD_RETRAINING : Nat := 3
def SHROUD_DEGRADED : Nat := 4
def SHROUD_DOWN : Nat := 5

def Package.modFab (p : Package) (f : FabUnit → FabUnit) : Package := { p with fab := f p.fab }
def Package.shroud (p : Package) (j : Nat) : Shroud := mapGet {} p.fab.shrouds j
def Package.setShroud (p : Package) (j : Nat) (x : Shroud) : Package := p.modFab (fun f => { f with shrouds := mapSet {} f.shrouds j x })
def Package.modShroud (p : Package) (j : Nat) (f : Shroud → Shroud) : Package := p.setShroud j (f (p.shroud j))

def Package.dieState (p : Package) (d : Nat) : Nat := p.get (FAB_DIE_STATE_STATE d)
def Package.setDieState (p : Package) (d st : Nat) : Package := p.put (FAB_DIE_STATE_STATE d) st
def Package.shroudState (p : Package) (j : Nat) : Nat := p.get (FAB_SHROUD_STATUS_STATE j)
def Package.setShroudState (p : Package) (j st : Nat) : Package := p.put (FAB_SHROUD_STATUS_STATE j) st

def allShrouds : List Nat := List.range 12

/-- Shrouds at a die. -/
def Package.shroudsOf (p : Package) (d : Nat) : List Nat := allShrouds.filter (fun j => p.hasShroud j && ((shroudDies j).1 = d || (shroudDies j).2 = d))

def popcount (n v : Nat) : Nat := (bitsSet n v).length

/-! ### Shroud width (R318 to R321) -/

/-- The hub die records an agreed mask. -/
def Package.agree (p : Package) (j mask : Nat) : Package := (p.put (FAB_SHROUD_STATUS_MASK j) mask).put (FAB_SHROUD_STATUS_WIDTH j) (popcount 12 mask)

/-- Mismatches within 1 s of now. -/
def recentMismatches (now : Nat) (l : List Nat) : Nat := (l.filter (fun t => now ≤ t + Config.secUnits)).length

/-- A shroud enters DEGRADED: cause 1 mismatch, 2 below MIN_WIDTH, 3 heartbeat (R320). -/
def Package.degrade (p : Package) (j cause : Nat) : Package :=
  let p := ((p.setShroudState j SHROUD_DEGRADED).put (FAB_SHROUD_STATUS_DEG_CAUSE j) cause).setBit FAB_STATUS (16 + j) true
  let p := if cause = 1 then p.raise .fab EV_FAB_WIDTH_MISMATCH p.beatNo (arg1Of j (p.get (FAB_SHROUD_STATUS_MISMATCHES j))) else p
  let p := p.raise .fab EV_FAB_SHROUD_DEGRADED p.beatNo (arg1Of j cause)
  p.report .fab 8 1 EV_FAB_SHROUD_DEGRADED p.beatNo (arg1Of j cause) false false

/-- A shroud retrains: at most 8 µs, ended by SHROUD_TRAINING_DONE. -/
def Package.retrainShroud (p : Package) (j : Nat) : Package := (p.setShroudState j SHROUD_RETRAINING).bump64 FAB_RETRAINS 1

/-- A die of the shroud is fenced or is being fenced; a recovering one trains its shrouds (R327). -/
def Package.shroudFenced (p : Package) (j : Nat) : Bool :=
  p.dieState (shroudDies j).1 = DIE_FENCED || p.dieState (shroudDies j).2 = DIE_FENCED

/-- A shroud's training ends with the masks that its sides brought up; each side sends its beacon. After the one retrain that follows a
mismatch, both sides use what is left of the recorded mask, whatever the result (R319). -/
def shroudTrainingDone (dt j a b : Nat) (p : Package) : Package :=
  let p := p.pass dt
  let st := p.shroudState j
  if !p.hasShroud j || (st ≠ SHROUD_TRAINING && st ≠ SHROUD_RETRAINING && st ≠ SHROUD_UP) then p
  else
    let x := p.shroud j
    let m := a &&& b &&& p.get (FAB_SHROUD_STATUS_MASK j)
    let sides := if x.narrowing then (m % 2 ^ 12, m % 2 ^ 12) else (a % 2 ^ 12, b % 2 ^ 12)
    (p.setShroud j { x with sides := sides, beacon := some sides, narrowing := false }).setShroudState j SHROUD_UP

/-- Each side of a shroud sends its width beacon. -/
def widthBeaconSend (dt j : Nat) (p : Package) : Package :=
  let p := p.pass dt
  if !p.hasShroud j || (p.shroudState j ≠ SHROUD_UP && p.shroudState j ≠ SHROUD_RETRAINING) then p
  else p.modShroud j (fun x => { x with beacon := some x.sides })

/-- The hub die compares a pair of beacons. -/
def widthBeaconReceive (dt j : Nat) (p : Package) : Package :=
  let p := p.pass dt
  let x := p.shroud j
  match x.beacon with
  | none => p
  | some (a, b) =>
    -- beacons that come during a retrain are checked after it
    if p.shroudState j ≠ SHROUD_UP then p
    else
      let p := p.setShroud j { x with beacon := none }
      if p.shroudFenced j then p
      else if a = b then
        let p := p.agree j a
        if popcount 12 a < p.get FAB_CFG_MIN_WIDTH then p.degrade j 2 else p
      else
        let agreed := a &&& b
        let hist := (p.clock :: x.mismatches).take 3
        let n := recentMismatches p.clock hist
        let p := (p.bump64 FAB_MISMATCH_COUNT 1).agree j agreed
        let p := (p.put (FAB_SHROUD_STATUS_MISMATCHES j) (min 3 n)).modShroud j (fun y => { y with mismatches := hist, sides := (agreed, agreed) })
        let p := p.report .fab 8 0 EV_FAB_WIDTH_MISMATCH p.beatNo (arg1Of j n) false false
        if n = 3 then p.degrade j 1
        else if popcount 12 agreed < p.get FAB_CFG_MIN_WIDTH then p.degrade j 2
        else (p.modShroud j (fun y => { y with narrowing := true })).retrainShroud j

def shroudRetrain (j : Nat) (p : Package) : Package := if p.hasShroud j && p.shroudState j = SHROUD_UP then p.retrainShroud j else p

/-- RESTORE trains a DEGRADED shroud afresh and clears its history (R320). -/
def shroudRestore (j : Nat) (p : Package) : Package :=
  if !p.hasShroud j || p.shroudState j ≠ SHROUD_DEGRADED then p
  else
    let p := (p.setShroud j {}).agree j 0
    let p := ((p.put (FAB_SHROUD_STATUS_DEG_CAUSE j) 0).put (FAB_SHROUD_STATUS_MISMATCHES j) 0).setBit FAB_STATUS (16 + j) false
    p.setShroudState j SHROUD_TRAINING

/-- The shrouds of a die train from the start. -/
def Package.trainShrouds (p : Package) (d : Nat) : Package :=
  p.each (p.shroudsOf d) (fun p j =>
    if p.shroudState j = SHROUD_DEGRADED then p
    else (((p.setShroud j {}).agree j 0).put (FAB_SHROUD_STATUS_MISMATCHES j) 0).setShroudState j SHROUD_TRAINING)

/-! ### Capability records and the offer (R328, R329, R344, R345) -/

/-- The floor of an ordering code (R345), words 1 to 3 zero. -/
def Variant.floor (v : Variant) : Nat := if v.guest then 0x1FFFFFFF else 0x1BFFFFFF

/-- Feature word w of a die's record. -/
def Package.capWord (p : Package) (d w : Nat) : Nat := p.rd (FAB_DIE_CAP (4 * d + w))

/-- FEATURE_OFFER word w: the AND over the hub die and every fitted compute die that is not fenced. -/
def Package.offer (p : Package) (w : Nat) : Nat := (p.dies.filter (fun d => !p.dieFenced d)).foldl (fun a d => a &&& p.capWord d w) (p.capWord 8 w)

/-- Every bit of a word is in another. -/
def within' (a b : Nat) : Bool := decide (a &&& b = a)

/-- The highest flit revision that both sides of each shroud state. -/
def Package.agreeRevisions (p : Package) : Package :=
  p.each (allShrouds.filter p.hasShroud) (fun p j =>
    p.put (FAB_SHROUD_STATUS_REVISION j) (min (mapGet 0 p.fab.revisions (shroudDies j).1) (mapGet 0 p.fab.revisions (shroudDies j).2)))

/-! ### The fence (R322 to R326) -/

/-- `FAB_STATUS` and `PKG_STATUS` of the fenced set. -/
def Package.showFenced (p : Package) (d : Nat) (b : Bool) : Package :=
  let p := p.setBit FAB_STATUS (8 + d) b
  let deg := b2n (decide (p.get FAB_STATUS_DIE_MASK ≠ 0))
  (p.put FAB_STATUS_DEGRADED deg).put PKG_STATUS_DEGRADED deg

/-- A range of package memory meets a stack of die d. -/
def Package.inDie (d a n : Nat) : Bool := decide (0 < n) && (stackPieces a n).any (fun e => e.1 / 4 = d)

/-- Has a stage clusters of die d, or a queue, payload slot, stash, version slot, recompute region or conditional log in its stacks. -/
def Package.stageOnDie (p : Package) (s d : Nat) : Bool :=
  (p.stg s).clusters.any (fun c => c / 72 = d)
    || [Dir.fwd, Dir.bwd].any (fun q => Package.inDie d (p.qBase s q) (64 * p.qDepth s q) || Package.inDie d (p.qPbase s q) (4096 * p.qUnits s q * p.qDepth s q))
    || Package.inDie d (p.rd (HAL_STASH_BASE s)) (p.rd (HAL_STASH_SIZE s))
    || (List.range (p.get (STG_VRING_CFG_DEPTH s))).any (fun n => Package.inDie d (p.vslotAddr s n) (p.rd (STG_VSLOT_BYTES s)))
    || Package.inDie d (p.rd (BWD_RECOMP_BASE s)) (p.rd (BWD_RECOMP_SIZE s))
    || Package.inDie d (p.rd (MOE_LOG_BASE s)) (64 * p.rd (MOE_LOG_SLOT s))

/-- An address of die d's page group or of its stacks' pages, its ERR page apart (R427). -/
def dieReg (d a : Nat) : Bool :=
  (decide (pageD d ≤ a) && decide (a < pageD d + 0x1000000) && !(decide (pageD d + 0x1000 ≤ a) && decide (a < pageD d + 0x2000)))
    || (decide (0x10000000 + 4 * d * 0x100000 ≤ a) && decide (a < 0x10000000 + (4 * d + 4) * 0x100000))

/-- The counters of a cluster that the telemetry record sums (Table 14-15): BUSY, IDLE by cause, WORK_CYCLES, MAC_UNITS, TRIM_CYCLES, TRIM_ENERGY,
RAMP_LOSS. -/
def Package.clusterTotals (p : Package) (c : Nat) : List Nat :=
  ([CLU_BUSY c] ++ (List.range 16).map (CLU_IDLE c) ++ [XE_WORK_CYCLES c, XE_MAC_UNITS c, XE_TRIM_CYCLES c, XE_TRIM_ENERGY c, XE_RAMP_LOSS c]).map p.rd

/-- Add lists of totals item by item. -/
def addTotals (a b : List Nat) : List Nat := (List.range 22).map (fun i => listAt 0 a i + listAt 0 b i)

/-- The totals of the clusters of a die. -/
def Package.dieTotals (p : Package) (d : Nat) : List Nat := (List.range 72).foldl (fun t i => addTotals t (p.clusterTotals (72 * d + i))) []

/-- A die is reset (Table 17-2): its pages, its clusters and cores, its stacks' contents. Its error log stays. -/
def Package.dieReset (p : Package) (d : Nat) : Package :=
  { p with
    telBase := addTotals p.telBase (p.dieTotals d)
    regs := p.regs.filter (fun e => !dieReg d e.1)
    mem := p.mem.filter (fun e => decide (e.1 / 2 ^ 38 ≠ d))
    poison := p.poison.filter (fun l => decide (l / 2 ^ 32 ≠ d))
    cores := p.cores.filter (fun e => decide (e.1 / 32 / 72 ≠ d))
    clus := p.clus.filter (fun e => decide (e.1 / 72 ≠ d))
    rings := mapDel p.rings d
    bists := mapDel p.bists d
    aclk := mapDel p.aclk d
    thermalDies := p.thermalDies.filter (· ≠ d)
    powerDies := p.powerDies.filter (· ≠ d)
    pwr := { p.pwr with capped := p.pwr.capped.filter (· ≠ d), caps := mapDel p.pwr.caps d, junction := mapDel p.pwr.junction d }
    runs := p.runs.filter (fun (r : RunJob) => r.die ≠ d) }

/-- A Pour region in a lost stack fails (R243). -/
def Package.failPours (d : Nat) : Nat → Package → Package
  | 0, p => p
  | fuel + 1, p =>
    match (List.range 4).findSome? (fun i => (p.engineWork (4 * d + i)).map (fun w => (4 * d + i, w))) with
    | none => p
    | some (k, j, i) => Package.failPours d fuel (p.pourFail k j i)

/-- Messages under way inside the package whose queue lies in the die's stacks are discarded. -/
def Package.dropInFlight (p : Package) (d : Nat) : Package :=
  { p with inFlight := p.inFlight.filter (fun m => match m.body with
    | .output o => !Package.inDie d (p.qBase o.stage o.dir) (64 * p.qDepth o.stage o.dir)
    | _ => true) }

/-- The hub die fences a die (R323, R324): CAUSE of `FAB_FENCE_LAST`, the clock of its last heartbeat. -/
def Package.fenceDie (p : Package) (d cause since : Nat) : Package :=
  if !p.dieFitted d || p.dieFenced d && p.dieState d ≠ DIE_WAIT_STEP && p.dieState d ≠ DIE_RECOVERING then p
  else
    let held := allStages.filter (fun s => p.stgState s ≠ STG_DISABLED && p.stageOnDie s d)
    let p := (p.setDieState d DIE_FENCED).showFenced d true
    let p := p.modFab (fun f => { f with silent := f.silent.filter (fun e => e.1 ≠ d), readmits := mapDel f.readmits d })
    let p := p.dropInFlight d
    let (p, lost) := p.endRing d ST_DIE_ISOLATED
    let p := p.each held (fun p s => (((p.stopCores s).abandon s).holdStage s 4).modStg s (fun x => { x with recovery := true }))
    let p := p.failPours d ((p.pours.map (fun j => j.regions.length)).sum + 1)
    let p := if p.captureUses d then p.captureFail (some SC_FENCED) false else p
    let p := p.dieReset d
    let p := p.each (p.shroudsOf d) (fun p j => if p.shroudState j = SHROUD_DEGRADED then p else p.setShroudState j SHROUD_DOWN)
    let last := d + 2 ^ 4 * cause + 2 ^ 16 * min lost 65535 + 2 ^ 32 * maskOf held
    let p := (p.wr FAB_FENCE_LAST last).bump64 FAB_FENCE_COUNT 1
    let p := p.report .fab 8 1 cause last (maskOf held) false false
    p.modFab (fun f => { f with fences := f.fences ++ [{ die := d, cause := cause, since := since, held := maskOf held }] })

/-- A die that is fenced or recovers: it answers on no path. One that waits for its step boundary beats again, and may be fenced again (R327). -/
def Package.dieGone (p : Package) (d : Nat) : Bool := p.dieFenced d && p.dieState d ≠ DIE_WAIT_STEP

/-- The paths that carry a die's heartbeats: its stay port (12) and its shrouds in use. -/
def Package.beatPaths (p : Package) (d : Nat) : List Nat :=
  12 :: (p.shroudsOf d).filter (fun j => p.shroudState j = SHROUD_UP || p.shroudState j = SHROUD_RETRAINING)

/-- Is a die silent on every path. -/
def Package.dieSilent (p : Package) (d : Nat) : Bool := (p.beatPaths d).all (fun j => p.fab.silent.contains (d, j))

/-- A die sends its heartbeat on every path. A shroud on which it was missing, while both its dies answer on other paths, becomes
DEGRADED with cause 3 (R320). -/
def heartbeatSend (dt d : Nat) (p : Package) : Package :=
  let p := p.pass dt
  if !(d = 8 || p.dieFitted d) || p.dieGone d then p
  else
    let bad := (p.fab.silent.filter (fun e => e.1 = d && e.2 < 12)).map (·.2)
    let bad := bad.filter (fun j =>
      let o := if (shroudDies j).1 = d then (shroudDies j).2 else (shroudDies j).1
      !p.dieSilent o && !p.dieGone o && (p.shroudState j = SHROUD_UP || p.shroudState j = SHROUD_RETRAINING))
    let p := p.modFab (fun f => { f with silent := f.silent.filter (fun e => e.1 ≠ d), lastBeat := mapPut f.lastBeat d p.clock })
    p.each bad (fun p j => p.degrade j 3)

/-- A receiver reports a heartbeat missing on a path; a die that is silent on every path is lost (R322). -/
def heartbeatMissing (dt d path : Nat) (p : Package) : Package :=
  let p := p.pass dt
  if !p.dieFitted d || p.dieGone d || !(p.beatPaths d).contains path then p
  else
    let p := p.modFab (fun f => { f with silent := if f.silent.contains (d, path) then f.silent else f.silent ++ [(d, path)] })
    if p.dieSilent d then p.fenceDie d 0 (mapGet p.clock p.fab.lastBeat d) else p

/-- The hold ends 40 µs after the last heartbeat of the die lost last; each fence raises its event (R323, R326). -/
def fenceRelease (dt : Nat) (p : Package) : Package :=
  let p := p.pass dt
  let l := p.fab.fences
  if l.any (fun f => decide (p.clock < f.since + 40 * Config.usUnits)) then p
  else
    let p := p.modFab (fun f => { f with fences := [] })
    p.each l (fun p f => p.raise .fab EV_FAB_DIE_FENCED (p.rd FAB_FENCE_LAST) f.held)

/-- `FAB_DIE_CTRL.FENCE` (R322); a die already fenced or recovering is left alone (R326). -/
def softwareFence (dt d : Nat) (p : Package) : Package :=
  let p := p.pass dt
  if p.dieGone d then p else p.fenceDie d 1 p.clock

/-! ### Re-admission (R327) -/

/-- Map a cluster's logical positions to its lowest-numbered working cores, spares next (R430); fewer than 16 retire it (R426). -/
def Package.mapCluster (p : Package) (c failed : Nat) (sramOk : Bool) : Package :=
  let good := (List.range Config.coresPerCluster).filter (fun k => !bitAt failed k)
  let mask := maskOf ((List.range Config.coresPerCluster).filter (bitAt failed))
  let p := (p.put (CLU_STATUS_RETIRED c) mask).put (CLU_STATUS_QUEUED c) 0
  if good.length < 16 || !sramOk then (p.put (CLU_STATUS_STATE c) 2).put (CLU_STATUS_SPARES c) 0
  else
    let p := p.each (List.range 16) (fun p q => p.mapCore c q (listAt 0 good q))
    (p.put (CLU_STATUS_STATE c) 0).put (CLU_STATUS_SPARES c) (good.length - 16)

/-- Cores and clusters that repair entries retire. -/
def retiredBy (l : List Repair) (c : Nat) : Nat × Bool :=
  let here := l.filter (fun r => r.place = c / 72 && r.where' = c % 72)
  (maskOf ((here.filter (fun r => r.kind = 1)).map (fun r => r.location % 32)), here.any (fun r => r.kind = 2))

/-- Apply a die's self-test: per cluster the mask of failing cores and whether its SRAM works; entries of the ledger and the fuses retire
cores even when they pass. -/
def Package.mapDie (p : Package) (d : Nat) (fuses : List Repair) (fails : List (Nat × Bool)) : Package :=
  p.each (List.range 72) (fun p i =>
    let c := 72 * d + i
    let f := listAt (0, true) fails i
    let r := retiredBy (fuses ++ p.pwr.ledger) c
    p.mapCluster c (f.1 ||| r.1) (f.2 && !r.2))

/-- READMIT starts with the die's reset. -/
def dieReadmit (dt d : Nat) (p : Package) : Package :=
  let p := p.pass dt
  if !p.dieFitted d || p.dieState d ≠ DIE_FENCED || p.fab.fences.any (fun f => f.die = d) then p
  else
    let p := p.dieReset d
    let p := p.each (List.range 4) (fun p w => p.wr (FAB_DIE_CAP (4 * d + w)) 0)
    (p.setDieState d DIE_RECOVERING).modFab (fun f => { f with readmits := mapPut f.readmits d (1, 0) })

/-- A step of a re-admission fails: the die returns to FENCED. -/
def Package.readmitFail (p : Package) (d step : Nat) : Package :=
  let p := (p.setDieState d DIE_FENCED).modFab (fun f => { f with readmits := mapDel f.readmits d })
  let last := putBits (putBits (putBits (p.rd FAB_FENCE_LAST) 0 3 d) 4 3 3) 8 8 step
  (p.wr FAB_FENCE_LAST last).raise .fab EV_FAB_READMIT_FAILED last (arg1Of d step)

/-- A re-admission step ends. Step 2 has trained its shrouds, step 3 has its capability record, step 4 its field BIST, which the
per-cluster masks of failing cores report. -/
def readmitStepDone (dt d : Nat) (ok : Bool) (fails : List (Nat × Bool)) (p : Package) : Package :=
  let p := p.pass dt
  match mapFind p.fab.readmits d with
  | none => p
  | some (step, _) =>
    if step = 5 then p
    else
      let caps := decide (step ≠ 3) || (List.range 4).all (fun w => within' (p.rd (FEATURE_ACCEPT .pkg w)) (p.capWord d w))
      if !ok || !caps then p.readmitFail d step
      else
        let p := if step = 1 then p.trainShrouds d else if step = 4 then p.mapDie d [] fails else p
        let p := p.modFab (fun f => { f with readmits := mapPut f.readmits d (step + 1, p.cru.resolved) })
        if step = 4 then p.setDieState d DIE_WAIT_STEP else p

/-- At the tick at which the package next resolves a step, the die becomes ACTIVE. -/
def readmitActivate (dt d : Nat) (p : Package) : Package :=
  let p := p.pass dt
  match mapFind p.fab.readmits d with
  | some (5, n) =>
    if p.cru.resolved ≤ n then p
    else
      let p := (p.setDieState d DIE_ACTIVE).showFenced d false
      p.modFab (fun f => { f with readmits := mapDel f.readmits d })
  | _ => p

/-- CAUSE of a capability record below the floor. -/
def CAUSE_CAP_FLOOR : Nat := 2

/-- A die's capability record arrives (R328): generation, stepping, flit revision, four feature words. At power-up a compute die
below the floor is fenced, a hub die below it is FATAL (R329). -/
def capabilityRecord (dt d gen rev : Nat) (words : List Nat) (p : Package) : Package :=
  let p := p.pass dt
  if !(d = 8 || p.dieFitted d) then p
  else
    let p := p.each (List.range 4) (fun p w => p.wr (FAB_DIE_CAP (4 * d + w)) (listAt 0 words w))
    let p := (p.put (FAB_GEN_OF d) gen).modFab (fun f => { f with revisions := mapPut f.revisions d rev })
    let p := p.agreeRevisions
    if within' p.variant.floor (listAt 0 words 0) || p.dieState d = DIE_RECOVERING || p.has PKG_STATUS_READY then p
    else if d = 8 then p.reportFatal .fab 8 CAUSE_CAP_FLOOR p.beatNo (arg1Of 8 CAUSE_CAP_FLOOR)
    else if p.dieFenced d then p
    else (p.put (PWR_DIE_BOOT_RESULT d) 6).fenceDie d CAUSE_CAP_FLOOR p.clock

/-! ### The commands' meanings -/

def execHeartbeatSend (dt die : Nat) (s : State) := onPkg (heartbeatSend dt die) s
def execHeartbeatMissing (dt die path : Nat) (s : State) := onPkg (heartbeatMissing dt die path) s
def execFenceRelease (dt : Nat) (s : State) := onPkg (fenceRelease dt) s
def execSoftwareFence (dt die : Nat) (s : State) := onPkg (softwareFence dt die) s
def execDieReadmit (dt die : Nat) (s : State) := onPkg (dieReadmit dt die) s
def execReadmitActivate (dt die : Nat) (s : State) := onPkg (readmitActivate dt die) s
def execCapabilityRecordReceive (dt die gen rev : Nat) (words : List Nat) (s : State) := onPkg (capabilityRecord dt die gen rev words) s
def execShroudTrainingDone (dt shroud a b : Nat) (s : State) := onPkg (shroudTrainingDone dt shroud a b) s
def execWidthBeaconSend (dt shroud : Nat) (s : State) := onPkg (widthBeaconSend dt shroud) s
def execWidthBeaconReceive (dt shroud : Nat) (s : State) := onPkg (widthBeaconReceive dt shroud) s
def execShroudRetrain (shroud : Nat) (s : State) := onPkg (shroudRetrain shroud) s
def execShroudRestore (shroud : Nat) (s : State) := onPkg (shroudRestore shroud) s

end Sys2Proof.Machine
end

