-- ==== Sys2Proof/Machine/Sec.lean ====
section
/-! DEFINITION. The hub security processor (18_security.md): images and their verification (R447 to R450), measurement registers (R451),
reports (R454 to R457), anti-rollback (R458), tokens (R460, R461) and the control-core debug window (R462). The arithmetic of ECDSA on
brainpoolP384r1 is left out: whether a signature verifies comes with the command. -/

namespace Sys2Proof.Machine

open Sys2Proof

/-- A command whose effect is a change of the part and the package: it always completes. -/
def onBoth (f : Part → Package → Part × Package) (s : State) : Host.Outcome State Fault Refusal :=
  .next { s with part := (f s.part s.pkg).1, pkg := (f s.part s.pkg).2 }

def Package.modSec (p : Package) (f : SecUnit → SecUnit) : Package := { p with sec := f p.sec }

/-- Life-cycle codes (Table 17-7). -/
def LC_MANUFACTURE : Nat := 1
def LC_PROVISIONED : Nat := 2
def LC_DEPLOYED : Nat := 3
def LC_RETURNED : Nat := 4
def LC_ENDED : Nat := 5

/-- The life-cycle state as `PWR_STATUS.LC_STATE` shows it. -/
def Package.lcState (p : Package) : Nat := p.get PWR_STATUS_LC_STATE

/-- Hub firmware runs: power is good and verification did not fail (R425, R426). -/
def Package.hubRuns (p : Package) : Bool := p.pwr.fw

/-! ### Measurement registers (R451) -/

/-- MRn, 48 bytes. -/
def Package.mr (p : Package) (n : Nat) : List Byte := (List.range 6).flatMap (fun w => leBytes 8 (p.rd (SEC_MR (6 * n + w))))

def Package.mrCount (p : Package) (n : Nat) : Nat := mapGet 0 p.sec.counts n

/-- Extend MRn with a 48-byte value. -/
def Package.extendMr (p : Package) (n : Nat) (d : List Byte) : Package :=
  let v := sha384 (p.mr n ++ d)
  let c := min 0xFFFF (p.mrCount n + 1)
  (p.each (List.range 6) (fun p w => p.wr (SEC_MR (6 * n + w)) (fieldAt v (8 * w) 8))).modSec (fun x => { x with counts := mapSet 0 x.counts n c })

/-! ### Images (R448, R449) -/

def IMAGE_MAGIC : Nat := 0x51494D31

def ImageRead.version (i : ImageRead) : Nat := fieldAt i.header 8 4
def ImageRead.svn (i : ImageRead) : Nat := fieldAt i.header 12 1

/-- Does an image of a class verify: header layout, key not revoked, SVN, signature, body hash. -/
def imageVerifies (cls revoked counter : Nat) (i : ImageRead) : Bool :=
  let h := i.header
  h.length = 512 && fieldAt h 0 4 = IMAGE_MAGIC && fieldAt h 4 1 = cls && decide (fieldAt h 5 1 < 4) && !bitAt revoked (fieldAt h 5 1)
    && zerosAt h 6 2 && zerosAt h 13 3 && zerosAt h 24 8 && zerosAt h 80 336 && decide (i.svn ≤ 64) && decide (counter ≤ i.svn)
    && decide (fieldAt h 16 8 ≤ 4 * 2 ^ 20 - 512) && fieldAt h 16 8 = i.body.length && i.sigOk && (h.drop 32).take 48 = sha384 i.body

/-- The counter of a class as `SEC_ARB` shows it. -/
def Package.arbCount (p : Package) (c : Nat) : Nat := bitsOf (p.rd SEC_ARB) (8 * c) 7

/-- Verify a class from its slots A and B: the slot with the higher VERSION first, A where they are equal, then the other, which raises
`SEC_IMAGE_FALLBACK`. The answer is the image that runs. -/
def Package.verifyClass (p : Package) (cls : Nat) (slots : ImageRead × ImageRead) : Option ImageRead × Package :=
  let good := imageVerifies cls (p.get SEC_STATUS_REVOKED) (p.arbCount cls)
  let bFirst := decide (slots.1.version < slots.2.version)
  let first := if bFirst then slots.2 else slots.1
  let other := if bFirst then slots.1 else slots.2
  let take (p : Package) (i : ImageRead) (b fell : Bool) : Option ImageRead × Package :=
    (some i, ((p.setBit SEC_IMAGE_SLOTS cls b).setBit SEC_IMAGE_SLOTS (8 + cls) fell).modSec (fun x => { x with svns := mapPut x.svns cls i.svn }))
  if good first then take p first bFirst false
  else
    let p := p.raise .sec EV_SEC_IMAGE_FALLBACK p.beatNo (arg1Of cls 0)
    if good other then take p other (!bFirst) true else (none, p)

/-- The slots of a class as the flash holds them. -/
def Part.slots (q : Part) (cls : Nat) : ImageRead × ImageRead := mapGet ({}, {}) q.flash cls

/-- The flash as the package finds it: classes listed replace what was known of them. -/
def Part.readFlash (q : Part) (l : List (Nat × (ImageRead × ImageRead))) : Part :=
  { q with flash := l.foldl (fun m e => if e.1 < 5 then mapSet ({}, {}) m e.1 e.2 else m) q.flash }

/-- Verify a class and extend a measurement register with the header that runs. -/
def Package.loadClass (p : Package) (q : Part) (cls n : Nat) : Bool × Package :=
  match p.verifyClass cls (q.slots cls) with
  | (some i, p) => (true, p.extendMr n (sha384 i.header))
  | (none, p) => (false, p)

/-! ### Reports (R454 to R457) -/

/-- Free bytes of a signature: r and s, big-endian. -/
def Package.sign (p : Package) : List Byte × Package :=
  (beBytes 96 (Config.signature p.fresh).toNat, { p with fresh := p.fresh + 1 })

/-- The newest n digest records (R282). -/
def Package.digestLog (p : Package) (n : Nat) : List Byte :=
  (List.range n).flatMap (fun i =>
    if i < p.cru.resolved then p.bytesAt (p.rd CRU_DLOG_BASE + 64 * ((p.cru.resolved - 1 - i) % 256)) 64 else List.replicate 64 0)

/-- A measurement report without its signature (Table 18-5). -/
def Package.reportBody (p : Package) (nonce : List Byte) (digests : Nat) (guest : Bool) : List Byte :=
  let open' := guest && decide (p.get GATE_STATUS_STATE = 3)
  let n := min digests 8
  let len := 960 + (if open' then 64 else 0) + 64 * n + 96
  let flags := p.get PKG_STATUS_READY + 2 * b2n open' + 4 * p.get SEC_STATUS_DEBUG_OPEN + 8 * p.get PKG_STATUS_DEGRADED
  leBytes 4 0x51525031 ++ leBytes 2 1 ++ leBytes 2 flags ++ leBytes 4 len ++ leBytes 1 p.lcState ++ leBytes 1 n ++ leBytes 2 0
    ++ leBytes 8 p.serial ++ leBytes 8 p.variantWord ++ (List.range 4).flatMap (fun w => leBytes 8 (p.rd (FEATURE_ACCEPT .pkg w)))
    ++ (nonce ++ List.replicate 32 0).take 32 ++ leBytes 8 p.dtime ++ leBytes 8 (p.rd SEC_IMAGE_SLOTS)
    ++ (List.range 6).flatMap (fun c => leBytes 1 (p.arbCount c)) ++ leBytes 2 0 ++ (List.range 16).flatMap (fun k => leBytes 2 (p.mrCount k))
    ++ leBytes 40 0 ++ (List.range 16).flatMap p.mr
    ++ (if open' then leBytes 4 (p.rd GATE_GUEST_ID) ++ leBytes 4 (p.rd GATE_POLICY_SERIAL) ++ (p.gate.measurement ++ List.replicate 48 0).take 48
          ++ leBytes 8 0 else [])
    ++ p.digestLog n

/-- A signed report. -/
def Package.signedReport (p : Package) (nonce : List Byte) (digests : Nat) (guest : Bool) : List Byte × Package :=
  let body := p.reportBody nonce digests guest
  let x := p.sign
  (body ++ x.1, x.2.bump64 SEC_REPORTS 1)

/-- Reports held at once (R457). -/
def reportsMax : Nat := 4

/-- The requester numbers of the management controller and of the host; a peer is its node. -/
def REQ_I3C : Nat := 0x1000
def REQ_HOST : Nat := 0x1001

/-- The nonce that the host wrote. -/
def Package.hostNonce (p : Package) : List Byte := (List.range 4).flatMap (fun w => leBytes 8 (p.rd (SEC_REQ_NONCE w)))

/-- A host's write of `SEC_REPORT_ADDR`. -/
def hostReport (v : Nat) (p : Package) : Package :=
  let p := p.wr SEC_REPORT_ADDR (putBits v 0 1 0)
  if bitsOf v 0 1 = 0 || !p.hubRuns then p
  else if p.sec.job.isSome || reportsMax ≤ p.sec.reports.length then p.wr SEC_REPORT_STATUS 1
  else (p.wr SEC_REPORT_STATUS 1).modSec (fun x => { x with job := some {
    addr := bitsOf v 6 42 * 64, digests := bitsOf v 1 4, guest := bitAt v 5, nonce := p.hostNonce } })

/-- The report of a host is signed and written to its address. -/
def reportDone (dt : Nat) (p : Package) : Package :=
  let p := p.pass dt
  match p.sec.job with
  | none => p
  | some j =>
    let x := p.signedReport j.nonce j.digests j.guest
    let p := x.2.modSec (fun s => { s with job := none, reports := s.reports ++ [
      { requester := REQ_HOST, object := 0, nonce := j.nonce, bytes := x.1, usedAt := x.2.clock }] })
    if p.rangeOk j.addr x.1.length then
      ((p.storeBy 8 j.addr x.1).wr SEC_REPORT_STATUS (2 + 2 ^ 16 * x.1.length)).raise .sec EV_SEC_REPORT_DONE p.beatNo 0
    else p.wr SEC_REPORT_STATUS 3

/-- Reports not used for 1 s go. -/
def reportHoldExpiry (dt : Nat) (p : Package) : Package :=
  let p := p.pass dt
  p.modSec (fun s => { s with reports := s.reports.filter (fun r => p.clock < r.usedAt + Config.secUnits) })

/-- A report request by MCTP: body bytes OBJECT, OPTIONS, OFFSET, NONCE. The answer holds STATUS, TOTAL and at most 960 bytes. An OFFSET that is
not 0 goes on with the object created last for the requester and nonce. -/
def Package.reportRequest (p : Package) (requester : Nat) (body : List Byte) : List Byte × Package :=
  let object := fieldAt body 0 1
  let options := fieldAt body 1 1
  let offset := fieldAt body 2 4
  let nonce := ((body.drop 6).take 32 ++ List.replicate 32 0).take 32
  let answer (st : Nat) (bs : List Byte) : List Byte :=
    leBytes 1 st ++ leBytes 4 bs.length ++ (bs.drop offset).take 960
  if offset = 0 then
    if 1 < object then (answer 2 [], p)
    else
      if reportsMax ≤ p.sec.reports.length then (answer 1 [], p)
      else
        let x := if object = 0 then p.signedReport nonce (options % 16) (bitAt options 4) else (p.sec.chain, p)
        (answer 0 x.1, x.2.modSec (fun s => { s with reports := s.reports ++ [
          { requester := requester, object := object, nonce := nonce, bytes := x.1, usedAt := x.2.clock }] }))
  else match p.sec.reports.reverse.find? (fun r => r.requester = requester && r.nonce = nonce) with
    | none => (answer 2 [], p)
    | some r => (answer 0 r.bytes, p.modSec (fun s => { s with reports := s.reports.map (fun y => if y = r then { y with usedAt := p.clock } else y) }))

/-! ### EXTEND -/

/-- `SEC_CTRL.EXTEND`: MR15 takes the value of `SEC_EXTEND_0` to `_5`. -/
def extendSoftware (p : Package) : Package :=
  if p.hubRuns then p.extendMr 15 ((List.range 6).flatMap (fun w => leBytes 8 (p.rd (SEC_EXTEND w)))) else p

/-! ### Anti-rollback (R458) -/

/-- The highest value that a class may advance to: the SVN of its running image, or the SERIAL of the policy in force. -/
def Package.arbLimit (p : Package) (c : Nat) : Nat :=
  if c = 5 then (if p.gate.policy.isEmpty then 0 else fieldAt p.gate.policy 8 4) else mapGet 0 p.sec.svns c

/-- A write of `SEC_ARB_CMD`. -/
def arbAdvance (v : Nat) (p : Package) : Package :=
  let c := bitsOf v 0 3
  let n := bitsOf v 8 7
  if bitsOf v 16 16 ≠ 0x5EC0 || !p.hubRuns then p
  else if 5 < c || 64 < n || n ≤ p.arbCount c || p.arbLimit c < n || p.lcState = LC_ENDED then p.bump64 SEC_ARB_REFUSED 1
  else (p.put SEC_STATUS_BURNING 1).modSec (fun s => { s with burns := s.burns ++ [(c, n)] })

/-- Set one of the six counters in the fuses. A fuse never unburns. -/
def Part.burnTo (q : Part) (c n : Nat) : Part :=
  if c < 6 then { q with arb := listPut 0 q.arb c (max (listAt 0 q.arb c) (min n 64)) } else q

/-- Show the counters of the fuses. -/
def Package.showArb (p : Package) (q : Part) : Package :=
  p.each (List.range 6) (fun p c => p.put ⟨SEC_ARB, 8 * c, 7⟩ (listAt 0 q.arb c))

/-- The oldest burn completes. -/
def arbBurnDone (dt : Nat) (q : Part) (p : Package) : Part × Package :=
  let p := p.pass dt
  match p.sec.burns with
  | [] => (q, p)
  | (c, n) :: rest =>
    let q := q.burnTo c n
    let p := ((p.showArb q).put SEC_STATUS_BURNING (b2n !rest.isEmpty)).modSec (fun s => { s with burns := rest })
    (q, p.raise .sec EV_SEC_ARB_ADVANCED p.beatNo (arg1Of c n))

/-! ### Tokens (R460, R461) -/

def TOKEN_MAGIC : Nat := 0x51544B31
def TK_RETURN : Nat := 1
def TK_DEBUG : Nat := 2
def TK_REVOKE : Nat := 3
def TK_DEPLOY : Nat := 4
def TK_END : Nat := 5

/-- The 256 bytes at `SEC_TOKEN_BASE`; bytes out of reach or poisoned read as a token of no kind. -/
def Package.token (p : Package) : List Byte :=
  match p.load (bitsOf (p.rd SEC_TOKEN_BASE) 6 42 * 64) 256 with
  | .ok b => b
  | _ => List.replicate 256 0

def tokenKind (t : List Byte) : Nat := fieldAt t 4 1

/-- Does a kind need the owner's signature, and Nalto's, in a state. -/
def needsOwner (kind lc : Nat) : Bool := kind = TK_RETURN || kind = TK_DEBUG || kind = TK_DEPLOY || (kind = TK_END && lc ≠ LC_RETURNED)
def needsNalto (kind lc : Nat) : Bool := kind = TK_RETURN || kind = TK_REVOKE || (kind = TK_END && lc = LC_RETURNED)

/-- Is a kind accepted in a state (Table 18-8). -/
def kindInState (kind lc : Nat) : Bool :=
  if kind = TK_RETURN then lc = LC_DEPLOYED
  else if kind = TK_DEBUG then lc = LC_PROVISIONED || lc = LC_DEPLOYED
  else if kind = TK_REVOKE then lc ≠ LC_ENDED
  else if kind = TK_DEPLOY then lc = LC_PROVISIONED
  else kind = TK_END && (lc = LC_PROVISIONED || lc = LC_DEPLOYED || lc = LC_RETURNED)

/-- Root keys 0 to 3 not revoked. -/
def liveKeys (revoked : Nat) : List Nat := (List.range 4).filter (fun k => !bitAt revoked k)

/-- The cause for which a token is rejected (Table 18-10), in the table's order; 0 accepted. -/
def tokenCause (q : Part) (p : Package) (t : List Byte) (ownerOk naltoOk : Bool) : Nat :=
  let kind := tokenKind t
  let lc := q.lc
  let slot := fieldAt t 6 1
  let arg := fieldAt t 5 1
  let nonce := (List.range 4).flatMap (fun w => leBytes 8 (p.rd (SEC_NONCE w)))
  if fieldAt t 0 4 ≠ TOKEN_MAGIC || kind = 0 || 5 < kind || (kind ≠ TK_REVOKE && arg ≠ 0) || !zerosAt t 7 1 || !zerosAt t 56 8
      || (!needsOwner kind lc && (!zerosAt t 48 8 || !zerosAt t 64 96)) || (!needsNalto kind lc && !zerosAt t 160 96) then 1
  else if fieldAt t 8 8 ≠ p.serial then 2
  else if !p.sec.nonce || (t.drop 16).take 32 ≠ nonce then 3
  else if needsOwner kind lc && (fieldAt t 48 8 ≠ q.ownerKeyId || !ownerOk) then 4
  else if needsNalto kind lc && (3 < slot || bitAt q.revoked slot || !naltoOk) then 5
  else if !kindInState kind lc then 6
  else if kind = TK_REVOKE && (3 < arg || arg = slot || liveKeys q.revoked = [arg]) then 7
  else 0

/-- What an accepted token moves in the fuses. -/
def tokenPart (q : Part) (kind arg : Nat) : Part :=
  if kind = TK_RETURN then { q with pendingLc := some LC_RETURNED }
  else if kind = TK_DEPLOY then { q with pendingLc := some LC_DEPLOYED }
  else if kind = TK_END then { q with pendingLc := some LC_ENDED }
  else if kind = TK_REVOKE then { q with revoked := q.revoked ||| 2 ^ arg }
  else q

/-- Show the life-cycle move and the revocations of the fuses. -/
def Package.showFuses (p : Package) (q : Part) : Package :=
  (p.put SEC_STATUS_REVOKED (q.revoked % 16)).put SEC_STATUS_PENDING_LC (q.pendingLc.getD 7)

/-- A submitted token. The nonce serves this submission only. -/
def submitToken (ownerOk naltoOk : Bool) (q : Part) (p : Package) : Part × Package :=
  if !p.hubRuns then (q, p)
  else
    let t := p.token
    let kind := tokenKind t
    let c := tokenCause q p t ownerOk naltoOk
    let p := p.modSec (fun s => { s with nonce := false })
    let p := p.wr SEC_TOKEN_RESULT (kind % 8 + 8 * b2n (decide (c = 0)) + 16 * c)
    if c ≠ 0 then (q, p.raise .sec EV_SEC_TOKEN_REJECTED p.beatNo (arg1Of kind c))
    else
      let q := tokenPart q kind (fieldAt t 5 1)
      let p := p.showFuses q
      let p := if kind = TK_DEBUG then
          ((p.extendMr 0 (sha384 (t.take 64))).put SEC_STATUS_DEBUG_OPEN 1).raise .sec EV_SEC_DEBUG_OPEN p.beatNo 0
        else p
      (q, p.raise .sec EV_SEC_TOKEN_ACCEPTED p.beatNo (arg1Of kind 0))

/-- A submission of a token of one kind: where the token at `SEC_TOKEN_BASE` is of another kind, the command is not that submission. -/
def submitKind (kind : Nat) (ownerOk naltoOk : Bool) (q : Part) (p : Package) : Part × Package :=
  if tokenKind p.token = kind then submitToken ownerOk naltoOk q p else (q, p)

/-- A submission of a token whose KIND is reserved. -/
def submitReserved (q : Part) (p : Package) : Part × Package :=
  if tokenKind p.token = 0 || 5 < tokenKind p.token then submitToken false false q p else (q, p)

/-- `SEC_CTRL.NEW_NONCE`: 32 fresh bytes. -/
def newNonce (p : Package) : Package :=
  if !p.hubRuns then p
  else (p.each (List.range 4) (fun p w => let x := p.draw; x.2.wr (SEC_NONCE w) x.1.toNat)).modSec (fun s => { s with nonce := true })

/-! ### The debug window (R462) -/

/-- The control core that `SEC_DBG_SEL` selects, as 8·die + core; none where its die is not fitted. -/
def Package.dbgCore (p : Package) : Option Nat :=
  let d := p.get SEC_DBG_SEL_DIE
  if d = 8 || (decide (d < 8) && p.dieFitted d && !p.dieFenced d) then some (8 * d + p.get SEC_DBG_SEL_CORE) else none

/-- Run a debug command on the selected core; a closed window counts it as refused. -/
def Package.debug (p : Package) (f : Nat → Package → Package) : Package :=
  if !p.has SEC_STATUS_DEBUG_OPEN then p.bump64 SEC_DBG_REFUSED 1
  else match p.dbgCore with
    | none => p
    | some x => f x p

def dbgHalt (p : Package) : Package :=
  p.debug (fun x p => p.modSec (fun s => { s with halted := if s.halted.contains x then s.halted else s.halted ++ [x] }))

/-- A resumed core runs on: what its registers and memory hold afterwards is open again. -/
def dbgResume (p : Package) : Package :=
  p.debug (fun x p => p.modSec (fun s => { s with halted := s.halted.filter (· ≠ x), dbgRegs := s.dbgRegs.filter (fun e => e.1.1 ≠ x),
                                                  dbgMem := s.dbgMem.filter (fun e => e.1.1 ≠ x) }))

/-- What the window knows of a place: (core, place) and value. -/
def dbgFind (l : List ((Nat × Nat) × Word)) (k : Nat × Nat) : Option Word := (l.find? (fun e => e.1 = k)).map (·.2)
def dbgPut (l : List ((Nat × Nat) × Word)) (k : Nat × Nat) (v : Word) : List ((Nat × Nat) × Word) := (k, v) :: l.filter (fun e => e.1 ≠ k)

/-- A register read: a halted core's register keeps its value, which is open until the window has read or written it. -/
def dbgReadReg (a : Nat) (p : Package) : Package :=
  p.debug (fun x p => match dbgFind p.sec.dbgRegs (x, a) with
    | some v => p.wr SEC_DBG_DATA v.toNat
    | none =>
      let d := p.draw
      let p := d.2.wr SEC_DBG_DATA d.1.toNat
      if p.sec.halted.contains x then p.modSec (fun s => { s with dbgRegs := dbgPut s.dbgRegs (x, a) d.1 }) else p)

def dbgWriteReg (a : Nat) (p : Package) : Package :=
  p.debug (fun x p => if p.sec.halted.contains x then
      p.modSec (fun s => { s with dbgRegs := dbgPut s.dbgRegs (x, a) (BitVec.ofNat 64 (p.rd SEC_DBG_DATA)) }) else p)

/-- Control-core memory is read and written 8 bytes at a time. -/
def dbgReadMem (a : Nat) (p : Package) : Package :=
  p.debug (fun x p => match dbgFind p.sec.dbgMem (x, a / 8) with
    | some v => p.wr SEC_DBG_DATA v.toNat
    | none =>
      let d := p.draw
      let p := d.2.wr SEC_DBG_DATA d.1.toNat
      if p.sec.halted.contains x then p.modSec (fun s => { s with dbgMem := dbgPut s.dbgMem (x, a / 8) d.1 }) else p)

def dbgWriteMem (a : Nat) (p : Package) : Package :=
  p.debug (fun x p => if p.sec.halted.contains x then
      p.modSec (fun s => { s with dbgMem := dbgPut s.dbgMem (x, a / 8) (BitVec.ofNat 64 (p.rd SEC_DBG_DATA)) }) else p)

/-- A write of `SEC_DBG_CMD`; commands 6 and 7 do nothing. -/
def dbgCommand (v : Nat) (p : Package) : Package :=
  let a := bitsOf v 16 48
  match bitsOf v 0 3 with
  | 0 => dbgHalt p
  | 1 => dbgResume p
  | 2 => dbgReadReg a p
  | 3 => dbgWriteReg a p
  | 4 => dbgReadMem a p
  | 5 => dbgWriteMem a p
  | _ => if p.has SEC_STATUS_DEBUG_OPEN then p else p.bump64 SEC_DBG_REFUSED 1

/-! ### The commands' meanings -/

def execNewNonce (s : State) := onPkg newNonce s
def execTokenReturn (ownerOk naltoOk : Bool) (s : State) := onBoth (submitKind TK_RETURN ownerOk naltoOk) s
def execTokenDebug (ownerOk : Bool) (s : State) := onBoth (submitKind TK_DEBUG ownerOk false) s
def execTokenRevoke (naltoOk : Bool) (s : State) := onBoth (submitKind TK_REVOKE false naltoOk) s
def execTokenDeploy (ownerOk : Bool) (s : State) := onBoth (submitKind TK_DEPLOY ownerOk false) s
def execTokenEnd (ownerOk naltoOk : Bool) (s : State) := onBoth (submitKind TK_END ownerOk naltoOk) s
def execTokenKindReserved (s : State) := onBoth submitReserved s
def execExtend (s : State) := onPkg extendSoftware s
def execHostReportRequest (value : Nat) (s : State) := onPkg (hostReport value) s
def execReportDone (dt : Nat) (s : State) := onPkg (reportDone dt) s
def execReportHoldExpiry (dt : Nat) (s : State) := onPkg (reportHoldExpiry dt) s
def execArbAdvance (value : Nat) (s : State) := onPkg (arbAdvance value) s
def execArbBurnDone (dt : Nat) (s : State) := onBoth (arbBurnDone dt) s
def execDbgHalt (s : State) := onPkg dbgHalt s
def execDbgResume (s : State) := onPkg dbgResume s
def execDbgReadReg (addr : Nat) (s : State) := onPkg (dbgReadReg addr) s
def execDbgWriteReg (addr : Nat) (s : State) := onPkg (dbgWriteReg addr) s
def execDbgReadMem (addr : Nat) (s : State) := onPkg (dbgReadMem addr) s
def execDbgWriteMem (addr : Nat) (s : State) := onPkg (dbgWriteMem addr) s

end Sys2Proof.Machine
end

