-- ==== Sys2Proof/Machine/GateSite.lean ====
section
/-! DEFINITION. The guest site (R330 to R335): the policy and its admission, training, and the site's close. The guest's requests are in
`Machine/Gate.lean`. -/

namespace Sys2Proof.Machine

open Sys2Proof

/-- Site states and causes (Table 13-10). -/
def SITE_CLOSED : Nat := 1
def SITE_TRAINING : Nat := 2
def SITE_OPEN : Nat := 3
def GC_WRITTEN : Nat := 1
def GC_REFUSALS : Nat := 2
def GC_POWER : Nat := 3
def GC_IDENTITY : Nat := 4
def GC_LINK : Nat := 5
def GC_SIGNATURE : Nat := 6
def GC_ROLLBACK : Nat := 7
def GC_LAYOUT : Nat := 8

def GATE_MAGIC : Nat := 0x51475031

def Package.site (p : Package) : Nat := p.get GATE_STATUS_STATE
def Package.modGate (p : Package) (f : GateUnit → GateUnit) : Package := { p with gate := f p.gate }

/-- Window i of a policy: base, bytes, read and write granted. -/
def policyWindow (b : List Byte) (i : Nat) : Nat × Nat × Bool × Bool :=
  let o := 64 + 16 * i
  (fieldAt b o 8, 4096 * fieldAt b (o + 8) 4, bitAt (fieldAt b (o + 12) 1) 0, bitAt (fieldAt b (o + 12) 1) 1)

/-- Page range i of a policy: first page address, pages. -/
def policyPage (b : List Byte) (i : Nat) : Nat × Nat := (fieldAt b (320 + 8 * i) 4, fieldAt b (324 + 8 * i) 2)

/-- The windows and page ranges that a policy uses. -/
def policyWindows (b : List Byte) : List (Nat × Nat × Bool × Bool) := (List.range (fieldAt b 18 1)).map (policyWindow b)
def policyPages (b : List Byte) : List (Nat × Nat) := (List.range (fieldAt b 19 1)).map (policyPage b)

/-- The checks of Table 13-6. -/
def policyLayout (b : List Byte) : Bool :=
  b.length = 512 && fieldAt b 0 4 = GATE_MAGIC && fieldAt b 4 2 = 1 && fieldAt b 6 2 = 512 && decide (fieldAt b 16 2 < 32)
    && decide (fieldAt b 18 1 ≤ 16) && decide (fieldAt b 19 1 ≤ 8) && decide (1 ≤ fieldAt b 32 1) && decide (fieldAt b 32 1 ≤ 90)
    && zerosAt b 33 1 && zerosAt b 44 20 && zerosAt b 384 32
    && (List.range 16).all (fun i => zerosAt b (64 + 16 * i + 13) 3 && decide (fieldAt b (64 + 16 * i + 12) 1 < 4)
         && fieldAt b (64 + 16 * i) 8 % 4096 = 0 && decide (fieldAt b (64 + 16 * i) 8 < 2 ^ 48))
    && (List.range 8).all (fun i => fieldAt b (320 + 8 * i) 4 % 4096 = 0 && zerosAt b (320 + 8 * i + 6) 2)

/-- Rates of a policy: read and write in GB/s, requests in millions a second. -/
def rdRate (b : List Byte) : Nat := fieldAt b 20 4
def wrRate (b : List Byte) : Nat := fieldAt b 24 4
def reqRate (b : List Byte) : Nat := fieldAt b 28 4

/-- What a bucket of bytes holds at most, in 1/256 byte: 1 µs of its rate, or at least 4 KiB; nothing at rate 0. -/
def byteCap (rate : Nat) : Nat := if rate = 0 then 0 else max (rate * 256000) (4096 * 256)
/-- What the bucket of requests holds at most, in 1/256,000 request. -/
def reqCap (rate : Nat) : Nat := rate * 256000

/-- Refill the buckets for the time since their last refill (R334). -/
def Package.refillGate (p : Package) : Package :=
  let b := p.gate.policy
  let dt := p.clock - p.gate.refillAt
  p.modGate (fun g => { g with tokRd := min (byteCap (rdRate b)) (g.tokRd + rdRate b * dt), tokWr := min (byteCap (wrRate b)) (g.tokWr + wrRate b * dt),
                               tokReq := min (reqCap (reqRate b)) (g.tokReq + reqRate b * dt), refillAt := p.clock })

/-- `GATE_CTRL.LOAD`: the policy at `GATE_POLICY_BASE` is verified against the owner key and admitted. It acts only on a closed site. -/
def gateLoad (sigOk : Bool) (q : Part) (p : Package) : Package :=
  if !p.variant.guest || !p.hubRuns || p.site ≠ SITE_CLOSED then p
  else
    let b := match p.load (bitsOf (p.rd GATE_POLICY_BASE) 6 42 * 64) 512 with
      | .ok b => b
      | _ => []
    let cause := if b.isEmpty then GC_LAYOUT
      else if !sigOk || fieldAt b 36 8 ≠ q.ownerKeyId then GC_SIGNATURE
      else if fieldAt b 8 4 < p.arbCount 5 then GC_ROLLBACK
      else if !policyLayout b then GC_LAYOUT
      else 0
    if cause ≠ 0 then (p.put GATE_STATUS_CAUSE cause).raise .gate EV_GATE_POLICY_REJECTED p.beatNo (arg1Of 0 cause)
    else
      let p := p.extendMr 14 (sha384 b)
      let p := { p with gate := { policy := b, tokRd := byteCap (rdRate b), tokWr := byteCap (wrRate b), tokReq := reqCap (reqRate b),
                                  refillAt := p.clock, refusedFrom := p.clock, raisedAt := p.gate.raisedAt,
                                  out := p.gate.out } }
      (p.wr GATE_POLICY_SERIAL (fieldAt b 8 4)).put GATE_STATUS_STATE SITE_TRAINING

/-- The site closes (R335): requests held are dropped, reads in flight are abandoned, the guest rails go off. -/
def Package.closeSite (p : Package) (cause : Nat) : Package :=
  if p.site ≠ SITE_TRAINING && p.site ≠ SITE_OPEN then p
  else
    let p : Package := { p with gate := { raisedAt := p.gate.raisedAt, out := p.gate.out } }
    let p := ((p.put GATE_STATUS_STATE SITE_CLOSED).put GATE_STATUS_CAUSE cause).wr GATE_POLICY_SERIAL 0
    p.raise .gate EV_GATE_CLOSED p.beatNo (arg1Of 0 cause)

/-- The guest's training ends with its identity and measurement, which are never extended (R452). -/
def guestTraining (dt vendor device : Nat) (measurement : List Byte) (p : Package) : Package :=
  let p := p.pass dt
  if p.site ≠ SITE_TRAINING then p
  else
    let p := (p.wr GATE_GUEST_ID (vendor % 2 ^ 16 + 2 ^ 16 * (device % 2 ^ 16))).modGate (fun g => { g with measurement := measurement.take 48 })
    let b := p.gate.policy
    if vendor % 2 ^ 16 = fieldAt b 12 2 && device % 2 ^ 16 = fieldAt b 14 2 then p.put GATE_STATUS_STATE SITE_OPEN
    else p.closeSite GC_IDENTITY

/-! ### The commands' meanings -/

def execGatePolicyLoad (sigOk : Bool) (s : State) := onBoth (fun q p => (q, gateLoad sigOk q p)) s
def execGuestTrainingDone (dt vendor device : Nat) (measurement : List Byte) (s : State) := onPkg (guestTraining dt vendor device measurement) s
def execGateClose (s : State) := onPkg (fun p => p.closeSite GC_WRITTEN) s
def execGuestLinkLoss (dt : Nat) (s : State) := onPkg (fun p => (p.pass dt).closeSite GC_LINK) s

end Sys2Proof.Machine
end

