-- ==== Sys2Proof/Machine/Boot.lean ====
section
/-! DEFINITION. Power-up, resets, field self-test and the repair ledger (17_bringup_bist.md, 19_electrical_ordering.md): the sequence of
Table 17-1 (R423 to R426), the resets of Table 17-2 (R427, R428), repairs (R436 to R439), life cycle (R440) and rail faults (R442). -/

namespace Sys2Proof.Machine

open Sys2Proof

def Package.modPwr (p : Package) (f : PwrUnit → PwrUnit) : Package := { p with pwr := f p.pwr }

/-- Phases of `PWR_STATUS` (Table 17-9). -/
def PH_ROM : Nat := 0
def PH_HUB_FW : Nat := 1
def PH_DIES : Nat := 2
def PH_READY : Nat := 3
def PH_ENDED : Nat := 4
def PH_FATAL : Nat := 5

/-- Results of `PWR_DIE_BOOT` (Table 17-9). -/
def DB_ACTIVE : Nat := 1
def DB_FIRMWARE : Nat := 2
def DB_CONTROL : Nat := 3
def DB_STACK : Nat := 4
def DB_TIMEOUT : Nat := 5
def DB_RAIL : Nat := 7

/-! ### The repair ledger (R436 to R439) -/

/-- Bytes of an entry (Table 17-6). -/
def Repair.bytes (r : Repair) : List Byte :=
  leBytes 1 r.kind ++ leBytes 1 r.place ++ leBytes 2 r.where' ++ leBytes 8 r.location ++ leBytes 2 r.spare ++ leBytes 1 r.origin ++ leBytes 1 0

/-- Bytes of a copy, its signature included. -/
def LedgerCopy.bytes (c : LedgerCopy) : List Byte :=
  leBytes 4 0x4C444731 ++ leBytes 2 1 ++ leBytes 2 c.entries.length ++ leBytes 4 c.seq ++ leBytes 4 0 ++ leBytes 8 c.serial ++ leBytes 40 0
    ++ c.entries.flatMap Repair.bytes ++ c.sig

/-- Entries that a copy holds at most. -/
def ledgerMax : Nat := 4096

/-- Two entries use the same spare of the same unit. -/
def sameSpare (a b : Repair) : Bool :=
  a.kind = b.kind && a.place = b.place && a.where' = b.where' && a.spare = b.spare
    && (a.kind = 1 || (decide (3 ≤ a.kind) && decide (a.kind ≤ 6) && a.location % 2 ^ 20 = b.location % 2 ^ 20))

/-- Is an entry's location inside the part. -/
def entryInside (v : Variant) (r : Repair) : Bool :=
  if r.kind = 5 || r.kind = 6 then decide (0x20 ≤ r.place) && decide (r.place < 0x20 + 4 * v.dies) && decide (r.where' < 32)
  else decide (1 ≤ r.kind) && decide (r.kind ≤ 7) && decide (r.place < v.dies) && decide (r.where' < 72)
    && decide (r.location % 32 < Config.coresPerCluster)

/-- Is an entry taken: inside the part, its spare not used by a fuse (R438). -/
def entryTaken (v : Variant) (fuses : List Repair) (r : Repair) : Bool := entryInside v r && !fuses.any (sameSpare r)

/-- The copy in force: the higher SEQ among the sound copies of this package; 1 for A, 2 for B, 0 for none. -/
def chooseLedger (q : Part) : Nat × Option LedgerCopy :=
  let ok (c : Option LedgerCopy) : Option LedgerCopy := match c with
    | some c => if c.sound && c.serial = q.serial then some c else none
    | none => none
  match ok q.ledgerA, ok q.ledgerB with
  | some a, some b => if a.seq < b.seq then (2, some b) else (1, some a)
  | some a, none => (1, some a)
  | none, some b => (2, some b)
  | none, none => (0, none)

/-- Show the ledger in force. -/
def Package.showLedger (p : Package) (q : Part) : Package :=
  let c := chooseLedger q
  let p := p.put PWR_STATUS_LEDGER c.1
  match c.2 with
  | some x => (p.put PWR_LEDGER_SEQ_SEQ x.seq).put PWR_LEDGER_SEQ_ENTRIES x.entries.length
  | none => p.wr PWR_LEDGER_SEQ 0

/-- At boot: choose a copy, extend MR3, take its entries. -/
def Package.readLedger (p : Package) (q : Part) : Package :=
  let p := p.showLedger q
  match (chooseLedger q).2 with
  | some c =>
    let good := c.entries.filter (entryTaken q.variant q.fuses)
    let p := (p.extendMr 3 (sha384 c.bytes)).bump64 PWR_LEDGER_SKIPPED (c.entries.length - good.length)
    p.modPwr (fun w => { w with ledger := good })
  | none => ((p.extendMr 3 (List.replicate 48 0)).modPwr (fun w => { w with ledger := [] })).raise .pwr EV_PWR_LEDGER_INVALID p.beatNo 0

/-- Enter repairs in the ledger in force; where 4,096 entries are held a repair stays unrecorded (R439). -/
def Package.addRepairs (p : Package) (l : List Repair) : Package :=
  let p := p.bump64 BIST_REPAIRS l.length
  p.each l (fun p r =>
    if ledgerMax ≤ p.pwr.ledger.length then p.raise .pwr EV_PWR_LEDGER_FULL p.beatNo p.pwr.ledger.length
    else p.modPwr (fun w => { w with ledger := w.ledger ++ [r], dirty := true }))

/-- A write starts unless one runs: the full ledger goes to the copy not in force. -/
def Package.startLedgerWrite (p : Package) : Package :=
  if p.pwr.dirty && p.pwr.writing.isNone && p.pwr.warmHeld.isNone then
    p.modPwr (fun w => { w with dirty := false, writing := some w.ledger, waitsNow := w.waits, waits := [] })
  else p

/-- The copy not in force is replaced. -/
def Part.replaceCopy (q : Part) (c : Option LedgerCopy) : Part :=
  if (chooseLedger q).1 = 1 then { q with ledgerB := c } else { q with ledgerA := c }

/-- Runs whose completion waited for a write complete with LEDGER_FAIL where it failed. -/
def Package.endWaits (p : Package) (failed : Bool) : Package :=
  let l := p.pwr.waitsNow
  (p.modPwr (fun w => { w with waitsNow := [] })).each l (fun p e => p.cmdDone e.1 e.2.1 ST_OK (e.2.2 + 2 ^ 25 * b2n failed))

/-- A ledger write ends. -/
def ledgerWriteDone (dt : Nat) (ok : Bool) (q : Part) (p : Package) : Part × Package :=
  let p := p.pass dt
  match p.pwr.writing with
  | none => (q, p)
  | some entries =>
    let seq := match (chooseLedger q).2 with
      | some c => (c.seq + 1) % 2 ^ 32
      | none => 1
    let p := p.modPwr (fun w => { w with writing := none })
    if ok then
      let x := p.sign
      let q := q.replaceCopy (some { sound := true, seq := seq, serial := q.serial, entries := entries, sig := x.1 })
      let p := (x.2.bump64 PWR_LEDGER_WRITES 1).showLedger q
      (q, (p.endWaits false).startLedgerWrite)
    else
      let q := q.replaceCopy none
      let p := p.raise .pwr EV_PWR_LEDGER_WRITE_FAIL p.beatNo 0
      (q, (p.endWaits true).startLedgerWrite)

/-- The package drives its flash-busy output (R450, R478): from power good to READY, and during a ledger write. -/
def Package.flashBusy (p : Package) : Bool := p.pwr.goodAt.isSome && (!p.has PKG_STATUS_READY || p.pwr.writing.isSome)

/-- FAULT_N is low while FATAL of the hub die is set (R479). -/
def Package.faultLow (p : Package) : Bool := p.fatal

/-! ### Resets (R427, R428) -/

/-- What a cold reset does to the part: a pending life-cycle move takes effect, an interrupted ledger write leaves the other copy, an
interrupted burn leaves the fuses it completed. -/
def Part.coldReset (q : Part) (p : Package) : Part :=
  let q := if p.pwr.writing.isSome then q.replaceCopy none else q
  let q := match p.sec.burns with
    | [] => q
    | (c, n) :: _ =>
      let old := listAt 0 q.arb c
      q.burnTo c (old + (Config.freeWord p.fresh).toNat % (n - old + 1))
  match q.pendingLc with
  | some lc => { q with lc := lc, pendingLc := none }
  | none => q

/-- The package without power: nothing but what the fuses say. -/
def Part.cold (q : Part) (p : Package) : Package := { variant := q.variant, serial := q.serial, fresh := p.fresh + 1 }

/-- A package cold reset: the package stays before power good until the next POWER_GOOD. -/
def coldReset (q : Part) (p : Package) : Part × Package := let q' := q.coldReset p; (q', q'.cold p)

/-- The key of `PWR_RESET`. -/
def resetKey (v : Nat) : Bool := decide (bitsOf v 16 16 = 0x9A3C)

/-- Registers that a warm reset keeps: the error log pages and the SEC page. -/
def warmKeeps (a : Nat) : Bool :=
  (decide (0x3000 ≤ a) && decide (a < 0x4000)) || (decide (0xF000 ≤ a) && decide (a < 0x10000))
    || (decide (0x1000000 ≤ a) && decide (a < 0x9000000) && decide (a % 0x1000000 / 0x1000 = 1))

/-- Firmware of classes 2, 3 and 4, and the ledger, are read again, and what the fuses say is shown. -/
def Package.bootHub (p : Package) (q : Part) : Package :=
  let p := p.put PWR_STATUS_LC_STATE q.lc
  let p := p.readLedger q
  let c3 := p.loadClass q 3 2
  let c4 := c3.2.loadClass q 4 2
  let c2 := c4.2.loadClass q 2 12
  let p := c2.2.modPwr (fun w => { w with stackFw := c2.1 })
  let p := { p with lnk := { p.lnk with noFirmware := !(c3.1 && c4.1) } }
  let p := if q.variant.guest then p.put GATE_STATUS_STATE SITE_CLOSED else p
  if q.lc = LC_ENDED then p.put PWR_STATUS_PHASE PH_ENDED
  else (p.put PWR_STATUS_PHASE PH_HUB_FW).each p.dies (fun p d => p.setDieState d DIE_TRAINING)

/-- A warm reset: rings end, then everything but stack contents, error logs, the security processor and the life cycle is reset, and
the sequence of the dies starts. Stacks of a fenced die hold zeros. -/
def warmReset (q : Part) (p : Package) : Package :=
  let p := p.each (List.range 9) (fun p d => if p.ringFitted d then (p.endRing d ST_ABORTED_BY_RESET).1 else p)
  let live (line : Nat) : Bool := !p.dieFenced (line / 2 ^ 32)
  let r : Package := {
    variant := q.variant, serial := q.serial, fresh := p.fresh, clock := p.clock, dofs := ofSigned 64 (-(p.clock : Int))
    regs := p.regs.filter (fun e => warmKeeps e.1)
    mem := p.mem.filter (fun e => live (e.1 / 64))
    poison := p.poison.filter live
    errLogs := p.errLogs
    sec := p.sec
    tap := p.tap
    pwr := { goodAt := some p.clock, fw := true, ledger := p.pwr.ledger } }
  r.bootHub q

/-- `PWR_RESET.WARM`: at once, or held until a ledger write ends. -/
def askWarm (selftest : Bool) (q : Part) (p : Package) : Package :=
  if !p.hubRuns then p
  else if p.pwr.writing.isSome then (p.modPwr (fun w => { w with warmHeld := some selftest })).put PWR_STATUS_WARM_HELD 1
  else warmReset q p

/-- A write of `PWR_RESET`. -/
def pwrReset (v : Nat) (q : Part) (p : Package) : Part × Package :=
  if !resetKey v then (q, p)
  else if bitAt v 0 then coldReset q p
  else if bitAt v 1 then (q, askWarm (bitAt v 2) q p)
  else (q, p)

def warmResetStart (dt : Nat) (q : Part) (p : Package) : Package :=
  let p := p.pass dt
  if p.pwr.warmHeld.isSome && p.pwr.writing.isNone then warmReset q p else p

/-- RST_N asserted for so many nanoseconds: below 0.8 ms it is ignored, from 1 ms on it resets. Between them the board breaks its rule;
what happens is open. -/
def rstN (ns : Nat) (q : Part) (p : Package) : Part × Package :=
  let x := p.draw
  if 1000000 ≤ ns || (decide (800000 ≤ ns) && x.1.getLsbD 0) then coldReset q p else (q, if ns < 800000 then p else x.2)

/-! ### The sequence (R423 to R426) -/

/-- The package goes no further: FATAL (R426). The number of its cause is free. -/
def Package.bootFatal (p : Package) (cause : Nat) : Package := (p.put PWR_STATUS_PHASE PH_FATAL).reportFatal .pwr 8 (Config.openCode (32 + cause)) p.beatNo 0

/-- Power good: the hub die's self-test, hub firmware, measurements, the attestation key, fuses and the ledger. -/
def powerGood (dt : Nat) (selfOk : Bool) (devcert : Option (List Byte)) (q : Part) (p : Package) : Part × Package :=
  if p.pwr.goodAt.isSome then (q, p)
  else
    let q := q.coldReset p
    let p := { q.cold p with clock := dt, pwr := { goodAt := some 0 } }
    let p := (p.put PWR_STATUS_LC_STATE q.lc).showArb q
    let p := p.showFuses q
    let p := p.put SEC_STATUS_DEBUG_OPEN (b2n (decide (q.lc ≤ LC_MANUFACTURE) || q.lc = LC_RETURNED))
    let p := p.extendMr 0 (beBytes 48 (Config.romMeasure q.lc q.revoked).toNat)
    if !selfOk then (q, p.bootFatal 1)
    else
      let c0 := p.loadClass q 0 1
      if !c0.1 then (q, c0.2.bootFatal 2)
      else
        let p := (c0.2.put PWR_BOOT_MS_HUB_FW (min 65535 (dt / Config.msUnits))).modPwr (fun w => { w with fw := true })
        let p := { p with fresh := p.fresh + 1, sec := { p.sec with chain := devcert.getD [] ++ Config.attestCert p.fresh } }
        let p := p.put SEC_STATUS_NO_DEVCERT (b2n devcert.isNone)
        (q, p.bootHub q)

/-- Does the dies' sequence run. -/
def Package.booting (p : Package) : Bool := p.pwr.fw && !p.has PKG_STATUS_READY && p.lcState ≠ LC_ENDED && !p.fatal

/-- A die fails in its sequence: it is powered off and reads FENCED. -/
def Package.dieBootFail (p : Package) (d result : Nat) : Package :=
  let p := (p.dieReset d).modPwr (fun w => { w with ended := insertRising d w.ended, powered := w.powered.filter (· ≠ d) })
  let p := ((p.setDieState d DIE_FENCED).showFenced d true).put (PWR_DIE_BOOT_RESULT d) result
  let p := p.each (p.shroudsOf d) (fun p j => p.setShroudState j SHROUD_DOWN)
  p.raise .pwr EV_PWR_DIE_BOOT_FAIL p.beatNo (arg1Of d result)

/-- Die d and its stacks are powered; its firmware is verified and measured. -/
def diePowerUp (dt d : Nat) (q : Part) (p : Package) : Package :=
  let p := p.pass dt
  if !p.booting || !p.dieFitted d || p.pwr.ended.contains d || p.pwr.powered.contains d then p
  else
    let x := (p.put PWR_STATUS_PHASE PH_DIES).loadClass q 1 (4 + d)
    if !x.1 then x.2.dieBootFail d DB_FIRMWARE
    else if !p.pwr.stackFw then x.2.dieBootFail d DB_STACK
    else x.2.modPwr (fun w => { w with powered := insertRising d w.powered })

/-- Entries for what a self-test found: a core that fails and is not retired yet, a cluster that is left with fewer than 16 cores or with
SRAM beyond repair. -/
def foundRepairs (known : List Repair) (d i : Nat) (f : Nat × Bool) (origin : Nat) : List Repair :=
  let r := retiredBy known (72 * d + i)
  let fresh := (List.range Config.coresPerCluster).filter (fun k => bitAt f.1 k && !bitAt r.1 k)
  let before := popcount Config.coresPerCluster r.1
  let cores := fresh.zipIdx.map (fun (e : Nat × Nat) => ({ kind := 1, place := d, where' := i, location := e.1, spare := before + e.2, origin := origin } : Repair))
  let left := Config.coresPerCluster - before - fresh.length
  if (left < 16 || !f.2) && !r.2 then cores ++ [{ kind := 2, place := d, where' := i, location := 0, spare := 0, origin := origin }] else cores

/-- The self-test of a die ends: masks of failing cores and the SRAM of each cluster, working control cores, its stacks, and the repairs
made in SRAM, stacks and control cores. -/
def dieSelftestDone (dt d : Nat) (fails : List (Nat × Bool)) (control : Nat) (stackOk : Bool) (repairs : List Repair) (q : Part) (p : Package) : Package :=
  let p := p.pass dt
  if !p.booting || !p.pwr.powered.contains d || p.pwr.ended.contains d then p
  else if control < 6 then p.dieBootFail d DB_CONTROL
  else if !stackOk then p.dieBootFail d DB_STACK
  else
    let found := (List.range 72).flatMap (fun i => foundRepairs (q.fuses ++ p.pwr.ledger) d i (listAt (0, true) fails i) 0)
    let p := p.mapDie d q.fuses fails
    let p := p.addRepairs (found ++ repairs.map (fun (r : Repair) => { r with origin := 0 }))
    let p := (p.trainShrouds d).modPwr (fun w => { w with ended := insertRising d w.ended })
    (p.setDieState d DIE_ACTIVE).put (PWR_DIE_BOOT_RESULT d) DB_ACTIVE

/-- 5,500 ms after power good a die that has not ended its sequence is powered off. -/
def dieBootTimeout (dt d : Nat) (p : Package) : Package :=
  let p := p.pass dt
  if p.booting && p.dieFitted d && !p.pwr.ended.contains d && decide (p.pwr.goodAt.getD 0 + 5500 * Config.msUnits ≤ p.clock)
  then p.dieBootFail d DB_TIMEOUT else p

/-- Has a link come UP or reached its training limit, or is it not to train. -/
def Package.linkSettled (p : Package) (k : Nat) : Bool :=
  p.linkState k = LINK_UP || p.linkState k = LINK_RETRAINING || p.linkState k = LINK_DOWN || !p.has (LNK_CTRL_ENABLE k)

/-- `PKG_STATUS.READY` sets: every die has ended its sequence and every link has settled, or 6,000 ms have gone. -/
def pkgReady (dt : Nat) (p : Package) : Package :=
  let p := p.pass dt
  if !p.booting then p
  else
    let settled := p.dies.all (fun d => p.pwr.ended.contains d) && (List.range Config.links).all p.linkSettled
    let start := p.pwr.goodAt.getD 0
    if !settled && p.clock < start + 6000 * Config.msUnits then p
    else
      let p := ((p.put PKG_STATUS_READY 1).put PWR_STATUS_PHASE PH_READY).put PWR_BOOT_MS_READY (min 65535 ((p.clock - start) / Config.msUnits))
      (p.raise .pwr EV_PWR_READY p.beatNo 0).startLedgerWrite

/-! ### Clock, input and rails (R442, R471, R472, R475) -/

/-- REFCLK edges are missing. -/
def refclkLoss (dt : Nat) (p : Package) : Package :=
  let p := p.pass dt
  if p.pwr.goodAt.isSome then p.reportFatal .pwr 8 (Config.openCode 35) p.beatNo 0 else p

/-- A regulator fault. -/
def railFault (dt : Nat) (r : Rail) (p : Package) : Package :=
  let p := p.pass dt
  if p.pwr.goodAt.isNone || !r.fitted p.variant.dies p.variant.guest then p
  else
    let last := p.dtime / 2 ^ 16 * 2 ^ 16 + r.index
    let p := (p.bump64 PWR_RAIL_FAULTS 1).wr PWR_RAIL_LAST last
    let p := p.raise .pwr EV_PWR_RAIL_FAULT last (arg1Of r.index 0)
    let lose (d : Nat) : Package :=
      if p.booting && !p.pwr.ended.contains d then (if p.dieFitted d then p.dieBootFail d DB_RAIL else p)
      else p.fenceDie d 0 p.clock
    match r with
    | .die d _ => lose (d % 8)
    | .stack k => lose (k / 4 % 8)
    | .hub => p.reportFatal .pwr 8 (Config.openCode 36) last (arg1Of r.index 0)
    | .optics => p.reportFatal .pwr 8 (Config.openCode 37) last (arg1Of r.index 0)
    | .guest => p.closeSite GC_POWER

/-! ### Field self-test (R432 to R435) -/

/-- Is a cluster isolated. -/
def Package.cluIsolated (p : Package) (c : Nat) : Bool := bitAt (p.rd (BIST_ISOLATE (c / 64))) (c % 64) || p.get (CLU_STATUS_STATE c) = 2

/-- Is a core isolated: with its cluster, retired, or a spare that is not mapped. -/
def Package.coreIsolated (p : Package) (c k : Nat) : Bool :=
  p.cluIsolated c || bitAt (p.get (CLU_STATUS_RETIRED c)) k || (p.posOf c k).isNone

/-- Is the unit of a run isolated. -/
def Package.unitIsolated (p : Package) (d : Nat) (b : BistRun) : Bool := match b.core with
  | none => p.cluIsolated (72 * d + b.cluster)
  | some k => p.coreIsolated (72 * d + b.cluster) k

/-- The array clock of a die in MHz. -/
def Package.dieMHz (p : Package) (d : Nat) : Nat := mapGet 1500 p.aclk d

/-- Is a die within the limits of R431: clock, and temperature. -/
def Package.clockFit (p : Package) (d : Nat) : Bool := decide (1000 ≤ p.dieMHz d) && decide (p.dieMHz d ≤ 1500)
def Package.coolEnough (p : Package) (d : Nat) : Bool := decide (mapGet 0 p.pwr.junction d ≤ p.get BIST_CFG_HEADROOM_C)

/-- A run ends FAILED: nothing else changes. -/
def Package.bistFail (p : Package) (d : Nat) (b : BistRun) (cause : Nat) : Package :=
  ((p.bistStop d b 3 cause 0).bump64 BIST_FAILS 1).cmdDone d b.tag ST_FAILED cause

/-- A run that was asked for starts once the conditions hold; a core under test is reset. -/
def bistRunStart (dt d : Nat) (railOk : Bool) (p : Package) : Package :=
  let p := p.pass dt
  match mapFind p.bists d with
  | none => p
  | some b =>
    if b.startAt.isSome then p
    else if !p.unitIsolated d b then p.bistFail d b 1
    else if !railOk || !p.clockFit d || !p.coolEnough d then p
    else
      let p := { p with bists := mapPut p.bists d { b with startAt := some p.clock } }
      let p := ((p.setBit BIST_STATUS d true).bump64 BIST_RUNS 1).modCmd d b.tag (fun c => { c with past := true })
      match b.core with
      | some k => p.setCore (72 * d + b.cluster) k {}
      | none => p

/-- WAIT_MS have gone: a run that has not started, or whose wave stays paused, ends FAILED. -/
def bistWaitTimeout (dt d : Nat) (p : Package) : Package :=
  let p := p.pass dt
  let wait := p.get BIST_CFG_WAIT_MS * Config.msUnits
  match mapFind p.bists d with
  | none => p
  | some b => match b.startAt, b.pausedAt with
    | none, _ => if b.askedAt + wait ≤ p.clock then p.bistFail d b (if p.coolEnough d then 2 else 3) else p
    | some _, some t => if t + wait ≤ p.clock then p.bistFail d b 3 else p
    | _, _ => p

/-- The completion of a run: OK with its RESULT, at once or with the ledger write that records it. -/
def Package.bistComplete (p : Package) (d tag result : Nat) (recorded : Bool) : Package :=
  if recorded then (p.modPwr (fun w => { w with waits := w.waits ++ [(d, (tag, result))] })).startLedgerWrite
  else p.cmdDone d tag ST_OK result

/-- Entries of the ledger that a run removes. -/
def Package.dropRepairs (p : Package) (f : Repair → Bool) : Package :=
  if p.pwr.ledger.any f then p.modPwr (fun w => { w with ledger := w.ledger.filter (fun r => !f r), dirty := true }) else p

/-- A core that was not retired fails its run: a spare is one less; a mapped core of an isolated cluster gives its position to a working
spare, and without one the cluster is RETIRED. -/
def Package.bistReplace (p : Package) (c k : Nat) : Package :=
  let left := p.put (CLU_STATUS_SPARES c) (p.get (CLU_STATUS_SPARES c) - 1)
  match p.posOf c k with
  | none => left
  | some q => match p.spareOf c with
    | some spare => left.mapCore c q spare
    | none => p.put (CLU_STATUS_STATE c) 2

/-- A core run on core k. -/
def Package.bistCore (p : Package) (c k : Nat) (failed report : Bool) : Package :=
  let was := bitAt (p.get (CLU_STATUS_RETIRED c)) k
  let n := p.get (CLU_STATUS_SPARES c)
  if report then p
  else if failed then
    let p := if was then p else (p.bistReplace c k).setBit (CLU_STATUS c) (12 + k) true
    if p.pwr.ledger.any (fun r => r.kind = 1 && r.place = c / 72 && r.where' = c % 72 && r.location = k) then p
    else p.addRepairs [{ kind := 1, place := c / 72, where' := c % 72, location := k, spare := 2 - min 2 n, origin := 1 }]
  else
    let p := if was then (p.setBit (CLU_STATUS c) (12 + k) false).put (CLU_STATUS_SPARES c) (min 2 (n + 1)) else p
    (p.setCore c k {}).dropRepairs (fun r => r.kind = 1 && r.place = c / 72 && r.where' = c % 72 && r.location % 32 = k)

/-- A cluster run: the cluster is reset, then mapped afresh and ACTIVE, or RETIRED. -/
def Package.bistCluster (p : Package) (c fails : Nat) (sramOk report : Bool) (fuses : List Repair) : Package :=
  let p := { p with cores := p.cores.filter (fun e => decide (e.1 / 32 ≠ c)), clus := mapDel p.clus c }
  if report then
    let st := p.get (CLU_STATUS_STATE c)
    if st = 2 then p else p.mapCluster c (p.get (CLU_STATUS_RETIRED c)) true
  else
    let known := fuses ++ p.pwr.ledger
    let kept := retiredBy known c
    let p := p.mapCluster c (fails ||| kept.1) sramOk
    let found := foundRepairs (known.filter (fun r => !(r.kind = 2 && r.place = c / 72 && r.where' = c % 72))) (c / 72) (c % 72) (fails, sramOk) 1
    let p := p.addRepairs (found.filter (fun r => r.kind = 1 || !kept.2))
    if p.get (CLU_STATUS_STATE c) = 0 then
      (p.dropRepairs (fun r => r.kind = 2 && r.place = c / 72 && r.where' = c % 72)).setBit (BIST_ISOLATE (c / 64)) (c % 64) true
    else p

/-- A run finishes: the physical cores that failed, the cluster's SRAM and whether it was repaired. A rail that left its limits during the
run makes it FAILED with cause 2. -/
def bistRunDone (dt d fails : Nat) (sramOk sramRepaired railOk : Bool) (q : Part) (p : Package) : Package :=
  let p := p.pass dt
  match mapFind p.bists d with
  | none => p
  | some b =>
    if b.startAt.isNone || b.pausedAt.isSome then p
    else if !railOk || !p.clockFit d then p.bistFail d b 2
    else
      let c := 72 * d + b.cluster
      let fails := match b.core with
        | some k => if bitAt fails k || !sramOk then 2 ^ k else 0
        | none => fails % 2 ^ Config.coresPerCluster
      let repaired := sramRepaired && sramOk && !b.noRepair
      let p := { p with bists := mapDel p.bists d }
      let p := match b.core with
        | some k => p.bistCore c k (decide (fails ≠ 0)) b.noRepair
        | none => p.bistCluster c fails sramOk b.noRepair q.fuses
      let p := if repaired then p.addRepairs [{ kind := 3, place := d, where' := b.cluster, location := b.core.getD 0, spare := 0, origin := 1 }] else p
      let active := p.get (CLU_STATUS_STATE c) ≠ 2
      let bad := decide (fails ≠ 0) || !sramOk
      let outcome := if (b.core.isSome && bad) || (b.core.isNone && !active) then 2 else if bad || repaired then 1 else 0
      let p := p.when bad (fun p => p.bump64 BIST_FAILS 1)
      let p := p.when (!bad) (fun p => p.bump64 BIST_PASSES 1)
      let p := p.bistStop d b outcome 0 fails
      let result := fails + 2 ^ 20 * p.get (CLU_STATUS_SPARES c) + 2 ^ 24 * b2n (b.core.isNone && active && !b.noRepair) + 2 ^ 26 * b2n repaired
      p.bistComplete d b.tag result p.pwr.dirty

/-! ### Re-admission loads and measures the die's firmware (R327, R449, R451) -/

/-- The first step of a re-admission verifies class 1 for the die. -/
def readmitStep (dt d : Nat) (ok : Bool) (fails : List (Nat × Bool)) (q : Part) (p : Package) : Package :=
  match mapFind p.fab.readmits d with
  | some (1, _) =>
    let x := if ok then p.loadClass q 1 (4 + d) else (false, p)
    readmitStepDone dt d x.1 fails x.2
  | _ => readmitStepDone dt d ok fails p

/-! ### The commands' meanings -/

def execPowerGood (dt : Nat) (selfOk : Bool) (flash : List (Nat × (ImageRead × ImageRead))) (devcert : Option (List Byte)) (s : State) :=
  onBoth (fun q p => powerGood dt selfOk devcert (if p.pwr.goodAt.isSome then q else q.readFlash flash) p) s
def execDiePowerUp (dt die : Nat) (flash : List (Nat × (ImageRead × ImageRead))) (s : State) :=
  onBoth (fun q p => (q.readFlash flash, diePowerUp dt die (q.readFlash flash) p)) s
def execDieSelftestDone (dt die : Nat) (fails : List (Nat × Bool)) (control : Nat) (stackOk : Bool) (repairs : List Repair) (s : State) :=
  onBoth (fun q p => (q, dieSelftestDone dt die fails control stackOk repairs q p)) s
def execDieBootTimeout (dt die : Nat) (s : State) := onPkg (dieBootTimeout dt die) s
def execPkgReady (dt : Nat) (s : State) := onPkg (pkgReady dt) s
def execRstNAssert (ns : Nat) (s : State) := onBoth (rstN ns) s
def execPwrResetCold (value : Nat) (s : State) :=
  onBoth (fun q p => if resetKey value && bitAt value 0 then coldReset q p else (q, p)) s
def execPwrResetWarm (value : Nat) (flash : List (Nat × (ImageRead × ImageRead))) (s : State) :=
  onBoth (fun q p => (q.readFlash flash,
    if resetKey value && bitAt value 1 && !bitAt value 0 then askWarm (bitAt value 2) (q.readFlash flash) p else p)) s
def execWarmResetStart (dt : Nat) (flash : List (Nat × (ImageRead × ImageRead))) (s : State) :=
  onBoth (fun q p => (q.readFlash flash, warmResetStart dt (q.readFlash flash) p)) s
def execVinLoss (s : State) := onBoth coldReset s
def execRefclkLoss (dt : Nat) (s : State) := onPkg (refclkLoss dt) s
def execRailFault (dt : Nat) (rail : Rail) (s : State) := onPkg (railFault dt rail) s
def execBistRunStart (dt die : Nat) (railOk : Bool) (s : State) := onPkg (bistRunStart dt die railOk) s
def execBistWaitTimeout (dt die : Nat) (s : State) := onPkg (bistWaitTimeout dt die) s
def execBistRunDone (dt die fails : Nat) (sramOk sramRepaired railOk : Bool) (s : State) :=
  onBoth (fun q p => (q, bistRunDone dt die fails sramOk sramRepaired railOk q p)) s
def execLedgerWriteDone (dt : Nat) (ok : Bool) (s : State) := onBoth (ledgerWriteDone dt ok) s
def execReadmitStepDone (dt die : Nat) (ok : Bool) (fails : List (Nat × Bool)) (s : State) :=
  onBoth (fun q p => (q, readmitStep dt die ok fails q p)) s

end Sys2Proof.Machine
end

