-- ==== Sys2Proof/Machine/Txn.lean ====
section
/-! DEFINITION. Transactions (R349 to R353, R42): staging, the checks of every staged register (R492 gives a cause where its own rule
states none), acceptance, application at a tick, rollback and timeout. -/

namespace Sys2Proof.Machine

open Sys2Proof

/-! ### Causes (R492) -/
def TC_RANGE : Nat := 1
def TC_STATE : Nat := 2
def TC_RESOURCE : Nat := 3
def TC_ROLE : Nat := 4
def TC_FEATURE : Nat := 5
def TC_CONFLICT : Nat := 6
def TC_ACCEPTED : Nat := 7
def TC_REVALIDATE : Nat := 8
def TC_OVERFLOW : Nat := 9

/-- The first cause whose condition holds; the lists below stand in the order of R492. -/
def firstCause (l : List (Nat × Bool)) : Option Nat := (l.find? (fun e => e.2)).map (fun e => e.1)

/-- A feature is used without being accepted (R348). -/
def Package.lacks (p : Package) (use : Bool) (n : Nat) : Bool := use && !p.feature n

def Package.busyStage (p : Package) (s : Nat) : Bool := decide (p.stgState s ≠ STG_DISABLED)
def Package.anyBusy (p : Package) : Bool := allStages.any p.busyStage

/-- A value is outside a closed range. -/
def outside (v lo hi : Nat) : Bool := decide (v < lo) || decide (hi < v)

/-! ### Stages: cluster sets, enabling (R48, R51, R54, R66, R361, R432)

`o` is the package as committed, `n` the package as it would stand after the commit. -/

/-- A RUN holds the cluster. -/
def Package.runHolds (p : Package) (c : Nat) : Bool :=
  p.runs.any (fun (r : RunJob) => decide (72 * r.die + r.first ≤ c) && decide (c < 72 * r.die + r.first + r.count))

/-- Stages whose committed mask names a cluster. -/
def Package.mastersOf (p : Package) (c : Nat) : Nat := (allStages.filter (fun s => bitAt (p.rd (STG_CLUSTERS s (c / 64))) (c % 64))).length

/-- The cause of one word of a cluster mask. -/
def maskFault (o n : Package) (s j : Nat) : Option Nat :=
  let cs := (bitsSet 64 (n.rd (STG_CLUSTERS s j))).map (64 * j + ·)
  firstCause [
    (TC_STATE, cs.any (fun c => o.runHolds c)),
    (TC_RESOURCE, cs.any (fun c => !o.dieFitted (c / 72) || o.dieFenced (c / 72) || n.cluIsolated c)),
    (TC_CONFLICT, cs.any (fun c => decide (4 < n.mastersOf c))),
    (TC_RANGE, (n.maskClusters s).isEmpty)]

/-- The first `STG_CLUSTERS_n` of a stage that fails (R48). -/
def clusterFault (o n : Package) (s : Nat) : Option (Nat × Nat) :=
  (List.range 9).findSome? (fun j => (maskFault o n s j).map (fun c => (STG_CLUSTERS s j, c)))

/-- A queue's depth and slot size are in range (R54). -/
def Package.queueCfgOk (p : Package) (a : Nat) : Bool := !outside (bitsOf (p.rd a) 0 7) 1 64 && decide (bitsOf (p.rd a) 16 16 ≠ 0)

/-- The version ring's depth and stale limit (R64, R66, R51). -/
def vringFault (o n : Package) (s : Nat) : Option Nat :=
  firstCause [
    (TC_FEATURE, o.lacks (decide (0 < n.staleMax s)) 2),
    (TC_CONFLICT, decide (n.get (STG_VRING_CFG_DEPTH s) < n.staleMax s + 2) && !outside (n.get (STG_VRING_CFG_DEPTH s)) 2 4),
    (TC_RANGE, outside (n.get (STG_VRING_CFG_DEPTH s)) 2 4 || decide (n.staleMax s = 3))]

/-- A commit that sets ENABLE: the first register of the stage that fails (R51, R347). -/
def enableFault (o n : Package) (s : Nat) : Option (Nat × Nat) :=
  if !o.has PKG_STATUS_NEGOTIATED then some (STG_CTRL s, TC_FEATURE)
  else if !n.queueCfgOk (STG_FQ_CFG s) then some (STG_FQ_CFG s, TC_RANGE)
  else if !n.queueCfgOk (STG_BQ_CFG s) then some (STG_BQ_CFG s, TC_RANGE)
  else if n.get (STG_LAYERS_COUNT s) = 0 then some (STG_LAYERS s, TC_RANGE)
  else match vringFault o n s with
    | some c => some (STG_VRING_CFG s, c)
    | none =>
      if n.rd (STG_VSLOT_BYTES s) % 4096 ≠ 0 then some (STG_VSLOT_BYTES s, TC_RANGE)
      else match (List.range 4).find? (fun k => decide (n.get (STG_CH_CFG_ROUTE s k) = 3)) with
        | some k => some (STG_CH_CFG s k, TC_RANGE)
        | none => if n.get (CTRL_DRAIN_BEATS (.stg s)) = 0 then some (CTRL (.stg s), TC_RANGE) else clusterFault o n s

/-- The home die that a stage's committed mask gives it. -/
def Package.homeOf (p : Package) (s : Nat) : Nat := listAt 0 (p.maskClusters s) 0 / 72

/-- `HAL_SCHED_CFG` (R81, R96). -/
def schedFault (o n : Package) (s : Nat) : Option Nat :=
  let grouped := n.has (HAL_SCHED_CFG_GROUPED s)
  let l := n.get (HAL_SCHED_CFG_LEADER s)
  firstCause [
    (TC_STATE, o.busyStage s || (o.members (o.leader s)).any o.busyStage || (n.members (n.leader s)).any o.busyStage),
    (TC_FEATURE, o.lacks grouped 1),
    (TC_CONFLICT, grouped && (decide (s ≤ l) || n.has (HAL_SCHED_CFG_GROUPED l) || decide (n.homeOf l ≠ n.homeOf s)
      || decide (n.members s ≠ [])))]

/-! ### Pour regions and gather shards (R237, R246) -/

/-- Where a region's writes into a version slot lie outside the package's own shard. -/
def Package.regionOutside (p : Package) (r : Region) : Bool :=
  let sh := p.shardOf r.stage (p.selfMember r.stage) (p.rd (STG_VSLOT_BYTES r.stage))
  decide (p.get (GATHER_GRP_MEMBERS r.stage) ≠ 0) && (decide (r.verOfs < sh.1) || decide (sh.2 < r.verOfs + r.verBytes))

/-- The first cause of a region descriptor; `o` gives the accepted features. -/
def regionFault (o n : Package) (i : Nat) : Option Nat :=
  match n.region i with
  | none => some TC_RESOURCE
  | some r =>
    let beta1 := match n.hyperBytes r.hp with
      | some b => (Hyper.ofBytes b).beta1
      | none => 0
    let arr := r.arrays beta1
    firstCause [
      (TC_RESOURCE, arr.any (fun e => !n.rangeOk e.1 e.2)),
      (TC_FEATURE, o.lacks true (14 + r.form % 4) || o.lacks (r.masterBf16 || r.momentsBf16) 18 || o.lacks r.frozen 13
        || o.lacks r.sparse (if r.quarter then 4 else 3) || o.lacks (isMX r.gradFmt) 5),
      (TC_CONFLICT, decide (r.gradBufs < n.staleMax r.stage + 1) || decide (n.rd NUM_HIST_SLOTS ≤ r.slot) || n.regionOutside r),
      (TC_RANGE, !r.reservedZero || decide (3 < r.form) || !payloadCodeOk r.gradFmt || !(decide (r.verFmt = 5) || decide (r.verFmt = 6))
        || outside r.gradBufs 1 3 || (decide (r.form = 3) && (decide (r.cols = 0) || decide (r.elements % r.cols ≠ 0)))
        || decide (r.elements % 64 ≠ 0) || decide (r.verOfs % 64 ≠ 0) || arr.any (fun e => !inStack r.stack e.1 e.2))]

/-- The first invalid region of the table and its cause. -/
def badRegion (o n : Package) : Option (Nat × Nat) :=
  (List.range (n.rd POUR_RTAB_COUNT)).findSome? (fun i => (regionFault o n i).map (fun c => (i, c)))

/-- `GATHER_GRP_s` (R246, R254). -/
def gatherFault (o n : Package) (s : Nat) : Option Nat :=
  firstCause [
    (TC_STATE, o.busyStage s),
    (TC_CONFLICT, (decide (n.get (GATHER_GRP_MEMBERS s) ≠ 0) && decide (n.get (GATHER_GRP_MEMBERS s) ≤ n.get (GATHER_GRP_SELF s)))
      || (List.range (n.rd POUR_RTAB_COUNT)).any (fun i => match n.region i with
          | some r => decide (r.stage = s) && n.regionOutside r
          | none => false)),
    (TC_RANGE, outside (n.get (GATHER_GRP_MEMBERS s)) 1 64 || decide (n.get (GATHER_GRP_SHARD_UNITS s) = 0))]

/-! ### Buckets (R256) -/

def bucketFault (o n : Package) (i : Nat) : Option Nat :=
  match n.bucket i with
  | none => some TC_RESOURCE
  | some b =>
    let own := n.ownedRange b (n.selfMember b.stage)
    let fits := match n.region b.region with
      | some r => decide (n.bucketSlot b = some r.slot) && decide (r.gradFmt = b.resultFmt) && decide (b.destOfs + rangeLen own ≤ r.elements)
      | none => false
    let unit := if b.topk then 4096 else 64
    firstCause [
      (TC_RESOURCE, b.topk && !n.rangeOk b.riser (4096 + 8 * b.elements)),
      (TC_FEATURE, o.lacks b.tie 12 || o.lacks b.topk 19 || o.lacks (decide (b.algo = 2)) 21),
      (TC_CONFLICT, decide (b.elements ≤ (n.members' b.stage - 1) * b.shardElems) || decide (n.rd POUR_RTAB_COUNT ≤ b.region) || !fits
        || (decide (b.algo = 2) && (b.topk || n.hasBackup b.stage))
        || (List.range i).any (fun j => match n.bucket j with
            | some c => decide (c.id = b.id)
            | none => false)),
      (TC_RANGE, !b.reservedZero || decide (b.algo = 3) || outside b.parts 1 8 || !(decide (b.resultFmt = 5) || decide (b.resultFmt = 0x10))
        || (if b.topk then outside b.keepLog2 3 8 || decide (b.riser = 0) || !inStack (match physOf b.riser with
              | some x => physStack x
              | none => 32) b.riser (4096 + 8 * b.elements)
            else decide (b.keepLog2 ≠ 0) || decide (b.riser ≠ 0))
        || decide (b.elements % unit ≠ 0) || decide (b.shardElems % unit ≠ 0) || decide (b.stride % 64 ≠ 0) || decide (b.destOfs % 64 ≠ 0))]

/-- The first invalid bucket of the table and its cause. -/
def badBucket (o n : Package) : Option (Nat × Nat) :=
  (List.range (n.rd CRU_BTAB_COUNT)).findSome? (fun i => (bucketFault o n i).map (fun c => (i, c)))

/-! ### Route table (R299) -/

/-- The entries of a route table: nodes with a non-empty mask; none where memory refuses the table or it holds poison. -/
def Package.readRoutes (p : Package) (base : Nat) : Option (List Nat) :=
  match p.load base 32768 with
  | .ok b => some ((List.range 4096).map (fun i => fieldAt b (8 * i) 8))
  | _ => none

def routeFault (n : Package) : Option Nat :=
  match n.readRoutes (n.rd LNK_RT_BASE) with
  | none => some TC_RESOURCE
  | some l => if l.any (fun e => decide (2 ^ 24 ≤ e)) then some TC_RANGE else none

def routesOf (l : List Nat) : List (Nat × Nat) :=
  ((List.range 4096).map (fun i => (i, listAt 0 l i))).filter (fun e => e.2 ≠ 0)

/-! ### The check of one staged register -/

/-- Feature accepts (R346): bits outside the offer or the floor, or without the bit they require. -/
def acceptFault (o : Package) (w v : Nat) : Bool :=
  !within' v (o.offer w) || !within' v (if w = 0 then o.variant.floor else 0)
    || (decide (w = 0) && ((bitAt v 4 && !bitAt v 3) || (bitAt v 6 && !bitAt v 5)))

/-- May the package commit the beat period and the landing window (R43). -/
def Package.setsPeriod (p : Package) : Bool :=
  decide (p.role = ROLE_DOMAIN) || (!p.beat.epochHeld && decide (p.beatState ≤ BEAT_FREE_RUN)
    && (decide (p.get BEAT_CTRL_ROLE_MODE = 1) || (decide (p.get BEAT_CTRL_ROLE_MODE = 0) && p.has BEAT_CTRL_CANDIDATE)))

/-- The causes of an STG register other than `STG_CTRL` and the cluster masks (R52, R54, R66). -/
def stgFault (o n : Package) (s a : Nat) : Option Nat :=
  let ch := (List.range 4).find? (fun k => decide (a = STG_CH_CFG s k))
  if o.busyStage s then some TC_STATE
  else if a = STG_FQ_CFG s || a = STG_BQ_CFG s then firstCause [(TC_RANGE, !n.queueCfgOk a)]
  else if a = STG_LAYERS s then firstCause [(TC_RANGE, decide (n.get (STG_LAYERS_COUNT s) = 0))]
  else if a = STG_VRING_CFG s then vringFault o n s
  else if a = STG_VSLOT_BYTES s then firstCause [(TC_RANGE, decide (n.rd a % 4096 ≠ 0))]
  else match ch with
    | some k => firstCause [(TC_RANGE, decide (n.get (STG_CH_CFG_ROUTE s k) = 3))]
    | none => none

/-- HAL registers (R81, R91, R96). -/
def halFault (o n : Package) (s a : Nat) : Option Nat :=
  let size := n.rd (HAL_STASH_SIZE s)
  if a = HAL_SCHED_CFG s then schedFault o n s
  else if a = HAL_STASH_QUOTA s then
    firstCause [(TC_CONFLICT, decide (n.rd a < n.get (STG_FQ_CFG_SLOT_UNITS s) * 4096) || decide (size < n.rd a)), (TC_RANGE, decide (n.rd a % 64 ≠ 0))]
  else if a = HAL_STASH_BASE s || a = HAL_STASH_SIZE s then
    firstCause [(TC_STATE, o.busyStage s), (TC_RESOURCE, !n.rangeOk (n.rd (HAL_STASH_BASE s)) size),
                (TC_CONFLICT, decide (size < n.rd (HAL_STASH_QUOTA s))), (TC_RANGE, decide (size % 4096 ≠ 0))]
  else if a = HAL_SPOL_BASE s then firstCause [(TC_STATE, o.busyStage s), (TC_RESOURCE, !n.memOk (n.rd a))]
  else firstCause [(TC_STATE, o.busyStage s), (TC_RESOURCE, !n.rangeOk (n.rd a) 4096)]

/-- NUM registers (R180, R181). -/
def numFault (o n : Package) (a : Nat) : Option Nat :=
  if a = NUM_CFG then
    firstCause [(TC_RANGE, decide (n.get NUM_CFG_WARM_STEPS = 0) || decide (n.get NUM_CFG_U_WIDEN = 0) || decide (n.get NUM_CFG_U_NARROW = 0))]
  else if a = NUM_HIST_BASE then firstCause [(TC_STATE, o.anyBusy)]
  else if a = NUM_HIST_SLOTS then
    firstCause [(TC_STATE, o.anyBusy),
      (TC_CONFLICT, (List.range (n.rd POUR_RTAB_COUNT)).any (fun i => match n.region i with
        | some r => decide (n.rd a ≤ r.slot)
        | none => false)),
      (TC_RANGE, decide (4096 < n.rd a))]
  else if a = NUM_ASSAY_CFG then
    firstCause [(TC_FEATURE, o.lacks (decide (n.get NUM_ASSAY_CFG_RATE_LOG2 ≠ 0)) 9), (TC_RANGE, decide (n.get NUM_ASSAY_CFG_ACTION = 3))]
  else none

/-- BWD registers (R197, R198). -/
def bwdFault (o n : Package) (a : Nat) : Option Nat :=
  if a = BWD_CFG then
    firstCause [(TC_STATE, o.anyBusy), (TC_FEATURE, o.lacks (decide (n.get BWD_CFG_TIES ≠ 0)) 12), (TC_RANGE, decide (64 < n.get BWD_CFG_TIES))]
  else if a = BWD_TIE_BASE then firstCause [(TC_STATE, o.anyBusy)]
  else
    let s := a % 0x1000 / 16 - 0x20
    firstCause [(TC_STATE, o.busyStage s), (TC_FEATURE, o.lacks (decide (n.rd a ≠ 0)) 8), (TC_RANGE, decide (n.rd a % 4096 ≠ 0))]

/-- MOE registers (R218, R219). -/
def moeFault (o n : Package) (a : Nat) : Option Nat :=
  if a = MOE_CFG then firstCause [(TC_RANGE, decide (n.get MOE_CFG_ARRIVE_US = 0) || decide (1 < n.get MOE_CFG_MISSING_ACTION))]
  else if a = MOE_TDIR_BASE then firstCause [(TC_STATE, o.anyBusy)]
  else if a = MOE_TDIR_COUNT then
    firstCause [(TC_STATE, o.anyBusy), (TC_FEATURE, o.lacks (decide (n.rd a ≠ 0)) 10), (TC_RANGE, decide (64 < n.rd a))]
  else
    let s := a % 0x1000 / 16 - 0x20
    firstCause [(TC_STATE, o.busyStage s), (TC_RANGE, decide (n.rd a % 4096 ≠ 0))]

/-- POUR and GATHER registers (R237, R253, R254). -/
def pourFault (o n : Package) (a : Nat) : Option Nat :=
  if a = POUR_HP_BASE then firstCause [(TC_STATE, allStages.any (fun s => decide (o.stgState s = STG_READY)))]
  else (badRegion o n).map (fun e => e.2)

def gatherRegFault (o n : Package) (a : Nat) : Option Nat :=
  if a = GATHER_CFG then firstCause [(TC_RANGE, decide (n.get GATHER_CFG_WAIT_US = 0) || decide (n.get GATHER_CFG_OUTSTANDING = 0))]
  else
    let s := a % 0x1000 / 32 - 0x10
    if a = GATHER_GRP s then gatherFault o n s else firstCause [(TC_STATE, o.busyStage s)]

/-- CRU registers (R256, R271, R283, R284). -/
def cruFault (o n : Package) (a : Nat) : Option Nat :=
  if a = CRU_CFG then
    firstCause [(TC_CONFLICT, decide (n.get CRU_CFG_HARD_BEATS ≤ n.get CRU_CFG_SOFT_BEATS)),
      (TC_RANGE, decide (n.get CRU_CFG_SOFT_BEATS = 0) || outside (n.get CRU_CFG_DIRECT_MAX) 1 64 || decide (40 < n.get CRU_CFG_FRAC))]
  else if a = CRU_BTAB_BASE || a = CRU_BTAB_COUNT then
    if o.anyBusy then some TC_STATE else (badBucket o n).map (fun e => e.2)
  else if a = CRU_RECV_BASE || a = CRU_TREE_BASE then firstCause [(TC_STATE, o.anyBusy)]
  else if a = CRU_RECV_SIZE then firstCause [(TC_STATE, o.anyBusy), (TC_RANGE, decide (n.rd a % 4096 ≠ 0))]
  else if a = CRU_TREE_CFG then
    firstCause [(TC_STATE, o.anyBusy), (TC_RANGE, decide (32 < n.get CRU_TREE_CFG_CHILDREN) || decide (n.get CRU_TREE_CFG_LIMIT = 0))]
  else if a = CRU_DLOG_BASE then firstCause [(TC_STATE, o.anyBusy), (TC_FEATURE, o.lacks (decide (n.rd a ≠ 0)) 23)]
  else if 0x300 ≤ a % 0x1000 then
    firstCause [(TC_STATE, o.busyStage (a % 0x1000 / 8 - 0x60)), (TC_FEATURE, o.lacks (decide (n.rd a ≠ 0)) 20)]
  else none

/-- LNK registers (R293, R299, R312). -/
def lnkFault (n : Package) (k a : Nat) : Option Nat :=
  if a = LNK_VC_CFG k then
    let sh := (List.range 8).map (fun v => bitsOf (n.rd a) (8 * v) 8)
    firstCause [(TC_CONFLICT, decide (128 < sh.sum)), (TC_RANGE, sh.any (fun x => decide (x = 0)))]
  else if a = LNK_VC_WEIGHT k then firstCause [(TC_RANGE, (List.range 6).any (fun v => decide (bitsOf (n.rd a) (4 * v) 4 = 0)))]
  else none

/-- SNAP registers (R421, R422). -/
def snapFault (o n : Package) (a : Nat) : Option Nat :=
  if o.get SNAP_STATUS_STATE ≠ SNAP_IDLE then some TC_STATE
  else if a = SNAP_CFG then
    firstCause [(TC_FEATURE, o.lacks (decide (n.get SNAP_CFG_TARGET = 0)) 24 || o.lacks (n.has SNAP_CFG_CAD_ENABLE) 25),
      (TC_CONFLICT, decide (n.get SNAP_CFG_MAX_STEPS < n.get SNAP_CFG_MIN_STEPS)),
      (TC_RANGE, decide (1 < n.get SNAP_CFG_TARGET) || decide (n.get SNAP_CFG_MIN_STEPS = 0))]
  else if a = SNAP_STAGE_SIZE then firstCause [(TC_RANGE, decide (n.rd a % 4096 ≠ 0))]
  else if a = SNAP_LOCAL_SIZE || a = SNAP_RECV_SIZE then firstCause [(TC_RANGE, decide (n.rd a % 8192 ≠ 0))]
  else if a = SNAP_EXTRA_COUNT then firstCause [(TC_RANGE, decide (256 < n.rd a))]
  else none

/-- BIST registers (R432, R445). -/
def bistFault (o n : Package) (a : Nat) : Option Nat :=
  if a = BIST_CFG then firstCause [(TC_RANGE, outside (n.get BIST_CFG_HEADROOM_C) 40 94 || decide (n.get BIST_CFG_WAIT_MS = 0))]
  else
    let j := a % 0x1000 / 8 - 0x22
    let fresh := (bitsSet 64 (n.rd a)).filter (fun i => !bitAt (o.rd a) i)
    let busy := fun (c : Nat) => o.runHolds c || allStages.any (fun s => o.busyStage s && (o.stg s).clusters.contains c)
    firstCause [(TC_STATE, fresh.any (fun i => busy (64 * j + i)))]

/-- The cause for which a register's value in `n` may not be committed, given the committed state `o`. -/
def regFault (o n : Package) (a : Nat) : Option Nat :=
  match pageAt a with
  | none => none
  | some g =>
    let v := n.rd a
    match g with
    | .die d =>
      if a = CTRL g then
        firstCause [(TC_FEATURE, bitAt v 0 && !o.has PKG_STATUS_NEGOTIATED), (TC_RANGE, decide (n.get (CTRL_DRAIN_BEATS g) = 0))]
      else firstCause [(TC_STATE, decide (o.ringState d ≠ RING_DISABLED)),
        (TC_RANGE, decide (a = DIE_RING_CFG d) && (outside (n.get (DIE_RING_CFG_DEPTH_LOG2 d)) 6 12 || outside (n.get (DIE_RING_CFG_CQ_DEPTH_LOG2 d)) 6 13))]
    | .beat =>
      firstCause [(TC_ROLE, !o.setsPeriod),
        (TC_RANGE, if a = BEAT_PERIOD then outside (n.get BEAT_PERIOD_TICKS) 2000 1000000 else outside (n.get BEAT_LANDING_WINDOW) 10 500)]
    | .pkg =>
      match (List.range 4).find? (fun w => decide (a = FEATURE_ACCEPT .pkg w)) with
      | some w => firstCause [(TC_ACCEPTED, o.txn.accepted), (TC_FEATURE, acceptFault o w v)]
      | none => if a = PKG_TEL_CFG then firstCause [(TC_RANGE, outside (n.get PKG_TEL_CFG_DEPTH_LOG2) 4 12)] else none
    | .stg s =>
      if a = CTRL g then firstCause [(TC_RANGE, decide (n.get (CTRL_DRAIN_BEATS g) = 0))]
      else if a = STG_CTRL s then (if bitAt v 0 then (enableFault o n s).map (fun e => e.2) else none)
      else if (List.range 9).any (fun j => decide (a = STG_CLUSTERS s j)) then (clusterFault o n s).map (fun e => e.2)
      else stgFault o n s a
    | .hal s => halFault o n s a
    | .xe _ => firstCause [(TC_RANGE, decide (1024 < v))]
    | .acc _ => firstCause [(TC_RANGE, outside v 1 256)]
    | .clu c => firstCause [(TC_RANGE, decide (n.get (CLU_CFG_WDOG_CYCLES c) < 256) || decide (n.get (CLU_CFG_RP_LIMIT c) < 1000))]
    | .num => numFault o n a
    | .bwd => bwdFault o n a
    | .moe => moeFault o n a
    | .mem k =>
      if a = MEM_CFG k then firstCause [(TC_RANGE, decide (n.get (MEM_CFG_SCRUB_HOURS k) = 0))]
      else firstCause [(TC_RANGE, (List.range 4).any (fun i => outside (bitsOf v (8 * i) 8) 1 15))]
    | .pour => pourFault o n a
    | .gather => gatherRegFault o n a
    | .cru => cruFault o n a
    | .lnkPkg => if a = LNK_CFG then firstCause [(TC_RANGE, decide (n.get LNK_CFG_HOP_LIMIT = 0))] else routeFault n
    | .lnk k => lnkFault n k a
    | .fab => firstCause [(TC_RANGE, outside (n.get FAB_CFG_MIN_WIDTH) 1 12)]
    | .snap => snapFault o n a
    | .bist => bistFault o n a
    | _ => none

/-- The compute die that a page belongs to, if it belongs to one. -/
def Page.die? : Page → Option Nat
  | .die d => if d = 8 then none else some d
  | .err d => if d = 8 then none else some d
  | .xe c => some (c / 72)
  | .acc c => some (c / 72)
  | .clu c => some (c / 72)
  | .mem k => some (k / 4)
  | .pourStack k => some (k / 4)
  | _ => none

/-- A page of a fitted die or stack, or of the hub die (R3). -/
def Package.pageFitted (p : Package) (g : Page) : Bool := match g.die? with
  | some d => p.dieFitted d
  | none => true

/-- A page of a fenced die (R324). -/
def Package.pageFenced (p : Package) (g : Page) : Bool := match g.die? with
  | some d => p.dieFenced d
  | none => false

/-- The register and cause for which one staged register fails: most rules name the register itself, R48 and R51 another of its stage. -/
def stagedFault (o n : Package) (a : Nat) : Option (Nat × Nat) :=
  match pageAt a with
  | some (.stg s) =>
    if a = STG_CTRL s then (if n.has (STG_CTRL_ENABLE s) then enableFault o n s else none)
    else if (List.range 9).any (fun j => decide (a = STG_CLUSTERS s j)) then clusterFault o n s
    else (regFault o n a).map (fun c => (a, c))
  | some g => if o.pageFenced g then some (a, TC_RESOURCE) else (regFault o n a).map (fun c => (a, c))
  | none => none

/-! ### Staging (R349, R350) -/

def Package.txnState (p : Package) : Nat := p.get PKG_TXN_STATUS_STATE
def TXN_IDLE : Nat := 0
def TXN_OPEN : Nat := 1
def TXN_VALIDATING : Nat := 2
def TXN_PENDING : Nat := 3

/-- Results of the last transaction (R375). -/
def TR_APPLIED : Nat := 1
def TR_FAILED : Nat := 2
def TR_REVALIDATION : Nat := 3
def TR_ROLLED_BACK : Nat := 4
def TR_TIMED_OUT : Nat := 5

def Package.modTxn (p : Package) (f : Txn → Txn) : Package := { p with txn := f p.txn }

/-- A transaction write that is refused or ignored. -/
def Package.txnErr (p : Package) : Package := p.bump64 PKG_TXN_ERRS 1

/-- Clear a bit of `TXN_STATE` in every page. -/
def Package.clearTxnBit (p : Package) (i : Nat) : Package :=
  p.each ((p.regs.map (fun e => e.1)).filter (fun a => decide (a % 0x1000 = 0x80))) (fun p a => p.setBit a i false)

/-- Is the requester the owner of the open transaction. -/
def Package.owns (p : Package) (req : Nat) : Bool := decide (p.txnState = TXN_OPEN) && decide (p.get PKG_TXN_STATUS_OWNER = req)

/-- A 32-bit write merges into a register's value: half 0 the low word, half 1 the high one. -/
def mergeWrite (old : Nat) (half : Option Nat) (v : Nat) : Nat := match half with
  | none => v % 2 ^ 64
  | some h => if h = 0 then old / 2 ^ 32 * 2 ^ 32 + v % 2 ^ 32 else v % 2 ^ 32 * 2 ^ 32 + old % 2 ^ 32

/-- The value staged for a register. -/
def Txn.value (t : Txn) (a : Nat) : Option Nat := (t.staged.find? (fun e => e.1 = a)).map (fun e => e.2)

def stagePut (a v : Nat) : List (Nat × Nat) → List (Nat × Nat)
  | [] => [(a, v)]
  | e :: r => if e.1 = a then (a, v) :: r else e :: stagePut a v r

/-- A write to an RWT register (R349, R350): staged for the owner of the open transaction, refused otherwise. Answers whether it was
refused. -/
def stageWrite (req : Nat) (g : Page) (r : RegDef) (a : Nat) (half : Option Nat) (v : Nat) (p : Package) : Bool × Package :=
  if !p.owns req then (true, (p.put (TXN_STATE_OUTSIDE_WRITE g) 1).txnErr)
  else
    match p.txn.value a with
    | none =>
      if Config.stagedMax ≤ p.txn.staged.length then (true, (p.modTxn (fun t => { t with overflow := true })).txnErr)
      else
        let w := mergeWrite (p.rd a) half v &&& r.wmask
        let p := p.modTxn (fun t => { t with staged := t.staged ++ [(a, w)] })
        (false, (p.put PKG_TXN_STATUS_STAGED p.txn.staged.length).put (TXN_STATE_STAGED g) 1)
    | some old => (false, p.modTxn (fun t => { t with staged := stagePut a (mergeWrite old half v &&& r.wmask) t.staged }))

/-! ### Begin, commit, rollback (R349, R351, R353) -/

/-- The staged writes go; the state returns to IDLE with a result. -/
def Package.endTxn (p : Package) (result : Nat) : Package :=
  let p := p.modTxn (fun t => { t with staged := [], overflow := false, target := 0 })
  let p := { p with lnk := { p.lnk with stagedRoutes := [] } }
  (((p.clearTxnBit 0).put PKG_TXN_STATUS_STAGED 0).put PKG_TXN_STATUS_STATE TXN_IDLE).put PKG_TXN_STATUS_RESULT result

def txnBegin (req v : Nat) (p : Package) : Package :=
  if p.txnState ≠ TXN_IDLE then p.txnErr
  else
    let p := p.modTxn (fun t => { t with staged := [], overflow := false, openedAt := p.clock, target := 0 })
    (((p.clearTxnBit 2).put PKG_TXN_STATUS_STATE TXN_OPEN).put PKG_TXN_STATUS_OWNER req).put PKG_TXN_STATUS_COOKIE v

def txnCommit (req : Nat) (p : Package) : Package := if p.owns req then p.put PKG_TXN_STATUS_STATE TXN_VALIDATING else p.txnErr

def txnRollback (p : Package) : Package :=
  if p.txnState = TXN_OPEN || p.txnState = TXN_VALIDATING then p.endTxn TR_ROLLED_BACK
  else if p.txnState = TXN_PENDING then p.txnErr
  else p

def txnTimeout (dt : Nat) (p : Package) : Package :=
  let p := p.pass dt
  if p.txnState = TXN_OPEN && p.txn.openedAt + p.get PKG_TXN_CFG_TIMEOUT_MS * Config.msUnits ≤ p.clock then
    (p.endTxn TR_TIMED_OUT).raise .pkg EV_PKG_TXN_TIMEOUT p.beatNo 0
  else p

/-! ### Validation (R351, R352) -/

/-- The package as it would stand after the commit. -/
def Package.staged (p : Package) : Package := p.each p.txn.staged (fun p e => p.wr e.1 e.2)

/-- The first failure of the transaction against the state of the moment: register and cause. -/
def Package.txnFault (p : Package) : Option (Nat × Nat) :=
  let n := p.staged
  if p.txn.overflow then some (listAt 0 (p.txn.staged.map (fun e => e.1)) 0, TC_OVERFLOW)
  else p.txn.staged.findSome? (fun e => stagedFault p n e.1)

/-- `POUR_STATUS.BAD_REGION` and `CRU_STATUS.BAD_BUCKET` after a failed commit that named their table (R237, R256). -/
def Package.showBad (p : Package) (a : Nat) : Package :=
  let n := p.staged
  if a = POUR_RTAB_BASE || a = POUR_RTAB_COUNT then match badRegion p n with
    | some e => p.put POUR_STATUS_BAD_REGION e.1
    | none => p
  else if a = CRU_BTAB_BASE || a = CRU_BTAB_COUNT then match badBucket p n with
    | some e => p.put CRU_STATUS_BAD_BUCKET e.1
    | none => p
  else p

/-- A commit fails: the register and cause are named, the page marked, the event raised, every staged write discarded. -/
def Package.txnFail (p : Package) (a cause result : Nat) : Package :=
  let p := (p.showBad a).clearTxnBit 1
  let p := match pageAt a with
    | some g => p.put (TXN_STATE_FAILED_HERE g) 1
    | none => p
  let p := (p.put PKG_TXN_FAIL_ADDR a).put PKG_TXN_FAIL_CAUSE cause
  let cookie := p.get PKG_TXN_STATUS_COOKIE
  (p.endTxn result).raise .pkg EV_PKG_TXN_FAILED (p.rd PKG_TXN_FAIL) (arg1Of cookie cause)

/-! ### Application (R51, R52, R43, R346, R365) -/

/-- A list in rising order without repeats. -/
def insertAll (l : List Nat) : List Nat := l.foldl (fun a x => insertRising x a) []

/-- A DISABLED stage opens; the first enable after a restore starts the gather of each version held, oldest first (R420). -/
def Package.openFirst (p : Package) (s : Nat) : Package :=
  let was := (p.stg s).restored
  let p := (p.openStage s).modStg s (fun x => { x with restored := false })
  if !was then p
  else
    let held := (p.heldSlots s).map (p.vNum s)
    let now := p.currentVersion s
    p.restoredGather s ((insertAll (held.filter (· ≠ now))) ++ [now])

/-- A committed `STG_CTRL` takes effect on its stage. -/
def Package.applyStage (p : Package) (s : Nat) : Package :=
  if p.has (STG_CTRL_ENABLE s) then
    if p.stgState s = STG_DISABLED then p.openFirst s
    else if p.stgState s = STG_DRAINING then p.modStg s (fun x => { x with reopen := true })
    else p
  else if p.stgState s = STG_DRAINING then p.modStg s (fun x => { x with reopen := false })
  else p.drainStage s

/-- A committed cluster set takes effect: at once on a DISABLED stage, at its next window boundary otherwise. -/
def Package.applyClusters (p : Package) (s : Nat) : Package :=
  if p.stgState s = STG_DISABLED then p.bind s
  else (p.modStg s (fun x => { x with bindPending := true })).put (STG_STATUS_BIND_PENDING s) 1

/-- A committed `CTRL.ENABLE` takes effect on a ring. -/
def Package.applyRing (p : Package) (d : Nat) : Package :=
  let st := p.ringState d
  if p.has (CTRL_ENABLE (.die d)) then
    if st = RING_DISABLED then (p.put (DIE_RING_STATUS_HALT_CAUSE d) 0).setRingState d RING_ACTIVE
    else if st = RING_DRAINING then p.modRing d (fun r => { r with reopen := true })
    else p
  else if st = RING_DISABLED then p
  else if st = RING_DRAINING then p.modRing d (fun r => { r with reopen := false })
  else
    ((p.modRing d (fun r => { r with drainBeat := p.beatNo + p.get (CTRL_DRAIN_BEATS (.die d)), reopen := false })).setRingState d RING_DRAINING).settleRing d

/-- A committed period or landing window: pending for eight ticks on a master with an epoch, in force at once where no tick runs. -/
def Package.applyBeat (p : Package) (period landing : Option Nat) : Package :=
  if p.beat.epochHeld && p.ticking then
    let base : Nat × Nat := match p.beat.pend with
      | some q => (q.period, q.landing)
      | none => (p.get BEAT_PERIOD_TICKS, p.get BEAT_LANDING_WINDOW)
    (p.modBeat (fun b => { b with pend := some { period := period.getD base.1, landing := landing.getD base.2, beat := p.beatNo + 8 } })).put
      BEAT_STATUS_PERIOD_PENDING 1
  else (p.put BEAT_PERIOD_TICKS (period.getD (p.get BEAT_PERIOD_TICKS))).put BEAT_LANDING_WINDOW (landing.getD (p.get BEAT_LANDING_WINDOW))

/-- A committed accept (R346): NEGOTIATED, and MR13 extended (R451). -/
def Package.applyAccept (p : Package) : Package :=
  let words := (List.range 4).flatMap (fun w => leBytes 8 (p.rd (FEATURE_ACCEPT .pkg w)))
  ((p.put PKG_STATUS_NEGOTIATED 1).modTxn (fun t => { t with accepted := true })).extendMr 13 (sha384 words)

/-- Every staged register applies at once (R351). -/
def Package.applyAll (p : Package) : Package :=
  let st := p.txn.staged
  let has := fun (a : Nat) => st.any (fun e => decide (e.1 = a))
  let routes := p.lnk.stagedRoutes
  let p := p.each (st.filter (fun e => decide (e.1 ≠ BEAT_PERIOD) && decide (e.1 ≠ BEAT_LANDING))) (fun p e => p.wr e.1 e.2)
  let p := if has BEAT_PERIOD || has BEAT_LANDING then p.applyBeat (p.txn.value BEAT_PERIOD) (p.txn.value BEAT_LANDING) else p
  let p := if (List.range 4).any (fun w => has (FEATURE_ACCEPT .pkg w)) then p.applyAccept else p
  let p := if has LNK_RT_BASE then { p with lnk := { p.lnk with routes := routes } } else p
  let p := p.each (allStages.filter (fun s => (List.range 9).any (fun j => has (STG_CLUSTERS s j)))) Package.applyClusters
  let p := p.each (allStages.filter (fun s => has (HAL_SCHED_CFG s))) (fun p s => p.showGroup (p.leader s))
  let p := p.each (allStages.filter (fun s => has (STG_CTRL s))) Package.applyStage
  let p := p.each ((List.range 9).filter (fun d => has (CTRL (.die d)))) Package.applyRing
  (p.wr PKG_TXN_APPLIED (p.beatNo % 2 ^ 48)).endTxn TR_APPLIED

/-- At a tick that the transaction waits for: check it again, then apply or discard it (R352). -/
def Package.applyTxn (p : Package) : Package :=
  match p.txnFault with
  | some e => p.txnFail e.1 TC_REVALIDATE TR_REVALIDATION
  | none => p.applyAll

/-- The beat whose tick applies a commit accepted now (R42). -/
def Package.txnTarget (p : Package) : Nat :=
  let next := if p.beat.ticked then p.beatNo + 1 else 0
  let least := if 2 * (Config.usUnits : Int) ≤ dsub p.beat.nextTick p.dtime then next else next + 1
  if p.beatNo < p.rd BEAT_TXN_TARGET then max least (p.rd BEAT_TXN_TARGET) else least

/-- Acceptance: the route table is loaded, and the transaction waits for its tick, or applies at once where no tick comes. -/
def Package.acceptTxn (p : Package) : Package :=
  let n := p.staged
  let routes := match n.readRoutes (n.rd LNK_RT_BASE) with
    | some l => routesOf l
    | none => []
  let p := { p with lnk := { p.lnk with stagedRoutes := if (p.txn.value LNK_RT_BASE).isSome then routes else [] } }
  let p := (p.put PKG_TXN_STATUS_STATE TXN_PENDING).modTxn (fun t => { t with target := p.txnTarget })
  if p.ticking then p else p.applyTxn

def txnValidationDone (dt : Nat) (p : Package) : Package :=
  let p := p.pass dt
  if p.txnState ≠ TXN_VALIDATING then p
  else match p.txnFault with
    | some e => p.txnFail e.1 e.2 TR_FAILED
    | none => p.acceptTxn

/-- The part of a tick that belongs to transactions (R53). -/
def Package.tickTxn (p : Package) : Package := if p.txnState = TXN_PENDING && p.txn.target ≤ p.beatNo then p.applyTxn else p

/-- The beat is enabled or disabled; a commit that waits for a tick that will not come applies now (R351). -/
def beatSwitch (dt : Nat) (en : Bool) (p : Package) : Package :=
  let p := beatEnable dt en p
  if p.txnState = TXN_PENDING && !p.ticking then p.applyTxn else p

/-! ### The commands -/

def execBeatEnable (dt : Nat) (en : Bool) (s : State) : Host.Outcome State Fault Refusal := onPkg (beatSwitch dt en) s
def execTxnBegin (requester value : Nat) (s : State) : Host.Outcome State Fault Refusal := onPkg (txnBegin requester value) s
def execTxnCommit (requester : Nat) (s : State) : Host.Outcome State Fault Refusal := onPkg (txnCommit requester) s
def execTxnValidationDone (dt : Nat) (s : State) : Host.Outcome State Fault Refusal := onPkg (txnValidationDone dt) s
def execTxnRollback (s : State) : Host.Outcome State Fault Refusal := onPkg txnRollback s
def execTxnTimeout (dt : Nat) (s : State) : Host.Outcome State Fault Refusal := onPkg (txnTimeout dt) s

end Sys2Proof.Machine
end

