-- ==== Sys2Proof/Machine/Restore.lean ====
section
/-! DEFINITION. Restores (R416 to R420): the start, the verify pass with the checks of Table 16-6 in order, and the write pass. -/

namespace Sys2Proof.Machine

open Sys2Proof

/-! ### The start and the end -/

/-- A snapshot command may not run now (R416). -/
def Package.restoreBusy (p : Package) : Bool := p.anyBusy || decide (p.txnState ≠ TXN_IDLE) || p.snap.capture.isSome

/-- A slot that a restore was reading is COMPLETE again. -/
def Package.endReading (p : Package) (r : Restore) : Package := match r.slot with
  | some n => if p.slotState n = SLOT_READING then p.setSlotState n SLOT_COMPLETE else p
  | none => p

/-- The restore leaves the SNAP unit. -/
def Package.dropRestore (p : Package) : Package := match p.snap.restore with
  | none => p
  | some r => ((p.endReading r).modSnap (fun s => { s with restore := none })).setSnapState SNAP_IDLE

/-- A restore ends with a cause of Table 16-6: nothing has been written. -/
def Package.restoreFail (p : Package) (tag step cause result : Nat) : Package :=
  let last := snapLast step cause 1 false
  ((p.dropRestore.wr SNAP_LAST last).raise .snap EV_SNAP_RESTORE_FAILED last (arg1Of 0 cause)).cmdDone 8 tag ST_FAILED result

/-- SNAP_RESTORE starts: BUSY, or the verify pass begins. A restore from the buddy asks it for its slot. -/
def Package.startRestore (p : Package) (tag : Nat) (desc : List Byte) : Package :=
  let source := fieldAt desc 8 8
  let n := 2 + fieldAt desc 16 1
  if p.restoreBusy then p.restoreFail tag 0 SC_BUSY SC_BUSY
  else
    let r : Restore := {
      tag := tag, addr := if source = 1 then p.slotBase n else fieldAt desc 24 8, slot := if source = 1 then some n else none
      align := fieldAt desc 17 1, skipHistory := bitAt (fieldAt desc 18 1) 0, posAddr := fieldAt desc 32 8, buddy := decide (source = 0) }
    let p := (p.modSnap (fun s => { s with restore := some r })).setSnapState SNAP_VERIFYING
    if source = 0 then p.sendBytes (p.get SNAP_BUDDY_LINKS) (p.get SNAP_BUDDY_NODE) CLS_CONTROL 2 [fieldAt desc 16 1] []
    else if source = 1 && p.slotState n = SLOT_COMPLETE then p.setSlotState n SLOT_READING
    else p

/-! ### Reading an image (R406) -/

/-- A directory entry of an image (Table 16-3). -/
structure DirEnt where
  typ : Nat
  index : Nat
  check : Nat
  ofs : Nat
  len : Nat
  dest : Nat
deriving DecidableEq, Repr

def dirEntOf (b : List Byte) : DirEnt :=
  { typ := fieldAt b 0 1, index := fieldAt b 2 2, check := fieldAt b 4 4, ofs := fieldAt b 8 8, len := fieldAt b 16 8, dest := fieldAt b 24 8 }

/-- MAGIC, VERSION, STATE and HDR_CHECK of an image's header hold. -/
def headerOk (img : List Byte) : Bool :=
  decide (256 ≤ img.length) && decide (fieldAt img 0 4 = MOULD_MAGIC) && decide (fieldAt img 4 2 = 1) && decide (fieldAt img 6 1 = 1)
    && decide (fieldAt img 140 4 = crc32c (img.take 140))

def imageDir (img : List Byte) : List DirEnt := (List.range (fieldAt img 108 4)).map (fun i => dirEntOf ((img.drop (256 + 32 * i)).take 32))

/-- A section's bytes. -/
def DirEnt.bytes (e : DirEnt) (img : List Byte) : List Byte := (img.drop e.ofs).take e.len

/-- DIR_CHECK holds, and every section lies inside BYTES. -/
def directoryOk (img : List Byte) : Bool :=
  let bytes := fieldAt img 112 8
  decide (256 + 32 * fieldAt img 108 4 ≤ img.length)
    && decide (fieldAt img 136 4 = crc32c ((img.drop 256).take (32 * fieldAt img 108 4)))
    && (imageDir img).all (fun e => decide (e.ofs + e.len ≤ min bytes img.length))

/-- The first section whose CHECK fails. -/
def badSection (img : List Byte) : Option Nat := (imageDir img).findIdx? (fun e => decide (crc32c (e.bytes img) ≠ e.check))

/-- The registers of a REGS section: address and value. -/
def regPairs (b : List Byte) : List (Nat × Nat) := (List.range (b.length / 16)).map (fun i => (fieldAt b (16 * i) 8, fieldAt b (16 * i + 8) 8))

/-- The registers that an image restores; `STG_CTRL.ENABLE` stays 0. -/
def imageRegs (img : List Byte) : List (Nat × Nat) :=
  (((imageDir img).filter (fun e => e.typ = 0x01)).flatMap (fun e => regPairs (e.bytes img))).map (fun e =>
    if allStages.any (fun s => STG_CTRL s = e.1) then (e.1, putBits e.2 0 1 0) else e)

/-- The package with an image's EXTRA ranges and registers in place: what the registers' checks see. -/
def Package.withImage (p : Package) (img : List Byte) : Package :=
  let p := p.each ((imageDir img).filter (fun e => e.typ = 0x08)) (fun p e => p.tryStore e.dest (e.bytes img))
  p.each (imageRegs img) (fun p e => p.wr e.1 e.2)

/-- A register that an image may restore, with a value that its own rule admits. -/
def Package.imageRegOk (p n : Package) (a : Nat) : Bool :=
  match pageAt a with
  | some g => p.imagePages.contains g && (rwtRegs g).contains a && (regFault p n a).isNone
  | none => false

/-- Every DEST is in reach, and every register passes. -/
def Package.resourcesOk (p : Package) (img : List Byte) : Bool :=
  let n := p.withImage img
  (imageDir img).all (fun e => decide (e.typ < 5) || (if e.typ = 5 || e.typ = 8 then p.rangeOk e.dest e.len else p.memOk e.dest))
    && (imageRegs img).all (fun e => p.imageRegOk n e.1)

/-- What the verify pass finds: a cause with its RESULT, or the data position and the stream offset to resume at (R417 to R419).
`pos` is a position record that replaces the header's. -/
def Package.judgeImage (p : Package) (r : Restore) (img : List Byte) (pos : Option (Nat × Nat)) : Sum (Nat × Nat) (Nat × Nat) :=
  if !headerOk img then .inl (SC_NO_IMAGE, SC_NO_IMAGE)
  else if !directoryOk img then .inl (SC_DIRECTORY, SC_DIRECTORY)
  else match badSection img with
    | some i => .inl (SC_SECTION, SC_SECTION + 2 ^ 16 * (i % 2 ^ 16))
    | none =>
      if fieldAt img 16 2 ≠ p.variantWord % 2 ^ 16 || (List.range 4).any (fun w => decide (fieldAt img (24 + 8 * w) 8 ≠ p.rd (FEATURE_ACCEPT .pkg w))) then
        .inl (SC_MISMATCH, SC_MISMATCH)
      else if !p.resourcesOk img then .inl (SC_RESOURCE, SC_RESOURCE)
      else
        let d := pos.getD (fieldAt img 88 8, fieldAt img 96 8)
        let skew : Int := (fieldAt img 72 8 : Int) - (d.1 : Int)
        let m := fieldAt img 104 4
        let ofs := fieldAt img 80 8
        if r.align = 0 then (if skew ≠ 0 then .inl (SC_SKEW, SC_SKEW) else .inr (d.2, ofs))
        else if r.align = 1 then
          if m = 0 || (d.2 : Int) + skew * m < 0 then .inl (SC_ALIGN, SC_ALIGN) else .inr (((d.2 : Int) + skew * m).toNat, ofs)
        else if (ofs : Int) + skew < 0 then .inl (SC_ALIGN, SC_ALIGN) else .inr (d.2, ((ofs : Int) + skew).toNat)

/-! ### RESTORE_VERIFY_DONE -/

/-- The image of a restore as it is read: its bytes, or the ring status that ends the command. -/
def Package.readImage (p : Package) (a : Nat) : Sum Nat (List Byte) :=
  match p.load a 256 with
  | .refused => .inl ST_REFUSED_ADDR
  | .poison => .inl ST_POISON
  | .ok h =>
    if !headerOk h then .inr h
    else match p.load a (max 256 (fieldAt h 112 8)) with
      | .refused => .inl ST_REFUSED_ADDR
      | .poison => .inl ST_POISON
      | .ok b => .inr b

/-- The position record of a restore. -/
def Package.readPos (p : Package) (a : Nat) : Sum Nat (Option (Nat × Nat)) :=
  if a = 0 then .inr none
  else match p.load a 32 with
    | .refused => .inl ST_REFUSED_ADDR
    | .poison => .inl ST_POISON
    | .ok b => .inr (some (fieldAt b 0 8, fieldAt b 8 8))

/-- A restore that memory ends: no cause of Table 16-6. -/
def Package.restoreStop (p : Package) (tag status : Nat) : Package := p.dropRestore.cmdDone 8 tag status 0

/-- The verify pass has read the image: from memory, with what the line code found, or from the buddy (none: the path lost a message). -/
def restoreVerifyDone (dt : Nat) (found : List (Nat × LineCheck)) (remote : Option (List Byte)) (p : Package) : Package :=
  let p := p.pass dt
  match p.snap.restore with
  | none => p
  | some r =>
    if r.result.isSome || p.fatal then p
    else if r.buddy && remote.isNone then p.restoreFail r.tag 0 SC_LINK SC_LINK
    else
      let p := if r.buddy then p else p.each found (fun p f => p.readFinds [f] (f.1 / 64 * 64) 64 MEM_BY_SNAP)
      match (if r.buddy then .inr (remote.getD []) else p.readImage r.addr : Sum Nat (List Byte)), p.readPos r.posAddr with
      | .inl st, _ => p.restoreStop r.tag st
      | _, .inl st => p.restoreStop r.tag st
      | .inr img, .inr pos =>
        match p.judgeImage r img pos with
        | .inr res =>
          ((p.modSnap (fun s => { s with restore := some { r with result := some res, image := img } })).setSnapState SNAP_WRITING).put
            SNAP_STATUS_STEP (fieldAt img 64 8)
        | .inl (cause, result) =>
          let step := if headerOk img then fieldAt img 64 8 else 0
          if cause = SC_SKEW then
            let rng := fieldAt img 72 8
            let d := (pos.getD (fieldAt img 88 8, 0)).1
            ((p.dropRestore.wr SNAP_LAST (snapLast step cause 1 false)).raise .snap EV_SNAP_RESTORE_SKEW rng (ofSigned 32 ((rng : Int) - (d : Int)))).cmdDone
              8 r.tag ST_FAILED result
          else p.restoreFail r.tag step cause result

/-! ### RESTORE_WRITE_DONE (R420) -/

/-- The registers of the image apply, all stages being DISABLED. -/
def Package.applyRegs (p : Package) (l : List (Nat × Nat)) : Package :=
  let p := p.each l (fun p e => p.wr e.1 e.2)
  p.each allStages (fun p s => (p.bind s).showGroup s)

/-- A stage's ring takes the roles of its VRING section; a slot whose version the image does not carry is FREE. -/
def Package.restoreRing (p : Package) (dir : List DirEnt) (s : Nat) (b : List Byte) : Package :=
  let p := p.each (List.range 4) (fun p n =>
    let role := fieldAt b n 1
    let carried := dir.any (fun e => e.typ = 0x05 && e.index % 32 = s && e.index / 256 % 4 = n)
    (p.setVRole s n (if role = V_PENDING || carried then role else V_FREE)).wr (STG_VNUM s n) (fieldAt b (8 + 8 * n) 6))
  let p := p.put (STG_VRING_STATE_RESOLVED_STEP s) (fieldAt b 40 6)
  let p := (p.put (STG_VRING_STATE_FLIP_DEFERRED s) 0).modStg s (fun x => { x with restored := true })
  p.setGather s { more := (p.heldSlots s).map (p.vNum s) }

/-- A POUR section: T, then the region's state arrays. -/
def Package.restoreRegion (p : Package) (i : Nat) (b : List Byte) : Package :=
  match p.region i with
  | none => p
  | some r =>
    let b1 := match p.hyperBytes r.hp with
      | some h => (Hyper.ofBytes h).beta1
      | none => 0
    let q := p.tryStore (p.regionAddr i + 96) (b.take 6)
    ((r.stateArrays b1).foldl (fun (acc : Package × List Byte) e => (acc.1.tryStore e.1 (acc.2.take e.2), acc.2.drop e.2)) (q, b.drop 8)).1

/-- A RISER section: the header, then the committed half that it names. -/
def Package.restoreRiser (p : Package) (i dest : Nat) (b : List Byte) : Package :=
  let p := p.tryStore dest (b.take 4096)
  match p.bucket i with
  | none => p
  | some k => p.tryStore (k.half (fieldAt b 8 1 % 2)) (b.drop 4096)

/-- COUNTERS: the step counts, the digest records, the cadence state. -/
def Package.restoreCounters (p : Package) (capStep : Nat) (b : List Byte) : Package :=
  let p := (p.wr CRU_STEPS_ATTEMPTED (fieldAt b 0 8)).wr CRU_STEPS_COMMITTED (fieldAt b 8 8)
  let p := if p.feature 23 && p.rd CRU_DLOG_BASE ≠ 0 then p.tryStore (p.rd CRU_DLOG_BASE) ((b.drop 16).take 16384) else p
  let last := fieldAt b 16416 8
  let p := p.wr SNAP_CAD_FAILS (fieldAt b 16400 8)
  let p := p.modSnap (fun s => { s with epochAt := ofSigned 64 ((p.dtime : Int) - (fieldAt b 16408 8 : Int)), lastNotice := last, sinceNotice := capStep - last })
  p.put SNAP_CAD_INTERVAL_SINCE (capStep - last)

/-- Every history record with HIST_VALID clear. -/
def Package.clearHistory (p : Package) : Package :=
  p.each (List.range (p.rd NUM_HIST_SLOTS)) (fun p i => match p.histBytes i with
    | some b => p.putHist i (setField b 3 1 (putBits (fieldAt b 3 1) 0 1 0))
    | none => p)

/-- How many slots of the table are valid and warming up: `NUM_STATUS.WARM_SLOTS`. -/
def Package.showWarm (p : Package) : Package :=
  p.put NUM_STATUS_WARM_SLOTS ((List.range (p.rd NUM_HIST_SLOTS)).filter (fun i => match p.histBytes i with
    | some b => bitAt (fieldAt b 3 1) 0 && histWarm b
    | none => false)).length

/-- What belonged to later steps or to the running machine is empty. -/
def Package.emptyRun (p : Package) (n : Nat) : Package :=
  let p := { p with groups := [], pours := [], gathers := [], heldFetches := [], folds := [], folded := [], moe := {}, num := {}, posCount := 0, forwards := 0
                    cru := { decided := n, resolved := n } }
  let p := p.each allStages (fun p s => ((p.modStg s (fun x => { x with stash := [], stashHead := 0, fq := {}, bq := {}, tag := none, pourDone := none,
                                                                        lastBackward := none })).showStash s).showGroup s)
  let p := p.each allStages (fun p s => (p.wr (STG_FQ_PTR s) 0).wr (STG_BQ_PTR s) 0)
  let p := p.each (List.range 4) (fun p i => (p.wr (SNAP_POS_STEP i) 0).wr (SNAP_POS_START i) 0)
  (p.modSnap (fun s => { s with lastFlip := none, prevFlip := none, flips := [], swaps := [] })).showPour

def restoreWriteDone (dt : Nat) (p : Package) : Package :=
  let p := p.pass dt
  match p.snap.restore with
  | none => p
  | some r => match r.result with
    | none => p
    | some (data, ofs) =>
      if p.fatal then p
      else
        let img := r.image
        let dir := imageDir img
        let k := fieldAt img 64 8
        let n := k + 1
        let of := fun (t : Nat) => dir.filter (fun (e : DirEnt) => e.typ = t)
        let p := p.each (of 0x08) (fun p e => p.tryStore e.dest (e.bytes img))
        let p := (p.emptyRun n).applyRegs (imageRegs img)
        let p := p.each (of 0x05) (fun p e => p.tryStore e.dest (e.bytes img))
        let p := p.each (of 0x06) (fun p e => p.restoreRegion e.index (e.bytes img))
        let p := p.each (of 0x07) (fun p e => p.restoreRiser e.index e.dest (e.bytes img))
        let p := p.each (of 0x02) (fun p e => p.restoreRing dir (e.index % 32) (e.bytes img))
        let p := p.each (of 0x04) (fun p e => p.restoreCounters k (e.bytes img))
        let p := if r.skipHistory || (of 0x03).isEmpty then p.clearHistory
          else p.each (of 0x03) (fun p e => p.tryStore (p.rd NUM_HIST_BASE) (e.bytes img))
        let p := (p.showWarm).showCru
        let p := (((p.wr (ERR_POS_DATA 8) data).wr (ERR_POS_START 8) data).wr (ERR_POS_STEP 8) (k % 2 ^ 48)).wr (ERR_POS_STREAM 8) ofs
        let last := snapLast k 0 1 false
        let p := ((p.dropRestore.wr SNAP_LAST last).bump64 SNAP_RESTORES 1)
        let p := p.raise .snap EV_SNAP_RESTORE_DONE last (b2n (decide (fieldAt img 8 8 ≠ p.serial)))
        p.cmdDone 8 r.tag ST_OK (k % 2 ^ 32)

/-! ### The commands -/

def execRestoreVerifyDone (dt : Nat) (found : List (Nat × LineCheck)) (remote : Option (List Byte)) (s : State) : Host.Outcome State Fault Refusal :=
  onPkg (restoreVerifyDone dt found remote) s
def execRestoreWriteDone (dt : Nat) (s : State) : Host.Outcome State Fault Refusal := onPkg (restoreWriteDone dt) s

end Sys2Proof.Machine
end

