-- ==== Sys2Proof/Machine/Ring.lean ====
section
/-! DEFINITION. The command classes (R354 to R365, R391, R412, R416, R433): fetch and its checks, each class's effect, completion, aborts and
the drain deadline. -/

namespace Sys2Proof.Machine

open Sys2Proof

/-! ### Descriptors (R355, Table 14-6) -/

def descCls (d : List Byte) : Nat := fieldAt d 0 1
def descTag (d : List Byte) : Nat := fieldAt d 2 2

/-- Does a ring serve a class (Table 14-7). -/
def classServed (d cls : Nat) : Bool :=
  cls ≤ 3 || (d < 8 && (cls = CC_RUN || cls = CC_BIST)) || (d = 8 && (cls = CC_CAPTURE || cls = CC_RESTORE || cls = CC_REWIND))

/-- BYTES of a data command (R360). -/
def dataBytesOk (n : Nat) : Bool := n % 64 = 0 && decide (64 ≤ n) && decide (n ≤ 2 ^ 30)

/-- Physical lines of a range. -/
def lineSet (a n : Nat) : List Nat := (List.range (n / 64)).filterMap (fun i => (physOf (a + 64 * i)).map (· / 64))

/-- Two ranges of n bytes share a byte, by their addresses or by their places in the stacks. -/
def rangesShare (a b n : Nat) : Bool :=
  overlaps a n b n || (decide (a / 2 ^ 41 ≠ b / 2 ^ 41) && (lineSet a n).any (fun x => (lineSet b n).contains x))

/-- The body checks of a class (Table 14-8, R391, R412, R416, Table 17-4). -/
def bodyOk (cls : Nat) (b : List Byte) : Bool :=
  let w := fun (o : Nat) => fieldAt b o 8
  let src := w 8
  let dst := w 16
  let n := w 24
  if cls = CC_NOP then zerosAt b 8 56
  else if cls = CC_COPY then src % 64 = 0 && dst % 64 = 0 && dataBytesOk n && !rangesShare src dst n && zerosAt b 32 32
  else if cls = CC_FILL then zerosAt b 8 8 && dst % 64 = 0 && dataBytesOk n && zerosAt b 40 24
  else if cls = CC_CHECK then src % 64 = 0 && zerosAt b 16 8 && dataBytesOk n && decide (w 32 < 2 ^ 33) && zerosAt b 40 24
  else if cls = CC_RUN then
    src % 32 = 0 && decide (1 ≤ dst) && decide (dst ≤ 2 ^ 24) && decide (n < 2 ^ 32) && decide (1 ≤ bitsOf n 8 8) && decide (bitsOf n 8 8 ≤ 72)
      && decide (bitsOf n 0 8 + bitsOf n 8 8 ≤ 72) && zerosAt b 32 32
  else if cls = CC_BIST then
    decide (fieldAt b 8 1 ≤ 1) && decide (fieldAt b 9 1 ≤ 71) && decide (fieldAt b 10 1 ≤ if fieldAt b 8 1 = 1 then 17 else 0)
      && decide (fieldAt b 11 1 ≤ 1) && zerosAt b 12 52
  else if cls = CC_CAPTURE then decide (src < 2 ^ 48) && decide (fieldAt b 16 1 ≤ 2) && zerosAt b 17 47
  else if cls = CC_RESTORE then
    decide (fieldAt b 8 8 ≤ 2) && decide (fieldAt b 16 1 ≤ 1) && decide (fieldAt b 17 1 ≤ 2) && decide (fieldAt b 18 1 ≤ 1) && zerosAt b 19 5
      && (decide (fieldAt b 8 8 ≠ 2) || n % 64 = 0) && zerosAt b 40 24
  else decide (src < 2 ^ 48) && decide (dst < 2 ^ 48) && zerosAt b 24 40

/-- The descriptor check of R355. -/
def descOk (d : Nat) (b : List Byte) : Bool :=
  classServed d (descCls b) && decide (fieldAt b 1 1 ≤ 1) && zerosAt b 4 4 && bodyOk (descCls b) b

/-- Where a SNAP_CAPTURE's image goes: as `SNAP_CFG` says, to the buddy, or to the local area (Table 16-5). -/
def Package.captureToBuddy (p : Package) (b : List Byte) : Bool :=
  decide (fieldAt b 16 1 = 1) || (decide (fieldAt b 16 1 = 0) && decide (p.get SNAP_CFG_TARGET = 0))

/-- Allowed by the accepted features and the life-cycle state (R348, Table 17-7). -/
def Package.classPermitted (p : Package) (b : List Byte) : Bool :=
  let cls := descCls b
  decide (p.lcState < 5)
    && (decide (cls ≠ CC_RUN) || p.feature 28) && (decide (cls ≠ CC_BIST) || p.feature 27)
    && (decide (cls ≠ CC_CAPTURE) || !p.captureToBuddy b || p.feature 24)
    && (decide (cls ≠ CC_RESTORE) || decide (fieldAt b 8 8 ≠ 0) || p.feature 24)

/-! ### The doorbell and the fetch (R354, R356, R362) -/

/-- A ring halts (Table 14-19). -/
def Package.haltRing (p : Package) (d cause : Nat) : Package :=
  ((p.setRingState d RING_HALTED).put (DIE_RING_STATUS_HALT_CAUSE d) cause).raise (.die d) EV_DIE_RING_HALT p.beatNo (arg1Of d cause)

/-- Can software reach a ring's page. -/
def Package.ringReach (p : Package) (d : Nat) : Bool := p.ringFitted d && (d = 8 || !p.dieFenced d)

def ringDoorbell (d v : Nat) (p : Package) : Package :=
  if !p.ringReach d then p
  else
    let p := p.modRing d (fun r => { r with tail := v % 2 ^ 16 })
    if p.ringState d ≠ RING_DISABLED && p.ringDepth d < p.ringQueued d then p.haltRing d 2 else p

/-- The command enters the ring with its outcome decided: its record goes out at once. -/
def Package.rejectCmd (p : Package) (d : Nat) (b : List Byte) (status : Nat) : Package :=
  let c : RingCmd := { tag := descTag b, cls := descCls b, fence := false, desc := [], started := true, past := true, done := some (status, 0) }
  (p.modRing d (fun r => { r with inflight := r.inflight ++ [c] })).ringEnd d c.tag c.cls status 0 false false

/-- The head moves on. -/
def Package.nextEntry (p : Package) (d : Nat) : Package := p.wr (DIE_RING_HEAD d) ((p.rd (DIE_RING_HEAD d) + 1) % 2 ^ 16)

/-- A descriptor that has been read is judged: a tag in flight halts the ring, an abort that covers the entry ends it, a draining ring rejects
it, and the checks of R355 and R359 follow. -/
def Package.takeEntry (p : Package) (d : Nat) (b : List Byte) : Package :=
  let tag := descTag b
  if (p.ringCmd d tag).isSome then p.haltRing d 1
  else
    let p := p.nextEntry d
    if (p.ringSt d).aborts.contains tag then p.rejectCmd d b ST_ABORTED
    else if p.ringState d = RING_DRAINING then p.rejectCmd d b ST_REJECTED_DISABLED
    else if !descOk d b then p.rejectCmd d b ST_BAD_DESCRIPTOR
    else if !p.classPermitted b then p.rejectCmd d b ST_NOT_PERMITTED
    else p.modRing d (fun r => { r with inflight := r.inflight ++ [{ tag := tag, cls := descCls b, fence := decide (fieldAt b 1 1 = 1), desc := b }] })

/-- A ring of a package that has come up fetches: it is ACTIVE or DRAINING. -/
def Package.ringServes (p : Package) (d : Nat) : Bool :=
  p.has PKG_STATUS_READY && p.ringReach d && (decide (p.ringState d = RING_ACTIVE) || decide (p.ringState d = RING_DRAINING))

/-- The ring fetches the entry at its head; `found` is what the line code says of the descriptor's line. -/
def Package.fetchEntry (p : Package) (d : Nat) (found : LineCheck) : Package :=
  if !p.ringServes d || p.ringQueued d = 0 || Config.ringInflight ≤ (p.ringSt d).inflight.length then p
  else if p.ringDepth d < p.ringQueued d then p.haltRing d 2
  else
    let a := p.ringEntry d (p.rd (DIE_RING_HEAD d))
    let p := p.readFinds [(a, found)] a 64 MEM_BY_DM
    match p.load a 64 with
    | .ok b => (p.countReadBy d a 64).takeEntry d b
    | _ => p.haltRing d 3

def commandFetch (dt d : Nat) (found : LineCheck) (p : Package) : Package := ((p.pass dt).fetchEntry d found).settleRing d

/-! ### Starting in order (R357) -/

/-- The commands in flight before a tag. -/
def Package.earlier (p : Package) (d tag : Nat) : List RingCmd := (p.ringSt d).inflight.takeWhile (fun c => c.tag ≠ tag)

/-- Data-movement commands that run. -/
def isData (cls : Nat) : Bool := cls = CC_COPY || cls = CC_FILL || cls = CC_CHECK

/-- The command of a class that may start now: all before it have started, no fence among them is open, and it waits for none. -/
def Package.startable (p : Package) (d tag cls : Nat) : Option RingCmd :=
  match p.ringCmd d tag with
  | none => none
  | some c =>
    let e := p.earlier d tag
    let running := ((p.ringSt d).inflight.filter (fun x => isData x.cls && x.started)).length
    if c.cls = cls && !c.started && p.has PKG_STATUS_READY && p.ringReach d && e.all (fun x => x.started && !x.fence) && (!c.fence || e.isEmpty)
        && (!isData cls || decide (running < 16)) then some c
    else none

/-- A command starts; `past` when nothing can withhold its effects any more. -/
def Package.begun (p : Package) (d tag : Nat) (past : Bool) : Package := p.modCmd d tag (fun c => { c with started := true, past := past })

/-- It starts and has ended inside the package. -/
def Package.begunDone (p : Package) (d tag status result : Nat) : Package := (p.begun d tag true).cmdDone d tag status result

/-- Start a command of a class with an effect. -/
def Package.startClass (p : Package) (d tag cls : Nat) (f : Package → RingCmd → Package) : Package := match p.startable d tag cls with
  | none => p
  | some c => f p c

/-! ### NOP, COPY, FILL and CHECK (R355, R360) -/

def ringNop (dt d tag : Nat) (p : Package) : Package := (p.pass dt).startClass d tag CC_NOP (fun p _ => p.begunDone d tag ST_OK 0)

/-- The bytes of a source, or the status that refuses them. -/
def Package.readSource (p : Package) (a n : Nat) : Sum Nat (List Byte) := match p.load a n with
  | .ok bs => .inr bs
  | .refused => .inl ST_REFUSED_ADDR
  | .poison => .inl ST_POISON

/-- A data command read its source: the line code has spoken, and an entry may have gone to the error log. -/
def Package.sourceFinds (p : Package) (d tag : Nat) (found : List (Nat × LineCheck)) (a n : Nat) : Package :=
  if !p.rangeOk a n then p
  else
    let q := p.readFinds found a n MEM_BY_DM
    q.modCmd d tag (fun c => { c with errLogged := decide (q.errLogs ≠ p.errLogs) })

/-- COPY moves every byte when it starts; a refused address or poison leaves the destination as it was. -/
def ringCopy (dt d tag : Nat) (found : List (Nat × LineCheck)) (p : Package) : Package :=
  (p.pass dt).startClass d tag CC_COPY (fun p c =>
    let src := fieldAt c.desc 8 8
    let dst := fieldAt c.desc 16 8
    let n := fieldAt c.desc 24 8
    if !p.rangeOk src n || !p.rangeOk dst n then p.begunDone d tag ST_REFUSED_ADDR 0
    else
      let p := p.sourceFinds d tag found src n
      match p.readSource src n with
      | .inl st => p.begunDone d tag st 0
      | .inr bs => ((p.countReadBy d src n).storeBy d dst bs).begunDone d tag ST_OK 0)

/-- The bytes of a repeated eight-byte pattern. -/
def patternBytes (v n : Nat) : List Byte := (List.range n).map (fun i => BitVec.ofNat 8 (v / 256 ^ (i % 8)))

def ringFill (dt d tag : Nat) (p : Package) : Package :=
  (p.pass dt).startClass d tag CC_FILL (fun p c =>
    let dst := fieldAt c.desc 16 8
    let n := fieldAt c.desc 24 8
    if !p.rangeOk dst n then p.begunDone d tag ST_REFUSED_ADDR 0
    else (p.storeBy d dst (patternBytes (fieldAt c.desc 32 8) n)).begunDone d tag ST_OK 0)

def ringCheck (dt d tag : Nat) (found : List (Nat × LineCheck)) (p : Package) : Package :=
  (p.pass dt).startClass d tag CC_CHECK (fun p c =>
    let src := fieldAt c.desc 8 8
    let n := fieldAt c.desc 24 8
    let p := p.sourceFinds d tag found src n
    match p.readSource src n with
    | .inl st => p.begunDone d tag st 0
    | .inr bs =>
      let crc := crc32c bs
      let bad := bitAt (fieldAt c.desc 36 4) 0 && decide (crc ≠ fieldAt c.desc 32 4)
      (p.countReadBy d src n).begunDone d tag (if bad then ST_MISMATCH else ST_OK) crc)

/-! ### RUN (R361) -/

/-- A cluster is bound to a stage that is not DISABLED. -/
def Package.clusterBound (p : Package) (c : Nat) : Bool := allStages.any (fun s => decide (p.stgState s ≠ STG_DISABLED) && (p.stg s).clusters.contains c)

def RunJob.clusters (r : RunJob) : List Nat := (List.range r.count).map (fun i => 72 * r.die + r.first + i)

/-- RUN takes its clusters and starts their cores; a retired cluster ends it with cause 18. -/
def ringRun (dt d tag : Nat) (p : Package) : Package :=
  (p.pass dt).startClass d tag CC_RUN (fun p c =>
    let n := fieldAt c.desc 24 8
    let job : RunJob := { ring := d, tag := tag, die := d, first := bitsOf n 0 8, count := bitsOf n 8 8, layer := bitsOf n 16 16,
                          list := fieldAt c.desc 8 8, len := fieldAt c.desc 16 8, startAt := p.clock }
    let cs := job.clusters
    if cs.any (fun k => p.clusterBound k || (p.servedRun k).isSome) then p.begunDone d tag ST_BAD_DESCRIPTOR 0
    else if !p.rangeOk job.list (32 * job.len) then p.begunDone d tag ST_REFUSED_ADDR 0
    else match cs.find? (fun k => decide (p.get (CLU_STATUS_STATE k) = 2)) with
      | some k => p.begunDone d tag ST_FAILED (18 + 2 ^ 16 * (k % 72))
      | none => ({ p with runs := p.runs ++ [job] }.begun d tag false).startCores (cs.flatMap (fun k => (p.activeCores k).map (fun q => (k, q)))) (0, p.clock))

/-- Every core of a RUN has run its list. -/
def Package.runFinished (p : Package) (r : RunJob) : Bool :=
  r.clusters.all (fun c => (p.activeCores c).all (fun k =>
    let co := p.core c k
    decide (co.serving = some (0, r.startAt)) && decide (co.layerPos = 1) && !co.stopped && co.drained))

/-- A core of a RUN has dispatched a command. -/
def Package.runDispatched (p : Package) (r : RunJob) : Bool :=
  r.clusters.any (fun c => (p.activeCores c).any (fun k =>
    let co := p.core c k
    decide (co.serving = some (0, r.startAt)) && decide (0 < co.index)))

/-- The RUN of a ring's tag. -/
def Package.runOf (p : Package) (d tag : Nat) : Option RunJob := p.runs.find? (fun r => decide (r.ring = d) && decide (r.tag = tag))

/-- A RUN that has ended leaves its clusters, and its command takes its outcome. -/
def Package.endRun (p : Package) (d tag : Nat) : Package :=
  match p.runOf d tag with
  | none => p
  | some r =>
    if r.failed.isNone && !p.runFinished r then p
    else
      let p := p.each (r.clusters.flatMap (fun k => (p.activeCores k).map (fun q => (k, q)))) Package.closeCore
      let p := { p with runs := p.runs.filter (fun (x : RunJob) => !(x.ring = d && x.tag = tag)) }
      let p := p.modCmd d tag (fun c => { c with replayed := r.replayed, errLogged := r.replayed || decide (r.failed = some RUN_POISON) })
      match r.failed with
      | none => p.cmdDone d tag ST_OK 0
      | some res => if res = RUN_POISON then p.cmdDone d tag ST_POISON 0 else p.cmdDone d tag ST_FAILED res

/-! ### BIST, SNAP_CAPTURE, SNAP_RESTORE and REWIND (R433, R412, R416, R391) -/

/-- BIST asks for a run: refused where its unit is not isolated; one at a time per die. -/
def ringBist (dt d tag : Nat) (p : Package) : Package :=
  (p.pass dt).startClass d tag CC_BIST (fun p c =>
    if (mapFind p.bists d).isSome then p
    else
      let b : BistRun := { tag := tag, cluster := fieldAt c.desc 9 1, core := if fieldAt c.desc 8 1 = 1 then some (fieldAt c.desc 10 1) else none,
                           noRepair := bitAt (fieldAt c.desc 11 1) 0, askedAt := p.clock }
      let p := { p with bists := mapPut p.bists d b }.begun d tag false
      if p.unitIsolated d b then p else p.bistFail d b 1)

/-- SNAP_CAPTURE arms the SNAP unit for the first committed step at or after STEP; it starts after a capture or a restore
that runs has ended (R411). -/
def ringCapture (dt tag : Nat) (p : Package) : Package :=
  (p.pass dt).startClass 8 tag CC_CAPTURE (fun p c =>
    if p.snap.capture.isSome || p.snap.restore.isSome then p
    else { p with snap := { p.snap with capture := some { tag := some tag, buddy := p.captureToBuddy c.desc, step := fieldAt c.desc 8 8 } } }.begun 8 tag false)

/-- SNAP_RESTORE starts, after a restore that runs has ended. -/
def ringRestore (dt tag : Nat) (p : Package) : Package :=
  (p.pass dt).startClass 8 tag CC_RESTORE (fun p c => if p.snap.restore.isSome then p else (p.begun 8 tag false).startRestore tag c.desc)

/-- A cause that refuses a rewind of step k by step n, or none. -/
def Package.rewindCause (p : Package) (k n : Nat) : Option Nat :=
  if p.cru.resolved ≠ k + 1 || !p.cru.rejected then some 1
  else if k + 1 < p.forwards || n < p.forwards then some 2
  else if allStages.any (fun s => p.has (STG_CTRL_FIRST s) && (p.stg s).fq.entries.any (fun e => e.2 = .valid)) then some 3
  else none

/-- REWIND applies at the next tick. -/
def ringRewind (dt tag : Nat) (p : Package) : Package :=
  (p.pass dt).startClass 8 tag CC_REWIND (fun p c =>
    let k := fieldAt c.desc 8 8
    let n := fieldAt c.desc 16 8
    match p.rewindCause k n with
    | some x => p.begunDone 8 tag ST_FAILED x
    | none => { p with rewind := some { tag := tag, step := k, next := n } }.begun 8 tag false)

/-- The tick at which a rewind applies. -/
def Package.applyRewind (p : Package) : Package := match p.rewind with
  | none => p
  | some r =>
    let p := { p with rewind := none }
    let p := p.wr (ERR_POS_DATA 8) (p.rd (ERR_POS_START 8))
    (p.wr (ERR_POS_STREAM 8) ((p.rd (ERR_POS_STREAM 8) + r.next - r.step) % 2 ^ 48)).cmdDone 8 r.tag ST_OK 0

/-! ### Completion (R358) -/

/-- A command that has ended writes its record, or waits for space. -/
def commandComplete (dt d tag : Nat) (p : Package) : Package :=
  let p := (p.pass dt).endRun d tag
  match p.ringCmd d tag with
  | none => p
  | some c => match c.done with
    | none => p
    | some (st, res) =>
      if (p.ringSt d).waiting.any (fun w => !w.abortResult && w.tag = tag) then p
      else p.ringEnd d tag c.cls st res c.replayed c.errLogged

/-- The oldest waiting record has waited more than 100 µs. -/
def cqStall (dt d : Nat) (p : Package) : Package :=
  let p := p.pass dt
  let r := p.ringSt d
  match r.waiting with
  | [] => p
  | w :: _ =>
    let quiet := match r.stallAt with
      | some t => decide (p.clock < t + Config.msUnits)
      | none => false
    if p.clock ≤ w.since + 100 * Config.usUnits || quiet then p
    else (p.modRing d (fun x => { x with stallAt := some p.clock })).raise (.die d) EV_DIE_CQ_STALL p.beatNo (arg1Of d 0)

/-- Software has consumed records. -/
def cqHeadWrite (d v : Nat) (p : Package) : Package :=
  if !p.ringReach d then p else (p.wr (DIE_CQ_HEAD d) (v % 2 ^ 16)).settleRing d

/-! ### Aborts and the drain deadline (R362 to R365) -/

/-- A command is past its point of Table 14-11. -/
def Package.pastPoint (p : Package) (d : Nat) (c : RingCmd) : Bool :=
  (p.ringSt d).waiting.any (fun w => !w.abortResult && w.tag = c.tag)
    || (c.started && (
      if c.cls = CC_NOP || c.cls = CC_CHECK then false
      else if c.cls = CC_RUN then c.done.isSome || (match p.runOf d c.tag with
        | some r => p.runDispatched r || r.failed.isSome
        | none => false)
      else if c.cls = CC_RESTORE then c.done.isSome || (match p.snap.restore with
        | some r => r.result.isSome
        | none => false)
      else c.past || c.done.isSome))

/-- Stop a command before its point: nothing of it becomes visible, and it ends with a status. -/
def Package.stopCmd (p : Package) (d : Nat) (c : RingCmd) (status : Nat) : Package :=
  let p := if !c.started then p
    else if c.cls = CC_CAPTURE then p.captureFail none false
    else if c.cls = CC_RESTORE then p.dropRestore
    else p.stopWork d c
  p.ringEnd d c.tag c.cls status 0 c.replayed c.errLogged

/-- Tags of the entries between head and tail. -/
def Package.queuedTags (p : Package) (d : Nat) : List Nat :=
  (List.range (min (p.ringQueued d) (p.ringDepth d))).map (fun i => descTag (p.bytesAt (p.ringEntry d (p.rd (DIE_RING_HEAD d) + i)) 64))

def commandAbort (d v : Nat) (p : Package) : Package :=
  let tag := v % 2 ^ 16
  let r := p.ringSt d
  if !p.ringReach d then p
  else if r.aborts.contains tag || Config.ringAborts ≤ r.aborts.length then p.bump64 (DIE_ABORT_IGNORED d) 1
  else match p.ringCmd d tag with
    | some c =>
      let p := p.modRing d (fun x => { x with aborts := x.aborts ++ [tag] })
      if p.pastPoint d c then p else p.stopCmd d c ST_ABORTED
    | none =>
      if (p.queuedTags d).contains tag then p.modRing d (fun x => { x with aborts := x.aborts ++ [tag] })
      else
        let res : CqRec := { tag := tag, status := ST_ALREADY_DONE, result := 0, cls := 0, abortResult := true, replayed := false, errLogged := false,
                             since := p.clock }
        (p.modRing d (fun x => { x with waiting := x.waiting ++ [res] })).settleRing d

/-- RESUME: a halted ring fetches the halted entry again; a tail that still is too far ahead keeps it halted. -/
def ringResume (d : Nat) (p : Package) : Package :=
  if !p.ringReach d || p.ringState d ≠ RING_HALTED || p.ringDepth d < p.ringQueued d then p
  else (p.put (DIE_RING_STATUS_HALT_CAUSE d) 0).setRingState d (if p.has (CTRL_ENABLE (.die d)) then RING_ACTIVE else RING_DRAINING)

/-- RESET: the indices of a DISABLED ring are zero. -/
def ringReset (d : Nat) (p : Package) : Package :=
  if !p.ringReach d || p.ringState d ≠ RING_DISABLED then p
  else (((p.modRing d (fun x => { x with tail := 0 })).wr (DIE_RING_HEAD d) 0).wr (DIE_CQ_HEAD d) 0).wr (DIE_CQ_TAIL d) 0

def ringDrainDeadline (dt d : Nat) (p : Package) : Package :=
  let p := p.pass dt
  let st := p.ringState d
  if p.has (CTRL_ENABLE (.die d)) || !(st = RING_DRAINING || st = RING_HALTED) || p.beatNo < (p.ringSt d).drainBeat then p
  else p.each (p.ringSt d).inflight (fun p c => match p.ringCmd d c.tag with
    | some c => if p.pastPoint d c then p else p.stopCmd d c ST_ABORTED_BY_DISABLE
    | none => p)

/-! ### The commands' meanings -/

def execRingDoorbell (die value : Nat) (s : State) := onPkg (ringDoorbell die value) s
def execCommandFetch (dt die : Nat) (found : LineCheck) (s : State) := onPkg (commandFetch dt die found) s
def execRingNop (dt die tag : Nat) (s : State) := onPkg (ringNop dt die tag) s
def execCopy (dt die tag : Nat) (found : List (Nat × LineCheck)) (s : State) := onPkg (ringCopy dt die tag found) s
def execFill (dt die tag : Nat) (s : State) := onPkg (ringFill dt die tag) s
def execCheck (dt die tag : Nat) (found : List (Nat × LineCheck)) (s : State) := onPkg (ringCheck dt die tag found) s
def execRun (dt die tag : Nat) (s : State) := onPkg (ringRun dt die tag) s
def execBist (dt die tag : Nat) (s : State) := onPkg (ringBist dt die tag) s
def execSnapCapture (dt tag : Nat) (s : State) := onPkg (ringCapture dt tag) s
def execSnapRestore (dt tag : Nat) (s : State) := onPkg (ringRestore dt tag) s
def execRewind (dt tag : Nat) (s : State) := onPkg (ringRewind dt tag) s
def execCommandComplete (dt die tag : Nat) (s : State) := onPkg (commandComplete dt die tag) s
def execCqStall (dt die : Nat) (s : State) := onPkg (cqStall dt die) s
def execCqHeadWrite (die value : Nat) (s : State) := onPkg (cqHeadWrite die value) s
def execCommandAbort (die value : Nat) (s : State) := onPkg (commandAbort die value) s
def execRingResume (die : Nat) (s : State) := onPkg (ringResume die) s
def execRingReset (die : Nat) (s : State) := onPkg (ringReset die) s
def execRingDrainDeadline (dt die : Nat) (s : State) := onPkg (ringDrainDeadline dt die) s

end Sys2Proof.Machine
end

