-- ==== Sys2Proof/Machine/RegWrite.lean ====
section
/-! DEFINITION. Register accesses (R3, R6 to R8, R324, R340 to R343): a write of any register under its access code with the effect that its
block gives it, and the read of any register. -/

namespace Sys2Proof.Machine

open Sys2Proof

/-- Statuses of host and guest requests (Table 12-8). -/
def HS_OK : Nat := 0
def HS_NO_ROUTE : Nat := 1
def HS_OUT_OF_GROUP : Nat := 2
def HS_TIMEOUT : Nat := 3
def HS_REFUSED : Nat := 4
def HS_POISON : Nat := 5
def HS_BAD_REQUEST : Nat := 6
def HS_BUSY : Nat := 7

/-! ### Halves (R6) -/

/-- The bits that a 32-bit access to a half reaches. -/
def halfMask : Option Nat → Nat
  | none => 2 ^ 64 - 1
  | some 0 => 2 ^ 32 - 1
  | some _ => 2 ^ 64 - 2 ^ 32

/-- The written value in its place in the register. -/
def halfValue (half : Option Nat) (v : Nat) : Nat := match half with
  | none => v % 2 ^ 64
  | some 0 => v % 2 ^ 32
  | some _ => v % 2 ^ 32 * 2 ^ 32

/-- The writable bits of a register take the written value, the others stay. -/
def maskWrite (old w mask : Nat) : Nat := (old &&& (2 ^ 64 - 1 - mask)) ||| (w &&& mask)

/-- Writes of RW registers whose fields have no effect of their own (R7): a field given a reserved encoding keeps its value. -/
def Package.plainWrite (p : Package) (a old w : Nat) : Nat :=
  let keep (f : Fld) (bad : Bool) : Nat := if bad then putBits w f.lo f.len (bitsOf old f.lo f.len) else w
  if a = PKG_TXN_CFG then keep PKG_TXN_CFG_TIMEOUT_MS (decide (bitsOf w 0 16 = 0))
  else if a = BEAT_OUT_CFG then keep ⟨a, 0, 2⟩ (decide (bitsOf w 0 2 = 3))
  else if a = BEAT_SLOT_CFG then keep ⟨a, 0, 8⟩ (decide (bitsOf w 0 8 = 0))
  else if a = BEAT_REF_CFG then keep ⟨a, 0, 64⟩ (!p.feature 0)
  else if a = LNK_HB_CTRL then keep ⟨a, 16, 16⟩ (decide (bitsOf w 16 16 = 0))
  else if a = SEC_DBG_SEL then keep ⟨a, 0, 4⟩ (decide (8 < bitsOf w 0 4))
  else w

/-! ### Writes with an effect of their own -/

/-- `BEAT_CTRL` (R45): REF_REQUIRED is reserved without EXT_BEAT_REF; REJOIN is set by a 1; ENABLE starts and stops the beat unit. -/
def beatCtrl (w : Nat) (p : Package) : Package :=
  let p := (p.put BEAT_CTRL_CANDIDATE (bitsOf w 1 1)).put BEAT_CTRL_GROUP_CANDIDATE (bitsOf w 2 1)
  let p := if p.feature 0 then p.put BEAT_CTRL_REF_REQUIRED (bitsOf w 3 1) else p
  let p := p.put BEAT_CTRL_ROLE_MODE (bitsOf w 8 2)
  let p := if bitAt w 4 then rejoin p else p
  let p := if p.has BEAT_CTRL_ENABLE then p.refreshView else p
  beatSwitch 0 (bitAt w 0) p

/-- `LNK_CTRL` of link k (R302, R303, R305). -/
def lnkCtrl (k w : Nat) (p : Package) : Package :=
  let on := p.has (LNK_CTRL_ENABLE k)
  let p := if on && !bitAt w 0 then linkDisable 0 k p
    else if !on && bitAt w 0 then (p.put (LNK_CTRL_ENABLE k) 1).startTraining k
    else p
  if bitAt w 1 then retrain k p else p

/-- `HAL_CTRL` of stage s (R76). -/
def halCtrl (s w : Nat) (p : Package) : Package :=
  let p := halHold 0 s (bitAt w 0) p
  if bitAt w 1 then halClear s p else p

/-- `DIE_RING_CTRL` of die d. -/
def ringCtrl (d w : Nat) (p : Package) : Package :=
  let p := if bitAt w 0 then ringResume d p else p
  if bitAt w 1 then ringReset d p else p

/-- `FAB_DIE_CTRL` (R323, R326, R327). -/
def fabDieCtrl (w : Nat) (p : Package) : Package :=
  let p := p.each (bitsSet 8 w) (fun p d => softwareFence 0 d p)
  p.each (bitsSet 8 (w / 2 ^ 8)) (fun p d => dieReadmit 0 d p)

def fabShroudCtrl (j w : Nat) (p : Package) : Package :=
  let p := if bitAt w 0 then shroudRetrain j p else p
  if bitAt w 1 then shroudRestore j p else p

/-- `NUM_WARM_FORCE` (R180). -/
def numWarmForce (w : Nat) (p : Package) : Package := if bitAt w 16 then warmForceAll p else warmForce (bitsOf w 0 12) p

/-- `STG_QFLUSH` of stage s (R59). -/
def stgQflush (s w : Nat) (p : Package) : Package :=
  let p := if bitAt w 0 then qflush s .fwd p else p
  if bitAt w 1 then qflush s .bwd p else p

/-- A write of `IRQ_FORCE` (R343): each event raised with BEAT_NUMBER and zero. -/
def Package.irqForce (p : Package) (g : Page) (v : Nat) : Package :=
  p.each (bitsSet g.events v) (fun p n => p.event g n true p.beatNo 0)

/-- `GATE_CTRL`: what the signature check finds is open here; a command of the table of its own gives it. -/
def gateCtrl (w : Nat) (q : Part) (p : Package) : Package :=
  let d := p.draw
  let p := if bitAt w 0 then gateLoad (d.1.getLsbD 0) q d.2 else p
  if bitAt w 1 then p.closeSite GC_WRITTEN else p

/-- `SEC_CTRL`: the verdicts on a submitted token's signatures are open here as well. -/
def secCtrl (w : Nat) (q : Part) (p : Package) : Part × Package :=
  let p := if bitAt w 0 then newNonce p else p
  let d := p.draw
  let x := if bitAt w 1 then submitToken (d.1.getLsbD 0) (d.1.getLsbD 1) q d.2 else (q, p)
  (x.1, if bitAt w 2 then extendSoftware x.2 else x.2)

/-- The effect of a write to a register that is not RWT and has one of its own; none for the others. `w` is the register's value as merged,
`x` the written bits in place. -/
def Package.writeEffect (p : Package) (req : Nat) (g : Page) (a : Nat) (half : Option Nat) (v w x : Nat) : Option Package :=
  let o := a % 0x1000
  if o = 0x70 then some (p.irqForce g x)
  else match g with
    | .pkg =>
      if a = PKG_TXN_BEGIN then some (txnBegin req x p)
      else if a = PKG_TXN_COMMIT then some (txnCommit req p)
      else if a = PKG_TXN_ROLLBACK then some (txnRollback p)
      else none
    | .die d =>
      if a = DIE_RING_TAIL d then some (ringDoorbell d x p)
      else if a = DIE_CQ_HEAD d then some (cqHeadWrite d w p)
      else if a = DIE_ABORT d then some (commandAbort d x p)
      else if a = DIE_RING_CTRL d then some (ringCtrl d x p)
      else none
    | .beat => if a = BEAT_CTRL then some (beatCtrl w p) else none
    | .stg s =>
      if a = STG_FQ_PUSH s then some (fqPush 0 s (x % 128) p)
      else if a = STG_QFLUSH s then some (stgQflush s x p)
      else none
    | .hal s =>
      if a = HAL_CTRL s then some (halCtrl s w p)
      else if a = HAL_WIN_ISSUE_A s then some (winStage s false half v p)
      else if a = HAL_WIN_ISSUE_B s then some (if half = some 0 then winStage s true half v p else winPush s half v p)
      else if a = HAL_WIN_FLUSH s then some (if bitAt x 0 then winFlush s p else p)
      else none
    | .num => if a = NUM_WARM_FORCE then some (numWarmForce x p) else none
    | .lnk k => if a = LNK_CTRL k then some (lnkCtrl k w p) else none
    | .fab =>
      if a = FAB_DIE_CTRL then some (fabDieCtrl x p)
      else if FAB_SHROUD_CTRL 0 ≤ a then some (fabShroudCtrl ((a - FAB_SHROUD_CTRL 0) / 16) x p)
      else none
    | .sec =>
      if a = SEC_REPORT_ADDR then some (hostReport w p)
      else if a = SEC_ARB_CMD then some (arbAdvance x p)
      else if a = SEC_DBG_CMD then some (dbgCommand x p)
      else none
    | .snap =>
      if a = SNAP_CAD_EPOCH then some (cadEpoch p)
      else if a = SNAP_FAIL_NOTE then some (failNote x p)
      else none
    | .err d =>
      if a = ERR_LOG_HEAD d then some (errLogHead d w p)
      else if a = ERR_FATAL_CLEAR_REG d then some (if bitAt x 0 then errFatalClear d p else p)
      else if a = ERR_INJECT_REG d then some (errInject d x p)
      else none
    | _ => none

/-- What must be seen afresh after a plain write. -/
def Package.afterWrite (p : Package) (a : Nat) : Package :=
  if a = BEAT_DOMAIN then (if p.has BEAT_CTRL_ENABLE then p.refreshView else p)
  else if a = LNK_HB_CTRL then p.refreshHb
  else if a = LNK_HB_NODE then p.evtStatus
  else p

/-- A write of a listed register that is not RWT. -/
def Package.writeReg (p : Package) (req : Nat) (g : Page) (r : RegDef) (a : Nat) (half : Option Nat) (v : Nat) : Package :=
  let old := p.rd a
  let x := halfValue half v &&& r.wmask
  let w := maskWrite old (mergeWrite old half v) r.wmask
  match p.writeEffect req g a half v w x with
  | some p => p
  | none => match r.access with
    | .w1c => p.wr a (old &&& (2 ^ 64 - 1 - x))
    | .w1s => p.wr a (old ||| x)
    | .rw => (p.wr a (p.plainWrite a old w)).afterWrite a
    | .wo => p.wr a w
    | _ => p

/-- A register write from a requester: `len` bytes at an address. It answers the status of Table 12-8. -/
def regWrite (req a len v : Nat) (q : Part) (p : Package) : Nat × (Part × Package) :=
  if !(len = 4 || len = 8) || a % len ≠ 0 then (HS_BAD_REQUEST, q, p)
  else
    let r8 := a / 8 * 8
    let half := if len = 8 then none else some (a / 4 % 2)
    match pageAt r8 with
    | none => (HS_BAD_REQUEST, q, p)
    | some g =>
      if !p.pageFitted g || (g = .gate && !p.variant.guest) then (HS_OK, q, p)
      else if p.pageFenced g then (HS_REFUSED, q, p)
      else match g.regs.find? (fun r => r.lists (r8 % 0x1000)) with
        | none => (HS_OK, q, p)
        | some r =>
          if r.wmask = 0 then (HS_OK, q, p)
          else if r.access = .rwt then
            let x := stageWrite req g r r8 half v p
            (if x.1 then HS_REFUSED else HS_OK, q, x.2)
          else if r.wmask &&& halfMask half = 0 then (HS_OK, q, p)
          else
            let x := halfValue half v &&& r.wmask
            if r8 = PWR_RESET then (HS_OK, pwrReset x q p)
            else if r8 = SEC_CTRL then (HS_OK, secCtrl x q p)
            else if r8 = GATE_CTRL then (HS_OK, q, gateCtrl x q p)
            else (HS_OK, q, p.writeReg req g r r8 half v)

/-! ### Reads -/

/-- `BLOCK_ID` and `BLOCK_VERSION` of a page (Table 14-3): MARK 0x51; MAJOR 1, MINOR 0, GEN 1. -/
def Page.blockId (g : Page) : Nat := g.inst + 2 ^ 16 * g.code + 2 ^ 24 * 0x51
def blockVersion : Nat := 0x10100

/-- The block of a page has initialised: the package is READY, and the page's die runs. -/
def Package.pageReady (p : Package) (g : Page) : Bool :=
  p.has PKG_STATUS_READY && (match g.die? with
    | some d => p.dieActive d || p.get (FAB_DIE_STATE_STATE d) = 5
    | none => true)

/-- `STATUS` of a page (R342). -/
def Package.statusOf (p : Package) (g : Page) : Nat :=
  if !p.pageReady g then 0
  else match g with
    | .stg s => 1 + 2 * b2n (decide (p.stgState s = STG_DRAINING)) + 4 * b2n (decide (p.stgState s = STG_DISABLED))
    | .die d => 1 + 2 * b2n (decide (p.ringState d = RING_DRAINING)) + 4 * b2n (decide (p.ringState d = RING_DISABLED))
    | _ => 1

/-- An error log entry's 32 bytes (Table 15-5). -/
def ErrEntry.bytes (e : ErrEntry) : List Byte :=
  leBytes 8 e.time ++ leBytes 2 e.seq ++ leBytes 1 (e.cls % 4 + 4 * b2n e.compound + 8 * b2n e.lossBefore + 16 * b2n e.replayed) ++ leBytes 1 e.block
    ++ leBytes 2 e.inst ++ leBytes 2 e.cause ++ leBytes 2 e.count ++ leBytes 2 (min 65535 ((dsub e.last e.time).toNat / 25600)) ++ leBytes 8 e.arg0
    ++ leBytes 4 e.arg1

/-- The bytes of a slot of a die's error log; a slot without an entry reads as zeros (R396). -/
def Package.errSlot (p : Package) (d i : Nat) : List Byte := match mapFind (p.errLog d).slots i with
  | some e => e.bytes
  | none => List.replicate 32 0

/-- The event records that wait cannot leave: no node, or no way to it (R369). -/
def Package.evtReach (p : Package) : Bool :=
  let n := p.get LNK_HB_NODE_NODE
  p.has LNK_HB_NODE_VALID && (if n = p.node then (p.linkUp 0 && p.hostMode 0) || (p.linkUp 1 && p.hostMode 1)
    else (bitsSet Config.links (p.route n)).any p.linkTakes)

/-- HOLDOVER_NS of `BEAT_STATUS` (R28): the estimate while in HOLDOVER. -/
def Package.holdoverNs (p : Package) : Nat :=
  if p.beatState = BEAT_HOLDOVER then min 0xFFFF (Config.driftNs (p.clock - p.beat.holdoverSince)) else 0

/-- The value that a listed register shows. -/
def Package.shown (p : Package) (g : Page) (r : RegDef) (a : Nat) : Nat :=
  let o := a % 0x1000
  if o = 0x00 then g.blockId
  else if o = 0x08 then blockVersion
  else if 0x10 ≤ o && o < 0x30 then p.offer ((o - 0x10) / 8)
  else if 0x30 ≤ o && o < 0x50 then p.rd (FEATURE_ACCEPT .pkg ((o - 0x30) / 8))
  else if o = 0x58 then p.statusOf g
  else if o = 0x70 || r.access = .wo then 0
  else match g with
    | .pkg =>
      if a = PKG_SERIAL then p.serial
      else if a = PKG_VARIANT then p.variantWord
      else if a = PKG_FITTED then p.fittedWord
      else if a = PKG_STATUS then putBits (p.rd a) 1 1 (p.get FAB_STATUS_DEGRADED)
      else if a = PKG_FLOOR 0 then p.variant.floor
      else if a = PKG_MCTP_STATUS then (if p.hubRuns then putBits (p.rd a) 32 32 Config.iana.toNat else p.rd a)
      else if a = PKG_EVT_STATUS then putBits (p.rd a) 16 1 (b2n (decide (p.evq.recs ≠ []) && !p.evtReach))
      else p.rd a
    | .beat =>
      if a = BEAT_DTIME then p.dtime
      else if a = BEAT_STATUS then putBits (p.rd a) 16 16 p.holdoverNs
      else p.rd a
    | .moe => if a = MOE_STATUS then p.moeBusy else p.rd a
    | .err d =>
      if 0x120 ≤ o && o < 0x140 then fieldAt (p.errSlot d (p.rd (ERR_LOG_INDEX d))) (o - 0x120) 8 else p.rd a
    | _ => p.rd a

/-- The 64-bit value of a register as a read sees it; an unfitted page and an unlisted offset read zero (R3, R340). -/
def Package.readReg (p : Package) (a : Nat) : Nat :=
  match pageAt a with
  | none => 0
  | some g =>
    if !p.pageFitted g then 0
    else match g.regs.find? (fun r => r.lists (a % 0x1000)) with
      | none => 0
      | some r => p.shown g r a

/-- A register read of `len` bytes: a status, and the bytes read. -/
def Package.regRead (p : Package) (a len : Nat) : Nat × List Byte :=
  if !(len = 4 || len = 8) || a % len ≠ 0 then (HS_BAD_REQUEST, [])
  else match pageAt a with
    | none => (HS_BAD_REQUEST, [])
    | some g =>
      if p.pageFitted g && p.pageFenced g then (HS_REFUSED, [])
      else (HS_OK, leBytes len (p.readReg (a / 8 * 8) / 2 ^ (8 * (a % 8))))

/-! ### The commands -/

/-- A register write that arrives from a requester. -/
def registerWrite (req a len v : Nat) (q : Part) (p : Package) : Part × Package := (regWrite req a len v q p).2

/-- A write of `IRQ_FORCE` on the page at an address. -/
def irqForceWrite (page v : Nat) (p : Package) : Package := match pageAt page with
  | some g => if !p.pageFitted g || p.pageFenced g || (g = .gate && !p.variant.guest) then p else p.irqForce g v
  | none => p

def execRegisterWrite (requester addr len value : Nat) (s : State) := onBoth (registerWrite requester addr len value) s
def execIrqForce (page value : Nat) (s : State) := onPkg (irqForceWrite page value) s

end Sys2Proof.Machine
end

