-- ==== Sys2Proof/Machine/Host.lean ====
section
/-! DEFINITION. The host bridge (R308 to R311): host requests and their responses, the records that go out as EVENT messages (R367, R369),
and the telemetry ring (R373). -/

namespace Sys2Proof.Machine

open Sys2Proof

/-- Operations of a host request (Table 12-8). -/
def OP_REG_RD : Nat := 0
def OP_REG_WR : Nat := 1
def OP_MEM_RD : Nat := 2
def OP_MEM_WR : Nat := 3

/-- Bit 15 of DEST: the request goes by PATH. -/
def DEST_PATH : Nat := 2 ^ 15

/-- A response to a request. -/
def HostReq.answer (r : HostReq) (status : Nat) (data : List Byte) : HostRsp :=
  { tag := r.tag, status := status, data := if status = HS_OK then data else [], back := r.back }

/-! ### What a request does at its target -/

/-- A memory request's LENGTH and place (Table 12-8). -/
def HostReq.memForm (r : HostReq) : Bool :=
  r.len % 4 = 0 && decide (4 ≤ r.len) && decide (r.len ≤ 4096) && decide (r.addr % 4096 + r.len ≤ 4096) && decide (r.addr < 2 ^ 48)

/-- A read of memory: status and bytes. -/
def Package.memRead (p : Package) (r : HostReq) (found : List (Nat × LineCheck)) : (Nat × List Byte) × Package :=
  if !r.memForm then ((HS_BAD_REQUEST, []), p)
  else
    let p := if p.rangeOk r.addr r.len then p.readFinds found r.addr r.len MEM_BY_LINK else p
    match p.load r.addr r.len with
    | .refused => ((HS_REFUSED, []), p)
    | .poison => ((HS_POISON, []), p.countReadBy 8 r.addr r.len)
    | .ok b => ((HS_OK, b), p.countReadBy 8 r.addr r.len)

/-- A write of memory. -/
def Package.memWrite (p : Package) (r : HostReq) : Nat × Package :=
  if !r.memForm || r.data.length ≠ r.len then (HS_BAD_REQUEST, p)
  else if !p.rangeOk r.addr r.len then (HS_REFUSED, p)
  else (HS_OK, p.storeBy 8 r.addr r.data)

/-- Perform a request from a requester. DEDUCED: LENGTH is the access's size, and a WIDTH32 bit that disagrees with it makes the request
one that is not performed, as does data of another length (log entry 40). -/
def serveRequest (op requester : Nat) (r : HostReq) (found : List (Nat × LineCheck)) (q : Part) (p : Package) : HostRsp × (Part × Package) :=
  if (op = OP_REG_RD || op = OP_REG_WR) && (r.width32 ≠ decide (r.len = 4)) then (r.answer HS_BAD_REQUEST [], q, p)
  else if op = OP_REG_RD then
    let x := p.regRead r.addr r.len
    (r.answer x.1 x.2, q, p)
  else if op = OP_REG_WR then
    if r.data.length ≠ r.len then (r.answer HS_BAD_REQUEST [], q, p)
    else
      let x := regWrite requester r.addr r.len (leNat r.data) q p
      (r.answer x.1 [], x.2)
  else if op = OP_MEM_RD then
    let x := p.memRead r found
    (r.answer x.1.1 x.1.2, q, x.2)
  else
    let x := p.memWrite r
    (r.answer x.1 [], q, x.2)

/-! ### The bridge (R307 to R310) -/

/-- The data bytes that a request's message carries: those of a write. -/
def reqBytes (op : Nat) (r : HostReq) : Nat := if op = OP_REG_WR || op = OP_MEM_WR then r.data.length else 0

/-- Hand a response to the host, on the link that its TAG picks. -/
def Package.toHost (p : Package) (dest : Nat) (rsp : HostRsp) : Package := match p.hostLink rsp.tag with
  | some k => p.enqueue k (p.message dest CLS_HOST_RSP rsp.data.length (.hostRsp { rsp with back := [] }))
  | none => p

/-- `LNK_HB_STATUS.OUTSTANDING`. -/
def Package.setBridge (p : Package) (l : List Outstanding) : Package := ({ p with bridge := l }).put LNK_HB_STATUS_OUTSTANDING l.length

/-- Put a message with PATH on a link. -/
def Package.sendPath (p : Package) (k cls len : Nat) (body : MsgBody) : Package :=
  if p.linkTakes k then p.enqueue k (p.message DEST_PATH cls len body) else p.noRoute DEST_PATH

/-- The answer's way from the target: over the recorded links in reverse, or to the sender's node. -/
def Package.answerTo (p : Package) (byPath : Bool) (src : Nat) (rsp : HostRsp) : Package :=
  match byPath, rsp.back with
  | true, k :: rest => p.sendPath k CLS_HOST_RSP rsp.data.length (.hostRsp { rsp with back := rest })
  | _, _ => p.sendRoute src CLS_HOST_RSP rsp.data.length (.hostRsp rsp)

/-- Serve a request here and answer it. A request that took the package out of READY, a reset, leaves nobody to answer (DEDUCED, log entry
41). -/
def serveHere (op src : Nat) (byPath fromHost : Bool) (r : HostReq) (found : List (Nat × LineCheck)) (q : Part) (p : Package) : Part × Package :=
  let x := serveRequest op src r found q (p.bump64 LNK_HOST_REQS 1)
  let p := x.2.2
  if !p.has PKG_STATUS_READY then (x.2.1, p)
  else (x.2.1, if fromHost then p.toHost src x.1 else p.answerTo byPath src x.1)

/-- The bridge takes a request from its host for another package (R308 to R310). -/
def Package.bridgeForward (p : Package) (op k src : Nat) (dest : Option Nat) (r : HostReq) : Package :=
  if !p.has LNK_HB_CTRL_ACTIVE then
    -- a STANDBY bridge does not serve it: the spec names no STATUS; a free one that is not OK (log entry 42)
    let d := p.draw
    d.2.toHost src (r.answer (1 + d.1.toNat % 7) [])
  else if Config.bridgeOutstanding ≤ p.bridge.length then p.toHost src (r.answer HS_BUSY [])
  else
    let sent (p : Package) (t : Nat) := (p.setBridge (p.bridge ++ [{ tag := r.tag, dest := t, issued := p.clock }])).bump64 LNK_HOST_REQS 1
    match dest with
    | some n =>
      if !p.has LNK_NODE_VALID || n / 16 ≠ p.node / 16 then p.toHost src (r.answer HS_OUT_OF_GROUP [])
      else match p.pickRoute n CLS_HOST_REQ with
        | some j => sent (p.enqueue j (p.message n CLS_HOST_REQ (reqBytes op r) (.hostReq { r with op := op }))) n
        | none => (p.noRoute n).toHost src (r.answer HS_NO_ROUTE [])
    | none =>
      let j := listAt 0 r.path 0
      let m : HostReq := { r with op := op, path := r.path.drop 1, back := k :: r.back }
      if p.linkTakes j then sent (p.enqueue j (p.message DEST_PATH CLS_HOST_REQ (reqBytes op r) (.hostReq m))) DEST_PATH
      else (p.noRoute DEST_PATH).toHost src (r.answer HS_NO_ROUTE [])

/-- A host request of operation `op` arrives on link k from node `src`: by node, or by PATH where `dest` is none. -/
def hostRequest (op dt k src : Nat) (dest : Option Nat) (r : HostReq) (found : List (Nat × LineCheck)) (q : Part) (p : Package) : Part × Package :=
  let p := p.pass dt
  if !p.linkUp k then (q, p)
  else
    let here := match dest with
      | some n => decide (n = p.node) && p.has LNK_NODE_VALID
      | none => r.path.isEmpty
    if p.hostMode k then
      if !p.has PKG_STATUS_READY then (q, p.toHost src (r.answer HS_BUSY []))
      else if here then serveHere op src false true r found q p
      else (q, p.bridgeForward op k src dest r)
    else if here then
      let r : HostReq := if dest.isNone then { r with back := k :: r.back } else r
      if !p.has PKG_STATUS_READY then (q, p.answerTo dest.isNone src (r.answer HS_BUSY []))
      else serveHere op src dest.isNone false r found q p
    else match dest with
      | some _ => (q, p)
      | none =>
        let j := listAt 0 r.path 0
        let m : HostReq := { r with op := op, path := r.path.drop 1, back := k :: r.back }
        (q, ((p.bump64 LNK_HOST_REQS 1).bump64 LNK_FWD_BYTES (32 + reqBytes op r)).sendPath j CLS_HOST_REQ (reqBytes op r) (.hostReq m))

/-- A response arrives (R309, R310): at a package on its path it goes on over the next recorded link; at the bridge it is matched by TAG and
delivered, or discarded as late. -/
def hostResponse (dt : Nat) (rsp : HostRsp) (p : Package) : Package :=
  let p := p.pass dt
  match rsp.back with
  | k :: rest =>
    if p.hostMode k then
      if p.bridge.any (fun o => o.tag = rsp.tag) then (p.setBridge (p.bridge.eraseP (fun o => o.tag = rsp.tag))).toHost 0xFFF rsp else p
    else (p.bump64 LNK_FWD_BYTES (32 + rsp.data.length)).sendPath k CLS_HOST_RSP rsp.data.length (.hostRsp { rsp with back := rest })
  | [] =>
    if p.bridge.any (fun o => o.tag = rsp.tag) then (p.setBridge (p.bridge.eraseP (fun o => o.tag = rsp.tag))).toHost 0xFFF rsp else p

/-- Requests without a response `TIMEOUT_US` after their issue are answered TIMEOUT. -/
def hostTimeout (dt : Nat) (p : Package) : Package :=
  let p := p.pass dt
  let late := p.bridge.filter (fun o => decide (o.issued + p.get LNK_HB_CTRL_TIMEOUT_US * Config.usUnits ≤ p.clock))
  let p := p.setBridge (p.bridge.filter (fun o => !late.contains o))
  p.each late (fun p o => (p.toHost 0xFFF { tag := o.tag, status := HS_TIMEOUT, data := [], back := [] }).bump64 LNK_HOST_TIMEOUTS 1)

/-- `LNK_HB_CTRL.ACTIVE` (R308). -/
def bridgeActivate (active : Bool) (p : Package) : Package := (p.put LNK_HB_CTRL_ACTIVE (b2n active)).refreshHb

/-! ### Event records (R307, R367, R369) -/

/-- Once a record has left and space is back, the losses since the last report of them are raised. -/
def Package.raiseLost (p : Package) : Package :=
  if 0 < p.evq.lostSince && p.evq.recs.length < Config.eventQueue then
    let n := p.evq.lostSince
    ({ p with evq := { p.evq with lostSince := 0 } }).raise .pkg EV_PKG_EVT_LOST n (arg1Of 0 0)
  else p

/-- The oldest record goes out to `LNK_HB_NODE`: on the lowest link of that node's route, or to this bridge's own host adapter. -/
def eventRecordSend (dt : Nat) (p : Package) : Package :=
  let p := p.pass dt
  match p.evq.recs with
  | [] => p
  | r :: rest =>
    if !p.evtReach then p
    else
      let r : EventRec := { r with lossBefore := p.evq.lossPending }
      let p : Package := { p with evq := { p.evq with recs := rest, lossPending := false } }
      let n := p.get LNK_HB_NODE_NODE
      let m := p.message n CLS_EVENT 32 (.event r)
      let p := if n = p.node then p.eventToHost m else p.sendRoute n CLS_EVENT 32 (.event r)
      p.raiseLost.evtStatus

/-! ### TELEMETRY_RECORD (R373) -/

/-- Clusters that count at a tick: not retired, on dies that are ACTIVE. -/
def Package.activeClusters (p : Package) : Nat :=
  ((p.dies.filter p.dieActive).map (fun d => ((List.range 72).filter (fun i => decide (p.get (CLU_STATUS_STATE (72 * d + i)) ≠ 2))).length)).foldl (· + ·) 0

/-- The hottest of a list of readings. -/
def hottest (l : List Nat) : Nat := l.foldl max 0

/-- A record (Table 14-15). -/
def Package.telRecord (p : Package) : List Byte :=
  let t := p.dies.foldl (fun t d => addTotals t (p.dieTotals d)) (addTotals p.telBase [])
  let stackTemps := (List.range (4 * p.variant.dies)).map (fun k => max (p.get (MEM_STATUS_TEMP k)) (mapGet 0 p.pwr.stackTemp k))
  leBytes 8 p.beatNo ++ t.flatMap (leBytes 8) ++ leBytes 8 (p.rd BEAT_OVR_COUNT) ++ leBytes 8 (p.rd CRU_STEPS_ATTEMPTED)
    ++ leBytes 8 (p.rd CRU_STEPS_COMMITTED) ++ leBytes 8 (p.rd PWR_ENERGY) ++ leBytes 1 (hottest (p.dies.map (mapGet 0 p.pwr.junction)))
    ++ leBytes 1 (hottest stackTemps) ++ leBytes 2 0 ++ leBytes 4 p.activeClusters ++ List.replicate 32 0

/-- The record of the tick's beat is due and has not been written. -/
def Package.telDue (p : Package) : Bool :=
  p.ticking && p.get PKG_TEL_CFG_PERIOD_BEATS ≠ 0 && p.beatNo % p.get PKG_TEL_CFG_PERIOD_BEATS = 0
    && (p.mctp.telemetry.isEmpty || fieldAt p.mctp.telemetry 0 8 ≠ p.beatNo)

def telemetryRecord (dt : Nat) (p : Package) : Package :=
  let p := p.pass dt
  if !p.telDue then p
  else
    let b := p.telRecord
    let at' := bitsOf (p.rd PKG_TEL_BASE) 12 36 * 4096 + 256 * (p.rd PKG_TEL_SEQ % 2 ^ p.get PKG_TEL_CFG_DEPTH_LOG2)
    let p : Package := { p with mctp := { p.mctp with telemetry := b } }
    (p.tryStore at' b).bump64 PKG_TEL_SEQ 1

/-! ### The commands' meanings -/

def execRegRd (dt link src : Nat) (dest : Option Nat) (r : HostReq) (s : State) := onBoth (hostRequest OP_REG_RD dt link src dest r []) s
def execRegWr (dt link src : Nat) (dest : Option Nat) (r : HostReq) (s : State) := onBoth (hostRequest OP_REG_WR dt link src dest r []) s
def execMemRd (dt link src : Nat) (dest : Option Nat) (r : HostReq) (found : List (Nat × LineCheck)) (s : State) :=
  onBoth (hostRequest OP_MEM_RD dt link src dest r found) s
def execMemWr (dt link src : Nat) (dest : Option Nat) (r : HostReq) (s : State) := onBoth (hostRequest OP_MEM_WR dt link src dest r []) s
def execHostResponseReceive (dt : Nat) (rsp : HostRsp) (s : State) := onPkg (hostResponse dt rsp) s
def execHostRequestTimeout (dt : Nat) (s : State) := onPkg (hostTimeout dt) s
def execBridgeActivate (active : Bool) (s : State) := onPkg (bridgeActivate active) s
def execEventRecordSend (dt : Nat) (s : State) := onPkg (eventRecordSend dt) s
def execTelemetryRecord (dt : Nat) (s : State) := onPkg (telemetryRecord dt) s

end Sys2Proof.Machine
end

