-- ==== Sys2Proof/Machine/Gate.lean ====
section
/-! DEFINITION. What the Gate does with a guest's requests (R331, R333, R334). The guest has no STATUS but those of Table 12-8, and no request
of its own reaches the package in another way. -/

namespace Sys2Proof.Machine

open Sys2Proof

def OP_EVENT : Nat := 4

/-- The guest die as a requester and as SRC (R331, R349). -/
def GUEST_NODE : Nat := 0xFFE

/-- Reasons of a refusal (Table 13-10). -/
def GR_CLASS : Nat := 0
def GR_WINDOW : Nat := 1
def GR_PAGE : Nat := 2
def GR_PROTECTED : Nat := 3

/-- Is the operation one on memory, one on a register, one that writes. -/
def opMem (op : Nat) : Bool := op = OP_MEM_RD || op = OP_MEM_WR
def opReg (op : Nat) : Bool := op = OP_REG_RD || op = OP_REG_WR
def opWrites (op : Nat) : Bool := op = OP_REG_WR || op = OP_MEM_WR

/-- The request lies wholly within one window that grants its direction. -/
def inWindow (b : List Byte) (op a len : Nat) : Bool :=
  (policyWindows b).any (fun w => decide (w.1 ≤ a) && decide (a + len ≤ w.1 + w.2.1) && (if opWrites op then w.2.2.2 else w.2.2.1))

/-- The register lies within an allowed page range. -/
def inPages (b : List Byte) (a : Nat) : Bool := (policyPages b).any (fun r => decide (r.1 ≤ a) && decide (a < r.1 + 4096 * r.2))

/-- Pages that no guest reaches, whatever its policy says. -/
def guestBarred (a : Nat) : Bool := match pageAt a with
  | some .sec => true
  | some .bist => true
  | some .gate => true
  | some .fab => true
  | some .pwr => true
  | _ => false

/-- The cases of R333 that refuse a request. -/
def refusalReasons (b : List Byte) (op : Nat) (r : HostReq) : List Nat :=
  (if bitAt (fieldAt b 16 2) op then [] else [GR_CLASS]) ++ (if opMem op && !inWindow b op r.addr r.len then [GR_WINDOW] else [])
    ++ (if opReg op && !inPages b r.addr then [GR_PAGE] else []) ++ (if opReg op && guestBarred r.addr then [GR_PROTECTED] else [])

/-- The reason that is shown; where several hold, the spec does not say which (free, log entry 43). -/
def Package.oneReason (p : Package) (l : List Nat) : Nat × Package :=
  match l with
  | [x] => (x, p)
  | _ => (listAt 0 l (p.draw.1.toNat % l.length), p.draw.2)

/-- A response on its way to the guest. -/
def Package.toGuest (p : Package) (rsp : HostRsp) : Package := p.modGate (fun g => { g with out := g.out ++ [rsp] })

/-- A request is refused (R333): it is counted and shown, raised at most once per millisecond, and refusals within one millisecond that
reach REFUSE_LIMIT close the site. DESIGN CHOICE: the millisecond is counted from its first refusal (log entry 44). -/
def Package.refuseGuest (p : Package) (op : Nat) (r : HostReq) (reasons : List Nat) : Package :=
  let x := p.oneReason reasons
  let p := x.2
  let last := r.addr % 2 ^ 48 + 2 ^ 48 * op + 2 ^ 52 * x.1
  let p := ((p.bump64 GATE_REFUSED_COUNT 1).wr GATE_REFUSED_LAST last).toGuest (r.answer HS_REFUSED [])
  let quiet := match p.gate.raisedAt with
    | some t => decide (p.clock < t + Config.msUnits)
    | none => false
  let p := if quiet then p else (p.modGate (fun g => { g with raisedAt := some p.clock })).raise .gate EV_GATE_REFUSED last (arg1Of op x.1)
  let fresh := p.gate.refusals = 0 || decide (p.gate.refusedFrom + Config.msUnits ≤ p.clock)
  let p := p.modGate (fun g => if fresh then { g with refusedFrom := p.clock, refusals := 1 } else { g with refusals := g.refusals + 1 })
  let limit := fieldAt p.gate.policy 34 2
  if limit ≠ 0 && limit ≤ p.gate.refusals then p.closeSite GC_REFUSALS else p

/-- The bytes that a request reads and writes, as the buckets count them. -/
def guestCost (op : Nat) (r : HostReq) : Nat × Nat :=
  if op = OP_REG_RD || op = OP_MEM_RD then (r.len * 256, 0) else if opWrites op then (0, r.len * 256) else (0, 0)

/-- A request that its checks passed and that the buckets cover: they pay, and it is performed and answered. -/
def Package.admitGuest (p : Package) (op : Nat) (r : HostReq) (found : List (Nat × LineCheck)) (q : Part) : Part × Package :=
  let c := guestCost op r
  let p := p.modGate (fun g => { g with tokRd := g.tokRd - c.1, tokWr := g.tokWr - c.2, tokReq := g.tokReq - 256000 })
  let p := p.bump64 GATE_REQS 1
  if op = OP_EVENT then
    let n := p.get LNK_HB_NODE_NODE
    if 64 < r.data.length then (q, p.toGuest (r.answer HS_BAD_REQUEST []))
    else if !p.evtReach then (q, p.toGuest (r.answer HS_NO_ROUTE []))
    else
      let m : Msg := { p.message n CLS_EVENT r.data.length (.fields 4 [] r.data) with src := GUEST_NODE }
      let p := if n = p.node then p.eventToHost m else match p.pickRoute n CLS_EVENT with
        | some k => p.enqueue k m
        | none => p.noRoute n
      (q, p.toGuest (r.answer HS_OK []))
  else
    let x := serveRequest op GUEST_NODE r found q p
    let ok := x.1.status = HS_OK
    let p := if ok && (op = OP_REG_RD || op = OP_MEM_RD) then x.2.2.bump64 GATE_BYTES_RD r.len
      else if ok && opWrites op then x.2.2.bump64 GATE_BYTES_WR r.len
      else x.2.2
    -- a write that closes the site, or resets the package, leaves no guest to answer
    (x.2.1, if p.site = SITE_OPEN then p.toGuest x.1 else p)

/-- Do the buckets cover a request. -/
def Package.covers (p : Package) (op : Nat) (r : HostReq) : Bool :=
  let c := guestCost op r
  decide (c.1 ≤ p.gate.tokRd) && decide (c.2 ≤ p.gate.tokWr) && decide (256000 ≤ p.gate.tokReq)

/-- A request of a guest to a DEST. -/
def guestRequest (op dt dest : Nat) (r : HostReq) (found : List (Nat × LineCheck)) (q : Part) (p : Package) : Part × Package :=
  let p := p.pass dt
  if p.site ≠ SITE_OPEN then (q, p)
  else if dest ≠ 0xFFF && !(p.has LNK_NODE_VALID && dest = p.node) then
    -- the Gate serves no other DEST; the spec names no STATUS for it: a free one that is not OK (log entry 42)
    let d := p.draw
    (q, d.2.toGuest (r.answer (1 + d.1.toNat % 7) []))
  else
    let reasons := refusalReasons p.gate.policy op r
    if !reasons.isEmpty then (q, p.refuseGuest op r reasons)
    else
      let p := p.refillGate
      if p.gate.held.isEmpty && p.covers op r then p.admitGuest op r found q
      else (q, p.modGate (fun g => { g with held := g.held ++ [{ req := { r with op := op }, since := p.clock }] }))

/-- The request held longest proceeds once the buckets cover it (R334). -/
def gateHeldRelease (dt : Nat) (found : List (Nat × LineCheck)) (q : Part) (p : Package) : Part × Package :=
  let p := (p.pass dt).refillGate
  match p.gate.held with
  | [] => (q, p)
  | h :: rest =>
    if p.site = SITE_OPEN && p.covers h.req.op h.req then
      ((p.modGate (fun g => { g with held := rest })).bump64 GATE_HELD_NS ((p.clock - h.since) / Config.nsUnits)).admitGuest h.req.op h.req found q
    else (q, p)

/-! ### The commands' meanings -/

def execGuestRegRd (dt dest : Nat) (r : HostReq) (s : State) := onBoth (guestRequest OP_REG_RD dt dest r []) s
def execGuestRegWr (dt dest : Nat) (r : HostReq) (s : State) := onBoth (guestRequest OP_REG_WR dt dest r []) s
def execGuestMemRd (dt dest : Nat) (r : HostReq) (found : List (Nat × LineCheck)) (s : State) := onBoth (guestRequest OP_MEM_RD dt dest r found) s
def execGuestMemWr (dt dest : Nat) (r : HostReq) (s : State) := onBoth (guestRequest OP_MEM_WR dt dest r []) s
def execGuestEvent (dt dest : Nat) (r : HostReq) (s : State) := onBoth (guestRequest OP_EVENT dt dest r []) s
def execGateHeldRelease (dt : Nat) (found : List (Nat × LineCheck)) (s : State) := onBoth (gateHeldRelease dt found) s

end Sys2Proof.Machine
end

