-- ==== Sys2Proof/Machine/Power.lean ====
section
/-! DEFINITION. The package power manager (R16 to R18, R125, R334, R483) and the temperature limits that remove power (R431, R485). -/

namespace Sys2Proof.Machine

open Sys2Proof

/-- A die whose rails are on: fitted, and not fenced. -/
def Package.dieOn (p : Package) (d : Nat) : Bool := p.dieFitted d && !p.dieFenced d

/-! ### Duty caps (R125, R483) -/

/-- Put the cap of a die into force: 0 for temperature, or the cap of the die's allotment. -/
def Package.setCaps (p : Package) (d : Nat) : Package :=
  let cap := if p.pwr.capped.contains d then 0 else mapGet 32 p.pwr.caps d
  p.each (List.range 72) (fun p i => let c := 72 * d + i
                                     if p.dutyCap c = cap then p else p.put (XE_DUTY_CAP_CAP c) cap)

/-! ### POWER_MANAGER_INTERVAL (R16 to R18, R334) -/

/-- Watts of the hub die, the optics and the guest site (Table 1-5). -/
def hubWatts : Nat := 160
def opticsWatts : Nat := 240
def Variant.guestWatts (v : Variant) : Nat := if v.guest then 90 else 0

/-- What a die could take beyond its share, up to 360 W. -/
def Variant.dieRoom (v : Variant) : Nat := 360 - v.dieWatts

/-- Lend a pool to the dies of a list, each up to its room. What the spec leaves open, which die gets how much where the pool does not
fill every room, is free (log entry 45). -/
def Package.lend (room : Nat) : List Nat → Nat → Package → List (Nat × Nat) × Package
  | [], _, p => ([], p)
  | d :: ds, pool, p =>
    let hi := min room pool
    let lo := pool - room * ds.length
    if hi ≤ lo then
      let r := Package.lend room ds (pool - hi) p
      ((d, hi) :: r.1, r.2)
    else
      let x := p.draw
      let n := lo + x.1.toNat % (hi - lo + 1)
      let r := Package.lend room ds (pool - n) x.2
      ((d, n) :: r.1, r.2)

/-- Hold a die at its allotment: `want` is what it would draw at a duty of 32 of 32. Where that is more than the allotment the cap falls
below 32; which cap the power manager finds is free (log entry 46). -/
def Package.holdAllotment (p : Package) (d want : Nat) : Package :=
  let hungry := decide (p.get (PWR_ALLOT_OF d) < want)
  let x := p.draw
  let p := if hungry then x.2 else p
  let cap := if hungry then x.1.toNat % 32 else 32
  let p := p.modPwr (fun w => { w with caps := mapSet 32 w.caps d cap })
  let p := { p with powerDies := if hungry then insertRising d p.powerDies else p.powerDies.filter (· ≠ d) }
  p.setCaps d

/-- A sample of the guest rails; ten in a row above POWER_W close the site (R334). -/
def Package.guestSample (p : Package) (watts : Nat) : Package :=
  if p.site ≠ SITE_TRAINING && p.site ≠ SITE_OPEN then p
  else
    let p := p.wr GATE_POWER (watts % 256)
    let p := p.modGate (fun g => { g with hotSamples := if fieldAt g.policy 32 1 < watts then g.hotSamples + 1 else 0 })
    if 10 ≤ p.gate.hotSamples then (p.raise .gate EV_GATE_POWER p.beatNo (arg1Of watts 0)).closeSite GC_POWER else p

/-- What the package power manager measured over an interval: input power, voltage and current; the draws of the hub die, the optics and
the guest rails; what each compute die would draw. -/
def powerInterval (dt watts millivolts deciamps hub optics guest : Nat) (wants : List (Nat × Nat)) (p : Package) : Package :=
  let p := p.pass dt
  if p.pwr.goodAt.isNone then p
  else
    let p := ((p.put PWR_INPUT_WATTS watts).put PWR_INPUT_MILLIVOLTS millivolts).put PWR_INPUT_DECIAMPS deciamps
    let e := p.pwr.energyRest + watts
    let p := (p.bump64 PWR_ENERGY (e / 10)).modPwr (fun w => { w with energyRest := e % 10 })
    let p := p.bump64 PWR_THROTTLE_NS (100000 * p.powerDies.length)
    let on := p.dies.filter p.dieOn
    let pool := (hubWatts - hub) + (opticsWatts - optics) + (p.variant.guestWatts - guest)
    let x := Package.lend p.variant.dieRoom on (min pool (p.variant.dieRoom * on.length)) p
    let p := x.2.each x.1 (fun p e => p.put (PWR_ALLOT_OF e.1) (p.variant.dieWatts + e.2))
    let p := p.each (wants.filter (fun e => on.contains e.1)) (fun p e => p.holdAllotment e.1 e.2)
    p.guestSample guest

/-! ### THERMAL_INTERVAL (R431, R483) -/

/-- Change a die's array clock: the cores' idle cycles up to now count at the old clock. -/
def Package.setClock (p : Package) (d mhz : Nat) : Package :=
  if p.mhz d = mhz then p
  else
    let p := p.each ((p.cores.map (·.1)).filter (fun i => decide (i / 32 / 72 = d))) (fun p i => p.closeGap (i / 32) (i % 32))
    { p with aclk := mapSet 1500 p.aclk d mhz }

/-- The clock that a reading leads to. -/
def nextClock (mhz t : Nat) : Nat := if 95 ≤ t then max 750 (mhz - 50) else if t < 92 then min 1500 (mhz + 50) else mhz

/-- A field BIST run of a die: it fails when its clock or rail leaves its limits; its wave pauses above HEADROOM_C (R431). -/
def Package.bistHeat (p : Package) (d t : Nat) (railOk : Bool) : Package := match mapFind p.bists d with
  | none => p
  | some b =>
    if b.startAt.isNone then p
    else if !railOk || !p.clockFit d then p.bistFail d b 2
    else match b.pausedAt with
      | none =>
        if p.get BIST_CFG_HEADROOM_C < t then
          (({ p with bists := mapPut p.bists d { b with pausedAt := some p.clock } }).setBit BIST_STATUS (8 + d) true).raise .bist EV_BIST_WAVE_PAUSED
            p.beatNo (arg1Of d 0)
        else p
      | some since =>
        if t ≤ p.get BIST_CFG_HEADROOM_C then
          (({ p with bists := mapPut p.bists d { b with pausedAt := none } }).setBit BIST_STATUS (8 + d) false).bump64 BIST_PAUSE_NS
            ((p.clock - since) / Config.nsUnits)
        else p

/-- The highest reading of a die's junction sensors over the interval. -/
def Package.dieThermal (p : Package) (d t : Nat) (railOk : Bool) : Package :=
  if !p.dieOn d then p
  else
    let p := p.modPwr (fun w => { w with junction := mapSet 0 w.junction d t })
    let p := p.setClock d (nextClock (p.mhz d) t)
    let capped := if 105 ≤ t then insertRising d p.pwr.capped else if t < 100 then p.pwr.capped.filter (· ≠ d) else p.pwr.capped
    let p := (p.modPwr (fun w => { w with capped := capped })).setCaps d
    let slow := decide (p.mhz d < 1500) || p.pwr.capped.contains d
    let p := { p with thermalDies := if slow then insertRising d p.thermalDies else p.thermalDies.filter (· ≠ d) }
    p.bistHeat d t railOk

/-- `readings` gives each die's highest junction reading, `badRails` the dies whose core rail is outside the window of R431. -/
def thermalInterval (dt : Nat) (readings : List (Nat × Nat)) (badRails : List Nat) (p : Package) : Package :=
  (p.pass dt).each readings (fun p e => p.dieThermal e.1 e.2 (!badRails.contains e.1))

/-! ### Trips (R485) -/

/-- A compute die at 110 °C loses its rails, the hub die at 105 °C stops the package. Die 8 is the hub die. -/
def thermalTrip (dt d : Nat) (p : Package) : Package :=
  if d = 8 then
    let p := p.pass dt
    if p.pwr.goodAt.isSome then p.reportFatal .pwr 8 (Config.openCode 38) p.beatNo (arg1Of 8 0) else p
  else
    let p := p.pass dt
    if p.pwr.goodAt.isNone || !p.dieOn d then p
    else (p.report .pwr 8 1 (Config.openCode 39) p.beatNo (arg1Of d 0) false false) |> railFault 0 (.die d 0)

/-- A stack above 95 °C for 1 ms loses its rails, and its die is fenced. -/
def stackOvertemp (dt k temp : Nat) (p : Package) : Package :=
  let p := p.pass dt
  if p.pwr.goodAt.isNone || !p.stackFitted k || p.dieFenced (k / 4) then p
  else (p.modPwr (fun w => { w with stackTemp := mapSet 0 w.stackTemp k temp })) |> railFault 0 (.stack k)

/-! ### The commands' meanings -/

def execPowerManagerInterval (dt watts millivolts deciamps hub optics guest : Nat) (wants : List (Nat × Nat)) (s : State) :=
  onPkg (powerInterval dt watts millivolts deciamps hub optics guest wants) s
def execThermalInterval (dt : Nat) (readings : List (Nat × Nat)) (badRails : List Nat) (s : State) := onPkg (thermalInterval dt readings badRails) s
def execThermalTrip (dt die : Nat) (s : State) := onPkg (thermalTrip dt die) s
def execStackOvertemp (dt stack temp : Nat) (s : State) := onPkg (stackOvertemp dt stack temp) s

end Sys2Proof.Machine
end

