-- ==== Sys2Proof/Machine/Mctp.lean ====
section
/-! DEFINITION. The hub die's MCTP endpoint (R371, R396, R425, R440, R456). A response is its message type, its command code and what the command
returns; the framing of DSP0233 below a message is outside the model. -/

namespace Sys2Proof.Machine

open Sys2Proof

/-- Message types and commands that the endpoint supports. The codes of the control commands are those of MCTP's base specification
(PRESUMED, log entry 47). -/
def MCTP_CONTROL : Nat := 0x00
def MCTP_NALTO : Nat := 0x7F
def MC_SET_EID : Nat := 1
def MC_GET_EID : Nat := 2
def MC_GET_UUID : Nat := 3
def MC_GET_VERSION : Nat := 4
def MC_GET_TYPES : Nat := 5
def MC_GET_VENDOR : Nat := 6
def NC_IDENTITY : Nat := 1
def NC_TELEMETRY : Nat := 2
def NC_ERRLOG : Nat := 3
def NC_MEASUREMENTS : Nat := 4
def NC_READ_REG : Nat := 5

/-- A response message. -/
def mctpMsg (typ cmd : Nat) (body : List Byte) : List Byte := leBytes 1 typ ++ leBytes 1 cmd ++ body

/-- The endpoint sends a response over I3C. -/
def Package.respond (p : Package) (m : List Byte) : Package := { p with mctp := { p.mctp with responses := p.mctp.responses ++ [m] } }

/-- The endpoint answers from the start of hub firmware (R425). -/
def Package.mctpUp (p : Package) : Bool := p.hubRuns

/-- In ENDED it answers identity and error-log reads; other Nalto commands get no answer (R440; DEDUCED, log entry 48). -/
def Package.mctpFull (p : Package) : Bool := p.mctpUp && p.lcState ≠ LC_ENDED

/-- A control command's answer: completion code 0 and its data. -/
def Package.control (p : Package) (cmd : Nat) (data : List Byte) : Package := p.respond (mctpMsg MCTP_CONTROL cmd (leBytes 1 0 ++ data))

/-! ### Control commands -/

/-- Set Endpoint ID: an EID of 1 to 254 is taken (PRESUMED: 0 and 255 name no endpoint, log entry 47). -/
def setEndpoint (dt eid : Nat) (p : Package) : Package :=
  let p := p.pass dt
  if !p.mctpUp then p
  else
    let ok := decide (0 < eid) && decide (eid < 255)
    let p := if ok then (p.put PKG_MCTP_STATUS_EID eid).put PKG_MCTP_STATUS_ASSIGNED 1 else p
    p.control MC_SET_EID (leBytes 1 (if ok then 0 else 0x10) ++ leBytes 1 (p.get PKG_MCTP_STATUS_EID) ++ leBytes 1 0)

def getEndpoint (dt : Nat) (p : Package) : Package :=
  let p := p.pass dt
  if !p.mctpUp then p else p.control MC_GET_EID (leBytes 1 (p.get PKG_MCTP_STATUS_EID) ++ leBytes 2 0)

/-- Get Endpoint UUID: how the serial forms it is free. -/
def getUuid (dt : Nat) (p : Package) : Package :=
  let p := p.pass dt
  if !p.mctpUp then p else p.control MC_GET_UUID (beBytes 16 (Config.uuid p.serial).toNat)

/-- Get MCTP Version Support: one version entry, whose number is free. -/
def getVersion (dt : Nat) (p : Package) : Package :=
  let p := p.pass dt
  if !p.mctpUp then p else p.control MC_GET_VERSION (leBytes 1 1 ++ beBytes 4 Config.mctpVersions.toNat)

/-- Get Message Type Support: 0x00 and 0x7F. -/
def getTypes (dt : Nat) (p : Package) : Package :=
  let p := p.pass dt
  if !p.mctpUp then p else p.control MC_GET_TYPES (leBytes 1 2 ++ leBytes 1 MCTP_CONTROL ++ leBytes 1 MCTP_NALTO)

/-- Get Vendor Defined Message Support: the enterprise number, as `PKG_MCTP_STATUS.IANA` reads. -/
def getVendor (dt : Nat) (p : Package) : Package :=
  let p := p.pass dt
  if !p.mctpUp then p else p.control MC_GET_VENDOR (leBytes 1 0xFF ++ leBytes 1 1 ++ beBytes 4 (bitsOf (p.readReg PKG_MCTP_STATUS) 32 32))

/-! ### Nalto commands -/

def Package.nalto (p : Package) (cmd : Nat) (data : List Byte) : Package := p.respond (mctpMsg MCTP_NALTO cmd data)

def getIdentity (dt : Nat) (p : Package) : Package :=
  let p := p.pass dt
  if !p.mctpUp then p
  else p.nalto NC_IDENTITY (leBytes 8 (p.readReg PKG_SERIAL) ++ leBytes 8 (p.readReg PKG_VARIANT) ++ leBytes 8 (p.readReg PKG_FITTED))

def getTelemetry (dt : Nat) (p : Package) : Package :=
  let p := p.pass dt
  if !p.mctpFull then p else p.nalto NC_TELEMETRY p.mctp.telemetry

/-- READ_ERRLOG of a die (8 the hub die): `count` slots from `first`, at most the 31 that a message of 1,024 bytes holds. A fenced die's log is
unreadable (R392). -/
def readErrlog (dt d first count : Nat) (p : Package) : Package :=
  let p := p.pass dt
  if !p.mctpUp then p
  else if !(d = 8 || p.dieOn d) then p.nalto NC_ERRLOG []
  else p.nalto NC_ERRLOG ((List.range (min count 31)).flatMap (fun i => p.errSlot d (first + i)))

/-- A report or chain request: of the management controller, or of a peer's node over MGMT, to which the answer goes back. -/
def getMeasurements (dt : Nat) (peer : Option Nat) (body : List Byte) (p : Package) : Package :=
  let p := p.pass dt
  if !p.mctpFull then p
  else
    let x := p.reportRequest (peer.getD REQ_I3C) body
    match peer with
    | none => x.2.nalto NC_MEASUREMENTS x.1
    | some n =>
      let m := mctpMsg MCTP_NALTO NC_MEASUREMENTS x.1
      x.2.sendRoute n CLS_MGMT m.length (.fields 0 [] m)

/-- May READ_REG return a register: whole registers of any page but SEC, where the page answers. -/
def Package.readable (p : Package) (a : Nat) : Bool := a % 8 = 0 && (match pageAt a with
  | some .sec => false
  | some g => !(p.pageFitted g && p.pageFenced g)
  | none => false)

/-- READ_REG: up to 16 registers. A request for more, or for one that it may not return, returns none (DEDUCED, log entry 49). -/
def mctpReadReg (dt : Nat) (l : List Nat) (p : Package) : Package :=
  let p := p.pass dt
  if !p.mctpFull then p
  else if 16 < l.length || !l.all p.readable then p.nalto NC_READ_REG []
  else p.nalto NC_READ_REG (l.flatMap (fun a => leBytes 8 (p.readReg a)))

/-! ### The commands' meanings -/

def execSetEndpointId (dt eid : Nat) (s : State) := onPkg (setEndpoint dt eid) s
def execGetEndpointId (dt : Nat) (s : State) := onPkg (getEndpoint dt) s
def execGetEndpointUuid (dt : Nat) (s : State) := onPkg (getUuid dt) s
def execGetMctpVersionSupport (dt : Nat) (s : State) := onPkg (getVersion dt) s
def execGetMessageTypeSupport (dt : Nat) (s : State) := onPkg (getTypes dt) s
def execGetVendorDefinedMsgSupport (dt : Nat) (s : State) := onPkg (getVendor dt) s
def execGetIdentity (dt : Nat) (s : State) := onPkg (getIdentity dt) s
def execGetTelemetry (dt : Nat) (s : State) := onPkg (getTelemetry dt) s
def execReadErrlog (dt die first count : Nat) (s : State) := onPkg (readErrlog dt die first count) s
def execGetMeasurements (dt : Nat) (peer : Option Nat) (body : List Byte) (s : State) := onPkg (getMeasurements dt peer body) s
def execReadReg (dt : Nat) (regs : List Nat) (s : State) := onPkg (mctpReadReg dt regs) s

end Sys2Proof.Machine
end

