-- ==== Sys2Proof/Machine/Tap.lean ====
section
/-! DEFINITION. The test port (R441): the IEEE 1149.1 TAP controller with its 8-bit instruction register. -/

namespace Sys2Proof.Machine

open Sys2Proof

/-- Public instructions. -/
def TI_EXTEST : Nat := 0x00
def TI_IDCODE : Nat := 0x01
def TI_SAMPLE : Nat := 0x02
def TI_CLAMP : Nat := 0x04
def TI_HIGHZ : Nat := 0x05
def TI_EXTEST_PULSE : Nat := 0x06
def TI_EXTEST_TRAIN : Nat := 0x07
def TI_BYPASS : Nat := 0xFF

/-- The state that a rising edge of TCK leads to with TMS (IEEE 1149.1). -/
def TapState.next (s : TapState) (tms : Bool) : TapState := match s, tms with
  | .testLogicReset, true => .testLogicReset
  | .testLogicReset, false => .runTestIdle
  | .runTestIdle, true => .selectDr
  | .runTestIdle, false => .runTestIdle
  | .selectDr, true => .selectIr
  | .selectDr, false => .captureDr
  | .captureDr, true => .exit1Dr
  | .captureDr, false => .shiftDr
  | .shiftDr, true => .exit1Dr
  | .shiftDr, false => .shiftDr
  | .exit1Dr, true => .updateDr
  | .exit1Dr, false => .pauseDr
  | .pauseDr, true => .exit2Dr
  | .pauseDr, false => .pauseDr
  | .exit2Dr, true => .updateDr
  | .exit2Dr, false => .shiftDr
  | .updateDr, true => .selectDr
  | .updateDr, false => .runTestIdle
  | .selectIr, true => .testLogicReset
  | .selectIr, false => .captureIr
  | .captureIr, true => .exit1Ir
  | .captureIr, false => .shiftIr
  | .shiftIr, true => .exit1Ir
  | .shiftIr, false => .shiftIr
  | .exit1Ir, true => .updateIr
  | .exit1Ir, false => .pauseIr
  | .pauseIr, true => .exit2Ir
  | .pauseIr, false => .pauseIr
  | .exit2Ir, true => .updateIr
  | .exit2Ir, false => .shiftIr
  | .updateIr, true => .selectDr
  | .updateIr, false => .runTestIdle

/-- The port is permitted in TEST, MANUFACTURE and RETURNED (Table 17-7). -/
def Package.tapAllowed (p : Package) : Bool := p.pwr.goodAt.isSome && (p.lcState = 0 || p.lcState = LC_MANUFACTURE || p.lcState = LC_RETURNED)

/-- IDCODE: stepping B0, the variant's part number, Nalto's code, 1. -/
def Variant.idcode (v : Variant) : Nat :=
  let part := match v with
    | .qdx8 => 0x5108
    | .qdx7g => 0x5107
    | .qdx4 => 0x5104
    | .qdx2 => 0x5102
  0xB * 2 ^ 28 + part * 2 ^ 12 + Config.jepCode.toNat * 2 + 1

/-- An instruction that selects the bypass register. -/
def selectsBypass (ir : Nat) : Bool := ir = TI_BYPASS || ir = TI_CLAMP || ir = TI_HIGHZ

/-- What Capture-DR loads. The boundary register and those of the scan and test engine have no layout in the spec: nothing is kept of them, and
their bits are free as they leave (log entry 50). -/
def Package.captured (p : Package) : List Bool :=
  if p.tap.ir = TI_IDCODE then (List.range 32).map (bitAt p.variant.idcode)
  else if selectsBypass p.tap.ir then [false]
  else []

/-- Test-Logic-Reset: IDCODE is the instruction, TDO floats. -/
def Package.tapReset (p : Package) : Package := { p with tap := { state := .testLogicReset, ir := TI_IDCODE } }

/-- The rising edge: what the state does, then the next state. -/
def Package.tapRise (p : Package) (tms tdi : Bool) : Package :=
  let t := p.tap
  let d := p.draw
  let (p, t) : Package × Tap := match t.state with
    | .captureIr => (d.2, { t with irShift := 1 + 4 * (d.1.toNat % 64) })
    | .shiftIr => (p, { t with irShift := t.irShift / 2 + 128 * b2n tdi })
    | .captureDr => (p, { t with drShift := p.captured })
    | .shiftDr => (p, { t with drShift := if t.drShift.isEmpty then [] else t.drShift.drop 1 ++ [tdi] })
    | _ => (p, t)
  let s := t.state.next tms
  let p := { p with tap := { t with state := s } }
  if s = .testLogicReset then p.tapReset else p

/-- The falling edge: TDO drives in the shift states; Update-IR makes the shifted instruction current. -/
def Package.tapFall (p : Package) : Package :=
  let t := p.tap
  match t.state with
  | .shiftIr => { p with tap := { t with tdo := some (bitAt t.irShift 0) } }
  | .shiftDr => match t.drShift with
    | b :: _ => { p with tap := { t with tdo := some b } }
    | [] => { p.draw.2 with tap := { t with tdo := some (p.draw.1.getLsbD 0) } }
  | .updateIr => { p with tap := { t with ir := t.irShift % 256, tdo := none } }
  | _ => { p with tap := { t with tdo := none } }

/-- An edge of TCK, with TMS, TDI and TRST_N at it. -/
def testPortEdge (rising tms tdi trstN : Bool) (p : Package) : Package :=
  if !p.tapAllowed || !trstN then p.tapReset
  else if rising then p.tapRise tms tdi
  else p.tapFall

def execTestPortTck (rising tms tdi trstN : Bool) (s : State) := onPkg (testPortEdge rising tms tdi trstN) s

end Sys2Proof.Machine
end

