-- ==== Sys2Proof/Machine/Tick.lean ====
section
/-! DEFINITION. TICK (R20, R22, R53): the close of a beat (R39, R40, R71, R72, R372, R484), then at the tick, in the order of R53, transactions,
cluster sets, version flips and phase starts; and what the beat unit sends once per beat (R26, R31, R36). -/

namespace Sys2Proof.Machine

open Sys2Proof

/-! ### The close of beat n -/

/-- A phase whose output has not landed by the tick that closes its beat is marked (R39, R40, R47). -/
def Package.markOverrun (p : Package) (n s : Nat) : Package := match (p.stg s).phase with
  | none => p
  | some ph =>
    if ph.beat ≠ n || ph.overrun.isSome then p
    else
      let cause := overrunCause ph (p.deadlineOf ph)
      let last := n % 2 ^ 48 + 2 ^ 48 * (s % 32) + 2 ^ 53 * qIndex ph.dir + 2 ^ 54 * cause + 2 ^ 56 * (ph.index % 64)
      let p := p.modStg s (fun x => { x with phase := some { ph with overrun := some cause } })
      let p := ((p.bump48 (HAL_OVR_COUNT s) 1).bump48 BEAT_OVR_COUNT 1).wr BEAT_OVR_LAST last
      p.raise .beat EV_BEAT_OVERRUN last (arg1Of s cause)

/-- Spread whole cycles over an account of clock units: each item gets the cycles between its ends in the running sum. -/
def shareCycles (target total : Nat) : Nat → List Nat → List Nat
  | _, [] => []
  | before, u :: us => ((before + u) * target / total - before * target / total) :: shareCycles target total (before + u) us

/-- An account in cycles of the 1.5 GHz time base (R71, R484): a beat of period P has 15 × P of them. An account that slewing or rounding
leaves a little off the beat's length counts as the whole beat. -/
def toCycles (periodUnits : Nat) (acct : List Nat) : List Nat :=
  let total := acct.foldl (· + ·) 0
  let near := decide (total ≤ periodUnits + periodUnits / 10000 + 2560) && decide (periodUnits ≤ total + periodUnits / 10000 + 2560)
  let target := if near then periodUnits / 2560 * 15 else total * 15 / 2560
  if total = 0 then [] else shareCycles target total 0 acct

/-- Add the items of a list to 48-bit counters. -/
def Package.addCounts (p : Package) (l : List (Nat × Nat)) : Package := p.each l (fun p e => if e.2 = 0 then p else p.bump48 e.1 e.2)

/-- The counters of a stage's HAL page that `HAL_CTRL.CLEAR` zeroes (R76, R96). -/
def halCounters (s : Nat) : List Nat :=
  [HAL_BUSY s, HAL_LATE_COUNT s, HAL_OVR_COUNT s, HAL_PHASE_COUNT s, HAL_WIN_DONE s, HAL_STASH_REEF_COUNT s, HAL_STASH_CKPT_COUNT s,
   HAL_STASH_STALL_COUNT s, HAL_STASH_PEAK s] ++ (List.range 16).map (HAL_IDLE s)

/-- A stage's account of the beat joins its counters, or goes with them on CLEAR (R71, R76). -/
def Package.closeStage (p : Package) (units n s : Nat) : Package :=
  let x := p.stg s
  let p := p.modStg s (fun x => { x with acct := [], clearAsked := false })
  if x.clearAsked then (p.each (halCounters s) (fun p a => p.wr a 0)).put (HAL_CTRL_CLEAR s) 0
  else if p.stgState s = STG_DISABLED || x.acct.isEmpty then p
  else
    let c := toCycles units x.acct
    (p.addCounts ((HAL_BUSY s, listAt 0 c C_BUSY) :: (List.range 16).map (fun i => (HAL_IDLE s i, listAt 0 c i)))).wr (HAL_STAMP s) (n % 2 ^ 48)

/-- The beat record of a beat in which no phase of the stage started (R72). -/
def Package.emptyRecord (p : Package) (n s : Nat) : Package :=
  if p.stgState s = STG_DISABLED || (p.stg s).lastStart = some n then p else (p.wr (HAL_BEAT_REC_A s) (n % 2 ^ 48)).wr (HAL_BEAT_REC_B s) 0

/-- A cluster's account of the beat joins its counters; time that no stage and no RUN claims is BUBBLE (R372). -/
def Package.closeCluster (p : Package) (units n c : Nat) : Package :=
  let a := mapGet [] p.cluAcct c
  let c' := toCycles units (acctSplit a C_BUBBLE (p.clockOf (c / 72)) (units - a.foldl (· + ·) 0))
  let p := p.addCounts ([(CLU_BUSY c, listAt 0 c' C_BUSY + listAt 0 c' C_RUN), (CLU_RUN_CYCLES c, listAt 0 c' C_RUN)]
    ++ (List.range 16).map (fun i => (CLU_IDLE c i, listAt 0 c' i)))
  p.wr (CLU_STAMP c) (n % 2 ^ 48)

/-- Clusters that count: not retired, on dies that are ACTIVE. -/
def Package.countingClusters (p : Package) : List Nat :=
  (p.dies.filter p.dieActive).flatMap (fun d => ((List.range 72).map (72 * d + ·)).filter (fun c => p.get (CLU_STATUS_STATE c) ≠ 2))

/-- Beat n closes. -/
def Package.closeBeat (p : Package) (n : Nat) : Package :=
  let units := p.periodUnits
  let ss := p.stages.map (·.1)
  let p := p.each ss (fun p s => p.markOverrun n s)
  let p := p.each ss (fun p s => (p.emptyRecord n s).closeStage units n s)
  let p := p.each p.countingClusters (fun p c => p.closeCluster units n c)
  { p with cluAcct := [] }

/-! ### The tick -/

/-- Accounts of the time before tick 0 count nowhere; a CLEAR acts at any tick. -/
def Package.dropAccts (p : Package) : Package :=
  { p.each (p.stages.map (·.1)) (fun p s => (p.modStg s (fun x => { x with acct := [] })).closeStage 1 0 s) with cluAcct := [] }

/-- Tick n is raised: `BEAT_NUMBER` is n, and the next tick is one period on, the period in force for beat n. -/
def Package.openBeat (p : Package) : Package :=
  let p := if p.beat.ticked then p.wr BEAT_NUMBER ((p.beatNo + 1) % 2 ^ 48) else p
  let p := p.modBeat (fun b => { b with ticked := true, lastTick := b.nextTick, nextTick := (b.nextTick + p.periodUnits) % 2 ^ 64,
                                        silentBeats := b.silentBeats + 1, requestBeats := b.requestBeats + 1, noticeDies := [] })
  p.each (p.stages.map (·.1)) (fun p s => p.modStg s (fun x => { x with slotUsed := false, gaveUp := none }))

/-! #### Window boundaries (R29, R52, R83, R388) -/

/-- Is this tick a window boundary of a leader's group; a retirement brings the boundary forward. -/
def Package.boundary (p : Package) (g : Nat) : Bool :=
  p.winState g = WIN_IDLE || (p.grp g).completed || (p.members g).any (fun s => (p.stg s).shrinkPending)

/-- What takes effect at a stage's window boundary. -/
def Package.atBoundary (p : Package) (s : Nat) : Package :=
  let p := p.modStg s (fun x => { x with resumeWait := false })
  let p := if (p.stg s).bindPending then p.bind s else p
  p.shrinkStage s

def Package.boundaries (p : Package) : Package :=
  let l := (p.stages.map (·.1)).filter (fun s => p.boundary (p.leader s))
  p.each l (fun p s => p.atBoundary s)

/-! #### Version flips (R69, R70, R410) -/

/-- Version numbers that started forwards and queued forward descriptors of a stage carry (R70). A FIRST stage's queued forwards carry its
tag of their step. -/
def Package.carried (p : Package) (s : Nat) : List Nat :=
  let x := p.stg s
  let queued := (x.fq.entries.filter (fun e => e.2 = .valid)).filterMap (fun e => (p.descOf s .fwd e.1).bind (fun d =>
    if p.has (STG_CTRL_FIRST s) then x.tag.bind (fun t => if t.1 = d.step then some t.2 else none) else some d.version))
  (x.stash.filter (fun r => !r.freed)).map (·.version) ++ (x.phase.map (·.version)).toList ++ queued

/-- The slot that becomes PENDING at the flip to version v, and whether an OLDER slot is freed for it; none where rule 3 of R69 cannot be
carried out, R70 defers the flip, or a fetch is still served from the slot that it would free (R248). -/
def Package.nextPending (p : Package) (s v : Nat) : Option Nat :=
  match (p.ring s).find? (fun n => p.vRole s n = V_FREE) with
  | some n => some n
  | none =>
    let older := (p.ring s).filter (fun n => p.vRole s n = V_OLDER || p.vRole s n = V_CURRENT)
    match minOf (older.map (p.vNum s)) with
    | none => none
    | some m =>
      if !((m : Int) < (v : Int) - (p.staleMax s : Int)) || (p.carried s).contains m || (p.servedVersions s).contains m then none
      else older.find? (fun n => p.vNum s n = m)

/-- The slots of a stage change roles: version v is CURRENT (R69). -/
def Package.flip (p : Package) (s v np nc next : Nat) : Package :=
  let p := ((p.setVRole s nc V_OLDER).setVRole s np V_CURRENT).wr (STG_VNUM s np) (v % 2 ^ 48)
  let p := p.setVRole s next V_PENDING
  let p := (p.put (STG_VRING_STATE_RESOLVED_STEP s) (v - 1)).put (STG_VRING_STATE_FLIP_DEFERRED s) 0
  ((p.modStg s (fun x => { x with pourDone := none })).startGather s v).serveHeld s

/-- Try a stage's flip; the answer says what came of it: the mask of stages that flipped, and whether a capture holds a flip. -/
def Package.tryFlip (p : Package) (s : Nat) (acc : Nat × Bool) : (Nat × Bool) × Package :=
  match (p.stg s).pourDone with
  | none => (acc, p)
  | some (v, t) =>
    if dsub p.beat.lastTick t < (2 * Config.usUnits : Nat) then (acc, p)
    else match p.pendingSlot s, p.currentSlot s with
      | some np, some nc => match p.nextPending s v with
        | none => (acc, p.put (STG_VRING_STATE_FLIP_DEFERRED s) 1)
        | some next =>
          if p.snapHolds 0x05 (s + 256 * next) then ((acc.1, true), p.put (STG_VRING_STATE_FLIP_DEFERRED s) 1)
          else ((acc.1 + 2 ^ s, acc.2), p.flip s v np nc next)
      | _, _ => (acc, p)

/-- A capture starts, or stops, holding flips back (R410). -/
def Package.showHold (p : Package) (held : Bool) : Package :=
  match p.snap.capture with
  | none => p
  | some c =>
    if held then
      (if c.holdSince.isSome then p else { p with snap := { p.snap with capture := some { c with holdSince := some p.clock } } }).put SNAP_STATUS_HOLDING 1
    else if c.holdSince.isSome && p.snap.swaps.isEmpty then p.endHold.put SNAP_STATUS_HOLDING 0
    else p

/-- Version flips of every stage; one event with their mask (R69). -/
def Package.flips (p : Package) : Package :=
  let r := ((p.stages.map (·.1)).filter (fun s => p.stgState s ≠ STG_DISABLED)).foldl (fun (a : (Nat × Bool) × Package) s => a.2.tryFlip s a.1)
    ((0, false), p)
  let p := r.2.showHold r.1.2
  if r.1.1 = 0 then p else p.raise (.stg 0) EV_STG_VERSION_FLIP p.beatNo r.1.1

/-! #### Windows and phases (R49, R80, R83) -/

/-- A leader's Halyard leaves a completed window, and takes the next one that waits. -/
def Package.takeWindow (p : Package) (g : Nat) : Package :=
  let p := if (p.grp g).completed then p.idleGroup g else p
  if p.winState g ≠ WIN_IDLE then p
  else match (p.grp g).fifo with
    | [] => p
    | w :: rest =>
      let p := p.modGrp g (fun x => { x with fifo := rest, cur := some w, started := 0, ended := 0, completed := false, ckptOnly := false,
                                             raised1 := false, raised2 := false })
      let p := (p.setWinState g (windowState w 0)).putGroup g HAL_WIN_STATUS_STASH_LEVEL 0
      (p.modStg w.owner (fun x => { x with checked := [] })).showGroup g

def Package.takeWindows (p : Package) : Package := p.each (p.groups.map (·.1)) Package.takeWindow

/-- The stages whose group's next phase is theirs and has a direction. -/
def Package.ready' (p : Package) (d : Dir) : List Nat := allStages.filter (fun s => match p.nextOf s with
  | some (e, _, _, _) => decide (e = d)
  | none => false)

/-- The Halyards start phases: backward phases first, then forward, lower stages first, as shared clusters run them (R49). -/
def Package.startPhases (p : Package) : Package := p.each (p.ready' .bwd ++ p.ready' .fwd) (fun p s => p.tryStart (p.leader s))

/-! #### What the beat unit sends (R26, R31, R36) -/

/-- This package's announce. -/
def Package.announce (p : Package) : Announce :=
  let v := p.beat.view
  { domain := p.get BEAT_DOMAIN_ID, group := p.get BEAT_DOMAIN_GROUP, best := v.best, bestConfigured := v.bestConfigured, hops := v.hops,
    groupBest := v.groupBest, groupConfigured := v.groupConfigured, serial := p.serial, candidate := p.eligible, groupCandidate := p.groupEligible }

def Package.announces (p : Package) : Package := p.each allLinks (fun p k => p.sendBeat k 32 (.announce p.announce))

/-- A package that has domain time passes it on over every up link, once per beat. DEDUCED from R28 and R31 (log entry 51). -/
def Package.timeMessages (p : Package) : Package :=
  if p.role ≠ ROLE_DOMAIN && p.beatState ≠ BEAT_ALIGNED && p.beatState ≠ BEAT_HOLDOVER then p
  else
    let m : TimeMsg := { domain := p.get BEAT_DOMAIN_ID, master := p.rd BEAT_MASTER_ID, hops := p.get BEAT_UPLINK_HOPS, t1 := p.dtime, epoch := p.rd BEAT_EPOCH,
                         period := p.periodUnits / 2560, landing := p.get BEAT_LANDING_WINDOW, pend := p.beat.pend, beat := p.beatNo,
                         beatTick := p.beat.lastTick }
    p.each allLinks (fun p k => p.sendBeat k 64 (.time m))

/-! ### The command -/

/-- What the package does at a tick. -/
def Package.raiseTick (p : Package) : Package :=
  let p := if p.beat.ticked then p.closeBeat p.beatNo else p.dropAccts
  let p := (p.openBeat.tickTxn).applyRewind
  let p := (p.boundaries.flips.resolveSteps).snapTick
  let p := p.takeWindows.startPhases
  let p := (p.announces.timeMessages).tickReports
  if p.get BEAT_OUT_CFG_MODE = 1 then p.beatPulse else p

/-- Domain time runs on by `dt` and crosses a beat boundary. A package that holds no epoch has no tick: once per beat it announces (R26). -/
def tick (dt : Nat) (p : Package) : Package :=
  let p := p.pass dt
  if !p.ticking then (if p.has BEAT_CTRL_ENABLE then p.announces else p)
  else if dsub p.dtime p.beat.nextTick < 0 then p
  else p.raiseTick

def execTick (dt : Nat) (s : State) := onPkg (tick dt) s

end Sys2Proof.Machine
end

