-- ==== Sys2Proof/Machine/Dispatch.lean ====
section
/-! DEFINITION. The dispatch: one arm per command, each a direct call of its meaning. -/

namespace Sys2Proof.Machine

open Sys2Proof

def exec (i : Instr) (s : State) : Host.Outcome State Fault Refusal :=
  match i with
  | .tick dt => Sys2Proof.Machine.execTick dt s
  | .tickNotice dt => Sys2Proof.Machine.execTickNotice dt s
  | .phaseLateStart dt stage => Sys2Proof.Machine.execPhaseLateStart dt stage s
  | .workDeadline dt => Sys2Proof.Machine.execWorkDeadline dt s
  | .computeEnd dt stage cluster core => Sys2Proof.Machine.execComputeEnd dt stage cluster core s
  | .outputLanded dt stage chan => Sys2Proof.Machine.execOutputLanded dt stage chan s
  | .phaseHung dt stage => Sys2Proof.Machine.execPhaseHung dt stage s
  | .periodChange => Sys2Proof.Machine.execPeriodChange s
  | .announceReceive dt link a => Sys2Proof.Machine.execAnnounceReceive dt link a s
  | .electionEnd dt => Sys2Proof.Machine.execElectionEnd dt s
  | .electionTimeout dt => Sys2Proof.Machine.execElectionTimeout dt s
  | .acquireTimeout dt => Sys2Proof.Machine.execAcquireTimeout dt s
  | .timeMessageReceive dt link m => Sys2Proof.Machine.execTimeMessageReceive dt link m s
  | .delayRequestSend dt => Sys2Proof.Machine.execDelayRequestSend dt s
  | .delayRequestReceive dt link t3 => Sys2Proof.Machine.execDelayRequestReceive dt link t3 s
  | .delayResponseReceive dt link t4 => Sys2Proof.Machine.execDelayResponseReceive dt link t4 s
  | .holdoverEntry dt => Sys2Proof.Machine.execHoldoverEntry dt s
  | .rejoin => Sys2Proof.Machine.execRejoin s
  | .rejoinStep dt => Sys2Proof.Machine.execRejoinStep dt s
  | .beatEnable dt en => Sys2Proof.Machine.execBeatEnable dt en s
  | .refLock dt off => Sys2Proof.Machine.execRefLock dt off s
  | .refLoss dt => Sys2Proof.Machine.execRefLoss dt s
  | .secondPulse dt => Sys2Proof.Machine.execSecondPulse dt s
  | .microBatchReceive dt o => Sys2Proof.Machine.execMicroBatchReceive dt o s
  | .creditReceive dt stage chan n => Sys2Proof.Machine.execCreditReceive dt stage chan n s
  | .channelOpenReceive dt stage d x => Sys2Proof.Machine.execChannelOpenReceive dt stage d x s
  | .channelOpenAnswer dt stage chan result depth units used => Sys2Proof.Machine.execChannelOpenAnswer dt stage chan result depth units used s
  | .channelOpenTimeout dt stage chan => Sys2Proof.Machine.execChannelOpenTimeout dt stage chan s
  | .stageDrainDeadline dt stage => Sys2Proof.Machine.execStageDrainDeadline dt stage s
  | .stageDisabled dt stage => Sys2Proof.Machine.execStageDisabled dt stage s
  | .fqPush dt stage n => Sys2Proof.Machine.execFqPush dt stage n s
  | .qflushForward stage => Sys2Proof.Machine.execQflushForward stage s
  | .qflushBackward stage => Sys2Proof.Machine.execQflushBackward stage s
  | .halHold dt stage b => Sys2Proof.Machine.execHalHold dt stage b s
  | .halClear stage => Sys2Proof.Machine.execHalClear stage s
  | .winIssueStage stage regB half value => Sys2Proof.Machine.execWinIssueStage stage regB half value s
  | .winPush stage half value => Sys2Proof.Machine.execWinPush stage half value s
  | .winFlush stage => Sys2Proof.Machine.execWinFlush stage s
  | .layerListStart dt cluster core => Sys2Proof.Machine.execLayerListStart dt cluster core s
  | .nop dt cluster core w => Sys2Proof.Machine.execNop dt cluster core w s
  | .sync dt cluster core w => Sys2Proof.Machine.execSync dt cluster core w s
  | .mma dt cluster core w => Sys2Proof.Machine.execMma dt cluster core w s
  | .trimWindowEnd dt cluster core => Sys2Proof.Machine.execTrimWindowEnd dt cluster core s
  | .rampDownStep dt cluster core => Sys2Proof.Machine.execRampDownStep dt cluster core s
  | .add dt cluster core w => Sys2Proof.Machine.execAdd dt cluster core w s
  | .mul dt cluster core w => Sys2Proof.Machine.execMul dt cluster core w s
  | .fma dt cluster core w => Sys2Proof.Machine.execFma dt cluster core w s
  | .max dt cluster core w => Sys2Proof.Machine.execMax dt cluster core w s
  | .min dt cluster core w => Sys2Proof.Machine.execMin dt cluster core w s
  | .exp dt cluster core w => Sys2Proof.Machine.execExp dt cluster core w s
  | .log dt cluster core w => Sys2Proof.Machine.execLog dt cluster core w s
  | .rcp dt cluster core w => Sys2Proof.Machine.execRcp dt cluster core w s
  | .rsqrt dt cluster core w => Sys2Proof.Machine.execRsqrt dt cluster core w s
  | .tanh dt cluster core w => Sys2Proof.Machine.execTanh dt cluster core w s
  | .gelu dt cluster core w => Sys2Proof.Machine.execGelu dt cluster core w s
  | .silu dt cluster core w => Sys2Proof.Machine.execSilu dt cluster core w s
  | .sigmoid dt cluster core w => Sys2Proof.Machine.execSigmoid dt cluster core w s
  | .cvt dt cluster core w => Sys2Proof.Machine.execCvt dt cluster core w s
  | .maskBits dt cluster core w => Sys2Proof.Machine.execMaskBits dt cluster core w s
  | .signBits dt cluster core w => Sys2Proof.Machine.execSignBits dt cluster core w s
  | .deriv dt cluster core w => Sys2Proof.Machine.execDeriv dt cluster core w s
  | .rowreduce dt cluster core w => Sys2Proof.Machine.execRowreduce dt cluster core w s
  | .rng dt cluster core w => Sys2Proof.Machine.execRng dt cluster core w s
  | .amaxBarrierRelease dt stage slot => Sys2Proof.Machine.execAmaxBarrierRelease dt stage slot s
  | .accDrain dt cluster core w => Sys2Proof.Machine.execAccDrain dt cluster core w s
  | .accLoad dt cluster core w => Sys2Proof.Machine.execAccLoad dt cluster core w s
  | .accZero dt cluster core w => Sys2Proof.Machine.execAccZero dt cluster core w s
  | .accGcfg dt cluster core w => Sys2Proof.Machine.execAccGcfg dt cluster core w s
  | .accSpill dt cluster core w => Sys2Proof.Machine.execAccSpill dt cluster core w s
  | .accClose dt cluster core w => Sys2Proof.Machine.execAccClose dt cluster core w s
  | .accDiscard dt cluster core w => Sys2Proof.Machine.execAccDiscard dt cluster core w s
  | .accRsStore dt cluster core w => Sys2Proof.Machine.execAccRsStore dt cluster core w s
  | .accTsStore dt cluster core w => Sys2Proof.Machine.execAccTsStore dt cluster core w s
  | .dmLoad dt cluster core w found => Sys2Proof.Machine.execDmLoad dt cluster core w found s
  | .dmStore dt cluster core w => Sys2Proof.Machine.execDmStore dt cluster core w s
  | .dmLocal dt cluster core w => Sys2Proof.Machine.execDmLocal dt cluster core w s
  | .dmOutdesc dt cluster core w => Sys2Proof.Machine.execDmOutdesc dt cluster core w s
  | .pset dt cluster core w => Sys2Proof.Machine.execPset dt cluster core w s
  | .skipgen dt cluster core w => Sys2Proof.Machine.execSkipgen dt cluster core w s
  | .moeRoute dt cluster core w => Sys2Proof.Machine.execMoeRoute dt cluster core w s
  | .moePlacement dt stage table => Sys2Proof.Machine.execMoePlacement dt stage table s
  | .moeWait dt cluster core w => Sys2Proof.Machine.execMoeWait dt cluster core w s
  | .moeHeaderReceive dt h rows => Sys2Proof.Machine.execMoeHeaderReceive dt h rows s
  | .moeWaitComplete dt cluster core => Sys2Proof.Machine.execMoeWaitComplete dt cluster core s
  | .moeArriveDeadline dt cluster core => Sys2Proof.Machine.execMoeArriveDeadline dt cluster core s
  | .moeReturn dt cluster core w => Sys2Proof.Machine.execMoeReturn dt cluster core w s
  | .moeReturnReceive dt stage table expert step microBatch d rows => Sys2Proof.Machine.execMoeReturnReceive dt stage table expert step microBatch d rows s
  | .moeCombine dt cluster core w => Sys2Proof.Machine.execMoeCombine dt cluster core w s
  | .moeCombineComplete dt cluster core => Sys2Proof.Machine.execMoeCombineComplete dt cluster core s
  | .moeReturnDeadline dt cluster core => Sys2Proof.Machine.execMoeReturnDeadline dt cluster core s
  | .tieFold dt tie => Sys2Proof.Machine.execTieFold dt tie s
  | .tieFoldDone dt tie => Sys2Proof.Machine.execTieFoldDone dt tie s
  | .assayCheckDone dt cluster core upset => Sys2Proof.Machine.execAssayCheckDone dt cluster core upset s
  | .warmForce slot => Sys2Proof.Machine.execWarmForce slot s
  | .warmForceAll => Sys2Proof.Machine.execWarmForceAll s
  | .scrubRead dt stack offset found => Sys2Proof.Machine.execScrubRead dt stack offset found s
  | .stackThermal dt stack temp => Sys2Proof.Machine.execStackThermal dt stack temp s
  | .pourRegionDone dt stack found => Sys2Proof.Machine.execPourRegionDone dt stack found s
  | .gatherRequestReceive dt node stage version offset len => Sys2Proof.Machine.execGatherRequestReceive dt node stage version offset len s
  | .gatherWaitExpire dt node stage => Sys2Proof.Machine.execGatherWaitExpire dt node stage s
  | .gatherBlockReceive dt stage version offset crc poisoned data => Sys2Proof.Machine.execGatherBlockReceive dt stage version offset crc poisoned data s
  | .gatherAbsentReceive dt stage version offset => Sys2Proof.Machine.execGatherAbsentReceive dt stage version offset s
  | .contributionReady dt index step => Sys2Proof.Machine.execContributionReady dt index step s
  | .admissionRequest dt node index step => Sys2Proof.Machine.execAdmissionRequest dt node index step s
  | .admissionGrant dt node index step => Sys2Proof.Machine.execAdmissionGrant dt node index step s
  | .contributionReceive dt h data => Sys2Proof.Machine.execContributionReceive dt h data s
  | .ringPartialReceive dt h data => Sys2Proof.Machine.execRingPartialReceive dt h data s
  | .softDeadline dt index => Sys2Proof.Machine.execSoftDeadline dt index s
  | .hardLimit dt index => Sys2Proof.Machine.execHardLimit dt index s
  | .resultWrite dt index => Sys2Proof.Machine.execResultWrite dt index s
  | .ownReportReady dt step => Sys2Proof.Machine.execOwnReportReady dt step s
  | .childReportReceive dt child r => Sys2Proof.Machine.execChildReportReceive dt child r s
  | .treeLimitExpiry dt step => Sys2Proof.Machine.execTreeLimitExpiry dt step s
  | .stepDecide dt step => Sys2Proof.Machine.execStepDecide dt step s
  | .stepOutcomeReceive dt o => Sys2Proof.Machine.execStepOutcomeReceive dt o s
  | .dataFlitReceive dt k f ok => Sys2Proof.Machine.execDataFlitReceive dt k f ok s
  | .idleFlitReceive dt k f ok => Sys2Proof.Machine.execIdleFlitReceive dt k f ok s
  | .nakReceive dt k f ok => Sys2Proof.Machine.execNakReceive dt k f ok s
  | .alignReceive dt k f ok => Sys2Proof.Machine.execAlignReceive dt k f ok s
  | .flitSend dt k => Sys2Proof.Machine.execFlitSend dt k s
  | .messageReceive dt k m ok => Sys2Proof.Machine.execMessageReceive dt k m ok s
  | .trainingStart dt k => Sys2Proof.Machine.execTrainingStart dt k s
  | .partnerExchange dt k q delayNs => Sys2Proof.Machine.execPartnerExchange dt k q delayNs s
  | .linkUp dt k => Sys2Proof.Machine.execLinkUp dt k s
  | .trainingLimit dt k => Sys2Proof.Machine.execTrainingLimit dt k s
  | .trainingRestartTimer dt k => Sys2Proof.Machine.execTrainingRestartTimer dt k s
  | .lightDetected dt k => Sys2Proof.Machine.execLightDetected dt k s
  | .codewordLockLoss dt k lane => Sys2Proof.Machine.execCodewordLockLoss dt k lane s
  | .retrain k => Sys2Proof.Machine.execRetrain k s
  | .fastRetrainDone dt k shares => Sys2Proof.Machine.execFastRetrainDone dt k shares s
  | .fastRetrainTimeout dt k => Sys2Proof.Machine.execFastRetrainTimeout dt k s
  | .healthWindow dt k corr uncorr => Sys2Proof.Machine.execHealthWindow dt k corr uncorr s
  | .linkDisable dt k => Sys2Proof.Machine.execLinkDisable dt k s
  | .linkDisableComplete dt k => Sys2Proof.Machine.execLinkDisableComplete dt k s
  | .opticalTelemetry dt k lanes temp => Sys2Proof.Machine.execOpticalTelemetry dt k lanes temp s
  | .vcStuck dt k v => Sys2Proof.Machine.execVcStuck dt k v s
  | .regRd dt link src dest r => Sys2Proof.Machine.execRegRd dt link src dest r s
  | .regWr dt link src dest r => Sys2Proof.Machine.execRegWr dt link src dest r s
  | .memRd dt link src dest r found => Sys2Proof.Machine.execMemRd dt link src dest r found s
  | .memWr dt link src dest r => Sys2Proof.Machine.execMemWr dt link src dest r s
  | .hostResponseReceive dt rsp => Sys2Proof.Machine.execHostResponseReceive dt rsp s
  | .hostRequestTimeout dt => Sys2Proof.Machine.execHostRequestTimeout dt s
  | .bridgeActivate active => Sys2Proof.Machine.execBridgeActivate active s
  | .eventRecordSend dt => Sys2Proof.Machine.execEventRecordSend dt s
  | .heartbeatSend dt die => Sys2Proof.Machine.execHeartbeatSend dt die s
  | .heartbeatMissing dt die path => Sys2Proof.Machine.execHeartbeatMissing dt die path s
  | .fenceRelease dt => Sys2Proof.Machine.execFenceRelease dt s
  | .softwareFence dt die => Sys2Proof.Machine.execSoftwareFence dt die s
  | .dieReadmit dt die => Sys2Proof.Machine.execDieReadmit dt die s
  | .readmitStepDone dt die ok fails => Sys2Proof.Machine.execReadmitStepDone dt die ok fails s
  | .readmitActivate dt die => Sys2Proof.Machine.execReadmitActivate dt die s
  | .capabilityRecordReceive dt die gen rev words => Sys2Proof.Machine.execCapabilityRecordReceive dt die gen rev words s
  | .shroudTrainingDone dt shroud a b => Sys2Proof.Machine.execShroudTrainingDone dt shroud a b s
  | .widthBeaconSend dt shroud => Sys2Proof.Machine.execWidthBeaconSend dt shroud s
  | .widthBeaconReceive dt shroud => Sys2Proof.Machine.execWidthBeaconReceive dt shroud s
  | .shroudRetrain shroud => Sys2Proof.Machine.execShroudRetrain shroud s
  | .shroudRestore shroud => Sys2Proof.Machine.execShroudRestore shroud s
  | .gatePolicyLoad sigOk => Sys2Proof.Machine.execGatePolicyLoad sigOk s
  | .guestTrainingDone dt vendor device measurement => Sys2Proof.Machine.execGuestTrainingDone dt vendor device measurement s
  | .gateClose => Sys2Proof.Machine.execGateClose s
  | .guestLinkLoss dt => Sys2Proof.Machine.execGuestLinkLoss dt s
  | .guestRegRd dt dest r => Sys2Proof.Machine.execGuestRegRd dt dest r s
  | .guestRegWr dt dest r => Sys2Proof.Machine.execGuestRegWr dt dest r s
  | .guestMemRd dt dest r found => Sys2Proof.Machine.execGuestMemRd dt dest r found s
  | .guestMemWr dt dest r => Sys2Proof.Machine.execGuestMemWr dt dest r s
  | .guestEvent dt dest r => Sys2Proof.Machine.execGuestEvent dt dest r s
  | .gateHeldRelease dt found => Sys2Proof.Machine.execGateHeldRelease dt found s
  | .powerManagerInterval dt watts millivolts deciamps hub optics guest wants => Sys2Proof.Machine.execPowerManagerInterval dt watts millivolts deciamps hub optics guest wants s
  | .thermalInterval dt readings badRails => Sys2Proof.Machine.execThermalInterval dt readings badRails s
  | .thermalTrip dt die => Sys2Proof.Machine.execThermalTrip dt die s
  | .stackOvertemp dt stack temp => Sys2Proof.Machine.execStackOvertemp dt stack temp s
  | .registerWrite requester addr len value => Sys2Proof.Machine.execRegisterWrite requester addr len value s
  | .txnBegin requester value => Sys2Proof.Machine.execTxnBegin requester value s
  | .txnCommit requester => Sys2Proof.Machine.execTxnCommit requester s
  | .txnValidationDone dt => Sys2Proof.Machine.execTxnValidationDone dt s
  | .txnRollback => Sys2Proof.Machine.execTxnRollback s
  | .txnTimeout dt => Sys2Proof.Machine.execTxnTimeout dt s
  | .irqForce page value => Sys2Proof.Machine.execIrqForce page value s
  | .ringDoorbell die value => Sys2Proof.Machine.execRingDoorbell die value s
  | .commandFetch dt die found => Sys2Proof.Machine.execCommandFetch dt die found s
  | .ringNop dt die tag => Sys2Proof.Machine.execRingNop dt die tag s
  | .copy dt die tag found => Sys2Proof.Machine.execCopy dt die tag found s
  | .fill dt die tag => Sys2Proof.Machine.execFill dt die tag s
  | .check dt die tag found => Sys2Proof.Machine.execCheck dt die tag found s
  | .run dt die tag => Sys2Proof.Machine.execRun dt die tag s
  | .bist dt die tag => Sys2Proof.Machine.execBist dt die tag s
  | .snapCapture dt tag => Sys2Proof.Machine.execSnapCapture dt tag s
  | .snapRestore dt tag => Sys2Proof.Machine.execSnapRestore dt tag s
  | .rewind dt tag => Sys2Proof.Machine.execRewind dt tag s
  | .commandComplete dt die tag => Sys2Proof.Machine.execCommandComplete dt die tag s
  | .cqStall dt die => Sys2Proof.Machine.execCqStall dt die s
  | .cqHeadWrite die value => Sys2Proof.Machine.execCqHeadWrite die value s
  | .commandAbort die value => Sys2Proof.Machine.execCommandAbort die value s
  | .ringResume die => Sys2Proof.Machine.execRingResume die s
  | .ringReset die => Sys2Proof.Machine.execRingReset die s
  | .ringDrainDeadline dt die => Sys2Proof.Machine.execRingDrainDeadline dt die s
  | .telemetryRecord dt => Sys2Proof.Machine.execTelemetryRecord dt s
  | .setEndpointId dt eid => Sys2Proof.Machine.execSetEndpointId dt eid s
  | .getEndpointId dt => Sys2Proof.Machine.execGetEndpointId dt s
  | .getEndpointUuid dt => Sys2Proof.Machine.execGetEndpointUuid dt s
  | .getMctpVersionSupport dt => Sys2Proof.Machine.execGetMctpVersionSupport dt s
  | .getMessageTypeSupport dt => Sys2Proof.Machine.execGetMessageTypeSupport dt s
  | .getVendorDefinedMsgSupport dt => Sys2Proof.Machine.execGetVendorDefinedMsgSupport dt s
  | .getIdentity dt => Sys2Proof.Machine.execGetIdentity dt s
  | .getTelemetry dt => Sys2Proof.Machine.execGetTelemetry dt s
  | .readErrlog dt die first count => Sys2Proof.Machine.execReadErrlog dt die first count s
  | .getMeasurements dt peer body => Sys2Proof.Machine.execGetMeasurements dt peer body s
  | .readReg dt regs => Sys2Proof.Machine.execReadReg dt regs s
  | .lockstepMismatch dt cluster core => Sys2Proof.Machine.execLockstepMismatch dt cluster core s
  | .watchdogExpiry dt cluster core => Sys2Proof.Machine.execWatchdogExpiry dt cluster core s
  | .coreEccError dt cluster core double => Sys2Proof.Machine.execCoreEccError dt cluster core double s
  | .clusterEccError dt cluster line double inList => Sys2Proof.Machine.execClusterEccError dt cluster line double inList s
  | .coreRepairDone dt cluster => Sys2Proof.Machine.execCoreRepairDone dt cluster s
  | .queuedFaultServe dt cluster => Sys2Proof.Machine.execQueuedFaultServe dt cluster s
  | .hubFatal dt cause => Sys2Proof.Machine.execHubFatal dt cause s
  | .errLogHeadWrite die value => Sys2Proof.Machine.execErrLogHeadWrite die value s
  | .errFatalClear die => Sys2Proof.Machine.execErrFatalClear die s
  | .errInject die value => Sys2Proof.Machine.execErrInject die value s
  | .captureFreezeEnd dt => Sys2Proof.Machine.execCaptureFreezeEnd dt s
  | .sectionReadDone dt found => Sys2Proof.Machine.execSectionReadDone dt found s
  | .snapshotReceive dt node offset data => Sys2Proof.Machine.execSnapshotReceive dt node offset data s
  | .captureNoticeReceive dt step => Sys2Proof.Machine.execCaptureNoticeReceive dt step s
  | .restoreVerifyDone dt found remote => Sys2Proof.Machine.execRestoreVerifyDone dt found remote s
  | .restoreWriteDone dt => Sys2Proof.Machine.execRestoreWriteDone dt s
  | .snapCadEpoch => Sys2Proof.Machine.execSnapCadEpoch s
  | .snapFailNote value => Sys2Proof.Machine.execSnapFailNote value s
  | .powerGood dt selfOk flash devcert => Sys2Proof.Machine.execPowerGood dt selfOk flash devcert s
  | .diePowerUp dt die flash => Sys2Proof.Machine.execDiePowerUp dt die flash s
  | .dieSelftestDone dt die fails control stackOk repairs => Sys2Proof.Machine.execDieSelftestDone dt die fails control stackOk repairs s
  | .dieBootTimeout dt die => Sys2Proof.Machine.execDieBootTimeout dt die s
  | .pkgReady dt => Sys2Proof.Machine.execPkgReady dt s
  | .rstNAssert ns => Sys2Proof.Machine.execRstNAssert ns s
  | .pwrResetCold value => Sys2Proof.Machine.execPwrResetCold value s
  | .pwrResetWarm value flash => Sys2Proof.Machine.execPwrResetWarm value flash s
  | .warmResetStart dt flash => Sys2Proof.Machine.execWarmResetStart dt flash s
  | .vinLoss => Sys2Proof.Machine.execVinLoss s
  | .refclkLoss dt => Sys2Proof.Machine.execRefclkLoss dt s
  | .railFault dt rail => Sys2Proof.Machine.execRailFault dt rail s
  | .bistRunStart dt die railOk => Sys2Proof.Machine.execBistRunStart dt die railOk s
  | .bistWaitTimeout dt die => Sys2Proof.Machine.execBistWaitTimeout dt die s
  | .bistRunDone dt die fails sramOk sramRepaired railOk => Sys2Proof.Machine.execBistRunDone dt die fails sramOk sramRepaired railOk s
  | .ledgerWriteDone dt ok => Sys2Proof.Machine.execLedgerWriteDone dt ok s
  | .newNonce => Sys2Proof.Machine.execNewNonce s
  | .tokenReturn ownerOk naltoOk => Sys2Proof.Machine.execTokenReturn ownerOk naltoOk s
  | .tokenDebug ownerOk => Sys2Proof.Machine.execTokenDebug ownerOk s
  | .tokenRevoke naltoOk => Sys2Proof.Machine.execTokenRevoke naltoOk s
  | .tokenDeploy ownerOk => Sys2Proof.Machine.execTokenDeploy ownerOk s
  | .tokenEnd ownerOk naltoOk => Sys2Proof.Machine.execTokenEnd ownerOk naltoOk s
  | .extend => Sys2Proof.Machine.execExtend s
  | .hostReportRequest value => Sys2Proof.Machine.execHostReportRequest value s
  | .reportDone dt => Sys2Proof.Machine.execReportDone dt s
  | .reportHoldExpiry dt => Sys2Proof.Machine.execReportHoldExpiry dt s
  | .arbAdvance value => Sys2Proof.Machine.execArbAdvance value s
  | .arbBurnDone dt => Sys2Proof.Machine.execArbBurnDone dt s
  | .dbgHalt => Sys2Proof.Machine.execDbgHalt s
  | .dbgResume => Sys2Proof.Machine.execDbgResume s
  | .dbgReadReg addr => Sys2Proof.Machine.execDbgReadReg addr s
  | .dbgWriteReg addr => Sys2Proof.Machine.execDbgWriteReg addr s
  | .dbgReadMem addr => Sys2Proof.Machine.execDbgReadMem addr s
  | .dbgWriteMem addr => Sys2Proof.Machine.execDbgWriteMem addr s
  | .reservedOpcode dt cluster core w => Sys2Proof.Machine.execReservedOpcode dt cluster core w s
  | .tokenKindReserved => Sys2Proof.Machine.execTokenKindReserved s
  | .testPortTck rising tms tdi trstN => Sys2Proof.Machine.execTestPortTck rising tms tdi trstN s

end Sys2Proof.Machine
end

