-- ==== Sys2Proof/Safety.lean ====
section
/-! DEFINITION. What a safe run keeps of the part's fuses (R440, R449, R458), which commands may move them, which commands store
nothing, and the conditions under which a core takes its next command at once. -/

namespace Sys2Proof.Machine

open Sys2Proof

/-- A legal life-cycle code (Table 17-7). -/
def lcLegal (c : Nat) : Bool := decide (c ≤ 5)

/-- The fuses of a part that the hardware can hold: a legal life-cycle state, a later legal state where one waits for the next cold reset,
six anti-rollback counters of at most 64 burned fuses, and at least one root key that is not revoked. -/
def Part.wf (q : Part) : Bool :=
  lcLegal q.lc && (match q.pendingLc with
    | none => true
    | some c => lcLegal c && decide (q.lc < c))
  && decide (q.arb.length = 6) && q.arb.all (fun n => decide (n ≤ 64)) && decide (q.revoked % 16 ≠ 15)

/-- What every step keeps. -/
def State.Inv (s : State) : Prop := s.part.wf = true

/-- Fuses only burn: no anti-rollback counter falls, no revocation is undone, the life cycle moves only to the state that waited, and the
part keeps its identity. -/
def Part.Burns (q r : Part) : Prop :=
  (∀ i, listAt 0 q.arb i ≤ listAt 0 r.arb i) ∧ (∀ k, q.revoked.testBit k = true → r.revoked.testBit k = true)
    ∧ (r.lc = q.lc ∨ q.pendingLc = some r.lc) ∧ r.variant = q.variant ∧ r.serial = q.serial

/-- The commands that leave the part as it is: all but power on and resets, a register write, an accepted token's move, and the writes of
fuses and ledger that end. -/
def keepsPart : Instr → Bool
  | .powerGood .. | .diePowerUp .. | .rstNAssert .. | .pwrResetCold .. | .pwrResetWarm .. | .warmResetStart .. | .vinLoss
  | .ledgerWriteDone .. | .arbBurnDone .. | .regWr .. | .guestRegWr .. | .gateHeldRelease .. | .registerWrite ..
  | .tokenReturn .. | .tokenRevoke .. | .tokenDeploy .. | .tokenEnd .. => false
  | _ => true

/-- Commands that store nothing: the beat's notices and elections, a link's control words, the Gate's and the shroud's upkeep, register
transactions, event and error records, and the ring's control. -/
def storesNothing : Instr → Bool
  | .tickNotice .. | .rejoin | .secondPulse .. | .periodChange | .electionTimeout .. | .acquireTimeout .. | .delayRequestSend ..
  | .delayRequestReceive .. | .creditReceive .. | .dataFlitReceive .. | .idleFlitReceive .. | .alignReceive .. | .flitSend ..
  | .vcStuck .. | .heartbeatSend .. | .shroudTrainingDone .. | .widthBeaconSend .. | .widthBeaconReceive .. | .shroudRetrain ..
  | .shroudRestore .. | .guestTrainingDone .. | .gateClose .. | .guestLinkLoss .. | .bridgeActivate .. | .hostRequestTimeout ..
  | .eventRecordSend .. | .txnBegin .. | .txnCommit .. | .txnRollback .. | .txnTimeout .. | .irqForce .. | .errLogHeadWrite ..
  | .errFatalClear .. | .errInject .. | .hubFatal .. | .newNonce .. | .extend .. | .arbAdvance .. | .arbBurnDone ..
  | .reportHoldExpiry .. | .testPortTck .. | .snapCadEpoch .. | .snapFailNote .. | .stackThermal .. | .ringDoorbell .. | .ringNop ..
  | .ringResume .. | .ringReset .. => true
  | _ => false

/-! ### A core that takes its next command at once -/

/-- The package once the running list has given a core its next word. -/
def Package.accept (p : Package) (c k : Nat) (w : CmdWord) : Package :=
  (p.setCore c k { p.core c k with left := (p.core c k).left - 1, since := (p.core c k).since ++ [w], behind := (p.core c k).behind ++ [w] }).watchPoint c k

/-- The package as the word's command starts: dispatched, its WAIT token taken (R103, R104). -/
def Package.taken (p : Package) (c k : Nat) (w : CmdWord) : Package :=
  (p.accept c k w).modCore c k (fun co => ({ co with behind := [], index := co.index + 1, ordinal := co.ordinal + 1 }).takeToken (waitOf w))

/-- The command as its queue holds it. -/
def Package.heldFor (p : Package) (c k : Nat) (w : CmdWord) : Held :=
  { word := w, index := (p.core c k).index, ordinal := (p.core c k).ordinal, pred := true }

/-- No command waits on a core. -/
def Core.quiet (co : Core) : Bool := co.mx.isEmpty && co.ac.isEmpty && co.ve.isEmpty && co.dm.isEmpty && co.seq.isNone && co.behind.isEmpty

/-- A core takes a word's command at once (R100 to R104, R199): its list has more commands, nothing waits on it, the word's predicate is true,
its WAIT token is there, its SIGNAL token is below 255, and the word is not one that a PREDICATED layer's first place refuses. -/
structure CoreTakes (p : Package) (c k : Nat) (x : Ctx) (w : CmdWord) : Prop where
  ctx : p.ctx c k = some x
  after : (p.accept c k w).ctx c k = some x
  serves : p.serves c k x = true
  left : (p.core c k).left ≠ 0
  quiet : (p.core c k).quiet = true
  filled : p.filling c k = false
  live : (p.core c k).skip = false
  pred : (predBit w = true → (p.core c k).pred (predIndex w) = true)
  wait : (p.core c k).tokenReady w = true
  signal : signalOf w = 0 ∨ ((p.core c k).takeToken (waitOf w)).token (signalOf w) < 255
  gate : (p.core c k).ordinal ≠ 0 ∨ x.layer.predicated = false

/-- What a command's row says when its core takes it at once: for every state and every word whose checks `ok` accepts, exec answers the
package that `f` gives, with the command complete: its SIGNAL token given (R103). -/
def CommandRuns (op : Nat) (i : Nat → Nat → Nat → CmdWord → Instr) (ok : Package → Nat → Nat → Ctx → Held → Prop)
    (f : Package → Nat → Nat → Ctx → Held → Package) : Prop :=
  ∀ (s : State) (dt c k : Nat) (x : Ctx) (w : CmdWord), CoreTakes (s.pkg.pass dt) c k x (withOpcode op w) →
    ok ((s.pkg.pass dt).taken c k (withOpcode op w)) c k x ((s.pkg.pass dt).heldFor c k (withOpcode op w)) →
    exec (i dt c k w) s = .next { s with pkg := ((f ((s.pkg.pass dt).taken c k (withOpcode op w)) c k x
      ((s.pkg.pass dt).heldFor c k (withOpcode op w))).complete c k ((s.pkg.pass dt).heldFor c k (withOpcode op w))) }

/-- The same of a command that starts and waits for an event: the core's sequencer holds it from the clock on. -/
def CommandWaits (op : Nat) (i : Nat → Nat → Nat → CmdWord → Instr) (ok : Package → Nat → Nat → Ctx → Held → Prop)
    (f : Package → Nat → Nat → Ctx → Held → Package) : Prop :=
  ∀ (s : State) (dt c k : Nat) (x : Ctx) (w : CmdWord), CoreTakes (s.pkg.pass dt) c k x (withOpcode op w) →
    ok ((s.pkg.pass dt).taken c k (withOpcode op w)) c k x ((s.pkg.pass dt).heldFor c k (withOpcode op w)) →
    ∃ t, exec (i dt c k w) s = .next t
      ∧ t.pkg = (f ((s.pkg.pass dt).taken c k (withOpcode op w)) c k x ((s.pkg.pass dt).heldFor c k (withOpcode op w))).modCore c k (fun co =>
          { co with seq := some { (s.pkg.pass dt).heldFor c k (withOpcode op w) with since := some t.pkg.clock } })

/-- The same of a command whose check fails with a cause (R121). -/
def CommandFails (op : Nat) (i : Nat → Nat → Nat → CmdWord → Instr) (bad : Package → Nat → Nat → Ctx → Held → Nat → Prop) : Prop :=
  ∀ (s : State) (dt c k cause : Nat) (x : Ctx) (w : CmdWord), CoreTakes (s.pkg.pass dt) c k x (withOpcode op w) → x.run = none →
    bad ((s.pkg.pass dt).taken c k (withOpcode op w)) c k x ((s.pkg.pass dt).heldFor c k (withOpcode op w)) cause →
    ∃ t, exec (i dt c k w) s = .next t
      ∧ t.pkg = ((s.pkg.pass dt).taken c k (withOpcode op w)).cmdError c k x op ((s.pkg.pass dt).core c k).index cause

/-- A vector command passes its checks, and no source holds poison. -/
abbrev Package.vPasses (p : Package) (c : Nat) (w : CmdWord) (srcs dsts more : List (Nat × Nat)) : Prop :=
  vCheck w (srcs ++ dsts) more = 0 ∧ p.vPoison c w srcs = false

end Sys2Proof.Machine
end

