-- ==== Sys2Proof/Certificates/Slice0/Obligations.lean ====
section
/-! DEFINITION. The statements for the provers. -/

open Sys2Proof Sys2Proof.Machine

/-! ### The beat (02_beat_timing.md) -/

/-- The beat unit (R20, R23, R36, R43, R45): once domain time has reached the next tick, the tick is raised; `BEAT_NUMBER` advances by one at every tick
but tick 0, the tick's time becomes the last tick and the next lies one period on; the tick notice arms the active dies for the coming beat; a due
period change takes effect and raises its event; REJOIN is asked for; a second's pulse goes out in mode 2. -/
def Obligations.BeatUnit : Prop :=
  (∀ (s : State) (dt : Nat), s.pkg.ticking = true → ¬ dsub (s.pkg.pass dt).dtime s.pkg.beat.nextTick < 0 →
    exec (.tick dt) s = .next { s with pkg := (s.pkg.pass dt).raiseTick })
  ∧ (∀ p : Package, p.openBeat.beatNo = (if p.beat.ticked then (p.beatNo + 1) % 2 ^ 48 else p.beatNo)
      ∧ p.openBeat.beat.ticked = true ∧ p.openBeat.beat.lastTick = p.beat.nextTick)
  ∧ (∀ p : Package, p.beat.pend = none →
      p.openBeat.beat.nextTick = (p.beat.nextTick + p.get BEAT_PERIOD_TICKS * 2560) % 2 ^ 64)
  ∧ (∀ (s : State) (dt : Nat), s.pkg.ticking = true →
    ∃ t, exec (.tickNotice dt) s = .next t ∧ t.pkg.beat.noticeDies = s.pkg.dies.filter s.pkg.dieActive
      ∧ t.pkg.beat.noticeBeat = (if s.pkg.beat.ticked then s.pkg.beatNo + 1 else 0) ∧ t.pkg.regs = s.pkg.regs)
  ∧ (∀ (s : State) (q : PendPeriod), s.pkg.beat.pend = some q → q.beat ≤ s.pkg.beatNo →
    ∃ t, exec .periodChange s = .next t ∧ t.pkg.get BEAT_PERIOD_TICKS = q.period % 2 ^ 20 ∧ t.pkg.get BEAT_LANDING_WINDOW = q.landing % 2 ^ 10
      ∧ t.pkg.has BEAT_STATUS_PERIOD_PENDING = false ∧ t.pkg.beat.pend = none
      ∧ bitAt (t.pkg.rd (IRQ_STATUS .beat)) EV_BEAT_PERIOD_CHANGE = true)
  ∧ (∀ s : State, ∃ t, exec .rejoin s = .next t ∧ t.pkg.has BEAT_CTRL_REJOIN = true ∧ t.pkg.beat = s.pkg.beat)
  ∧ (∀ (s : State) (dt : Nat), s.pkg.get BEAT_OUT_CFG_MODE = 2 →
    ∃ t, exec (.secondPulse dt) s = .next t ∧ t.pkg.beat.pulses = s.pkg.beat.pulses + 1 ∧ t.pkg.regs = s.pkg.regs)


/-- Elections (R26, R31): an announce from a peer of the domain is kept by its link; an election that has stood for four beats ends with
this package as master where its view names it, and else with the master that the view names; the two 10 s alarms. -/
def Obligations.Elections : Prop :=
  (∀ (s : State) (dt link : Nat) (a : Announce), s.pkg.has BEAT_CTRL_ENABLE = true → a.domain = s.pkg.get BEAT_DOMAIN_ID →
      s.pkg.linkTakes link = true →
    ∃ t, exec (.announceReceive dt link a) s = .next t ∧ t.pkg.beat.heard = mapPut s.pkg.beat.heard link a)
  ∧ (∀ (s : State) (dt m : Nat), s.pkg.beat.view.best = some m → s.pkg.has BEAT_STATUS_ELECTION = true →
      s.pkg.beat.viewSince + 4 * s.pkg.periodUnits ≤ s.pkg.clock + dt →
    ∃ t, exec (.electionEnd dt) s = .next t ∧ t.pkg.has BEAT_STATUS_ELECTION = false ∧ t.pkg.rd BEAT_MASTER_ID = m % 2 ^ 64
      ∧ (m = s.pkg.serial → t.pkg.get BEAT_STATUS_ROLE = 2 ∧ t.pkg.beat.epochHeld = true))
  ∧ (∀ (s : State) (dt : Nat), s.pkg.has BEAT_STATUS_ELECTION = true → s.pkg.beat.view.best = none → s.pkg.beat.lostRaised = false →
      s.pkg.beat.electionSince + 10 * Config.secUnits ≤ s.pkg.clock + dt →
    ∃ t, exec (.electionTimeout dt) s = .next t ∧ t.pkg.beat.lostRaised = true ∧ bitAt (t.pkg.rd (IRQ_STATUS .beat)) EV_BEAT_ALIGN_LOST = true
      ∧ t.pkg.has BEAT_STATUS_ELECTION = true)
  ∧ (∀ (s : State) (dt : Nat), s.pkg.beatState = 2 → s.pkg.beat.acquireRaised = false →
      s.pkg.beat.acquiringSince + 10 * Config.secUnits ≤ s.pkg.clock + dt →
    ∃ t, exec (.acquireTimeout dt) s = .next t ∧ t.pkg.beat.acquireRaised = true
      ∧ bitAt (t.pkg.rd (IRQ_STATUS .beat)) EV_BEAT_ALIGN_LOST = true ∧ t.pkg.beatState = 2)

/-- The two-way exchange (R32): a time message on the uplink leaves its stamps t1 and t2 and its offset; delay requests are stamped t3 and sent
up; the partner's are answered with t4; the answer completes the measurement of the path delay. -/
def Obligations.TimeExchange : Prop :=
  (∀ (s : State) (dt link : Nat) (m : TimeMsg), s.pkg.has BEAT_CTRL_ENABLE = true → m.domain = s.pkg.get BEAT_DOMAIN_ID →
      link = s.pkg.get BEAT_UPLINK_LINK →
    ∃ t, exec (.timeMessageReceive dt link m) s = .next t ∧ t.pkg.beat.t1 = m.t1 ∧ t.pkg.beat.t2 = (s.pkg.pass dt).dtime
      ∧ t.pkg.beat.lastMsg = some m
      ∧ t.pkg.rd BEAT_OFFSET = ofSigned 64 (dsub (s.pkg.pass dt).dtime m.t1 - toSigned 64 (s.pkg.rd BEAT_PATH_DELAY) - s.pkg.asym link) % 2 ^ 64)
  ∧ (∀ (s : State) (dt : Nat), s.pkg.has BEAT_CTRL_ENABLE = true → s.pkg.get BEAT_UPLINK_LINK ≠ 0x1F →
    ∃ t, exec (.delayRequestSend dt) s = .next t ∧ t.pkg.beat.t3 = (s.pkg.pass dt).dtime ∧ t.pkg.beat.requestBeats = 0)
  ∧ (∀ (s : State) (dt link t3 : Nat), s.pkg.has BEAT_CTRL_ENABLE = true →
    exec (.delayRequestReceive dt link t3) s
      = .next { s with pkg := (s.pkg.pass dt).sendBeat link 8 (.delayResponse (s.pkg.pass dt).dtime) })
  ∧ (∀ (s : State) (dt link t4 : Nat), s.pkg.has BEAT_CTRL_ENABLE = true → link = s.pkg.get BEAT_UPLINK_LINK →
    ∃ t, exec (.delayResponseReceive dt link t4) s = .next t ∧ t.pkg.beat.measured = true
      ∧ t.pkg.rd BEAT_PATH_DELAY = ofSigned 64 ((dsub s.pkg.beat.t2 s.pkg.beat.t1 + dsub t4 s.pkg.beat.t3) / 2) % 2 ^ 64)

/-- Losing and regaining time (R28, R29, R34, R35, R45): an uplink silent for MISS beats with no other that reports the master is HOLDOVER; a
step that awaits REJOIN is taken at the boundary; the ENABLE bit starts FREE_RUN and ends in DISABLED; the reference locks and is lost. -/
def Obligations.TimeLossAndReturn : Prop :=
  (∀ (s : State) (dt : Nat), s.pkg.has BEAT_CTRL_ENABLE = true → s.pkg.get BEAT_STATUS_ROLE ≠ 2 → s.pkg.get BEAT_UPLINK_LINK ≠ 0x1F →
      s.pkg.get BEAT_HOLDOVER_CFG_MISS ≤ s.pkg.beat.silentBeats → s.pkg.otherUplink = none → s.pkg.beatState = 3 →
    ∃ t, exec (.holdoverEntry dt) s = .next t ∧ t.pkg.beatState = 4 ∧ t.pkg.get BEAT_UPLINK_LINK = 0x1F
      ∧ t.pkg.has BEAT_STATUS_ELECTION = true ∧ bitAt (t.pkg.rd (IRQ_STATUS .beat)) EV_BEAT_HOLDOVER = true)
  ∧ (∀ (s : State) (dt : Nat) (off : Int), s.pkg.has BEAT_CTRL_REJOIN = true → s.pkg.beatState = 5 → s.pkg.beat.stepWaiting = some off →
    ∃ t, exec (.rejoinStep dt) s = .next t ∧ t.pkg.has BEAT_CTRL_REJOIN = false ∧ t.pkg.beatState = 2 ∧ t.pkg.beat.stepWaiting = none)
  ∧ (∀ (s : State) (dt : Nat), s.pkg.has BEAT_CTRL_REJOIN = true → s.pkg.beat.stepWaiting = none →
    ∃ t, exec (.rejoinStep dt) s = .next t ∧ t.pkg.has BEAT_CTRL_REJOIN = false ∧ t.pkg.beatState = s.pkg.beatState
      ∧ t.pkg.dtime = (s.pkg.pass dt).dtime)
  ∧ (∀ (s : State) (dt : Nat), s.pkg.has BEAT_CTRL_ENABLE = false →
    ∃ t, exec (.beatEnable dt true) s = .next t ∧ t.pkg.has BEAT_CTRL_ENABLE = true ∧ t.pkg.beatState = 1 ∧ t.pkg.has BEAT_STATUS_ELECTION = true)
  ∧ (∀ (s : State) (dt : Nat), s.pkg.has BEAT_CTRL_ENABLE = true →
    ∃ t, exec (.beatEnable dt false) s = .next t ∧ t.pkg.has BEAT_CTRL_ENABLE = false ∧ t.pkg.beatState = 0 ∧ t.pkg.ticking = false
      ∧ t.pkg.beat.pend = none)
  ∧ (∀ (s : State) (dt : Nat) (off : Int), s.pkg.has BEAT_REF_CFG_ENABLE = true →
    ∃ t, exec (.refLock dt off) s = .next t ∧ t.pkg.has BEAT_STATUS_REF_LOCKED = true ∧ bitAt (t.pkg.rd (IRQ_STATUS .beat)) EV_BEAT_REF_LOCKED = true)
  ∧ (∀ (s : State) (dt : Nat), s.pkg.has BEAT_STATUS_REF_LOCKED = true →
    ∃ t, exec (.refLoss dt) s = .next t ∧ t.pkg.has BEAT_STATUS_REF_LOCKED = false ∧ bitAt (t.pkg.rd (IRQ_STATUS .beat)) EV_BEAT_REF_LOST = true)

/-! ### Stages, queues and channels (03_stages_queues_versions.md) -/

/-- MICRO_BATCH_RECEIVE (R54, R55, R57): an output from the queue's own sender, with room in the queue, a good CRC and a reachable slot, takes the
tail entry as valid; the payload's slot and the 64-byte descriptor are the only bytes that change. -/
def Obligations.MicroBatchLands : Prop :=
  ∀ (s : State) (dt : Nat) (o : Output), o.stage < 32 →
    (s.pkg.queue o.stage o.dir).sender = some o.src → (s.pkg.queue o.stage o.dir).entries.length < s.pkg.qDepth o.stage o.dir →
    s.pkg.payloadOk o = true →
    s.pkg.rangeOk (s.pkg.qSlotAddr o.stage o.dir (s.pkg.queue o.stage o.dir).tail) o.bytes = true →
    s.pkg.rangeOk (s.pkg.qDescAddr o.stage o.dir (s.pkg.queue o.stage o.dir).tail) 64 = true →
    ∃ t, exec (.microBatchReceive dt o) s = .next t
      ∧ (t.pkg.queue o.stage o.dir).entries
          = (s.pkg.queue o.stage o.dir).entries ++ [((s.pkg.queue o.stage o.dir).tail, .valid)]
      ∧ (t.pkg.queue o.stage o.dir).tail = ((s.pkg.queue o.stage o.dir).tail + 1) % max 1 (s.pkg.qDepth o.stage o.dir)
      ∧ ∀ y, (∀ i, i < o.bytes → physOf (s.pkg.qSlotAddr o.stage o.dir (s.pkg.queue o.stage o.dir).tail + i) ≠ some y) →
          (∀ i, i < 64 → physOf (s.pkg.qDescAddr o.stage o.dir (s.pkg.queue o.stage o.dir).tail + i) ≠ some y) →
          memByte t.pkg.mem y = memByte s.pkg.mem y

/-- Credits and channel opens (R60 to R62): a returned credit adds to an OPEN channel, never beyond the target's depth; a queue that is enabled, not
fed by software and free or already of this sender takes the sender; one that has another sender, or is fed by software, keeps it and refuses; an
accepted open makes the channel OPEN with the queue's depth less its occupied entries; a refused one sets it DOWN and raises its event; an open with no answer for one beat sets it DOWN. -/
def Obligations.ChannelsOpenAndCredit : Prop :=
  (∀ (s : State) (dt stage chan n : Nat), s.pkg.get (STG_CH_STATE_STATE stage chan) = 2 →
    ∃ t, exec (.creditReceive dt stage chan n) s = .next t
      ∧ t.pkg.get (STG_CH_STATE_CREDITS stage chan)
          = min (s.pkg.get (STG_CH_STATE_CREDITS stage chan) + n) (s.pkg.get (STG_CH_STATE_PEER_DEPTH stage chan)) % 2 ^ 7
      ∧ t.pkg.mem = s.pkg.mem)
  ∧ (∀ (s : State) (dt stage : Nat) (d : Dir) (x : Sender), s.pkg.stgState stage ≠ 0 →
      (d = .fwd → s.pkg.has (STG_CTRL_FQ_SW_FEED stage) = false) →
      ((s.pkg.queue stage d).sender = none ∨ (s.pkg.queue stage d).sender = some x) →
    ∃ t, exec (.channelOpenReceive dt stage d x) s = .next t ∧ (t.pkg.queue stage d).sender = some x ∧ t.pkg.mem = s.pkg.mem)
  ∧ (∀ (s : State) (dt stage : Nat) (d : Dir) (x y : Sender), s.pkg.stgState stage ≠ 0 → y ≠ x → (s.pkg.queue stage d).sender = some y →
    ∃ t, exec (.channelOpenReceive dt stage d x) s = .next t ∧ (t.pkg.queue stage d).sender = some y ∧ t.pkg.mem = s.pkg.mem
      ∧ (x.route = 1 → ∃ m ∈ t.pkg.inFlight, m.body = .chanAnswer x.stage x.chan 1 (s.pkg.qDepth stage d) (s.pkg.qUnits stage d)
          (s.pkg.queue stage d).entries.length))
  ∧ (∀ (s : State) (dt stage : Nat) (x : Sender), s.pkg.stgState stage ≠ 0 → s.pkg.has (STG_CTRL_FQ_SW_FEED stage) = true →
    ∃ t, exec (.channelOpenReceive dt stage .fwd x) s = .next t ∧ (t.pkg.stg stage).fq.sender = (s.pkg.stg stage).fq.sender
      ∧ (x.route = 1 → ∃ m ∈ t.pkg.inFlight, m.body = .chanAnswer x.stage x.chan 1 (s.pkg.qDepth stage .fwd) (s.pkg.qUnits stage .fwd)
          (s.pkg.stg stage).fq.entries.length))
  ∧ (∀ (s : State) (dt stage chan depth units used : Nat), stage < 32 → chan < 4 → s.pkg.get (STG_CH_STATE_STATE stage chan) = 1 →
    ∃ t, exec (.channelOpenAnswer dt stage chan 0 depth units used) s = .next t ∧ t.pkg.get (STG_CH_STATE_STATE stage chan) = 2
      ∧ t.pkg.get (STG_CH_STATE_CREDITS stage chan) = (depth - used) % 2 ^ 7
      ∧ t.pkg.get (STG_CH_STATE_PEER_DEPTH stage chan) = depth % 2 ^ 7)
  ∧ (∀ (s : State) (dt stage chan result depth units used : Nat), stage < 32 → chan < 4 → result ≠ 0 →
      s.pkg.get (STG_CH_STATE_STATE stage chan) = 1 →
    ∃ t, exec (.channelOpenAnswer dt stage chan result depth units used) s = .next t ∧ t.pkg.get (STG_CH_STATE_STATE stage chan) = 3
      ∧ bitAt (t.pkg.rd (IRQ_STATUS (.stg stage))) (if result = 1 then EV_STG_CHAN_REFUSED else EV_STG_CHAN_MISMATCH) = true)
  ∧ (∀ (s : State) (dt stage chan at' : Nat), stage < 32 → chan < 4 → (listAt {} (s.pkg.stg stage).chans chan).openSent = some at' →
      at' + s.pkg.periodUnits ≤ s.pkg.clock + dt → s.pkg.get (STG_CH_STATE_STATE stage chan) = 1 →
    ∃ t, exec (.channelOpenTimeout dt stage chan) s = .next t ∧ t.pkg.get (STG_CH_STATE_STATE stage chan) = 3
      ∧ bitAt (t.pkg.rd (IRQ_STATUS (.stg stage))) EV_STG_CHAN_DOWN = true)

/-- Disabling and windows (R51, R76, R78, R79, R86, R87, R366): at the drain deadline a running phase is abandoned; a draining stage without a phase becomes
DISABLED, its stash empty and its windows gone from the FIFO; HOLD and CLEAR; register A and the lower half of B stage an issue value; a push that
fits and passes every check joins the group's FIFO and clears the staged halves; a flush of a DISABLED stage removes that stage's waiting windows
alone. -/
def Obligations.WindowsAndDisabling : Prop :=
  (∀ (s : State) (dt stage : Nat) (ph : Phase), stage < 32 → s.pkg.stgState stage = 3 → (s.pkg.stg stage).phase = some ph →
      (s.pkg.stg stage).drainBeat ≤ s.pkg.beatNo →
    ∃ t, exec (.stageDrainDeadline dt stage) s = .next t ∧ (t.pkg.stg stage).phase = none)
  ∧ (∀ (s : State) (dt stage : Nat), stage < 32 → s.pkg.stgState stage = 3 → (s.pkg.stg stage).phase = none → (s.pkg.stg stage).reopen = false →
      (∀ d x, (s.pkg.queue stage d).sender = some x → x.stage < 32 ∧ x.chan < 4) →
    ∃ t, exec (.stageDisabled dt stage) s = .next t ∧ t.pkg.stgState stage = 0 ∧ (t.pkg.stg stage).stash = []
      ∧ (∀ w ∈ (t.pkg.grp (s.pkg.leader stage)).fifo, w.owner ≠ stage)
      ∧ bitAt (t.pkg.rd (IRQ_STATUS (.hal stage))) EV_HAL_WIN_DISCARDED = true)
  ∧ (∀ (s : State) (dt stage : Nat) (b : Bool),
    ∃ t, exec (.halHold dt stage b) s = .next t ∧ t.pkg.has (HAL_CTRL_HOLD stage) = b ∧ t.pkg.mem = s.pkg.mem)
  ∧ (∀ (s : State) (stage : Nat),
    ∃ t, exec (.halClear stage) s = .next t ∧ t.pkg.has (HAL_CTRL_CLEAR stage) = true ∧ (t.pkg.stg stage).clearAsked = true)
  ∧ (∀ (s : State) (stage value : Nat) (half : Option Nat),
    ∃ t, exec (.winIssueStage stage false half value) s = .next t ∧ (t.pkg.stg stage).issueA = mergeHalf (s.pkg.stg stage).issueA half value
      ∧ (t.pkg.stg stage).issueB = (s.pkg.stg stage).issueB ∧ t.pkg.regs = s.pkg.regs)
  ∧ (∀ (s : State) (stage value : Nat) (half : Option Nat),
    ∃ t, exec (.winIssueStage stage true half value) s = .next t ∧ (t.pkg.stg stage).issueB = mergeHalf (s.pkg.stg stage).issueB (some 0) value
      ∧ (t.pkg.stg stage).issueA = (s.pkg.stg stage).issueA ∧ t.pkg.regs = s.pkg.regs)
  ∧ (∀ (s : State) (stage value : Nat) (half : Option Nat), (s.pkg.grp (s.pkg.leader stage)).fifo.length < 16 →
      s.pkg.windowCheck stage (s.pkg.stg stage).issueA (mergeHalf (s.pkg.stg stage).issueB half value) = 0 →
    ∃ t, exec (.winPush stage half value) s = .next t
      ∧ (t.pkg.grp (s.pkg.leader stage)).fifo
          = (s.pkg.grp (s.pkg.leader stage)).fifo
            ++ [windowOf stage (s.pkg.stg stage).issueA (mergeHalf (s.pkg.stg stage).issueB half value)]
      ∧ (t.pkg.stg stage).issueA = 0 ∧ (t.pkg.stg stage).issueB = 0)
  ∧ (∀ (s : State) (stage : Nat), (s.pkg.stgState stage = 0 ∨ s.pkg.winState (s.pkg.leader stage) = 4) →
    ∃ t, exec (.winFlush stage) s = .next t
      ∧ (t.pkg.grp (s.pkg.leader stage)).fifo = (s.pkg.grp (s.pkg.leader stage)).fifo.filter (fun w => w.owner ≠ stage))

/-- Software feed and flush (R58, R59): a push of n entries that fit makes them valid behind the queue's tail, a larger one, or one
without FQ_SW_FEED, is discarded whole with its event, and a software-fed queue refuses opens; a flush of a DISABLED stage empties the queue and its pointers; of any other stage it is ignored with
an event. -/
def Obligations.QueuePushAndFlush : Prop :=
  (∀ (s : State) (dt stage n : Nat), stage < 32 → n < 128 → s.pkg.has (STG_CTRL_FQ_SW_FEED stage) = true →
      (s.pkg.stg stage).fq.entries.length + n ≤ s.pkg.qDepth stage .fwd →
    ∃ t, exec (.fqPush dt stage n) s = .next t
      ∧ (t.pkg.stg stage).fq.entries
          = (s.pkg.stg stage).fq.entries ++ (List.range n).map (fun i => (((s.pkg.stg stage).fq.tail + i) % max 1 (s.pkg.qDepth stage .fwd), .valid))
      ∧ (t.pkg.stg stage).fq.tail = ((s.pkg.stg stage).fq.tail + n) % max 1 (s.pkg.qDepth stage .fwd))
  ∧ (∀ (s : State) (dt stage n : Nat), n < 128 → s.pkg.has (STG_CTRL_FQ_SW_FEED stage) = true →
      s.pkg.qDepth stage .fwd - (s.pkg.stg stage).fq.entries.length < n →
    exec (.fqPush dt stage n) s = .next { s with pkg := (s.pkg.pass dt).raise (.stg stage) EV_STG_PUSH_OVERFLOW n (arg1Of stage 0) })
  ∧ (∀ (s : State) (dt stage n : Nat), n < 128 → s.pkg.has (STG_CTRL_FQ_SW_FEED stage) = false →
    exec (.fqPush dt stage n) s = .next { s with pkg := (s.pkg.pass dt).raise (.stg stage) EV_STG_PUSH_OVERFLOW n (arg1Of stage 1) })
  ∧ (∀ (s : State) (dt stage : Nat) (x : Sender), s.pkg.stgState stage ≠ 0 → s.pkg.has (STG_CTRL_FQ_SW_FEED stage) = true → x.route = 1 →
    ∃ t, exec (.channelOpenReceive dt stage .fwd x) s = .next t ∧ (t.pkg.stg stage).fq = (s.pkg.stg stage).fq
      ∧ ∃ m ∈ t.pkg.inFlight, m.body = .chanAnswer x.stage x.chan 1 (s.pkg.qDepth stage .fwd) (s.pkg.qUnits stage .fwd)
          (s.pkg.stg stage).fq.entries.length)
  ∧ (∀ (s : State) (stage : Nat), stage < 32 → s.pkg.stgState stage = 0 →
    ∃ t, exec (.qflushForward stage) s = .next t ∧ (t.pkg.stg stage).fq.entries = [] ∧ (t.pkg.stg stage).fq.tail = 0
      ∧ t.pkg.rd (STG_FQ_PTR stage) = 0 ∧ (t.pkg.stg stage).bq = (s.pkg.stg stage).bq)
  ∧ (∀ (s : State) (stage : Nat), stage < 32 → s.pkg.stgState stage = 0 →
    ∃ t, exec (.qflushBackward stage) s = .next t ∧ (t.pkg.stg stage).bq.entries = [] ∧ (t.pkg.stg stage).bq.tail = 0
      ∧ t.pkg.rd (STG_BQ_PTR stage) = 0 ∧ (t.pkg.stg stage).fq = (s.pkg.stg stage).fq)
  ∧ (∀ (s : State) (stage : Nat), s.pkg.stgState stage ≠ 0 →
    exec (.qflushForward stage) s = .next { s with pkg := s.pkg.raise (.stg stage) EV_STG_FLUSH_REFUSED s.pkg.beatNo (arg1Of stage 0) }
    ∧ exec (.qflushBackward stage) s = .next { s with pkg := s.pkg.raise (.stg stage) EV_STG_FLUSH_REFUSED s.pkg.beatNo (arg1Of stage 1) })

/-! ### The Halyard (04_schedule_execution.md) -/

/-- A phase's life (R37, R38, R41, R57, R100, R380): the late start of a backward phase whose every condition holds; the work deadline settles the
cause of each slot given up; the end of compute ends a phase without channels, and marks the end of one whose outputs are still to land;
a landed output ends the phase when it was the last; a hung phase is abandoned, its stage HELD for recovery. -/
def Obligations.PhasesStartAndEnd : Prop :=
  (∀ (s : State) (dt stage : Nat) (w : Window) (idx mb step i : Nat) (st : EntrySt) (e : Desc), stage < 32 →
      (s.pkg.pass dt).beforeDeadline = true → (s.pkg.stg stage).gaveUp = none →
      (s.pkg.grp (s.pkg.leader stage)).cur = some w → w.owner = stage → (s.pkg.grp (s.pkg.leader stage)).next = some (.bwd, idx, mb, step) →
      (s.pkg.pass dt).verdict (s.pkg.leader stage) = .start → (s.pkg.queue stage .bwd).head = some (i, st) → s.pkg.descOf stage .bwd i = some e →
    ∃ t ph, exec (.phaseLateStart dt stage) s = .next t ∧ (t.pkg.stg stage).phase = some ph ∧ ph.dir = .bwd ∧ ph.step = step
      ∧ ph.microBatch = mb ∧ ph.startAt = s.pkg.clock + dt ∧ (t.pkg.grp (s.pkg.leader stage)).started = (s.pkg.grp (s.pkg.leader stage)).started + 1)
  ∧ (∀ (s : State) (dt : Nat),
    ∃ t, exec (.workDeadline dt) s = .next t
      ∧ ∀ st ∈ (s.pkg.pass dt).countingStages, (s.pkg.nextOf st).isSome = true → (s.pkg.stg st).slotUsed = false → (t.pkg.stg st).gaveUp.isSome = true)
  ∧ (∀ (s : State) (dt stage cluster core : Nat) (ph : Phase), (s.pkg.stg stage).phase = some ph → ph.endAt = none → ph.channels = [] →
      (s.pkg.pass dt).computeDone stage ph = true →
    ∃ t, exec (.computeEnd dt stage cluster core) s = .next t ∧ (t.pkg.stg stage).phase = none)
  ∧ (∀ (s : State) (dt stage cluster core : Nat) (ph : Phase) (o : OutDesc), (s.pkg.stg stage).phase = some ph → ph.endAt = none →
      ph.out = some o → allLanded ph = false → (∀ n ∈ ph.channels, s.pkg.get (STG_CH_CFG_ROUTE stage n) ≠ 0) → stage < 32 →
      (∀ n ∈ ph.channels, n < 4) → (∀ e ∈ s.pkg.stageCores stage, e.1 < 576 ∧ e.2 < 18) →
      (s.pkg.pass dt).computeDone stage ph = true →
    ∃ t q, exec (.computeEnd dt stage cluster core) s = .next t ∧ (t.pkg.stg stage).phase = some q ∧ q.endAt = some (s.pkg.clock + dt))
  ∧ (∀ (s : State) (dt stage chan : Nat) (ph : Phase), (s.pkg.stg stage).phase = some ph → ph.endAt.isSome = true → chan ∈ ph.channels →
      (∀ n ∈ ph.channels, n = chan ∨ n ∈ ph.landed) →
    ∃ t, exec (.outputLanded dt stage chan) s = .next t ∧ (t.pkg.stg stage).phase = none)
  ∧ (∀ (s : State) (dt stage chan : Nat) (ph : Phase), (s.pkg.stg stage).phase = some ph → ph.endAt.isSome = true → chan ∈ ph.channels →
      (∃ n ∈ ph.channels, n ≠ chan ∧ n ∉ ph.landed) →
    ∃ t q, exec (.outputLanded dt stage chan) s = .next t ∧ (t.pkg.stg stage).phase = some q ∧ chan ∈ q.landed ∧ q.step = ph.step)
  ∧ (∀ (s : State) (dt stage : Nat) (ph : Phase), stage < 32 → (s.pkg.stg stage).phase = some ph → (∀ n ∈ ph.channels, n < 4) →
      ph.beat + s.pkg.get BEAT_SLOT_CFG_HUNG_BEATS + 1 ≤ s.pkg.beatNo → s.pkg.stgState stage = 2 →
    ∃ t, exec (.phaseHung dt stage) s = .next t ∧ (t.pkg.stg stage).phase = none ∧ (t.pkg.stg stage).recovery = true
      ∧ t.pkg.stgState stage = 4 ∧ t.pkg.get (STG_STATUS_HOLD_CAUSE stage) = 4)


/-! ### A core's commands (05_matrix_engine.md to 10_memory_stacks.md) -/

/-- The sequencer (R100, R103, R106, R186, R200 to R202, R249): a core whose last list is given starts the next list of its phase at the place its position
names, once the layer is ready, and a core of a RUN starts the RUN's one list; NOP and SYNC with no unused bit set complete and do no more (a SYNC
with RPOINT passes a replay point as it completes); PSET computes a predicate register from a constant or from one or two registers, or reads it
from operand SRAM; GATE takes a layer's gate from memory, records it, and in a backward takes the recorded one. -/
def Obligations.SequencerCommands : Prop :=
  (∀ (s : State) (dt c k st : Nat) (ph : Phase), ((s.pkg.pass dt).posOf c k).isSome = true → ((s.pkg.pass dt).core c k).stopped = false →
      ((s.pkg.pass dt).core c k).listGiven = true → (s.pkg.pass dt).filling c k = false → (s.pkg.pass dt).servedRun c = none →
      (s.pkg.pass dt).servedStage c = some (st, ph) → ((s.pkg.pass dt).core c k).serving = some (1 + st, ph.startAt) →
      ((s.pkg.pass dt).core c k).layerPos < (s.pkg.pass dt).listCount st ph →
      (s.pkg.pass dt).layerReady st ph.version ((s.pkg.pass dt).listAtPos st ph ((s.pkg.pass dt).core c k).layerPos).1 = true →
    ∃ t, exec (.layerListStart dt c k) s = .next t ∧ t.pkg = (s.pkg.pass dt).startPhaseList c k st ph
      ∧ (t.pkg.core c k).layerPos = ((s.pkg.pass dt).core c k).layerPos + 1)
  ∧ (∀ (s : State) (dt c k : Nat) (r : RunJob), ((s.pkg.pass dt).posOf c k).isSome = true → ((s.pkg.pass dt).core c k).stopped = false →
      ((s.pkg.pass dt).core c k).listGiven = true → (s.pkg.pass dt).filling c k = false → (s.pkg.pass dt).servedRun c = some r →
      ((s.pkg.pass dt).core c k).serving = some (0, r.startAt) → ((s.pkg.pass dt).core c k).layerPos = 0 →
    ∃ t, exec (.layerListStart dt c k) s = .next t ∧ t.pkg = (s.pkg.pass dt).startRunList c k r
      ∧ (t.pkg.core c k).layerPos = 1 ∧ (t.pkg.core c k).left = r.len ∧ (t.pkg.core c k).ordinal = 0)
  ∧ CommandRuns 0x00 .nop (fun _ _ _ _ h => strayBits h.word baseFields = false) (fun p _ _ _ _ => p)
  ∧ CommandRuns 0x01 .sync (fun _ _ _ _ h => strayBits h.word (baseFields ++ [(8, 1)]) = false) (fun p _ _ _ _ => p)
  ∧ CommandRuns 0xA0 .pset (fun _ _ _ _ h => psetForm h.word = 0 ∧ cw h.word 32 4 ≤ 5 ∧ strayBits h.word (baseFields ++ [(8, 3), (32, 4)] ++ [(56, 1)]) = false)
      (fun p c k _ h => p.setCore c k ((p.core c k).setPred (cw h.word 32 4) (decide (cw h.word 56 1 = 1))))
  ∧ CommandRuns 0xA0 .pset (fun _ _ _ _ h => (psetForm h.word = 1 ∨ psetForm h.word = 2) ∧ cw h.word 32 4 ≤ 5
        ∧ strayBits h.word (baseFields ++ [(8, 3), (32, 4)] ++ [(40, 4)]) = false)
      (fun p c k _ h => p.setCore c k ((p.core c k).setPred (cw h.word 32 4)
        (if psetForm h.word = 1 then (p.core c k).pred (cw h.word 40 4) else !(p.core c k).pred (cw h.word 40 4))))
  ∧ CommandRuns 0xA0 .pset (fun _ _ _ _ h => (psetForm h.word = 3 ∨ psetForm h.word = 4) ∧ cw h.word 32 4 ≤ 5
        ∧ strayBits h.word (baseFields ++ [(8, 3), (32, 4)] ++ [(40, 8)]) = false)
      (fun p c k _ h => p.setCore c k ((p.core c k).setPred (cw h.word 32 4)
        (if psetForm h.word = 3 then (p.core c k).pred (cw h.word 40 4) && (p.core c k).pred (cw h.word 44 4)
          else (p.core c k).pred (cw h.word 40 4) || (p.core c k).pred (cw h.word 44 4))))
  ∧ CommandRuns 0xA0 .pset (fun _ _ _ _ h => psetForm h.word = 5 ∧ cw h.word 32 4 ≤ 5 ∧ 16 * cw h.word 64 16 + 4 ≤ OP_BYTES
        ∧ strayBits h.word (baseFields ++ [(8, 3), (32, 4)] ++ [(64, 16)]) = false)
      (fun p c k _ h => p.setCore c k ((p.core c k).setPred (cw h.word 32 4) (decide (leNat (p.opRead c k (16 * cw h.word 64 16) 4) ≠ 0))))
  ∧ CommandRuns 0xA0 .pset (fun p _ _ x h => psetForm h.word = 6 ∧ cw h.word 32 4 = 6 ∧ p.feature 11 = true ∧ x.run = none ∧ x.dir = .fwd
        ∧ strayBits h.word (baseFields ++ [(8, 3), (32, 4)] ++ [(128, 48)]) = false ∧ cw h.word 128 48 % 4 = 0
        ∧ ∃ b, p.load (cw h.word 128 48 + 4 * x.microBatch) 4 = .ok b)
      (fun p c k x h => match p.load (cw h.word 128 48 + 4 * x.microBatch) 4 with
        | .ok b => (p.recordGate x (decide (leNat b ≠ 0))).takeGate c k (decide (leNat b ≠ 0))
        | _ => p)
  ∧ CommandRuns 0xA0 .pset (fun p _ _ x h => psetForm h.word = 6 ∧ cw h.word 32 4 = 6 ∧ p.feature 11 = true ∧ x.run = none ∧ x.dir = .bwd
        ∧ strayBits h.word (baseFields ++ [(8, 3), (32, 4)] ++ [(128, 48)]) = false)
      (fun p c k x _ => p.takeGate c k (p.recordedGate x))


/-- The element-wise vector commands (R107, R120): each result element is the function of the operands' elements at its place; FMA rounds once; MASK_BITS
and SIGN_BITS write one bit an element; the destination, which fits, reads back as the bytes written, in each of the three spaces; in operand and
cluster SRAM every other byte is unchanged, and stack memory is. -/
def Obligations.VectorElementwise : Prop :=
  (∀ e ∈ [(0x40, Instr.add, fadd), (0x41, Instr.mul, fmul), (0x43, Instr.max, fmax), (0x44, Instr.min, fmin)],
    CommandRuns e.1 e.2.1 (fun p c _ _ h => p.vPasses c h.word [(1, 4 * vCount h.word), (3, 4 * vCount h.word)] [(2, 4 * vCount h.word)] [])
      (fun p c k _ h => p.vWrite c k h.word 2 (packCodes 32 (List.zipWith e.2.2 (p.vWords c k h.word 1) (p.vWords c k h.word 3)))))
  ∧ CommandRuns 0x42 .fma
      (fun p c _ _ h => p.vPasses c h.word [(1, 4 * vCount h.word), (3, 4 * vCount h.word), (2, 4 * vCount h.word)] [] [])
      (fun p c k _ h => p.vWrite c k h.word 2 (packCodes 32
        (List.zipWith (fun ab z => ffma ab.1 ab.2 z) ((p.vWords c k h.word 1).zip (p.vWords c k h.word 3)) (p.vWords c k h.word 2))))
  ∧ (∀ e ∈ [(0x48, Instr.exp), (0x49, Instr.log), (0x4A, Instr.rcp), (0x4B, Instr.rsqrt), (0x4C, Instr.tanh), (0x4D, Instr.gelu), (0x4E, Instr.silu),
      (0x4F, Instr.sigmoid)],
    CommandRuns e.1 e.2 (fun p c _ _ h => p.vPasses c h.word [(1, 4 * vCount h.word)] [(2, 4 * vCount h.word)] [])
      (fun p c k _ h => p.vWrite c k h.word 2 (packCodes 32 ((p.vWords c k h.word 1).map (vecFn e.1)))))
  ∧ (∀ e ∈ [(0x51, Instr.maskBits, maskBit), (0x52, Instr.signBits, signOf)],
    CommandRuns e.1 e.2.1 (fun p c _ _ h => p.vPasses c h.word [(1, 4 * vCount h.word)] [(2, (vCount h.word + 7) / 8)] [])
      (fun p c k _ h => p.vWrite c k h.word 2 (packCodes 1 ((p.vWords c k h.word 1).map (fun v => b2n (e.2.2 v))))))
  ∧ ∀ (p : Package) (c k : Nat) (w : CmdWord) (bs : List Byte), vSpace w 2 ≠ 3 →
    (p.vWrite c k w 2 bs).vRead c k w 2 bs.length = bs ∧ (p.vWrite c k w 2 bs).mem = p.mem
    ∧ (vSpace w 2 ≠ 2 → ∀ a, (a < vAddr w 2 ∨ vAddr w 2 + bs.length ≤ a) →
        (p.vWrite c k w 2 bs).locRead c k (decide (vSpace w 2 = 1)) a 1 = p.locRead c k (decide (vSpace w 2 = 1)) a 1)
    ∧ (vSpace w 2 = 2 → ∀ a, (a < vAddr w 2 ∨ vAddr w 2 + bs.length ≤ a) →
        ((p.vWrite c k w 2 bs).core c k).slotBytes a 1 = (p.core c k).slotBytes a 1)

/-- The other vector commands (R120, R160, R161, R163, R173, R188): ROWREDUCE, RNG, DERIV and CVT with what each writes; a measuring pass
writes nothing. -/
def Obligations.VectorConversions : Prop :=
  CommandRuns 0x54 .rowreduce (fun p c _ _ h => p.vPasses c h.word [(1, 4 * vCount h.word)] [(2, 4 * rowCount h.word)] [(112, 16)])
      (fun p c k _ h => { p with fresh := p.fresh + rowCount h.word }.vWrite c k h.word 2 (packCodes 32 (p.rowResults c k h.word)))
  ∧ CommandRuns 0x55 .rng (fun p c _ _ h => p.vPasses c h.word [] [(2, 2 * vCount h.word)] [])
      (fun p c k x h => p.vWrite c k h.word 2 (packCodes 16 ((List.range (vCount h.word)).map (fun e => p.draw16 x h.ordinal 1 e))))
  ∧ CommandRuns 0x53 .deriv (fun p c _ _ h => derivLegal h.word = true ∧ derivIsBits h.word = true
        ∧ p.vPasses c h.word [(1, derivSpan h.word), (3, 4 * vCount h.word)] [(2, 4 * vCount h.word)] (derivFields h.word))
      (fun p c k _ h => p.vWrite c k h.word 2 (packCodes 32 (p.derivBits c k h.word)))
  ∧ (∀ (q : Package) (scale : Nat) (quant : Option (Nat × Int × Nat)),
    CommandRuns 0x53 .deriv (fun p c _ x h => derivLegal h.word = true ∧ derivIsBits h.word = false
        ∧ p.vPasses c h.word [(1, derivSpan h.word), (3, 4 * vCount h.word)] [(2, 4 * vCount h.word)] (derivFields h.word)
        ∧ p.resolve x (vImm h.word) none = .ok q scale quant)
      (fun _ c k _ h => q.vWrite c k h.word 2 (packCodes 32 (q.derivValues c k h.word scale))))
  ∧ CommandRuns 0x50 .cvt (fun p c _ _ h => p.cvtCheck h.word = 0 ∧ cvtIsAmax h.word = true
        ∧ p.vPasses c h.word (cvtSrcs h.word) (cvtDsts h.word) [(112, 16), (160, 32)])
      (fun p c k x h => cvtAmax p c k x h.word (p.cvtValues c k h.word))
  ∧ (∀ (q : Package) (scale : Nat) (quant : Option (Nat × Int × Nat)),
    CommandRuns 0x50 .cvt (fun p c _ x h => p.cvtCheck h.word = 0 ∧ cvtIsAmax h.word = false
        ∧ p.vPasses c h.word (cvtSrcs h.word) (cvtDsts h.word) [(112, 16), (160, 32)]
        ∧ p.resolve x (vImm h.word) (some (cvtDst h.word)) = .ok q scale quant)
      (fun p c k x h => q.cvtRun c k x h (p.cvtValues c k h.word) scale quant))

/-- The matrix engine (R98, R107 to R119, R131, R136, R123): an MMA whose checks pass and whose group and slot allow it adds its products; a core
whose gap outlasts TRIM_WINDOW starts the ramp-down, which falls a level an interval and clock-gates at 0. -/
def Obligations.MatrixEngine : Prop :=
  (∀ opens : Bool, CommandRuns 0x10 .mma (fun p c k _ h => p.mmaCheck c k h.word = 0
        ∧ bindCase (p.core c k) (mmaGroup h.word) (mmaSlot h.word) (mmaBegin h.word) (coveredElems h.word) = some opens)
      (fun p c k x h => p.mmaRun c k x h opens))
  ∧ (∀ (s : State) (dt c k : Nat), c < 576 → k < 18 → ((s.pkg.core c k).array = .trim ∨ (s.pkg.core c k).array = .up) →
      (s.pkg.core c k).busyUntil + (s.pkg.pass dt).cycles (c / 72) (s.pkg.get (XE_TRIM_CFG_TRIM_WINDOW c)) ≤ s.pkg.clock + dt →
    ∃ t, exec (.trimWindowEnd dt c k) s = .next t ∧ (t.pkg.core c k).level = (s.pkg.core c k).level - 1
      ∧ (t.pkg.core c k).array = (if (s.pkg.core c k).level ≤ 1 then .idle else .down)
      ∧ bitAt (t.pkg.rd (XE_STATUS c)) k = decide (1 < (s.pkg.core c k).level))
  ∧ (∀ (s : State) (dt c k : Nat), c < 576 → k < 18 → (s.pkg.core c k).array = .down →
    ∃ t, exec (.rampDownStep dt c k) s = .next t ∧ (t.pkg.core c k).level = (s.pkg.core c k).level - 1
      ∧ (t.pkg.core c k).array = (if (s.pkg.core c k).level ≤ 1 then .idle else .down)
      ∧ bitAt (t.pkg.rd (XE_STATUS c)) (32 + k) = decide (1 < (s.pkg.core c k).level))

/-- The accumulator's commands (R137, R139, R143 to R148): what each leaves when its checks pass. -/
def Obligations.AccumulatorCommands : Prop :=
  (∀ (q : Package) (scale : Nat) (quant : Option (Nat × Int × Nat)) (mask : MaskEnd), mask ≠ .bad → mask ≠ .poisoned →
    CommandRuns 0x20 .accDrain (fun p c k x h => p.drainCause (p.core c k) h.word = 0
        ∧ p.resolve x (cw h.word 160 32) (some (drainCode h.word)) = .ok q scale quant ∧ q.maskFor (p.core c k) x quant = mask)
      (fun p c k x h => q.drainRun (p.core c k) c k x h mask scale quant))
  ∧ CommandRuns 0x21 .accLoad (fun p c k _ h => accLoadCheck (p.core c k) h.word = 0 ∧ p.accLoadPoison c h.word = false)
      (fun p c k _ h => p.accLoadRun c k h.word)
  ∧ CommandRuns 0x22 .accZero (fun p c k _ h => strayBits h.word (baseFields ++ [(24, 4)]) = false ∧ ((p.core c k).slot (accSlotOf h.word)).opened = 0)
      (fun p c k _ h => p.setCore c k ((p.core c k).setSlot (accSlotOf h.word) {}))
  ∧ CommandRuns 0x23 .accGcfg (fun p c k _ h => strayBits h.word (baseFields ++ [(28, 3), (32, 8)]) = false
        ∧ ((p.core c k).group (accGroupOf h.word)).slot = none)
      (fun p c k _ h => p.setCore c k ((p.core c k).setGroup (accGroupOf h.word) { (p.core c k).group (accGroupOf h.word) with s := cw h.word 32 8 + 1 }))
  ∧ CommandRuns 0x24 .accSpill (fun p c k _ h => strayBits h.word (baseFields ++ [(28, 3)]) = false
        ∧ ((p.core c k).group (accGroupOf h.word)).slot.isSome = true)
      (fun p c k x h => p.each ((List.range 8).filter (fun b => 0 < listAt 0 ((p.core c k).group (accGroupOf h.word)).steps b))
        (fun p b => p.spillBlock c k x h.index (accGroupOf h.word) b))
  ∧ (∀ j : Nat, CommandRuns 0x25 .accClose (fun p c k _ h => strayBits h.word (baseFields ++ [(28, 3)]) = false
        ∧ ((p.core c k).group (accGroupOf h.word)).slot = some j)
      (fun p c k x h => p.endElems c k x h.index (accGroupOf h.word) (slotElems.filter ((p.core c k).slot j).isOpen)))
  ∧ (∀ j : Nat, CommandRuns 0x26 .accDiscard (fun p c k _ h => strayBits h.word (baseFields ++ [(28, 3)]) = false
        ∧ ((p.core c k).group (accGroupOf h.word)).slot = some j)
      (fun p c k _ h => (p.setCore c k ((p.core c k).discard (accGroupOf h.word) j)).showOpen c k))
  ∧ CommandRuns 0x27 .accRsStore (fun _ _ _ _ h => strayBits h.word (baseFields ++ [(8, 2), (32, 3), (64, 16)]) = false
        ∧ locFits (bitAt h.word.toNat 8) (accAddr h.word) 256 = true)
      (fun p c k _ h => (p.locWrite c k (bitAt h.word.toNat 8) (accAddr h.word)
          ((List.range 32).flatMap (fun r => leBytes 4 ((p.core c k).rowStat (cw h.word 32 3) r).1)
            ++ (List.range 32).flatMap (fun r => leBytes 4 ((p.core c k).rowStat (cw h.word 32 3) r).2))).when (bitAt h.word.toNat 9)
        (fun p => p.modCore c k (fun co => co.clearRowStat (cw h.word 32 3))))
  ∧ CommandRuns 0x28 .accTsStore (fun _ _ _ _ h => strayBits h.word (baseFields ++ [(8, 1), (24, 4), (64, 16)]) = false
        ∧ locFits (bitAt h.word.toNat 8) (accAddr h.word) 8 = true)
      (fun p c k _ h => p.locWrite c k (bitAt h.word.toNat 8) (accAddr h.word)
        (leBytes 8 (((p.core c k).slot (accSlotOf h.word)).status ((p.core c k).boundTo (accSlotOf h.word)).isSome)))

/-- Data movement (R229 to R234, R382): a load moves its rows from memory to local SRAM and, into operand SRAM, enters the operand map; a store
moves its rows to memory or to the phase's output; DM_LOCAL copies between the SRAMs; DM_OUTDESC describes the output once. -/
def Obligations.DataMover : Prop :=
  (∀ (s : State) (dt c k base : Nat) (bound : Option Nat) (x : Ctx) (w : CmdWord) (found : List (Nat × LineCheck)),
      CoreTakes (((s.pkg.pass dt).loadFinds c k w found).pass 0) c k x (withOpcode 0x80 w) → dmCheck (withOpcode 0x80 w) = 0 →
      ((((s.pkg.pass dt).loadFinds c k w found).pass 0).taken c k (withOpcode 0x80 w)).modeBase c x true (withOpcode 0x80 w) = .mem base bound →
      dmWithin (withOpcode 0x80 w) bound (dmOffsets x (withOpcode 0x80 w)) = true →
      (∀ o ∈ dmOffsets x (withOpcode 0x80 w), (((s.pkg.pass dt).loadFinds c k w found).pass 0).rangeOk (base + o) (dmRowBytes w) = true
        ∧ (((s.pkg.pass dt).loadFinds c k w found).pass 0).rangePoisoned (base + o) (dmRowBytes w) = false) →
    ∃ t, exec (.dmLoad dt c k w found) s = .next t
      ∧ t.pkg = (((((((s.pkg.pass dt).loadFinds c k w found).pass 0).taken c k (withOpcode 0x80 w)).each
          ((dmLocals w).zip (dmOffsets x w)) (fun p e => (p.locWrite c k (dmCluster w) e.1 (p.bytesAt (base + e.2) (dmRowBytes w))).countReadBy (c / 72) (base + e.2)
            (dmRowBytes w))).when (!dmCluster w) (fun p => p.mapLoad c k (withOpcode 0x80 w))).complete c k
          ((((s.pkg.pass dt).loadFinds c k w found).pass 0).heldFor c k (withOpcode 0x80 w))))
  ∧ (∀ (base : Nat) (bound : Option Nat), CommandRuns 0x81 .dmStore (fun p c _ x h => dmCheck h.word = 0 ∧ p.modeBase c x false h.word = .mem base bound
        ∧ dmWithin h.word bound (dmOffsets x h.word) = true ∧ (∀ o ∈ dmOffsets x h.word, p.rangeOk (base + o) (dmRowBytes h.word) = true)
        ∧ (dmCluster h.word = true → ∀ a ∈ dmLocals h.word, p.cluPoisoned c a (dmRowBytes h.word) = false))
      (fun p c k x h => p.each ((dmLocals h.word).zip (dmOffsets x h.word))
        (fun p e => p.storeBy (c / 72) (base + e.2) (p.locRead c k (dmCluster h.word) e.1 (dmRowBytes h.word)))))
  ∧ (∀ b : Nat, CommandRuns 0x81 .dmStore (fun p c _ x h => dmCheck h.word = 0 ∧ p.modeBase c x false h.word = .out b
        ∧ dmWithin h.word (some b) (dmOffsets x h.word) = true
        ∧ (dmCluster h.word = true → ∀ a ∈ dmLocals h.word, p.cluPoisoned c a (dmRowBytes h.word) = false))
      (fun p c k x h => p.modStg x.stage (fun y => { y with phase := y.phase.map (fun ph =>
        { ph with outBuf := ((dmLocals h.word).zip (dmOffsets x h.word)).foldl
                              (fun m e => putOut m e.2 (p.locRead c k (dmCluster h.word) e.1 (dmRowBytes h.word))) ph.outBuf }) })))
  ∧ CommandRuns 0x81 .dmStore (fun p c _ x h => dmCheck h.word = 0 ∧ p.modeBase c x false h.word = .nothing) (fun p _ _ _ _ => p)
  ∧ CommandRuns 0x82 .dmLocal (fun p c _ _ h => dmLocalCheck h.word = 0
        ∧ (dmCluster h.word = true ∨ ∀ a ∈ dmClusterRows h.word, p.cluPoisoned c a (dmRowBytes h.word) = false))
      (fun p c k _ h => if dmCluster h.word
        then p.each ((dmLocals h.word).zip (dmClusterRows h.word)) (fun p e => p.cluWrite c e.2 (p.opRead c k e.1 (dmRowBytes h.word)))
        else (p.each ((dmLocals h.word).zip (dmClusterRows h.word)) (fun p e => p.opWrite c k e.1 (p.cluRead c e.2 (dmRowBytes h.word)))).mapLoad c k h.word)
  ∧ (∀ (q : Package) (scale : Nat) (quant : Option (Nat × Int × Nat)),
    CommandRuns 0x83 .dmOutdesc (fun p c k x h => strayBits h.word (baseFields ++ [(128, 16), (160, 64)]) = false ∧ x.recompute = false
        ∧ (∃ ph, p.phaseOf x = some ph ∧ ph.out = none ∧ cw h.word 160 32 ≤ (p.outBound x.stage ph).getD (cw h.word 160 32))
        ∧ p.resolve x (cw h.word 192 32) none = .ok q scale quant ∧ (p.core c k).replaying = false)
      (fun _ _ _ x h => q.modStg x.stage (fun y => { y with phase := y.phase.map (fun r =>
        { r with out := some { format := cw h.word 128 16, bytes := cw h.word 160 32, scale := scale } }) })))

/-- A command error (R105, R121): an opcode that no row names, and a command whose check fails, each stop the stage: the error's registers, its
event, the phase without output, the stage HELD with cause 1. An opcode of a listed range comes by its own row. -/
def Obligations.CommandErrors : Prop :=
  (∀ (s : State) (dt c k : Nat) (x : Ctx) (w : CmdWord), CoreTakes (s.pkg.pass dt) c k x w → x.run = none → opcodeDefined (opcodeOf w) = false →
      c < 576 → x.stage < 32 → (∀ ph, (s.pkg.stg x.stage).phase = some ph → ∀ n ∈ ph.channels, n < 4) →
    ∃ t, exec (.reservedOpcode dt c k w) s = .next t ∧ (t.pkg.core c k).stopped = true ∧ (t.pkg.stg x.stage).phase = none
      ∧ bitAt (t.pkg.rd (IRQ_STATUS (.xe c))) EV_XE_CMD_INVALID = true)
  ∧ (∀ (s : State) (dt c k : Nat) (w : CmdWord), opcodeDefined (opcodeOf w) = true →
    exec (.reservedOpcode dt c k w) s = .next { s with pkg := s.pkg.pass dt })
  ∧ CommandFails 0x00 .nop (fun _ _ _ _ h cause => strayBits h.word baseFields = true ∧ cause = 1)
  ∧ CommandFails 0x40 .add (fun _ _ _ _ h cause => cause = vCheck h.word [(1, 4 * vCount h.word), (3, 4 * vCount h.word), (2, 4 * vCount h.word)] []
        ∧ cause ≠ 0)
  ∧ CommandFails 0x10 .mma (fun p c k _ h cause => cause = p.mmaCheck c k h.word ∧ cause ≠ 0)
  ∧ CommandFails 0x22 .accZero (fun p c k _ h cause => strayBits h.word (baseFields ++ [(24, 4)]) = false
        ∧ ((p.core c k).slot (accSlotOf h.word)).opened ≠ 0 ∧ cause = 10)
  ∧ CommandFails 0x80 (fun dt c k w => .dmLoad dt c k w []) (fun _ _ _ _ h cause => cause = dmCheck h.word ∧ cause ≠ 0)
  ∧ (∀ (p : Package) (c k opcode index cause : Nat) (x : Ctx), x.run = none → c < 576 → x.stage < 32 → p.stgState x.stage = 2 →
      (∀ ph, (p.stg x.stage).phase = some ph → ∀ n ∈ ph.channels, n < 4) →
    (p.cmdError c k x opcode index cause).stgState x.stage = 4 ∧ (p.cmdError c k x opcode index cause).get (STG_STATUS_HOLD_CAUSE x.stage) = 1
      ∧ ((p.cmdError c k x opcode index cause).stg x.stage).phase = none
      ∧ (p.cmdError c k x opcode index cause).rd (XE_CMD_ERR_LAST c) = errWord cause k opcode x.stage index)

/-- Expert dispatch (R203, R205, R207 to R214): SKIPGEN writes its skip bytes; a forward MOE_ROUTE joins its table's routing and waits for placement;
MOE_WAIT and MOE_COMBINE wait; MOE_RETURN sends its rows once; recompute runs take what the log holds and wait for nothing. -/
def Obligations.ExpertCommands : Prop :=
  CommandRuns 0xA1 .skipgen (fun p _ _ _ h => p.skipCheck h.word = 0)
      (fun p c k _ h => (p.opWrite c k (16 * cw h.word 96 16) ((p.skipBytes c k h.word).map (BitVec.ofNat 8))).bump64 MOE_SKIPGEN_BLOCKS
        ((p.skipBytes c k h.word).map (fun b => (bitsSet 4 b).length)).sum)
  ∧ (∀ (q : Package) (tb : MoeTable), CommandWaits 0xA4 .moeRoute (fun p c k x h => p.useTable x h.word routeFields = .ok q tb ∧ q.routeCheck tb h.word = 0
        ∧ q.routePoison tb h.word = false ∧ x.dir = .fwd ∧ x.recompute = false ∧ ((q.core c k).replaying = false ∨ (q.moeRoute (x.stage, cw h.word 32 6, q.startOf x)).placed = false))
      (fun _ c k x h => (q.countReadBy (c / 72) (routeAt tb h.word) (roCount h.word * tb.rowStride)).setMoeRoute (x.stage, cw h.word 32 6, q.startOf x)
        ((q.moeRoute (x.stage, cw h.word 32 6, q.startOf x)).join (routeIssue c k h.word))))
  ∧ (∀ (q : Package) (tb : MoeTable), CommandRuns 0xA4 .moeRoute (fun p c k x h => p.useTable x h.word routeFields = .ok q tb ∧ q.routeCheck tb h.word = 0
        ∧ q.routePoison tb h.word = false ∧ x.recompute = true ∧ (q.core c k).replaying = false)
      (fun _ c k x h => q.opWrite c k (roPlace h.word) (placeBytes tb.kRoute
        (q.loggedPlaces tb x.stage x.step x.microBatch (roBase h.word) (roCount h.word)) (roBase h.word) (roCount h.word))))
  ∧ (∀ (q : Package) (tb : MoeTable), CommandWaits 0xA5 .moeWait (fun p c k x h => p.useTable x h.word [(40, 8), (56, 3), (64, 16)] = .ok q tb
        ∧ q.waitCheck x tb h.word = 0 ∧ x.recompute = false ∧ (q.core c k).replaying = false ∧ q.waitClash x h.word = none)
      (fun _ _ _ _ _ => q))
  ∧ (∀ (q : Package) (tb : MoeTable), CommandRuns 0xA5 .moeWait (fun p _ _ x h => p.useTable x h.word [(40, 8), (56, 3), (64, 16)] = .ok q tb
        ∧ q.waitCheck x tb h.word = 0 ∧ x.recompute = true ∧ q.moeTable (cw h.word 32 6) = some tb)
      (fun _ c k x h => q.waitResult c k x h.word tb (q.expert tb (cw h.word 40 8)) (cw h.word 40 8)
        (q.forwardCounts x (cw h.word 32 6) (cw h.word 40 8))))
  ∧ (∀ (q : Package) (tb : MoeTable), CommandRuns 0xA6 .moeReturn (fun p _ _ x h => p.useTable x h.word [(40, 8), (128, 48)] = .ok q tb
        ∧ q.returnCheck tb h.word = 0 ∧ q.rangePoisoned (roAddr h.word) (q.returnBytes tb h.word) = false ∧ x.recompute = false
        ∧ q.moe.sent.contains (x.stage, cw h.word 32 6, cw h.word 40 8, q.startOf x) = false)
      (fun _ _ _ x h => q.returnRun x tb h.word))
  ∧ (∀ (q : Package) (tb : MoeTable), CommandWaits 0xA7 .moeCombine (fun p c k x h => p.useTable x h.word routeFields = .ok q tb
        ∧ q.combineCheck tb h.word = 0 ∧ x.recompute = false ∧ (q.core c k).replaying = false)
      (fun _ _ _ _ _ => q))
  ∧ (∀ (q : Package) (tb : MoeTable), CommandRuns 0xA7 .moeCombine (fun p _ _ x h => p.useTable x h.word routeFields = .ok q tb
        ∧ q.combineCheck tb h.word = 0 ∧ x.recompute = true)
      (fun _ c k x h => q.combine c k x tb h.word))

/-- What ends the waits (R173, R209 to R213): the placement of a table whose every core has issued; a header with its rows at its owner; the wait whose
senders have all come; the deadline that gives up the rest; the combine likewise; the barrier whose every core has published. -/
def Obligations.ExpertEvents : Prop :=
  (∀ (s : State) (dt st ti : Nat) (ph : Phase) (tb : MoeTable) (i : RouteIssue) (r : List RouteIssue) (x : Ctx),
      ((s.pkg.pass dt).stg st).phase = some ph → ph.dir = .fwd → (s.pkg.pass dt).moeTable ti = some tb →
      ((s.pkg.pass dt).moeRoute (st, ti, ph.startAt)).placed = false → ((s.pkg.pass dt).moeRoute (st, ti, ph.startAt)).issues = i :: r →
      (s.pkg.pass dt).allIssued st ((s.pkg.pass dt).moeRoute (st, ti, ph.startAt)) = true → (s.pkg.pass dt).ctx i.cluster i.core = some x →
      rangesOk tb.tokensMax (i :: r) = true →
    exec (.moePlacement dt st ti) s = .next { s with pkg := (((s.pkg.pass dt).placeTokens x ti tb
      ((s.pkg.pass dt).moeRoute (st, ti, ph.startAt))).each (i :: r) (fun p j => p.placedAt j)) })
  ∧ (∀ (s : State) (dt : Nat) (h : MoeHeader) (rows : List Byte),
    exec (.moeHeaderReceive dt h rows) s
      = .next { s with pkg := ((s.pkg.pass dt).arrived (moeHeaderMsg h rows)).moeArrive { h with used := false } rows })
  ∧ (∀ (s : State) (dt st ti e step mb : Nat) (d : Dir) (rows : List Byte),
    exec (.moeReturnReceive dt st ti e step mb d rows) s
      = .next { s with pkg := ((s.pkg.pass dt).arrived (moeReturnMsg st ti e step mb d rows)).returnArrive st ti e step mb d rows })
  ∧ (∀ (s : State) (dt c k : Nat) (x : Ctx) (h : Held) (q : Package), (s.pkg.pass dt).waiting c k 0xA5 = some (x, h) →
      (s.pkg.pass dt).waitDone c k x h.word = some q →
    exec (.moeWaitComplete dt c k) s = .next { s with pkg := (q.countWait c h).finishSeq c k })
  ∧ (∀ (s : State) (dt c k : Nat) (x : Ctx) (h : Held) (q : Package), (s.pkg.pass dt).waiting c k 0xA5 = some (x, h) →
      (s.pkg.pass dt).deadlinePassed h = true → ((s.pkg.pass dt).giveUpSenders x h.word).waitDone c k x h.word = some q →
    exec (.moeArriveDeadline dt c k) s = .next { s with pkg := (q.countWait c h).finishSeq c k })
  ∧ (∀ (s : State) (dt c k : Nat) (x : Ctx) (h : Held) (q : Package), (s.pkg.pass dt).waiting c k 0xA7 = some (x, h) →
      (s.pkg.pass dt).combineDone c k x h.word = some q →
    exec (.moeCombineComplete dt c k) s = .next { s with pkg := (q.countWait c h).finishSeq c k })
  ∧ (∀ (s : State) (dt c k : Nat) (x : Ctx) (h : Held) (q : Package), (s.pkg.pass dt).waiting c k 0xA7 = some (x, h) →
      (s.pkg.pass dt).deadlinePassed h = true → ((s.pkg.pass dt).giveUpReturns c k x h.word).combineDone c k x h.word = some q →
    exec (.moeReturnDeadline dt c k) s = .next { s with pkg := (q.countWait c h).finishSeq c k })
  ∧ (∀ (s : State) (dt st slot : Nat), (s.pkg.barrier st slot).exponent = none → s.pkg.stageCores st ≠ [] →
      (∀ e ∈ s.pkg.stageCores st, e ∈ (s.pkg.barrier st slot).cores) →
    exec (.amaxBarrierRelease dt st slot) s = .next { s with pkg := (((s.pkg.pass dt).releaseBarrier st slot).each (s.pkg.stageCores st)
      (fun p e => p.run e.1 e.2)) }
    ∧ (((s.pkg.pass dt).releaseBarrier st slot).barrier st slot).exponent.isSome = true)

/-! ### Memory stacks, Pour and gather (10_memory_stacks.md) -/

/-- Stack temperature and scrub (R225, R226, R228): a reading shows, doubles refresh above 85 °C and caps from 93 °C until it falls below 90 °C; a clean
line changes no byte and no poison; a corrected one is counted; an uncorrectable one is poisoned, counted and raises the event, and `MEM_UE_LAST`
names it; the stack's last line completes a pass. -/
def Obligations.StackUpkeep : Prop :=
  (∀ (s : State) (dt k temp : Nat), k < 32 → s.pkg.stackFitted k = true → temp < 256 →
    ∃ t, exec (.stackThermal dt k temp) s = .next t ∧ t.pkg.get (MEM_STATUS_TEMP k) = temp
      ∧ t.pkg.has (MEM_STATUS_REFRESH_2X k) = decide (85 < temp)
      ∧ t.pkg.has (MEM_STATUS_THERMAL_CAP k) = (decide (93 ≤ temp) || (decide (90 ≤ temp) && s.pkg.has (MEM_STATUS_THERMAL_CAP k)))
      ∧ t.pkg.mem = s.pkg.mem)
  ∧ (∀ (s : State) (dt k temp : Nat), k < 32 → s.pkg.stackFitted k = true → 93 ≤ temp → temp < 256 → s.pkg.has (MEM_STATUS_THERMAL_CAP k) = false →
    ∃ t, exec (.stackThermal dt k temp) s = .next t ∧ bitAt (t.pkg.rd (IRQ_STATUS (.mem k))) EV_MEM_THERMAL_CAP = true)
  ∧ (∀ (s : State) (dt k ofs : Nat), s.pkg.stackFitted k = true → s.pkg.dieFenced (k / 4) = false → ofs < 2 ^ 36 →
    ∃ t, exec (.scrubRead dt k ofs .clean) s = .next t ∧ t.pkg.mem = s.pkg.mem ∧ t.pkg.poison = s.pkg.poison
      ∧ t.pkg.rd (MEM_SCRUB_PASSES k) = (if ofs / 64 = 2 ^ 30 - 1 then (s.pkg.rd (MEM_SCRUB_PASSES k) + 1) % 2 ^ 64 else s.pkg.rd (MEM_SCRUB_PASSES k)))
  ∧ (∀ (s : State) (dt k ofs : Nat), k < 32 → s.pkg.stackFitted k = true → s.pkg.dieFenced (k / 4) = false → ofs / 64 < 2 ^ 30 - 1 →
      s.pkg.poisoned (k * 2 ^ 36 + ofs) = false →
    ∃ t, exec (.scrubRead dt k ofs .corrected) s = .next t ∧ t.pkg.mem = s.pkg.mem ∧ t.pkg.poison = s.pkg.poison
      ∧ t.pkg.rd (MEM_CE_COUNT k) = (s.pkg.rd (MEM_CE_COUNT k) + 1) % 2 ^ 64)
  ∧ (∀ (s : State) (dt k ofs : Nat), k < 32 → s.pkg.stackFitted k = true → s.pkg.dieFenced (k / 4) = false → ofs / 64 < 2 ^ 30 - 1 →
      s.pkg.poisoned (k * 2 ^ 36 + ofs) = false →
    ∃ t, exec (.scrubRead dt k ofs .uncorrectable) s = .next t ∧ t.pkg.mem = s.pkg.mem ∧ t.pkg.poisoned (k * 2 ^ 36 + ofs) = true
      ∧ t.pkg.rd (MEM_UE_COUNT k) = (s.pkg.rd (MEM_UE_COUNT k) + 1) % 2 ^ 64
      ∧ t.pkg.rd (MEM_UE_LAST k) = ofs / 64 * 64 + 2 ^ 36 * MEM_BY_SCRUB
      ∧ bitAt (t.pkg.rd (IRQ_STATUS (.mem k))) EV_MEM_UNCORRECTABLE = true)


/-- Stack memory itself (R222, R226): a store that R222 allows leaves its bytes to be read, every other byte as it was, and the lines that it
covers whole without poison; a refused one leaves memory alone. -/
def Obligations.StoresReadBack : Prop :=
  (∀ (p : Package) (a : Nat) (bs : List Byte), bs.length ≤ 2 ^ 36 → (∀ i, i < bs.length → (physOf (a + i)).isSome = true) →
    (p.store a bs).bytesAt a bs.length = bs)
  ∧ (∀ (p : Package) (a : Nat) (bs : List Byte) (y : Nat), (∀ i, i < bs.length → physOf (a + i) ≠ some y) →
    memByte (p.store a bs).mem y = memByte p.mem y)
  ∧ (∀ (p : Package) (a : Nat) (bs : List Byte), memWf p.mem = true → memWf (p.store a bs).mem = true)
  ∧ (∀ (p : Package) (a l : Nat) (bs : List Byte), l ∈ wholeLines a bs.length → l ∉ (p.store a bs).poison)
  ∧ (∀ (p : Package) (a l : Nat) (bs : List Byte), l ∉ wholeLines a bs.length → (l ∈ (p.store a bs).poison ↔ l ∈ p.poison))
  ∧ (∀ (p : Package) (a : Nat) (bs : List Byte), p.rangeOk a bs.length = false → p.tryStore a bs = p)

/-- Addresses (R221): below 2^41 an address decodes to die, channel and offset as Table 10-2 interleaves them, from 2^41 to 2^42 to a stack's own bytes,
from 2^42 on it is reserved; distinct addresses of one view are distinct bytes, and each byte has an address in each view. -/
def Obligations.AddressViews : Prop :=
  (∀ a x : Nat, a < 2 ^ 41 → physOf a = some x → physStack x = 4 * (a / 2 ^ 38) + a / 2 ^ 8 % 4 ∧ x % 2 ^ 36 = a / 2 ^ 10 % 2 ^ 28 * 2 ^ 8 + a % 2 ^ 8)
  ∧ (∀ a b x : Nat, a < 2 ^ 41 → b < 2 ^ 41 → physOf a = some x → physOf b = some x → a = b)
  ∧ (∀ a b x : Nat, 2 ^ 41 ≤ a → 2 ^ 41 ≤ b → physOf a = some x → physOf b = some x → a = b)
  ∧ (∀ x : Nat, x < 2 ^ 41 → ∃ a, a < 2 ^ 41 ∧ physOf a = some x)
  ∧ (∀ x : Nat, x < 2 ^ 41 → physOf (2 ^ 41 + x) = some x)
  ∧ (∀ a : Nat, 2 ^ 42 ≤ a → physOf a = none)

/-- The Pour engines (R236, R239 to R243): a region whose reads meet no poison is updated, its engine's elements counted and the region done; one that
cannot be read stops its engine: the event, POUR_STATUS.INCOMPLETE, and the region goes from its Pour. -/
def Obligations.PourRegions : Prop :=
  (∀ (s : State) (dt k i : Nat) (j : PourJob) (r : Region) (q : Package), (s.pkg.pass dt).engineWork k = some (j, i) →
      (s.pkg.pass dt).region i = some r → s.pkg.fatal = false → (s.pkg.stg r.stage).pourDone = none → s.pkg.snapHolds 0x06 i = false →
      s.pkg.dieFenced (k / 4) = false → (s.pkg.pass dt).pourRegion k j i r = some q →
    exec (.pourRegionDone dt k []) s = .next { s with pkg := q.engineDone k j i })
  ∧ (∀ (s : State) (dt k i : Nat) (j : PourJob) (r : Region), (s.pkg.pass dt).engineWork k = some (j, i) →
      (s.pkg.pass dt).region i = some r → s.pkg.fatal = false → (s.pkg.stg r.stage).pourDone = none → s.pkg.snapHolds 0x06 i = false →
      (s.pkg.dieFenced (k / 4) = true ∨ (s.pkg.pass dt).pourRegion k j i r = none) →
    exec (.pourRegionDone dt k []) s = .next { s with pkg := (s.pkg.pass dt).pourFail k j i })
  ∧ (∀ (form : Nat) (nesterov : Bool) (h : Hyper) (b1 b2 g uf : Nat) (e : Elem),
    (form = 0 → (updateElem form nesterov h b1 b2 g uf e).m = fadd (fmul h.mu e.m) g)
    ∧ (form = 1 → (updateElem form nesterov h b1 b2 g uf e).v = fadd (fmul h.beta2 e.v) (restOf h.beta2 (fmul g g)))
    ∧ (form = 2 → (updateElem form nesterov h b1 b2 g uf e).m = fadd (fmul h.beta2 e.m) (restOf h.beta2 g)))

/-- Tied weights, the Assay and the forced modes (R172, R177, R193): a tie whose uses have ended the last backward of a step folds; the fold's end writes its
sum and counts, and the tie is free again; a check that finds no upset counts its sample and no divergence, one that does counts it, names it and
raises the event; forcing a slot beyond the slots does nothing; forcing a slot in the mode restarts its steps, another enters it. -/
def Obligations.TieFoldsAndAssay : Prop :=
  (∀ (s : State) (dt tie step : Nat) (b : List Byte), (s.pkg.pass dt).foldReady tie = some (step, b) → s.pkg.fatal = false →
    ∃ t f, exec (.tieFold dt tie) s = .next t ∧ t.pkg.folds = s.pkg.folds ++ [f] ∧ f.tie = tie ∧ f.step = step ∧ f.startAt = s.pkg.clock + dt)
  ∧ (∀ (s : State) (dt tie : Nat) (f : Fold) (b : List Byte) (sums : List Nat), s.pkg.folds.find? (fun f => f.tie = tie) = some f →
      s.pkg.tieBytes tie = some b → s.pkg.fatal = false →
      (({ s.pkg.pass dt with folds := s.pkg.folds.filter (fun g => g.tie ≠ tie) }).setBit BWD_STATUS tie false).foldSums b = some sums →
    ∃ t, exec (.tieFoldDone dt tie) s = .next t ∧ t.pkg.folds = s.pkg.folds.filter (fun g => g.tie ≠ tie)
      ∧ mapGet 0 t.pkg.folded tie = f.step + 1)
  ∧ (∀ (s : State) (dt c k : Nat) (j : AssayJob), (s.pkg.core c k).assay = some j → j.sums.any Sampled.diverges = false →
    ∃ t, exec (.assayCheckDone dt c k false) s = .next t ∧ (t.pkg.core c k).assay = none
      ∧ t.pkg.rd NUM_ASSAY_SAMPLES = (s.pkg.rd NUM_ASSAY_SAMPLES + 1) % 2 ^ 64
      ∧ t.pkg.rd NUM_ASSAY_DIVERGE_COUNT = s.pkg.rd NUM_ASSAY_DIVERGE_COUNT)
  ∧ (∀ (s : State) (dt c k : Nat) (j : AssayJob) (upset : Bool), (s.pkg.core c k).assay = some j → (upset || j.sums.any Sampled.diverges) = true →
      s.pkg.get NUM_ASSAY_CFG_ACTION = 0 →
    ∃ t, exec (.assayCheckDone dt c k upset) s = .next t ∧ (t.pkg.core c k).assay = none
      ∧ t.pkg.rd NUM_ASSAY_DIVERGE_COUNT = (s.pkg.rd NUM_ASSAY_DIVERGE_COUNT + 1) % 2 ^ 64
      ∧ bitAt (t.pkg.rd (IRQ_STATUS .num)) EV_NUM_ASSAY_DIVERGE = true)
  ∧ (∀ (s : State) (slot : Nat), s.pkg.rd NUM_HIST_SLOTS ≤ slot → exec (.warmForce slot) s = .next s)
  ∧ (∀ (s : State) (slot : Nat) (b : List Byte), slot < s.pkg.rd NUM_HIST_SLOTS → s.pkg.histBytes slot = some b → histWarm b = true →
    exec (.warmForce slot) s = .next { s with pkg := (s.pkg.putHist slot (setField b 6 2 (s.pkg.get NUM_CFG_WARM_STEPS))) })
  ∧ (∀ (s : State) (slot : Nat) (b : List Byte), slot < s.pkg.rd NUM_HIST_SLOTS → s.pkg.histBytes slot = some b → histWarm b = false →
    ∃ t, exec (.warmForce slot) s = .next t
      ∧ t.pkg.get NUM_STATUS_WARM_SLOTS = (s.pkg.get NUM_STATUS_WARM_SLOTS + 1) % 2 ^ NUM_STATUS_WARM_SLOTS.len)
  ∧ (∀ s : State, exec .warmForceAll s
      = .next { s with pkg := ((List.range (s.pkg.rd NUM_HIST_SLOTS)).foldl Package.forceSlot s.pkg) })


/-- The parameter gather (R247, R248): a fetch of a version held is served from its slot, one of a version still to come is held, any other is
answered ABSENT; an expired one is answered ABSENT; a good block lands, a bad one is asked for again; a second failure fails the
gather; an ABSENT one goes to the alternate node. -/
def Obligations.GatherExchange : Prop :=
  (∀ (s : State) (dt node st version ofs len n : Nat), s.pkg.fatal = false → s.pkg.slotOf st version = some n →
    exec (.gatherRequestReceive dt node st version ofs len) s = .next { s with pkg := (s.pkg.pass dt).serveFetch node st n version ofs len })
  ∧ (∀ (s : State) (dt node st version ofs len : Nat), s.pkg.fatal = false → s.pkg.slotOf st version = none → s.pkg.stgState st ≠ 0 →
      s.pkg.currentVersion st < version →
    ∃ t f, exec (.gatherRequestReceive dt node st version ofs len) s = .next t ∧ t.pkg.heldFetches = s.pkg.heldFetches ++ [f]
      ∧ f.node = node ∧ f.stage = st ∧ f.version = version ∧ f.since = s.pkg.clock + dt)
  ∧ (∀ (s : State) (dt node st version ofs len : Nat), s.pkg.fatal = false → s.pkg.slotOf st version = none →
      (s.pkg.stgState st = 0 ∨ version ≤ s.pkg.currentVersion st) →
    exec (.gatherRequestReceive dt node st version ofs len) s = .next { s with pkg := (s.pkg.pass dt).answerAbsent node st version ofs })
  ∧ (∀ (s : State) (dt node st : Nat) (f : HeldFetch), s.pkg.heldFetches.find? (fun f => f.node = node && f.stage = st) = some f →
      f.since + s.pkg.get GATHER_CFG_WAIT_US * Config.usUnits ≤ s.pkg.clock + dt →
    exec (.gatherWaitExpire dt node st) s
      = .next { s with pkg := ({ s.pkg.pass dt with heldFetches := s.pkg.heldFetches.erase f }).answerAbsent f.node f.stage f.version f.ofs })
  ∧ (∀ (s : State) (dt st version ofs : Nat) (b : GatherBlk) (data : List Byte), (s.pkg.gather st).flying version ofs = some b → s.pkg.fatal = false →
      data.length = b.len →
    exec (.gatherBlockReceive dt st version ofs (crc32c data) false data) s = .next { s with pkg := (s.pkg.pass dt).takeBlock st b data })
  ∧ (∀ (s : State) (dt st version ofs crc : Nat) (b : GatherBlk) (data : List Byte), (s.pkg.gather st).flying version ofs = some b →
      s.pkg.fatal = false → crc32c data ≠ crc → b.alt = false → b.again = false →
    exec (.gatherBlockReceive dt st version ofs crc false data) s = .next { s with pkg := (s.pkg.pass dt).askAgain st b { b with again := true } })
  ∧ (∀ (s : State) (dt st version ofs crc : Nat) (b : GatherBlk) (data : List Byte), (s.pkg.gather st).flying version ofs = some b →
      s.pkg.fatal = false → crc32c data ≠ crc → b.alt = true → st < 32 →
    ∃ t, exec (.gatherBlockReceive dt st version ofs crc false data) s = .next t ∧ (t.pkg.gather st).todo = [] ∧ (t.pkg.gather st).out = []
      ∧ t.pkg.rd GATHER_FAIL_COUNT = (s.pkg.rd GATHER_FAIL_COUNT + 1) % 2 ^ 64 ∧ t.pkg.mem = s.pkg.mem)
  ∧ (∀ (s : State) (dt st version ofs node alt mask : Nat) (b : GatherBlk), (s.pkg.gather st).flying version ofs = some b → s.pkg.fatal = false →
      s.pkg.memberEntry st b.member = some (node, alt, mask) → b.alt = false → alt ≠ 0xFFF →
    exec (.gatherAbsentReceive dt st version ofs) s
      = .next { s with pkg := ((s.pkg.pass dt).bump64 GATHER_RETRIES 1).askAgain st b { b with alt := true } })

/-! ### Gradient reduction (11_gradient_reduction.md) -/

/-- Contributions (R257 to R263, R268): a complete contribution is made once; a request for admission is granted where the context can be had, or where the
bucket has closed, and waits else; a grant sends what waits for it; a copy that R260 refuses changes no context; one that passes is judged
by its context, or discarded where there is none. -/
def Obligations.ContributionsAndAdmission : Prop :=
  (∀ (s : State) (dt i step code : Nat) (ek : Int) (b : Bucket) (own : OwnPart) (q : Package), (s.pkg.pass dt).bucket i = some b → s.pkg.fatal = false →
      (s.pkg.pass dt).contributionReady? i b step = true → (b.topk = true → step ≠ 0 → s.pkg.stepResolved (step - 1) = true) →
      (s.pkg.pass dt).bucketScale b step = some (ek, code) → (s.pkg.pass dt).makeOwn i b step ek code = some (own, q) →
    exec (.contributionReady dt i step) s = .next { s with pkg := q.contribute i step b code own })
  ∧ (∀ (s : State) (dt node i step : Nat) (b : Bucket), s.pkg.bucket i = some b → s.pkg.bucketClosed i step = false → s.pkg.stepResolved step = false →
      s.pkg.admits i step = true →
    exec (.admissionRequest dt node i step) s = .next { s with pkg := (s.pkg.pass dt).grant node i step })
  ∧ (∀ (s : State) (dt node i step : Nat) (b : Bucket), s.pkg.bucket i = some b → s.pkg.bucketClosed i step = false → s.pkg.stepResolved step = false →
      s.pkg.admits i step = false →
    ∃ t, exec (.admissionRequest dt node i step) s = .next t
      ∧ t.pkg.cru.waiting = s.pkg.cru.waiting ++ [{ node := node, bucket := i, step := step }] ∧ t.pkg.cru.ctxs = s.pkg.cru.ctxs
      ∧ t.pkg.rd CRU_WINDOW_WAITS = (s.pkg.rd CRU_WINDOW_WAITS + 1) % 2 ^ 64)
  ∧ (∀ (s : State) (dt node i step : Nat), s.pkg.fatal = false →
      (∀ x ∈ s.pkg.cru.outbox, (x.node = node && x.header.index = i && x.header.step = step) = false) →
    exec (.admissionGrant dt node i step) s = .next { s with pkg := s.pkg.pass dt })
  ∧ (∀ (s : State) (dt node i step : Nat) (x : Xmit), s.pkg.fatal = false → s.pkg.cru.outbox = [x] → x.node = node → x.header.index = i →
      x.header.step = step →
    exec (.admissionGrant dt node i step) s = .next { s with pkg := (((s.pkg.pass dt).modCru (fun c => { c with outbox := [] })).transmit x) })
  ∧ (∀ (s : State) (dt : Nat) (h : CruHeader) (data : List Byte) (b : Bucket), s.pkg.bucket h.index = some b →
      refuseCause s.pkg.frac b (s.pkg.denseFormats b h.step) (rangeLen (s.pkg.ownedRange b (s.pkg.selfMember b.stage))) h data ≠ 0 →
    ∃ t, exec (.contributionReceive dt h data) s = .next t ∧ t.pkg.cru = s.pkg.cru ∧ bitAt (t.pkg.rd (IRQ_STATUS .cru)) EV_CRU_BUCKET_REFUSED = true)
  ∧ (∀ (s : State) (dt : Nat) (h : CruHeader) (data : List Byte) (b : Bucket) (x : BktCtx), s.pkg.bucket h.index = some b →
      refuseCause s.pkg.frac b (s.pkg.denseFormats b h.step) (rangeLen (s.pkg.ownedRange b (s.pkg.selfMember b.stage))) h data = 0 →
      s.pkg.bctxOf h.index h.step = some x → s.pkg.bucketClosed h.index h.step = false → s.pkg.stepResolved h.step = false →
      x.seen.contains h.sender = false →
    exec (.contributionReceive dt h data) s = .next { s with pkg := ((s.pkg.pass dt).countRecv h data).judgeCopy b x h data })
  ∧ (∀ (s : State) (dt : Nat) (h : CruHeader) (data : List Byte) (b : Bucket), s.pkg.bucket h.index = some b →
      refuseCause s.pkg.frac b (s.pkg.denseFormats b h.step) (rangeLen (s.pkg.ownedRange b (s.pkg.selfMember b.stage))) h data = 0 →
      s.pkg.bctxOf h.index h.step = none →
    ∃ t, exec (.contributionReceive dt h data) s = .next t ∧ t.pkg.cru.ctxs = s.pkg.cru.ctxs
      ∧ t.pkg.rd CRU_DISCARDED = (s.pkg.rd CRU_DISCARDED + 1) % 2 ^ 64)
  ∧ (∀ (s : State) (dt : Nat) (h : CruHeader) (data : List Byte) (b : Bucket) (x : BktCtx), s.pkg.bucket h.index = some b →
      refuseCause s.pkg.frac b [] (rangeLen (s.pkg.ownedRange b (ringRange (s.pkg.members' b.stage) h.member))) { h with flags := h.flags ||| 4 } data = 0 →
      s.pkg.bctxOf h.index h.step = some x → s.pkg.bucketClosed h.index h.step = false → s.pkg.stepResolved h.step = false → x.own = none →
    ∃ t y, exec (.ringPartialReceive dt h data) s = .next t ∧ t.pkg.bctxOf h.index h.step = some y
      ∧ y.partials = x.partials ++ [{ member := h.member, header := h, data := data }] ∧ y.acc = x.acc)

/-- Deadlines and results (R267, R270, R272, R277): the soft deadline marks the context; the hard limit stalls the step, with its event, and frees the
context; a complete sum is written once its array is free, and until then the wait counts once. -/
def Obligations.BucketDeadlinesAndResults : Prop :=
  (∀ (s : State) (dt i n : Nat) (b : Bucket) (x : BktCtx), s.pkg.bctx i = some x → x.bucket % 64 = i % 64 → x.openBeat = some n → s.pkg.bucket x.bucket = some b →
      x.soft = false → n + s.pkg.get CRU_CFG_SOFT_BEATS ≤ s.pkg.beatNo → x.held = [] →
    ∃ t, exec (.softDeadline dt i) s = .next t ∧ t.pkg.bctx i = some { x with soft := true })
  ∧ (∀ (s : State) (dt i n : Nat) (b : Bucket) (x : BktCtx), s.pkg.bctx i = some x → x.openBeat = some n → s.pkg.bucket x.bucket = some b →
      s.pkg.missingMembers b x ≠ [] → n + s.pkg.get CRU_CFG_HARD_BEATS ≤ s.pkg.beatNo → s.pkg.cru.waiting = [] → s.pkg.cru.own = [] →
    ∃ t, exec (.hardLimit dt i) s = .next t ∧ t.pkg.bucketClosed x.bucket x.step = true ∧ t.pkg.bctx x.bucket = none
      ∧ (t.pkg.acct x.step).stall = true ∧ t.pkg.rd CRU_STALL_COUNT = (s.pkg.rd CRU_STALL_COUNT + 1) % 2 ^ 64
      ∧ bitAt (t.pkg.rd (IRQ_STATUS .cru)) EV_CRU_STEP_STALL = true)
  ∧ (∀ (s : State) (dt i : Nat) (b : Bucket) (x : BktCtx) (r : Region) (e : Int) (code : Nat), s.pkg.bctx i = some x → s.pkg.bucket x.bucket = some b →
      s.pkg.region b.region = some r → s.pkg.bucketScale b x.step = some (e, code) → s.pkg.fatal = false → s.pkg.missingMembers b x = [] →
      s.pkg.arrayFree r x.step = true →
    exec (.resultWrite dt i) s = .next { s with pkg := (s.pkg.pass dt).writeResult b r x e })
  ∧ (∀ (s : State) (dt i : Nat) (b : Bucket) (x : BktCtx) (r : Region) (e : Int) (code : Nat), s.pkg.bctx i = some x → s.pkg.bucket x.bucket = some b →
      s.pkg.region b.region = some r → s.pkg.bucketScale b x.step = some (e, code) → s.pkg.fatal = false → s.pkg.missingMembers b x = [] →
      s.pkg.arrayFree r x.step = false → x.gradWait = false →
    ∃ t, exec (.resultWrite dt i) s = .next t ∧ t.pkg.bctx x.bucket = some { x with gradWait := true } ∧ t.pkg.mem = s.pkg.mem
      ∧ t.pkg.rd CRU_GRADBUF_WAITS = (s.pkg.rd CRU_GRADBUF_WAITS + 1) % 2 ^ 64)

/-- The step tree (R273 to R278): reports collect and go up once; the limit reports missing children; the root decides a complete report, which
commits exactly where nothing of Table 11-4 speaks against it; an outcome already taken has no effect. -/
def Obligations.StepTree : Prop :=
  (∀ (s : State) (dt step : Nat), s.pkg.fatal = false → (s.pkg.acct step).ready = none → s.pkg.cru.decided ≤ step → s.pkg.ownReady step = true →
    exec (.ownReportReady dt step) s
      = .next { s with pkg := (((s.pkg.pass dt).modAcct step (fun a => { a with ready := some (s.pkg.beatNo, s.pkg.ownReport step) })).tryUp step) })
  ∧ (∀ (s : State) (dt child : Nat) (r : StepReport), s.pkg.cru.decided ≤ r.step → child ∈ s.pkg.children →
      (∀ c ∈ (s.pkg.acct r.step).children, c.1 ≠ child) → (s.pkg.acct r.step).ready = none →
    ∃ t, exec (.childReportReceive dt child r) s = .next t
      ∧ (t.pkg.acct r.step).children = (s.pkg.acct r.step).children ++ [(child, (s.pkg.beatNo, r))])
  ∧ (∀ (s : State) (dt step beat : Nat) (own : StepReport), s.pkg.fatal = false → (s.pkg.acct step).ready = some (beat, own) →
      (s.pkg.acct step).sentUp = none → s.pkg.missingChildren (s.pkg.acct step) beat ≠ [] → beat + s.pkg.get CRU_TREE_CFG_LIMIT ≤ s.pkg.beatNo →
    ∃ t r, exec (.treeLimitExpiry dt step) s = .next t ∧ (t.pkg.acct step).sentUp = some r ∧ r.missing = true
      ∧ bitAt (t.pkg.rd (IRQ_STATUS .cru)) EV_CRU_STEP_STALL = true)
  ∧ (∀ (s : State) (dt step : Nat) (r : StepReport), (s.pkg.pass dt).decidable step = some r →
    exec (.stepDecide dt step) s = .next { s with pkg := ((((s.pkg.pass dt).lateCapture ((s.pkg.pass dt).outcomeOf r)).takeOutcome
      ((s.pkg.pass dt).outcomeOf r)).cadence ((s.pkg.pass dt).outcomeOf r)) })
  ∧ (∀ (s : State) (dt : Nat) (o : Outcome), s.pkg.cru.decided ≤ o.step →
    exec (.stepOutcomeReceive dt o) s = .next { s with pkg := (((s.pkg.pass dt).lateCapture o).takeOutcome o).cadence o })
  ∧ (∀ (s : State) (dt : Nat) (o : Outcome), o.step < s.pkg.cru.decided → exec (.stepOutcomeReceive dt o) s = .next { s with pkg := s.pkg.pass dt })
  ∧ (∀ (p : Package) (r : StepReport), (p.outcomeOf r).commit = true
      ↔ r.stall = false ∧ r.missing = false ∧ r.nonfinite = false ∧ (p.has CRU_CFG_CLIP_MODE = true ∨ (f64 r.n2).isFinite = true) ∧ r.cksum = false)
  ∧ (∀ a b : StepReport, (a.combine b).stall = (a.stall || b.stall) ∧ (a.combine b).missing = (a.missing || b.missing)
      ∧ (a.combine b).nonfinite = (a.nonfinite || b.nonfinite) ∧ (a.combine b).n2 = dadd a.n2 b.n2)

/-! ### Links (12_eloarun_links.md) -/

/-- Flits received (R289, R290, R293): on a link that is UP, a DATA flit in sequence is accepted and its credit freed; a duplicate is dropped; a gap
or a failed CRC discards and owes a NAK unless one went out within 8 µs; every good flit's ACK and credit fields are taken; a NAK asks for all
unacknowledged flits again, and a fifth sending starts a fast retrain. -/
def Obligations.FlitsReceived : Prop :=
  (∀ (s : State) (dt k : Nat) (f : WireFlit), s.pkg.linkUp k = true → f.seq = (s.pkg.port k).expected →
    ∃ t, exec (.dataFlitReceive dt k f true) s = .next t ∧ (t.pkg.port k).accepted = some f.seq ∧ (t.pkg.port k).gap = false
      ∧ listAt 0 (t.pkg.port k).freedHere f.vc = (listAt 0 (s.pkg.port k).freedHere f.vc + 1) % 2 ^ 16
      ∧ t.pkg.rd (LNK_FLITS_RX k) = (s.pkg.rd (LNK_FLITS_RX k) + 1) % 2 ^ 64)
  ∧ (∀ (s : State) (dt k : Nat) (f : WireFlit), s.pkg.linkUp k = true → f.seq ≠ (s.pkg.port k).expected →
      ((s.pkg.port k).expected + 2 ^ 14 - f.seq) % 2 ^ 14 ≤ 2 ^ 13 →
    ∃ t, exec (.dataFlitReceive dt k f true) s = .next t ∧ t.pkg.regs = s.pkg.regs ∧ (t.pkg.port k).accepted = (s.pkg.port k).accepted
      ∧ (t.pkg.port k).nakOwed = (s.pkg.port k).nakOwed)
  ∧ (∀ (s : State) (dt k : Nat) (f : WireFlit), s.pkg.linkUp k = true → f.seq ≠ (s.pkg.port k).expected →
      2 ^ 13 < ((s.pkg.port k).expected + 2 ^ 14 - f.seq) % 2 ^ 14 → (s.pkg.port k).nakAfter ≤ s.pkg.clock + dt →
    ∃ t, exec (.dataFlitReceive dt k f true) s = .next t ∧ (t.pkg.port k).gap = true ∧ (t.pkg.port k).nakOwed = true
      ∧ (t.pkg.port k).nakAfter = s.pkg.clock + dt + 8 * Config.usUnits ∧ (t.pkg.port k).accepted = (s.pkg.port k).accepted)
  ∧ (∀ (s : State) (dt k : Nat) (f : WireFlit), s.pkg.linkUp k = true → (s.pkg.port k).nakAfter ≤ s.pkg.clock + dt →
    ∃ t u, exec (.dataFlitReceive dt k f false) s = .next t ∧ exec (.idleFlitReceive dt k f false) s = .next u
      ∧ (t.pkg.port k).nakOwed = true ∧ (u.pkg.port k).nakOwed = true ∧ (t.pkg.port k).accepted = (s.pkg.port k).accepted
      ∧ t.pkg.rd (LNK_CRC_FAIL k) = (s.pkg.rd (LNK_CRC_FAIL k) + 1) % 2 ^ 64)
  ∧ (∀ (s : State) (dt k : Nat) (f : WireFlit), s.pkg.linkUp k = true →
    ∃ t u v, exec (.idleFlitReceive dt k f true) s = .next t ∧ exec (.alignReceive dt k f true) s = .next u ∧ exec (.nakReceive dt k f true) s = .next v
      ∧ t.pkg.port k = (s.pkg.port k).takeFields f ∧ t.pkg.regs = s.pkg.regs
      ∧ u.pkg.port k = { (s.pkg.port k).takeFields f with codewordLock := true }
      ∧ ((∀ e ∈ ((s.pkg.port k).takeFields f).replay, e.resends < 4) →
          v.pkg.port k = { (s.pkg.port k).takeFields f with toResend := ((s.pkg.port k).takeFields f).replay.length } ∧ v.pkg.linkUp k = true)
      ∧ ((∃ e ∈ ((s.pkg.port k).takeFields f).replay, 4 ≤ e.resends) → k < 24 → v.pkg.linkState k = LINK_RETRAINING))

/-- Flits sent (R289, R290, R294): every 20,480th is an ALIGN; then an owed NAK, a resend, and the next DATA flit by the virtual channels' turns, each with
its own sequence number; with nothing to send, or no room to keep it for replay, an IDLE goes out. A channel held up without credit is
reported once. -/
def Obligations.FlitsSent : Prop :=
  (∀ (s : State) (dt k : Nat), s.pkg.linkUp k = true → (s.pkg.port k).flitCount % 20480 = 0 →
    ∃ t f, exec (.flitSend dt k) s = .next t ∧ (t.pkg.port k).lastFlit = some f ∧ f.typ = 3 ∧ (t.pkg.port k).flitCount = (s.pkg.port k).flitCount + 1)
  ∧ (∀ (s : State) (dt k : Nat), s.pkg.linkUp k = true → (s.pkg.port k).flitCount % 20480 ≠ 0 → (s.pkg.port k).nakOwed = true →
    ∃ t f, exec (.flitSend dt k) s = .next t ∧ (t.pkg.port k).lastFlit = some f ∧ f.typ = 2 ∧ (t.pkg.port k).nakOwed = false)
  ∧ (∀ (s : State) (dt k : Nat) (e : TxFlit), s.pkg.linkUp k = true → (s.pkg.port k).flitCount % 20480 ≠ 0 → (s.pkg.port k).nakOwed = false →
      0 < (s.pkg.port k).toResend → (s.pkg.port k).replay[(s.pkg.port k).replay.length - (s.pkg.port k).toResend]? = some e →
    ∃ t f, exec (.flitSend dt k) s = .next t ∧ (t.pkg.port k).lastFlit = some f ∧ f.typ = 0 ∧ f.seq = e.seq
      ∧ (t.pkg.port k).toResend = (s.pkg.port k).toResend - 1 ∧ t.pkg.rd (LNK_REPLAYED k) = (s.pkg.rd (LNK_REPLAYED k) + 1) % 2 ^ 64)
  ∧ (∀ (s : State) (dt k v rv rl : Nat) (m : Msg) (rest : List Msg), s.pkg.linkUp k = true → (s.pkg.port k).flitCount % 20480 ≠ 0 →
      (s.pkg.port k).nakOwed = false → (s.pkg.port k).toResend = 0 → (s.pkg.port k).replay.length < Config.replayFlits →
      (s.pkg.port k).pick (s.pkg.rd (LNK_VC_WEIGHT k)) = some (v, rv, rl) → ((s.pkg.port k).vc v).msgs = m :: rest →
    ∃ t f, exec (.flitSend dt k) s = .next t ∧ (t.pkg.port k).lastFlit = some f ∧ f.typ = 0 ∧ f.seq = (s.pkg.port k).nextSeq ∧ f.vc = v
      ∧ (t.pkg.port k).nextSeq = ((s.pkg.port k).nextSeq + 1) % 2 ^ 14 ∧ (t.pkg.port k).replay.length = (s.pkg.port k).replay.length + 1
      ∧ t.pkg.rd (LNK_FLITS_TX k) = (s.pkg.rd (LNK_FLITS_TX k) + 1) % 2 ^ 64)
  ∧ (∀ (s : State) (dt k : Nat), s.pkg.linkUp k = true → (s.pkg.port k).flitCount % 20480 ≠ 0 → (s.pkg.port k).nakOwed = false →
      (s.pkg.port k).toResend = 0 →
      (Config.replayFlits ≤ (s.pkg.port k).replay.length ∨ (s.pkg.port k).pick (s.pkg.rd (LNK_VC_WEIGHT k)) = none) →
    ∃ t f, exec (.flitSend dt k) s = .next t ∧ (t.pkg.port k).lastFlit = some f ∧ f.typ = 1 ∧ (t.pkg.port k).replay = (s.pkg.port k).replay)
  ∧ (∀ (s : State) (dt k v : Nat), k < 24 → s.pkg.linkUp k = true → ((s.pkg.port k).vc v).msgs ≠ [] → vcCredit (s.pkg.port k) v = 0 →
      ((s.pkg.port k).vc v).dryReported = false →
    ∃ t, exec (.vcStuck dt k v) s = .next t ∧ ((t.pkg.port k).vc v).dryReported = true ∧ bitAt (t.pkg.rd (IRQ_STATUS (.lnk k))) EV_LNK_VC_STUCK = true)

/-- Messages (R295, R297, R298): a failed header CRC is counted as a lost message; a message for another node loses a hop and leaves by the route
table's link; with no hop left it is discarded and counted; one for this node, or of the BEAT class, stays here. -/
def Obligations.MessagesReceived : Prop :=
  (∀ (s : State) (dt k : Nat) (m : Msg),
    ∃ t, exec (.messageReceive dt k m false) s = .next t ∧ t.pkg.rd (LNK_MSGS_LOST k) = (s.pkg.rd (LNK_MSGS_LOST k) + 1) % 2 ^ 64 ∧ t.pkg.lnk = s.pkg.lnk)
  ∧ (∀ (s : State) (dt k : Nat) (m : Msg), m.cls = CLS_BEAT ∨ bitAt m.dest 15 = true →
    exec (.messageReceive dt k m true) s = .next { s with pkg := s.pkg.pass dt })
  ∧ (∀ (s : State) (dt k : Nat) (m : Msg), m.cls ≠ CLS_EVENT → s.pkg.has LNK_NODE_VALID = true → m.dest = s.pkg.node →
    exec (.messageReceive dt k m true) s = .next { s with pkg := s.pkg.pass dt })
  ∧ (∀ (s : State) (dt k : Nat) (m : Msg), m.cls ≠ CLS_BEAT → bitAt m.dest 15 = false → (s.pkg.has LNK_NODE_VALID = false ∨ m.dest ≠ s.pkg.node) →
      m.hops = 0 →
    ∃ t, exec (.messageReceive dt k m true) s = .next t ∧ t.pkg.rd LNK_HOP_EXPIRED = (s.pkg.rd LNK_HOP_EXPIRED + 1) % 2 ^ 64 ∧ t.pkg.lnk = s.pkg.lnk)
  ∧ (∀ (s : State) (dt k j : Nat) (m : Msg), m.cls ≠ CLS_BEAT → m.cls ≠ CLS_HOST_REQ → bitAt m.dest 15 = false →
      (s.pkg.has LNK_NODE_VALID = false ∨ m.dest ≠ s.pkg.node) → m.hops ≠ 0 → (s.pkg.pass dt).pickRoute m.dest m.cls = some j →
    exec (.messageReceive dt k m true) s
      = .next { s with pkg := (((s.pkg.pass dt).enqueue j { m with hops := m.hops - 1 }).bump64 LNK_FWD_BYTES (32 + m.len)) })

/-- Training (R302, R307): ENABLE starts full training once hub firmware runs; the exchange refuses a loop, another revision and a longer path, each with its
cause; training ends UP with fresh sequence numbers, or DOWN at its limit; a DOWN port trains again after 5 s or on light. -/
def Obligations.LinkTraining : Prop :=
  (∀ (s : State) (dt k : Nat), k < 24 → s.pkg.pwr.fw = true → s.pkg.lnk.noFirmware = false → s.pkg.has (LNK_CTRL_ENABLE k) = true →
      (s.pkg.linkState k = LINK_DISABLED ∨ s.pkg.linkState k = LINK_DOWN) →
    ∃ t, exec (.trainingStart dt k) s = .next t ∧ t.pkg.linkState k = LINK_TRAINING ∧ (t.pkg.port k).lasersOn = true
      ∧ (t.pkg.port k).trainStart = s.pkg.clock + dt ∧ (t.pkg.port k).exchanged = false)
  ∧ (∀ (s : State) (dt k d : Nat) (q : Partner), k < 24 → s.pkg.linkState k = LINK_TRAINING → d ≤ 2750 → q.serial ≠ s.pkg.serial → q.revision = 1 →
      q.adapter = false → s.pkg.hostMode 0 = false → s.pkg.hostMode 1 = false →
    ∃ t, exec (.partnerExchange dt k q d) s = .next t ∧ t.pkg.linkState k = LINK_TRAINING ∧ (t.pkg.port k).exchanged = true
      ∧ t.pkg.rd (LNK_PARTNER k) = partnerWord q ∧ t.pkg.hostMode k = false)
  ∧ (∀ (s : State) (dt k d : Nat) (q : Partner), k < 24 → s.pkg.linkState k = LINK_TRAINING → (q.serial = s.pkg.serial ∨ q.revision ≠ 1 ∨ 2750 < d) →
    ∃ t, exec (.partnerExchange dt k q d) s = .next t ∧ t.pkg.linkState k = LINK_DOWN
      ∧ t.pkg.get (LNK_STATUS_DOWN_CAUSE k) = (if q.serial = s.pkg.serial then 4 else if q.revision ≠ 1 then 6 else 5))
  ∧ (∀ (s : State) (dt k : Nat), k < 24 → s.pkg.linkState k = LINK_TRAINING → (s.pkg.port k).exchanged = true →
    ∃ t, exec (.linkUp dt k) s = .next t ∧ t.pkg.linkUp k = true ∧ (t.pkg.port k).nextSeq = 0 ∧ (t.pkg.port k).accepted = none ∧ (t.pkg.port k).replay = []
      ∧ t.pkg.get (LNK_STATUS_LANES_LOCKED k) = 0xFF ∧ bitAt (t.pkg.rd (IRQ_STATUS (.lnk k))) EV_LNK_UP = true)
  ∧ (∀ (s : State) (dt k : Nat), k < 24 → s.pkg.linkState k = LINK_TRAINING →
    ∃ t, exec (.trainingLimit dt k) s = .next t ∧ t.pkg.linkState k = LINK_DOWN ∧ t.pkg.get (LNK_STATUS_DOWN_CAUSE k) = 3)
  ∧ (∀ (s : State) (dt k : Nat), k < 24 → s.pkg.pwr.fw = true → s.pkg.lnk.noFirmware = false → s.pkg.has (LNK_CTRL_ENABLE k) = true →
      s.pkg.linkState k = LINK_DOWN →
    ∃ u, exec (.lightDetected dt k) s = .next u ∧ u.pkg.linkState k = LINK_TRAINING
      ∧ ((s.pkg.port k).downAt + 5 * Config.secUnits ≤ s.pkg.clock + dt →
          ∃ t, exec (.trainingRestartTimer dt k) s = .next t ∧ t.pkg.linkState k = LINK_TRAINING))

/-- Retrains, health and disabling (R303 to R306): lost codeword lock and RETRAIN start a fast retrain; it ends UP, or DOWN with cause 7 after 10 ms; a
window's counts add up and set the health; ENABLE 0 stops an UP port and takes a training one DOWN; a stopped port goes DOWN with cause 1 once its
replay buffer is empty; optical telemetry shows. -/
def Obligations.LinkHealthAndDisable : Prop :=
  (∀ (s : State) (dt k lane : Nat), k < 24 → s.pkg.linkUp k = true →
    ∃ t u, exec (.codewordLockLoss dt k lane) s = .next t ∧ exec (.retrain k) s = .next u ∧ t.pkg.linkState k = LINK_RETRAINING
      ∧ u.pkg.linkState k = LINK_RETRAINING ∧ (t.pkg.port k).codewordLock = false ∧ t.pkg.rd (LNK_RETRAINS k) = (s.pkg.rd (LNK_RETRAINS k) + 1) % 2 ^ 64
      ∧ bitAt (t.pkg.rd (IRQ_STATUS (.lnk k))) EV_LNK_RETRAIN = true)
  ∧ (∀ (s : State) (dt k : Nat) (shares : List Nat), k < 24 → s.pkg.linkState k = LINK_RETRAINING →
    ∃ t, exec (.fastRetrainDone dt k shares) s = .next t ∧ t.pkg.linkUp k = true ∧ t.pkg.get (LNK_STATUS_LANES_LOCKED k) = 0xFF
      ∧ (t.pkg.port k).peerShares = shares
      ∧ (k = s.pkg.get BEAT_UPLINK_LINK → t.pkg.beat.requestBeats = 16))
  ∧ (∀ (s : State) (dt k : Nat), k < 24 → s.pkg.linkState k = LINK_RETRAINING → (s.pkg.port k).retrainStart + 10 * Config.msUnits ≤ s.pkg.clock + dt →
    ∃ t, exec (.fastRetrainTimeout dt k) s = .next t ∧ t.pkg.linkState k = LINK_DOWN ∧ t.pkg.get (LNK_STATUS_DOWN_CAUSE k) = 7)
  ∧ (∀ (s : State) (dt k uncorr : Nat) (corr : List Nat), k < 24 → s.pkg.linkUp k = true → corr.foldl (· + ·) 0 = 0 →
      healthOf (s.pkg.rd (LNK_HEALTH_CFG k)) corr uncorr = HEALTH_GOOD →
    ∃ t, exec (.healthWindow dt k corr uncorr) s = .next t ∧ t.pkg.get (LNK_STATUS_HEALTH k) = HEALTH_GOOD ∧ t.pkg.linkUp k = true
      ∧ t.pkg.rd (LNK_FEC_UNCORR k) = (s.pkg.rd (LNK_FEC_UNCORR k) + uncorr) % 2 ^ 64)
  ∧ (∀ (s : State) (dt k uncorr : Nat) (corr : List Nat), k < 24 → s.pkg.linkUp k = true →
      healthOf (s.pkg.rd (LNK_HEALTH_CFG k)) corr uncorr = HEALTH_FAILING → s.pkg.get (LNK_STATUS_HEALTH k) ≠ HEALTH_FAILING →
      (s.pkg.port k).failingRetrain = none →
    ∃ t, exec (.healthWindow dt k corr uncorr) s = .next t ∧ t.pkg.linkState k = LINK_RETRAINING ∧ t.pkg.get (LNK_STATUS_HEALTH k) = HEALTH_FAILING
      ∧ bitAt (t.pkg.rd (IRQ_STATUS (.lnk k))) EV_LNK_FAILING = true)
  ∧ (∀ (s : State) (dt k : Nat), k < 24 → (s.pkg.linkState k = LINK_UP ∨ s.pkg.linkState k = LINK_RETRAINING) →
    ∃ t, exec (.linkDisable dt k) s = .next t ∧ t.pkg.has (LNK_CTRL_ENABLE k) = false ∧ (t.pkg.port k).stopping = some (s.pkg.clock + dt)
      ∧ t.pkg.linkState k = s.pkg.linkState k)
  ∧ (∀ (s : State) (dt k : Nat), k < 24 → s.pkg.linkState k = LINK_TRAINING →
    ∃ t, exec (.linkDisable dt k) s = .next t ∧ t.pkg.linkState k = LINK_DOWN ∧ t.pkg.get (LNK_STATUS_DOWN_CAUSE k) = 1)
  ∧ (∀ (s : State) (dt k since : Nat), k < 24 → (s.pkg.port k).stopping = some since →
      ((s.pkg.port k).replay = [] ∨ since + 100 * Config.usUnits ≤ s.pkg.clock + dt) →
    ∃ t, exec (.linkDisableComplete dt k) s = .next t ∧ t.pkg.linkState k = LINK_DOWN ∧ t.pkg.get (LNK_STATUS_DOWN_CAUSE k) = 1
      ∧ (t.pkg.port k).lasersOn = false ∧ (t.pkg.port k).replay = [])
  ∧ (∀ (s : State) (dt k temp : Nat) (lanes : List LaneOptics), k < 24 → (∀ o ∈ lanes, laneAlarms o = []) →
    ∃ t, exec (.opticalTelemetry dt k lanes temp) s = .next t ∧ t.pkg.get (LNK_OPT_TEMP_TEMP k) = temp % 2 ^ (LNK_OPT_TEMP_TEMP k).len
      ∧ (t.pkg.port k).alarms = [] ∧ t.pkg.linkState k = s.pkg.linkState k)

/-! ### The host bridge (12_eloarun_links.md) and event records (14_configuration_versioning.md) -/

/-- Requests of the host for the bridge's own package (R308 to R311, R340): a register read answers the register's bytes, a register write has the
write's effect and status, a memory read the bytes read, a memory write stores its data; a package that is not READY answers BUSY. -/
def Obligations.HostRequestsServed : Prop :=
  (∀ (s : State) (dt k src : Nat) (r : HostReq) (g : Page), s.pkg.linkUp k = true → s.pkg.hostMode k = true → s.pkg.has PKG_STATUS_READY = true →
      s.pkg.has LNK_NODE_VALID = true → (r.len = 4 ∨ r.len = 8) → r.addr % r.len = 0 → r.width32 = decide (r.len = 4) → pageAt r.addr = some g →
      (s.pkg.pageFitted g && s.pkg.pageFenced g) = false →
    exec (.regRd dt k src (some s.pkg.node) r) s = .next { s with pkg := (((s.pkg.pass dt).bump64 LNK_HOST_REQS 1).toHost src
      (r.answer HS_OK (leBytes r.len ((((s.pkg.pass dt).bump64 LNK_HOST_REQS 1).readReg (r.addr / 8 * 8)) / 2 ^ (8 * (r.addr % 8)))))) })
  ∧ (∀ (s : State) (dt k src : Nat) (r : HostReq) (x : Nat × (Part × Package)), s.pkg.linkUp k = true → s.pkg.hostMode k = true →
      s.pkg.has PKG_STATUS_READY = true → s.pkg.has LNK_NODE_VALID = true → r.width32 = decide (r.len = 4) → r.data.length = r.len →
      regWrite src r.addr r.len (leNat r.data) s.part ((s.pkg.pass dt).bump64 LNK_HOST_REQS 1) = x → x.2.2.has PKG_STATUS_READY = true →
    exec (.regWr dt k src (some s.pkg.node) r) s = .next { s with part := x.2.1, pkg := x.2.2.toHost src (r.answer x.1 []) })
  ∧ (∀ (s : State) (dt k src : Nat) (r : HostReq) (b : List Byte), s.pkg.linkUp k = true → s.pkg.hostMode k = true → s.pkg.has PKG_STATUS_READY = true →
      s.pkg.has LNK_NODE_VALID = true → r.memForm = true → s.pkg.load r.addr r.len = .ok b →
    ∃ t, exec (.memRd dt k src (some s.pkg.node) r []) s = .next t ∧ t.pkg.mem = s.pkg.mem ∧ t.pkg.poison = s.pkg.poison
      ∧ t.pkg = ((((s.pkg.pass dt).bump64 LNK_HOST_REQS 1).countReadBy 8 r.addr r.len).toHost src (r.answer HS_OK b)))
  ∧ (∀ (s : State) (dt k src : Nat) (r : HostReq), s.pkg.linkUp k = true → s.pkg.hostMode k = true → s.pkg.has PKG_STATUS_READY = true →
      s.pkg.has LNK_NODE_VALID = true → r.memForm = true → r.data.length = r.len → s.pkg.rangeOk r.addr r.len = true →
    ∃ t, exec (.memWr dt k src (some s.pkg.node) r) s = .next t ∧ t.pkg.bytesAt r.addr r.len = r.data
      ∧ (∀ y, (∀ i, i < r.len → physOf (r.addr + i) ≠ some y) → memByte t.pkg.mem y = memByte s.pkg.mem y)
      ∧ t.pkg = ((((s.pkg.pass dt).bump64 LNK_HOST_REQS 1).storeBy 8 r.addr r.data).toHost src (r.answer HS_OK [])))
  ∧ (∀ (s : State) (dt k src : Nat) (dest : Option Nat) (r : HostReq) (found : List (Nat × LineCheck)), s.pkg.linkUp k = true → s.pkg.hostMode k = true →
      s.pkg.has PKG_STATUS_READY = false →
    exec (.regRd dt k src dest r) s = .next { s with pkg := (s.pkg.pass dt).toHost src (r.answer HS_BUSY []) }
      ∧ exec (.regWr dt k src dest r) s = .next { s with pkg := (s.pkg.pass dt).toHost src (r.answer HS_BUSY []) }
      ∧ exec (.memRd dt k src dest r found) s = .next { s with pkg := (s.pkg.pass dt).toHost src (r.answer HS_BUSY []) }
      ∧ exec (.memWr dt k src dest r) s = .next { s with pkg := (s.pkg.pass dt).toHost src (r.answer HS_BUSY []) })

/-- The bridge (R308 to R310) and the records it carries (R369): an ACTIVE bridge sends a request on by its route, and keeps its TAG; a response
frees the TAG, a late one is discarded; requests past the timeout are answered TIMEOUT; ACTIVE sets the bridge's role; the oldest event
record leaves once it can, its loss mark with it. -/
def Obligations.BridgeForwards : Prop :=
  (∀ (s : State) (dt k src n j : Nat) (r : HostReq) (found : List (Nat × LineCheck)), s.pkg.linkUp k = true → s.pkg.hostMode k = true →
      s.pkg.has PKG_STATUS_READY = true → s.pkg.has LNK_NODE_VALID = true → n ≠ s.pkg.node → n / 16 = s.pkg.node / 16 →
      s.pkg.has LNK_HB_CTRL_ACTIVE = true → s.pkg.bridge.length < Config.bridgeOutstanding → s.pkg.pickRoute n CLS_HOST_REQ = some j →
    ∃ t u v w, exec (.regRd dt k src (some n) r) s = .next t ∧ exec (.regWr dt k src (some n) r) s = .next u
      ∧ exec (.memRd dt k src (some n) r found) s = .next v ∧ exec (.memWr dt k src (some n) r) s = .next w
      ∧ t.pkg.bridge = s.pkg.bridge ++ [{ tag := r.tag, dest := n, issued := s.pkg.clock + dt }] ∧ u.pkg.bridge = t.pkg.bridge
      ∧ v.pkg.bridge = t.pkg.bridge ∧ w.pkg.bridge = t.pkg.bridge ∧ t.pkg.mem = s.pkg.mem ∧ w.pkg.mem = s.pkg.mem ∧ u.part = s.part
      ∧ t.pkg.lnk = ((s.pkg.pass dt).enqueue j ((s.pkg.pass dt).message n CLS_HOST_REQ 0 (.hostReq { r with op := OP_REG_RD }))).lnk
      ∧ w.pkg.lnk = ((s.pkg.pass dt).enqueue j ((s.pkg.pass dt).message n CLS_HOST_REQ r.data.length (.hostReq { r with op := OP_MEM_WR }))).lnk)
  ∧ (∀ (s : State) (dt k src n : Nat) (r : HostReq), s.pkg.linkUp k = true → s.pkg.hostMode k = true → s.pkg.has PKG_STATUS_READY = true →
      s.pkg.has LNK_NODE_VALID = true → n / 16 ≠ s.pkg.node / 16 → s.pkg.has LNK_HB_CTRL_ACTIVE = true →
      s.pkg.bridge.length < Config.bridgeOutstanding →
    exec (.regRd dt k src (some n) r) s = .next { s with pkg := (s.pkg.pass dt).toHost src (r.answer HS_OUT_OF_GROUP []) })
  ∧ (∀ (s : State) (dt : Nat) (r : HostRsp), r.back = [] → s.pkg.bridge.any (fun o => o.tag = r.tag) = true →
    ∃ t, exec (.hostResponseReceive dt r) s = .next t ∧ t.pkg.bridge = s.pkg.bridge.eraseP (fun o => o.tag = r.tag)
      ∧ t.pkg.get LNK_HB_STATUS_OUTSTANDING = t.pkg.bridge.length % 2 ^ LNK_HB_STATUS_OUTSTANDING.len ∧ t.pkg.mem = s.pkg.mem)
  ∧ (∀ (s : State) (dt : Nat) (r : HostRsp), r.back = [] → s.pkg.bridge.any (fun o => o.tag = r.tag) = false →
    exec (.hostResponseReceive dt r) s = .next { s with pkg := s.pkg.pass dt })
  ∧ (∀ (s : State) (dt : Nat),
    ∃ t, exec (.hostRequestTimeout dt) s = .next t
      ∧ (∀ o ∈ t.pkg.bridge, s.pkg.clock + dt < o.issued + s.pkg.get LNK_HB_CTRL_TIMEOUT_US * Config.usUnits)
      ∧ (∀ o ∈ s.pkg.bridge, s.pkg.clock + dt < o.issued + s.pkg.get LNK_HB_CTRL_TIMEOUT_US * Config.usUnits → o ∈ t.pkg.bridge)
      ∧ t.pkg.rd LNK_HOST_TIMEOUTS = (s.pkg.rd LNK_HOST_TIMEOUTS + (s.pkg.bridge.length - t.pkg.bridge.length)) % 2 ^ 64)
  ∧ (∀ (s : State) (active : Bool),
    ∃ t, exec (.bridgeActivate active) s = .next t ∧ t.pkg.has LNK_HB_CTRL_ACTIVE = active
      ∧ t.pkg.get LNK_HB_STATUS_ROLE = (if (s.pkg.linkUp 0 && s.pkg.hostMode 0) || (s.pkg.linkUp 1 && s.pkg.hostMode 1)
          then (if active then 2 else 1) else 0))
  ∧ (∀ (s : State) (dt : Nat) (r : EventRec) (rest : List EventRec), s.pkg.evq.recs = r :: rest → s.pkg.evtReach = true → s.pkg.evq.lostSince = 0 →
    ∃ t, exec (.eventRecordSend dt) s = .next t ∧ t.pkg.evq.recs = rest ∧ t.pkg.evq.lossPending = false
      ∧ t.pkg.get PKG_EVT_STATUS_QUEUED = rest.length % 2 ^ PKG_EVT_STATUS_QUEUED.len)
  ∧ (∀ (s : State) (dt : Nat), s.pkg.evtReach = false → exec (.eventRecordSend dt) s = .next { s with pkg := s.pkg.pass dt })

/-! ### The fabric (13_package_fabric.md) -/

/-- Fences (R322 to R329): a heartbeat clears the silence of its die; one missed while another path still beats is only noted, on the last path it
fences the die; software fences a die that is not fenced; the hold ends 40 µs after the last heartbeat of the dies lost; a fenced die is
readmitted by steps, a failed one fences it again, the last leaves it waiting for a step, and the next resolved step makes it ACTIVE; a
capability record is kept, and one below the floor at power-up fences its die. -/
def Obligations.DiesFencedAndReadmitted : Prop :=
  (∀ (s : State) (dt d : Nat), s.pkg.dieFitted d = true → s.pkg.dieFenced d = false → (∀ e ∈ s.pkg.fab.silent, e.1 = d → e.2 = 12) →
    ∃ t, exec (.heartbeatSend dt d) s = .next t ∧ t.pkg.regs = s.pkg.regs ∧ t.pkg.fab.lastBeat = mapPut s.pkg.fab.lastBeat d (s.pkg.clock + dt)
      ∧ ∀ e ∈ t.pkg.fab.silent, e.1 ≠ d)
  ∧ (∀ (s : State) (dt d path other : Nat), s.pkg.dieFitted d = true → s.pkg.dieFenced d = false → path ∈ s.pkg.beatPaths d → other ∈ s.pkg.beatPaths d →
      other ≠ path → (d, other) ∉ s.pkg.fab.silent →
    ∃ t, exec (.heartbeatMissing dt d path) s = .next t ∧ t.pkg.regs = s.pkg.regs ∧ (d, path) ∈ t.pkg.fab.silent ∧ t.pkg.stages = (s.pkg.pass dt).stages)
  ∧ (∀ (s : State) (dt d path : Nat), s.pkg.dieFitted d = true → s.pkg.dieFenced d = false → path ∈ s.pkg.beatPaths d →
      (∀ j ∈ s.pkg.beatPaths d, j ≠ path → (d, j) ∈ s.pkg.fab.silent) → (d, path) ∉ s.pkg.fab.silent →
    exec (.heartbeatMissing dt d path) s = .next { s with pkg := ((s.pkg.pass dt).modFab
      (fun f => { f with silent := f.silent ++ [(d, path)] })).fenceDie d 0 (mapGet (s.pkg.clock + dt) s.pkg.fab.lastBeat d) })
  ∧ (∀ (s : State) (dt d : Nat), s.pkg.dieFenced d = false →
    exec (.softwareFence dt d) s = .next { s with pkg := (s.pkg.pass dt).fenceDie d 1 (s.pkg.clock + dt) })
  ∧ (∀ (s : State) (dt : Nat), s.pkg.fab.fences ≠ [] → (∀ f ∈ s.pkg.fab.fences, f.since + 40 * Config.usUnits ≤ s.pkg.clock + dt) →
    ∃ t, exec (.fenceRelease dt) s = .next t ∧ t.pkg.fab.fences = [] ∧ bitAt (t.pkg.rd (IRQ_STATUS .fab)) EV_FAB_DIE_FENCED = true)
  ∧ (∀ (s : State) (dt d : Nat), s.pkg.dieFitted d = true → s.pkg.dieState d = DIE_FENCED → (∀ f ∈ s.pkg.fab.fences, f.die ≠ d) →
    ∃ t, exec (.dieReadmit dt d) s = .next t ∧ t.pkg.dieState d = DIE_RECOVERING ∧ mapFind t.pkg.fab.readmits d = some (1, 0)
      ∧ (∀ y, y / 2 ^ 38 = d → memByte t.pkg.mem y = memDefault) ∧ (∀ y, y / 2 ^ 38 ≠ d → memByte t.pkg.mem y = memByte s.pkg.mem y))
  ∧ (∀ (s : State) (dt d step n : Nat) (fails : List (Nat × Bool)), d < 8 → mapFind s.pkg.fab.readmits d = some (step, n) → step ≠ 5 →
    ∃ t, exec (.readmitStepDone dt d false fails) s = .next t ∧ t.pkg.dieState d = DIE_FENCED ∧ mapFind t.pkg.fab.readmits d = none
      ∧ t.pkg.get FAB_FENCE_LAST_STEP = step % 2 ^ 8 ∧ bitAt (t.pkg.rd (IRQ_STATUS .fab)) EV_FAB_READMIT_FAILED = true)
  ∧ (∀ (s : State) (dt d n : Nat) (fails : List (Nat × Bool)), d < 8 → mapFind s.pkg.fab.readmits d = some (4, n) →
    ∃ t, exec (.readmitStepDone dt d true fails) s = .next t ∧ t.pkg.dieState d = DIE_WAIT_STEP
      ∧ mapFind t.pkg.fab.readmits d = some (5, s.pkg.cru.resolved))
  ∧ (∀ (s : State) (dt d n : Nat), d < 8 → mapFind s.pkg.fab.readmits d = some (5, n) → n < s.pkg.cru.resolved →
    ∃ t, exec (.readmitActivate dt d) s = .next t ∧ t.pkg.dieState d = DIE_ACTIVE ∧ t.pkg.dieFenced d = false ∧ mapFind t.pkg.fab.readmits d = none)
  ∧ (∀ (s : State) (dt d gen rev w : Nat) (words : List Nat), (d = 8 ∨ s.pkg.dieFitted d = true) → w < 4 →
      within' s.pkg.variant.floor (listAt 0 words 0) = true →
    ∃ t, exec (.capabilityRecordReceive dt d gen rev words) s = .next t ∧ t.pkg.capWord d w = listAt 0 words w % 2 ^ 64 ∧ t.pkg.get (FAB_GEN_OF d) = gen % 2 ^ 4
      ∧ t.pkg.stages = (s.pkg.pass dt).stages)
  ∧ (∀ (s : State) (dt d gen rev : Nat) (words : List Nat), s.pkg.dieFitted d = true → s.pkg.dieFenced d = false → s.pkg.dieState d ≠ DIE_RECOVERING →
      s.pkg.has PKG_STATUS_READY = false → within' s.pkg.variant.floor (listAt 0 words 0) = false →
    ∃ q : Package, exec (.capabilityRecordReceive dt d gen rev words) s = .next { s with pkg := q.fenceDie d CAUSE_CAP_FLOOR (s.pkg.clock + dt) }
      ∧ q.get (PWR_DIE_BOOT_RESULT d) = 6 ∧ q.mem = s.pkg.mem)

/-- Shrouds (R318 to R320): training ends with the masks of both sides; beacons that agree set mask and width; a mismatch narrows to the common
lanes with one retrain, the third within a second and a width below MIN_WIDTH degrade; RETRAIN retrains an UP shroud; RESTORE trains a
DEGRADED one afresh. -/
def Obligations.ShroudWidths : Prop :=
  (∀ (s : State) (dt j a b : Nat), s.pkg.hasShroud j = true → s.pkg.shroudState j = SHROUD_TRAINING → (s.pkg.shroud j).narrowing = false →
    ∃ t, exec (.shroudTrainingDone dt j a b) s = .next t ∧ t.pkg.shroudState j = SHROUD_UP ∧ (t.pkg.shroud j).sides = (a % 2 ^ 12, b % 2 ^ 12)
      ∧ (t.pkg.shroud j).beacon = some (a % 2 ^ 12, b % 2 ^ 12))
  ∧ (∀ (s : State) (dt j : Nat), s.pkg.hasShroud j = true → s.pkg.shroudState j = SHROUD_UP →
    ∃ t, exec (.widthBeaconSend dt j) s = .next t ∧ (t.pkg.shroud j).beacon = some (s.pkg.shroud j).sides ∧ t.pkg.regs = s.pkg.regs)
  ∧ (∀ (s : State) (dt j a : Nat), s.pkg.hasShroud j = true → s.pkg.shroudState j = SHROUD_UP → s.pkg.shroudFenced j = false →
      (s.pkg.shroud j).beacon = some (a, a) → a < 2 ^ 12 → s.pkg.get FAB_CFG_MIN_WIDTH ≤ popcount 12 a →
    ∃ t, exec (.widthBeaconReceive dt j) s = .next t ∧ t.pkg.shroudState j = SHROUD_UP ∧ t.pkg.get (FAB_SHROUD_STATUS_MASK j) = a
      ∧ t.pkg.get (FAB_SHROUD_STATUS_WIDTH j) = popcount 12 a ∧ t.pkg.rd FAB_MISMATCH_COUNT = s.pkg.rd FAB_MISMATCH_COUNT)
  ∧ (∀ (s : State) (dt j a : Nat), s.pkg.hasShroud j = true → s.pkg.shroudState j = SHROUD_UP → s.pkg.shroudFenced j = false →
      (s.pkg.shroud j).beacon = some (a, a) → a < 2 ^ 12 → popcount 12 a < s.pkg.get FAB_CFG_MIN_WIDTH →
    ∃ t, exec (.widthBeaconReceive dt j) s = .next t ∧ t.pkg.shroudState j = SHROUD_DEGRADED ∧ t.pkg.get (FAB_SHROUD_STATUS_DEG_CAUSE j) = 2
      ∧ bitAt (t.pkg.get FAB_STATUS_DEGRADED_SHROUDS) j = true ∧ bitAt (t.pkg.rd (IRQ_STATUS .fab)) EV_FAB_SHROUD_DEGRADED = true)
  ∧ (∀ (s : State) (dt j a b : Nat), s.pkg.hasShroud j = true → s.pkg.shroudState j = SHROUD_UP → s.pkg.shroudFenced j = false →
      (s.pkg.shroud j).beacon = some (a, b) → a ≠ b → a < 2 ^ 12 → b < 2 ^ 12 →
      recentMismatches (s.pkg.clock + dt) (((s.pkg.clock + dt) :: (s.pkg.shroud j).mismatches).take 3) < 3 →
      s.pkg.get FAB_CFG_MIN_WIDTH ≤ popcount 12 (a &&& b) →
    ∃ t, exec (.widthBeaconReceive dt j) s = .next t ∧ t.pkg.shroudState j = SHROUD_RETRAINING ∧ t.pkg.get (FAB_SHROUD_STATUS_MASK j) = a &&& b
      ∧ (t.pkg.shroud j).narrowing = true ∧ (t.pkg.shroud j).sides = (a &&& b, a &&& b)
      ∧ t.pkg.rd FAB_MISMATCH_COUNT = (s.pkg.rd FAB_MISMATCH_COUNT + 1) % 2 ^ 64 ∧ t.pkg.rd FAB_RETRAINS = (s.pkg.rd FAB_RETRAINS + 1) % 2 ^ 64)
  ∧ (∀ (s : State) (dt j a b : Nat), s.pkg.hasShroud j = true → s.pkg.shroudState j = SHROUD_UP → s.pkg.shroudFenced j = false →
      (s.pkg.shroud j).beacon = some (a, b) → a ≠ b →
      recentMismatches (s.pkg.clock + dt) (((s.pkg.clock + dt) :: (s.pkg.shroud j).mismatches).take 3) = 3 →
    ∃ t, exec (.widthBeaconReceive dt j) s = .next t ∧ t.pkg.shroudState j = SHROUD_DEGRADED ∧ t.pkg.get (FAB_SHROUD_STATUS_DEG_CAUSE j) = 1)
  ∧ (∀ (s : State) (j : Nat), s.pkg.hasShroud j = true → s.pkg.shroudState j = SHROUD_UP →
    ∃ t, exec (.shroudRetrain j) s = .next t ∧ t.pkg.shroudState j = SHROUD_RETRAINING ∧ t.pkg.rd FAB_RETRAINS = (s.pkg.rd FAB_RETRAINS + 1) % 2 ^ 64)
  ∧ (∀ (s : State) (j : Nat), s.pkg.hasShroud j = true → s.pkg.shroudState j = SHROUD_DEGRADED →
    ∃ t, exec (.shroudRestore j) s = .next t ∧ t.pkg.shroudState j = SHROUD_TRAINING ∧ t.pkg.shroud j = {}
      ∧ t.pkg.get (FAB_SHROUD_STATUS_MASK j) = 0 ∧ t.pkg.get (FAB_SHROUD_STATUS_DEG_CAUSE j) = 0
      ∧ bitAt (t.pkg.get FAB_STATUS_DEGRADED_SHROUDS) j = false)

/-! ### The guest site (13_package_fabric.md) -/

/-- The policy and the site (R330, R332, R335): a policy that is signed, not rolled back and well laid out starts training and extends MR14; any other is
refused with its cause; the partner it names opens the site, another closes it; CLOSE and a lost link close it. -/
def Obligations.GuestSiteOpensAndCloses : Prop :=
  (∀ (s : State) (b : List Byte), s.pkg.variant.guest = true → s.pkg.hubRuns = true → s.pkg.site = SITE_CLOSED →
      s.pkg.load (bitsOf (s.pkg.rd GATE_POLICY_BASE) 6 42 * 64) 512 = .ok b → policyLayout b = true → fieldAt b 36 8 = s.part.ownerKeyId →
      s.pkg.arbCount 5 ≤ fieldAt b 8 4 →
    ∃ t, exec (.gatePolicyLoad true) s = .next t ∧ t.pkg.site = SITE_TRAINING ∧ t.pkg.gate.policy = b
      ∧ t.pkg.rd GATE_POLICY_SERIAL = fieldAt b 8 4 ∧ t.part = s.part
      ∧ (exec (.gatePolicyLoad false) s = .next { s with pkg := ((s.pkg.put GATE_STATUS_CAUSE GC_SIGNATURE).raise .gate
          EV_GATE_POLICY_REJECTED s.pkg.beatNo (arg1Of 0 GC_SIGNATURE)) }))
  ∧ (∀ (s : State) (b : List Byte), s.pkg.variant.guest = true → s.pkg.hubRuns = true → s.pkg.site = SITE_CLOSED →
      s.pkg.load (bitsOf (s.pkg.rd GATE_POLICY_BASE) 6 42 * 64) 512 = .ok b → b.length = 512 → fieldAt b 36 8 = s.part.ownerKeyId →
      (fieldAt b 8 4 < s.pkg.arbCount 5 ∨ policyLayout b = false) →
    ∃ t, exec (.gatePolicyLoad true) s = .next t ∧ t.pkg.site = SITE_CLOSED ∧ t.pkg.gate = s.pkg.gate
      ∧ t.pkg.get GATE_STATUS_CAUSE = (if fieldAt b 8 4 < s.pkg.arbCount 5 then GC_ROLLBACK else GC_LAYOUT)
      ∧ bitAt (t.pkg.rd (IRQ_STATUS .gate)) EV_GATE_POLICY_REJECTED = true)
  ∧ (∀ (s : State) (dt vendor device : Nat) (m : List Byte), s.pkg.site = SITE_TRAINING → vendor % 2 ^ 16 = fieldAt s.pkg.gate.policy 12 2 →
      device % 2 ^ 16 = fieldAt s.pkg.gate.policy 14 2 →
    ∃ t, exec (.guestTrainingDone dt vendor device m) s = .next t ∧ t.pkg.site = SITE_OPEN ∧ t.pkg.gate.measurement = m.take 48
      ∧ t.pkg.get GATE_GUEST_ID_VENDOR = vendor % 2 ^ 16 ∧ t.pkg.get GATE_GUEST_ID_DEVICE = device % 2 ^ 16)
  ∧ (∀ (s : State) (dt vendor device : Nat) (m : List Byte), s.pkg.site = SITE_TRAINING →
      (vendor % 2 ^ 16 ≠ fieldAt s.pkg.gate.policy 12 2 ∨ device % 2 ^ 16 ≠ fieldAt s.pkg.gate.policy 14 2) →
    ∃ t, exec (.guestTrainingDone dt vendor device m) s = .next t ∧ t.pkg.site = SITE_CLOSED ∧ t.pkg.get GATE_STATUS_CAUSE = GC_IDENTITY)
  ∧ (∀ (s : State) (dt : Nat), (s.pkg.site = SITE_TRAINING ∨ s.pkg.site = SITE_OPEN) →
    ∃ t u, exec .gateClose s = .next t ∧ exec (.guestLinkLoss dt) s = .next u ∧ t.pkg.site = SITE_CLOSED ∧ u.pkg.site = SITE_CLOSED
      ∧ t.pkg.get GATE_STATUS_CAUSE = GC_WRITTEN ∧ u.pkg.get GATE_STATUS_CAUSE = GC_LINK ∧ t.pkg.gate.held = [] ∧ u.pkg.gate.held = []
      ∧ t.pkg.rd GATE_POLICY_SERIAL = 0 ∧ bitAt (t.pkg.rd (IRQ_STATUS .gate)) EV_GATE_CLOSED = true)

/-- The Gate's requests (R331, R333, R334): one that the policy grants and the buckets cover is performed and answered; one that they do not cover is
held; a case of R333 refuses it, with its operation and address shown; the oldest held request proceeds when the buckets cover it. -/
def Obligations.GuestRequestsGated : Prop :=
  (∀ (s : State) (dt : Nat) (r : HostReq) (found : List (Nat × LineCheck)), s.pkg.site = SITE_OPEN → s.pkg.gate.held = [] →
    (refusalReasons s.pkg.gate.policy OP_REG_RD r = [] → ((s.pkg.pass dt).refillGate).covers OP_REG_RD r = true →
      ∃ t, exec (.guestRegRd dt 0xFFF r) s = .next t ∧ (t.part, t.pkg) = ((s.pkg.pass dt).refillGate).admitGuest OP_REG_RD r [] s.part ∧ t.part = s.part
        ∧ t.pkg.mem = s.pkg.mem)
    ∧ (refusalReasons s.pkg.gate.policy OP_REG_WR r = [] → ((s.pkg.pass dt).refillGate).covers OP_REG_WR r = true →
      ∃ t, exec (.guestRegWr dt 0xFFF r) s = .next t ∧ (t.part, t.pkg) = ((s.pkg.pass dt).refillGate).admitGuest OP_REG_WR r [] s.part)
    ∧ (refusalReasons s.pkg.gate.policy OP_MEM_RD r = [] → ((s.pkg.pass dt).refillGate).covers OP_MEM_RD r = true →
      ∃ t, exec (.guestMemRd dt 0xFFF r found) s = .next t ∧ (t.part, t.pkg) = ((s.pkg.pass dt).refillGate).admitGuest OP_MEM_RD r found s.part
        ∧ t.part = s.part ∧ t.pkg.mem = s.pkg.mem)
    ∧ (refusalReasons s.pkg.gate.policy OP_MEM_WR r = [] → ((s.pkg.pass dt).refillGate).covers OP_MEM_WR r = true → r.memForm = true →
        r.data.length = r.len → s.pkg.rangeOk r.addr r.len = true →
      ∃ t, exec (.guestMemWr dt 0xFFF r) s = .next t ∧ t.pkg.bytesAt r.addr r.len = r.data ∧ t.part = s.part
        ∧ ∀ y, (∀ i, i < r.len → physOf (r.addr + i) ≠ some y) → memByte t.pkg.mem y = memByte s.pkg.mem y)
    ∧ (refusalReasons s.pkg.gate.policy OP_EVENT r = [] → ((s.pkg.pass dt).refillGate).covers OP_EVENT r = true →
      ∃ t, exec (.guestEvent dt 0xFFF r) s = .next t ∧ (t.part, t.pkg) = ((s.pkg.pass dt).refillGate).admitGuest OP_EVENT r [] s.part
        ∧ t.part = s.part ∧ t.pkg.mem = s.pkg.mem))
  ∧ (∀ (s : State) (dt : Nat) (r : HostReq), s.pkg.site = SITE_OPEN → refusalReasons s.pkg.gate.policy OP_MEM_RD r = [] →
      (s.pkg.gate.held ≠ [] ∨ ((s.pkg.pass dt).refillGate).covers OP_MEM_RD r = false) →
    ∃ t, exec (.guestMemRd dt 0xFFF r []) s = .next t ∧ t.pkg.regs = s.pkg.regs
      ∧ t.pkg.gate.held = s.pkg.gate.held ++ [{ req := { r with op := OP_MEM_RD }, since := s.pkg.clock + dt }])
  ∧ (∀ (s : State) (dt reason : Nat) (r : HostReq), s.pkg.site = SITE_OPEN → refusalReasons s.pkg.gate.policy OP_REG_WR r = [reason] →
    ∃ t, exec (.guestRegWr dt 0xFFF r) s = .next t ∧ t.part = s.part ∧ t.pkg.rd GATE_REFUSED_COUNT = (s.pkg.rd GATE_REFUSED_COUNT + 1) % 2 ^ 64
      ∧ t.pkg.get GATE_REFUSED_LAST_ADDR = r.addr % 2 ^ 48 ∧ t.pkg.get GATE_REFUSED_LAST_OP = OP_REG_WR ∧ t.pkg.get GATE_REFUSED_LAST_REASON = reason
      ∧ (fieldAt s.pkg.gate.policy 34 2 = 0 → t.pkg.site = SITE_OPEN)
      ∧ (fieldAt s.pkg.gate.policy 34 2 = 1 → t.pkg.site = SITE_CLOSED ∧ t.pkg.get GATE_STATUS_CAUSE = GC_REFUSALS))
  ∧ (∀ (s : State) (dt : Nat) (h : GuestHeld) (rest : List GuestHeld) (found : List (Nat × LineCheck)), s.pkg.gate.held = h :: rest → s.pkg.site = SITE_OPEN →
      ((s.pkg.pass dt).refillGate).covers h.req.op h.req = true →
    ∃ t, exec (.gateHeldRelease dt found) s = .next t
      ∧ (t.part, t.pkg) = ((((s.pkg.pass dt).refillGate).modGate (fun g => { g with held := rest })).bump64 GATE_HELD_NS
          ((s.pkg.clock + dt - h.since) / Config.nsUnits)).admitGuest h.req.op h.req found s.part)
  ∧ (∀ (s : State) (dt : Nat) (h : GuestHeld) (rest : List GuestHeld) (found : List (Nat × LineCheck)), s.pkg.gate.held = h :: rest →
      ((s.pkg.pass dt).refillGate).covers h.req.op h.req = false →
    exec (.gateHeldRelease dt found) s = .next { s with pkg := (s.pkg.pass dt).refillGate })

/-! ### Power and temperature (01_package_overview.md, 17_power_boot_maintenance.md) -/

/-- The power manager and the temperature rules (R16 to R18, R334, R431, R483, R485): the interval's measurements show and its energy accumulates; the
allotments stay within a die's limits; ten samples above the guest's watts close its site; a reading throttles the clock, caps the duty and
lets go again; the hub die's limit stops the package, a compute die's and a stack's take rails. -/
def Obligations.PowerAndTemperature : Prop :=
  (∀ (s : State) (dt watts mv da hub optics : Nat), s.pkg.pwr.goodAt ≠ none → s.pkg.site ≠ SITE_TRAINING → s.pkg.site ≠ SITE_OPEN →
    ∃ t, exec (.powerManagerInterval dt watts mv da hub optics 0 []) s = .next t
      ∧ t.pkg.get PWR_INPUT_WATTS = watts % 2 ^ PWR_INPUT_WATTS.len ∧ t.pkg.get PWR_INPUT_MILLIVOLTS = mv % 2 ^ PWR_INPUT_MILLIVOLTS.len
      ∧ t.pkg.rd PWR_ENERGY = (s.pkg.rd PWR_ENERGY + (s.pkg.pwr.energyRest + watts) / 10) % 2 ^ 64
      ∧ t.pkg.pwr.energyRest = (s.pkg.pwr.energyRest + watts) % 10
      ∧ ∀ d, s.pkg.dieFitted d = true → s.pkg.dieFenced d = false →
          s.pkg.variant.dieWatts ≤ t.pkg.get (PWR_ALLOT_OF d) ∧ t.pkg.get (PWR_ALLOT_OF d) ≤ 360)
  ∧ (∀ (s : State) (watts : Nat), s.pkg.site = SITE_OPEN → fieldAt s.pkg.gate.policy 32 1 < watts → 9 ≤ s.pkg.gate.hotSamples →
      (s.pkg.guestSample watts).site = SITE_CLOSED ∧ (s.pkg.guestSample watts).get GATE_STATUS_CAUSE = GC_POWER)
  ∧ (∀ (s : State) (dt d temp : Nat), s.pkg.dieFitted d = true → s.pkg.dieFenced d = false → mapFind s.pkg.bists d = none →
    ∃ t, exec (.thermalInterval dt [(d, temp)] []) s = .next t ∧ t.pkg.mhz d = nextClock (s.pkg.mhz d) temp ∧ mapGet 0 t.pkg.pwr.junction d = temp
      ∧ (105 ≤ temp → d ∈ t.pkg.pwr.capped ∧ d ∈ t.pkg.thermalDies ∧ ∀ i, i < 72 → t.pkg.dutyCap (72 * d + i) = 0)
      ∧ (temp < 100 → d ∉ t.pkg.pwr.capped)
      ∧ (temp < 92 → s.pkg.mhz d = 1500 → d ∉ t.pkg.thermalDies))
  ∧ (∀ (s : State) (dt : Nat), s.pkg.pwr.goodAt ≠ none →
    ∃ t, exec (.thermalTrip dt 8) s = .next t ∧ t.pkg.fatal = true ∧ bitAt (t.pkg.rd (IRQ_STATUS (.err 8))) EV_ERR_FATAL = true)
  ∧ (∀ (s : State) (dt d : Nat), s.pkg.pwr.goodAt ≠ none → s.pkg.dieFitted d = true → s.pkg.dieFenced d = false →
    exec (.thermalTrip dt d) s = .next { s with pkg :=
      (railFault 0 (.die d 0) ((s.pkg.pass dt).report .pwr 8 1 (Config.openCode 39) s.pkg.beatNo (arg1Of d 0) false false)) })
  ∧ (∀ (s : State) (dt k temp : Nat), s.pkg.pwr.goodAt ≠ none → s.pkg.stackFitted k = true → s.pkg.dieFenced (k / 4) = false →
    exec (.stackOvertemp dt k temp) s = .next { s with pkg :=
      (railFault 0 (.stack k) ((s.pkg.pass dt).modPwr (fun w => { w with stackTemp := mapSet 0 w.stackTemp k temp }))) })

/-! ### Registers and transactions (14_control_interface.md) -/

/-- Register writes (R6 to R8, R343, R349): a write has the effect of its register and leaves the rest; a misaligned one none; a W1C register loses, a W1S
register gains the bits written; a plain RW register takes its writable bits; an RWT register is staged for the owner of the open
transaction and refused to others; a write of IRQ_FORCE raises its events. -/
def Obligations.RegisterWrites : Prop :=
  (∀ (s : State) (req a len v : Nat), ((len ≠ 4 ∧ len ≠ 8) ∨ a % len ≠ 0) → exec (.registerWrite req a len v) s = .next s)
  ∧ (∀ (s : State) (req a v : Nat) (g : Page) (r : RegDef), a % 8 = 0 → pageAt a = some g → s.pkg.pageFitted g = true → s.pkg.pageFenced g = false →
      (g = .gate → s.pkg.variant.guest = true) → g.regs.find? (fun r => r.lists (a % 0x1000)) = some r → r.wmask ≠ 0 →
    (r.access = .w1c → s.pkg.writeEffect req g a none v (maskWrite (s.pkg.rd a) (v % 2 ^ 64) r.wmask) (v % 2 ^ 64 &&& r.wmask) = none →
        a ≠ PWR_RESET → a ≠ SEC_CTRL → a ≠ GATE_CTRL → r.wmask < 2 ^ 64 →
      exec (.registerWrite req a 8 v) s = .next { s with pkg := s.pkg.wr a (s.pkg.rd a &&& (2 ^ 64 - 1 - (v % 2 ^ 64 &&& r.wmask))) })
    ∧ (r.access = .w1s → s.pkg.writeEffect req g a none v (maskWrite (s.pkg.rd a) (v % 2 ^ 64) r.wmask) (v % 2 ^ 64 &&& r.wmask) = none →
        a ≠ PWR_RESET → a ≠ SEC_CTRL → a ≠ GATE_CTRL → r.wmask < 2 ^ 64 →
      exec (.registerWrite req a 8 v) s = .next { s with pkg := s.pkg.wr a (s.pkg.rd a ||| (v % 2 ^ 64 &&& r.wmask)) })
    ∧ (r.access = .rw → s.pkg.writeEffect req g a none v (maskWrite (s.pkg.rd a) (v % 2 ^ 64) r.wmask) (v % 2 ^ 64 &&& r.wmask) = none →
        a ≠ PWR_RESET → a ≠ SEC_CTRL → a ≠ GATE_CTRL → r.wmask < 2 ^ 64 →
      exec (.registerWrite req a 8 v) s = .next { s with pkg := ((s.pkg.wr a
        (s.pkg.plainWrite a (s.pkg.rd a) (maskWrite (s.pkg.rd a) (v % 2 ^ 64) r.wmask))).afterWrite a) })
    ∧ (r.access = .rwt → s.pkg.owns req = false →
      exec (.registerWrite req a 8 v) s = .next { s with pkg := (s.pkg.put (TXN_STATE_OUTSIDE_WRITE g) 1).txnErr })
    ∧ (r.access = .rwt → s.pkg.owns req = true → s.pkg.txn.value a = none → s.pkg.txn.staged.length < Config.stagedMax →
      ∃ t, exec (.registerWrite req a 8 v) s = .next t ∧ t.pkg.txn.staged = s.pkg.txn.staged ++ [(a, v % 2 ^ 64 &&& r.wmask)]
        ∧ t.pkg.get PKG_TXN_STATUS_STAGED = s.pkg.txn.staged.length + 1 ∧ t.part = s.part ∧ t.pkg.mem = s.pkg.mem))
  ∧ (∀ (s : State) (page v n : Nat) (g : Page), pageAt page = some g → s.pkg.pageFitted g = true → s.pkg.pageFenced g = false →
      (g = .gate → s.pkg.variant.guest = true) → n < g.events → bitAt v n = true →
    ∃ t, exec (.irqForce page v) s = .next t ∧ bitAt (t.pkg.rd (IRQ_STATUS g)) n = true ∧ t.pkg.mem = s.pkg.mem)

/-- Transactions (R349 to R353): BEGIN opens an idle one for its writer and else counts an error; COMMIT of the owner validates; a failed validation names
register and cause and drops every staged write; a passed one waits for a tick where ticks come; ROLLBACK and the timeout end an open one. -/
def Obligations.Transactions : Prop :=
  (∀ (s : State) (req v : Nat), s.pkg.txnState = TXN_IDLE →
    ∃ t, exec (.txnBegin req v) s = .next t ∧ t.pkg.txnState = TXN_OPEN ∧ t.pkg.get PKG_TXN_STATUS_OWNER = req % 2 ^ 12
      ∧ t.pkg.get PKG_TXN_STATUS_COOKIE = v % 2 ^ 16 ∧ t.pkg.txn.staged = [] ∧ t.pkg.txn.openedAt = s.pkg.clock)
  ∧ (∀ (s : State) (req v : Nat), s.pkg.txnState ≠ TXN_IDLE → exec (.txnBegin req v) s = .next { s with pkg := s.pkg.bump64 PKG_TXN_ERRS 1 })
  ∧ (∀ (s : State) (req : Nat), s.pkg.owns req = true →
    ∃ t, exec (.txnCommit req) s = .next t ∧ t.pkg.txnState = TXN_VALIDATING ∧ t.pkg.txn = s.pkg.txn)
  ∧ (∀ (s : State) (req : Nat), s.pkg.owns req = false → exec (.txnCommit req) s = .next { s with pkg := s.pkg.bump64 PKG_TXN_ERRS 1 })
  ∧ (∀ (s : State) (dt a cause : Nat), s.pkg.txnState = TXN_VALIDATING → (s.pkg.pass dt).txnFault = some (a, cause) →
    ∃ t, exec (.txnValidationDone dt) s = .next t ∧ t.pkg.txnState = TXN_IDLE ∧ t.pkg.get PKG_TXN_STATUS_RESULT = TR_FAILED
      ∧ t.pkg.get PKG_TXN_FAIL_ADDR = a % 2 ^ 32 ∧ t.pkg.get PKG_TXN_FAIL_CAUSE = cause % 2 ^ 8 ∧ t.pkg.txn.staged = []
      ∧ bitAt (t.pkg.rd (IRQ_STATUS .pkg)) EV_PKG_TXN_FAILED = true)
  ∧ (∀ (s : State) (dt : Nat), s.pkg.txnState = TXN_VALIDATING → (s.pkg.pass dt).txnFault = none → s.pkg.ticking = true →
    ∃ t, exec (.txnValidationDone dt) s = .next t ∧ t.pkg.txnState = TXN_PENDING ∧ t.pkg.txn.staged = s.pkg.txn.staged)
  ∧ (∀ s : State, (s.pkg.txnState = TXN_OPEN ∨ s.pkg.txnState = TXN_VALIDATING) →
    ∃ t, exec .txnRollback s = .next t ∧ t.pkg.txnState = TXN_IDLE ∧ t.pkg.get PKG_TXN_STATUS_RESULT = TR_ROLLED_BACK ∧ t.pkg.txn.staged = [])
  ∧ (∀ (s : State) (dt : Nat), s.pkg.txnState = TXN_OPEN →
      s.pkg.txn.openedAt + s.pkg.get PKG_TXN_CFG_TIMEOUT_MS * Config.msUnits ≤ s.pkg.clock + dt →
    ∃ t, exec (.txnTimeout dt) s = .next t ∧ t.pkg.txnState = TXN_IDLE ∧ t.pkg.get PKG_TXN_STATUS_RESULT = TR_TIMED_OUT ∧ t.pkg.txn.staged = []
      ∧ bitAt (t.pkg.rd (IRQ_STATUS .pkg)) EV_PKG_TXN_TIMEOUT = true)

/-! ### Command rings (14_control_interface.md) -/

/-- Fetching and the command classes (R354 to R362, R391, R412, R433): the doorbell moves the tail, one too far ahead halts the ring; a sound descriptor
enters the ring, one out of reach halts it; NOP, COPY, FILL and CHECK do their work and end; RUN takes its clusters; BIST asks for a run,
SNAP_CAPTURE arms the SNAP unit and SNAP_RESTORE starts, once a capture or restore before them has ended; REWIND waits for its tick or fails with its cause. -/
def Obligations.RingCommandClasses : Prop :=
  (∀ (s : State) (d v : Nat), d ≤ 8 → s.pkg.ringReach d = true → (v % 2 ^ 16 + 2 ^ 16 - s.pkg.rd (DIE_RING_HEAD d)) % 2 ^ 16 ≤ s.pkg.ringDepth d →
    ∃ t, exec (.ringDoorbell d v) s = .next t ∧ (t.pkg.ringSt d).tail = v % 2 ^ 16 ∧ t.pkg.ringState d = s.pkg.ringState d ∧ t.pkg.mem = s.pkg.mem)
  ∧ (∀ (s : State) (d v : Nat), d ≤ 8 → s.pkg.ringReach d = true → s.pkg.ringState d = RING_ACTIVE →
      s.pkg.ringDepth d < (v % 2 ^ 16 + 2 ^ 16 - s.pkg.rd (DIE_RING_HEAD d)) % 2 ^ 16 →
    ∃ t, exec (.ringDoorbell d v) s = .next t ∧ t.pkg.ringState d = RING_HALTED ∧ t.pkg.get (DIE_RING_STATUS_HALT_CAUSE d) = 2
      ∧ bitAt (t.pkg.rd (IRQ_STATUS (.die d))) EV_DIE_RING_HALT = true)
  ∧ (∀ (s : State) (dt d : Nat) (b : List Byte), d ≤ 8 → s.pkg.ringServes d = true → s.pkg.ringState d = RING_ACTIVE → s.pkg.ringQueued d ≠ 0 →
      s.pkg.ringQueued d ≤ s.pkg.ringDepth d → (s.pkg.ringSt d).inflight.length < Config.ringInflight → (s.pkg.ringSt d).waiting = [] →
      (s.pkg.ringSt d).aborts = [] → s.pkg.load (s.pkg.ringEntry d (s.pkg.rd (DIE_RING_HEAD d))) 64 = .ok b → s.pkg.ringCmd d (descTag b) = none →
      descOk d b = true → s.pkg.classPermitted b = true →
    ∃ t, exec (.commandFetch dt d .clean) s = .next t ∧ t.pkg.rd (DIE_RING_HEAD d) = (s.pkg.rd (DIE_RING_HEAD d) + 1) % 2 ^ 16 ∧ t.pkg.mem = s.pkg.mem
      ∧ (t.pkg.ringSt d).inflight = (s.pkg.ringSt d).inflight ++ [{ tag := descTag b, cls := descCls b, fence := decide (fieldAt b 1 1 = 1), desc := b }])
  ∧ (∀ (s : State) (dt d : Nat), d ≤ 8 → s.pkg.ringServes d = true → s.pkg.ringQueued d ≠ 0 → s.pkg.ringQueued d ≤ s.pkg.ringDepth d →
      (s.pkg.ringSt d).inflight.length < Config.ringInflight → (s.pkg.ringSt d).waiting = [] →
      s.pkg.load (s.pkg.ringEntry d (s.pkg.rd (DIE_RING_HEAD d))) 64 = .refused →
    ∃ t, exec (.commandFetch dt d .clean) s = .next t ∧ t.pkg.ringState d = RING_HALTED ∧ t.pkg.get (DIE_RING_STATUS_HALT_CAUSE d) = 3
      ∧ t.pkg.rd (DIE_RING_HEAD d) = s.pkg.rd (DIE_RING_HEAD d))
  ∧ (∀ (s : State) (dt d tag : Nat) (c : RingCmd), s.pkg.startable d tag CC_NOP = some c →
    ∃ t, exec (.ringNop dt d tag) s = .next t ∧ t.pkg.ringCmd d tag = some { c with started := true, past := true, done := some (ST_OK, 0) }
      ∧ t.pkg.mem = s.pkg.mem)
  ∧ (∀ (s : State) (dt d tag : Nat) (c : RingCmd) (bs : List Byte), s.pkg.startable d tag CC_COPY = some c →
      s.pkg.rangeOk (fieldAt c.desc 16 8) (fieldAt c.desc 24 8) = true → s.pkg.load (fieldAt c.desc 8 8) (fieldAt c.desc 24 8) = .ok bs →
    ∃ t, exec (.copy dt d tag []) s = .next t ∧ t.pkg.mem = storeBytes s.pkg.mem (fieldAt c.desc 16 8) bs
      ∧ (t.pkg.ringCmd d tag).map (fun c => c.done) = some (some (ST_OK, 0)))
  ∧ (∀ (s : State) (dt d tag : Nat) (c : RingCmd) (found : List (Nat × LineCheck)), s.pkg.startable d tag CC_COPY = some c →
      s.pkg.rangeOk (fieldAt c.desc 8 8) (fieldAt c.desc 24 8) = false →
    ∃ t, exec (.copy dt d tag found) s = .next t ∧ t.pkg.mem = s.pkg.mem
      ∧ (t.pkg.ringCmd d tag).map (fun c => c.done) = some (some (ST_REFUSED_ADDR, 0)))
  ∧ (∀ (s : State) (dt d tag : Nat) (c : RingCmd), s.pkg.startable d tag CC_FILL = some c →
      s.pkg.rangeOk (fieldAt c.desc 16 8) (fieldAt c.desc 24 8) = true →
    ∃ t, exec (.fill dt d tag) s = .next t
      ∧ t.pkg.mem = storeBytes s.pkg.mem (fieldAt c.desc 16 8) (patternBytes (fieldAt c.desc 32 8) (fieldAt c.desc 24 8))
      ∧ (t.pkg.ringCmd d tag).map (fun c => c.done) = some (some (ST_OK, 0)))
  ∧ (∀ (s : State) (dt d tag : Nat) (c : RingCmd) (bs : List Byte), s.pkg.startable d tag CC_CHECK = some c →
      s.pkg.load (fieldAt c.desc 8 8) (fieldAt c.desc 24 8) = .ok bs →
    ∃ t, exec (.check dt d tag []) s = .next t ∧ t.pkg.mem = s.pkg.mem
      ∧ (t.pkg.ringCmd d tag).map (fun c => c.done) = some (some (if bitAt (fieldAt c.desc 36 4) 0 && decide (crc32c bs ≠ fieldAt c.desc 32 4)
          then ST_MISMATCH else ST_OK, crc32c bs)))
  ∧ (∀ (s : State) (dt d tag : Nat) (c : RingCmd), s.pkg.startable d tag CC_RUN = some c →
    (∃ job : RunJob, job.ring = d ∧ job.tag = tag ∧ job.die = d ∧ job.first = bitsOf (fieldAt c.desc 24 8) 0 8
      ∧ job.count = bitsOf (fieldAt c.desc 24 8) 8 8 ∧ job.list = fieldAt c.desc 8 8 ∧ job.len = fieldAt c.desc 16 8
      ∧ ((job.clusters.any (fun k => s.pkg.clusterBound k || (s.pkg.servedRun k).isSome) = false → s.pkg.rangeOk job.list (32 * job.len) = true →
            job.clusters.find? (fun k => decide (s.pkg.get (CLU_STATUS_STATE k) = 2)) = none →
          ∃ t, exec (.run dt d tag) s = .next t ∧ t.pkg.runs = s.pkg.runs ++ [job] ∧ t.pkg.mem = s.pkg.mem)
        ∧ (job.clusters.any (fun k => s.pkg.clusterBound k || (s.pkg.servedRun k).isSome) = true →
          ∃ t, exec (.run dt d tag) s = .next t ∧ t.pkg.runs = s.pkg.runs
            ∧ (t.pkg.ringCmd d tag).map (fun c => c.done) = some (some (ST_BAD_DESCRIPTOR, 0))))))
  ∧ (∀ (s : State) (dt d tag : Nat) (c : RingCmd) (b : BistRun), s.pkg.startable d tag CC_BIST = some c → mapFind s.pkg.bists d = none →
      b = { tag := tag, cluster := fieldAt c.desc 9 1, core := if fieldAt c.desc 8 1 = 1 then some (fieldAt c.desc 10 1) else none,
            noRepair := bitAt (fieldAt c.desc 11 1) 0, askedAt := s.pkg.clock + dt } →
      d < 8 → s.pkg.unitIsolated d b = true →
    ∃ t, exec (.bist dt d tag) s = .next t ∧ mapFind t.pkg.bists d = some b)
  ∧ (∀ (s : State) (dt tag : Nat) (c : RingCmd), s.pkg.startable 8 tag CC_CAPTURE = some c → s.pkg.snap.capture = none → s.pkg.snap.restore = none →
    ∃ t, exec (.snapCapture dt tag) s = .next t
      ∧ t.pkg.snap.capture = some { tag := some tag, buddy := s.pkg.captureToBuddy c.desc, step := fieldAt c.desc 8 8 })
  ∧ (∀ (s : State) (dt tag : Nat), (s.pkg.snap.capture ≠ none ∨ s.pkg.snap.restore ≠ none) → exec (.snapCapture dt tag) s = .next { s with pkg := s.pkg.pass dt })
  ∧ (∀ (s : State) (dt tag : Nat) (c : RingCmd), (s.pkg.pass dt).startable 8 tag CC_RESTORE = some c → s.pkg.snap.restore = none →
    exec (.snapRestore dt tag) s = .next { s with pkg := ((s.pkg.pass dt).begun 8 tag false).startRestore tag c.desc })
  ∧ (∀ (s : State) (dt tag : Nat), s.pkg.snap.restore ≠ none → exec (.snapRestore dt tag) s = .next { s with pkg := s.pkg.pass dt })
  ∧ (∀ (s : State) (dt tag : Nat) (c : RingCmd), s.pkg.startable 8 tag CC_REWIND = some c →
    ∃ t, exec (.rewind dt tag) s = .next t
      ∧ (∀ x, (s.pkg.pass dt).rewindCause (fieldAt c.desc 8 8) (fieldAt c.desc 16 8) = some x → t.pkg.rewind = s.pkg.rewind
          ∧ (t.pkg.ringCmd 8 tag).map (fun c => c.done) = some (some (ST_FAILED, x)))
      ∧ ((s.pkg.pass dt).rewindCause (fieldAt c.desc 8 8) (fieldAt c.desc 16 8) = none →
          t.pkg.rewind = some { tag := tag, step := fieldAt c.desc 8 8, next := fieldAt c.desc 16 8 }))

/-- Records, aborts and the ring's control (R358, R362 to R365): a command that ended writes its record and leaves the ring; a full completion ring is
reported after 100 µs; its head advances; an abort is noted, stops a command before its point of Table 14-11, and is ignored while one is pending
for the tag; RESUME, RESET and the drain deadline. -/
def Obligations.RingRecordsAndControl : Prop :=
  (∀ (s : State) (dt d tag st res : Nat) (c : RingCmd), d ≤ 8 → s.pkg.ringCmd d tag = some c → c.done = some (st, res) → s.pkg.runOf d tag = none →
      (s.pkg.ringSt d).waiting = [] → (s.pkg.ringSt d).aborts = [] → s.pkg.cqUsed d < s.pkg.cqDepth d →
      s.pkg.rangeOk (s.pkg.rd (DIE_CQ_BASE d) + 16 * (s.pkg.rd (DIE_CQ_TAIL d) % s.pkg.cqDepth d)) 16 = true →
    ∃ t, exec (.commandComplete dt d tag) s = .next t ∧ t.pkg.ringCmd d tag = none
      ∧ t.pkg.rd (DIE_CQ_TAIL d) = (s.pkg.rd (DIE_CQ_TAIL d) + 1) % 2 ^ 16 ∧ t.pkg.rd (DIE_CMDS_DONE d) = (s.pkg.rd (DIE_CMDS_DONE d) + 1) % 2 ^ 64
      ∧ t.pkg.mem = storeBytes s.pkg.mem (s.pkg.rd (DIE_CQ_BASE d) + 16 * (s.pkg.rd (DIE_CQ_TAIL d) % s.pkg.cqDepth d))
          (CqRec.toBytes { tag := tag, status := st, result := res % 2 ^ 32, cls := c.cls, abortResult := false, replayed := c.replayed,
                           errLogged := c.errLogged, since := s.pkg.clock + dt } (if s.pkg.rd (DIE_CQ_TAIL d) / s.pkg.cqDepth d % 2 = 0 then 1 else 0) s.pkg.beatNo))
  ∧ (∀ (s : State) (dt d : Nat) (w : CqRec) (rest : List CqRec), d ≤ 8 → (s.pkg.ringSt d).waiting = w :: rest → (s.pkg.ringSt d).stallAt = none →
      w.since + 100 * Config.usUnits < s.pkg.clock + dt →
    ∃ t, exec (.cqStall dt d) s = .next t ∧ (t.pkg.ringSt d).stallAt = some (s.pkg.clock + dt) ∧ (t.pkg.ringSt d).waiting = (s.pkg.ringSt d).waiting
      ∧ bitAt (t.pkg.rd (IRQ_STATUS (.die d))) EV_DIE_CQ_STALL = true)
  ∧ (∀ (s : State) (d v : Nat), d ≤ 8 → s.pkg.ringReach d = true → (s.pkg.ringSt d).waiting = [] → s.pkg.ringState d ≠ RING_DRAINING →
    exec (.cqHeadWrite d v) s = .next { s with pkg := s.pkg.wr (DIE_CQ_HEAD d) (v % 2 ^ 16) })
  ∧ (∀ (s : State) (d v : Nat), s.pkg.ringReach d = true → v % 2 ^ 16 ∈ (s.pkg.ringSt d).aborts →
    exec (.commandAbort d v) s = .next { s with pkg := s.pkg.bump64 (DIE_ABORT_IGNORED d) 1 })
  ∧ (∀ (s : State) (d v : Nat) (c : RingCmd), d ≤ 8 → s.pkg.ringReach d = true → (s.pkg.ringSt d).aborts.length < Config.ringAborts →
      v % 2 ^ 16 ∉ (s.pkg.ringSt d).aborts → s.pkg.ringCmd d (v % 2 ^ 16) = some c → c.cls ≠ CC_RUN →
    ∃ t, exec (.commandAbort d v) s = .next t
      ∧ (s.pkg.pastPoint d c = true → (t.pkg.ringSt d).aborts = (s.pkg.ringSt d).aborts ++ [v % 2 ^ 16] ∧ t.pkg.mem = s.pkg.mem
          ∧ (t.pkg.ringSt d).inflight = (s.pkg.ringSt d).inflight)
      ∧ (s.pkg.pastPoint d c = false → t.pkg = (s.pkg.modRing d (fun x => { x with aborts := x.aborts ++ [v % 2 ^ 16] })).stopCmd d c ST_ABORTED))
  ∧ (∀ (s : State) (d : Nat), d ≤ 8 → s.pkg.ringReach d = true → s.pkg.ringState d = RING_HALTED → s.pkg.ringQueued d ≤ s.pkg.ringDepth d →
    ∃ t, exec (.ringResume d) s = .next t ∧ t.pkg.get (DIE_RING_STATUS_HALT_CAUSE d) = 0
      ∧ t.pkg.ringState d = (if s.pkg.has (CTRL_ENABLE (.die d)) then RING_ACTIVE else RING_DRAINING))
  ∧ (∀ (s : State) (d : Nat), d ≤ 8 → s.pkg.ringReach d = true → s.pkg.ringState d = RING_DISABLED →
    ∃ t, exec (.ringReset d) s = .next t ∧ t.pkg.rd (DIE_RING_HEAD d) = 0 ∧ t.pkg.rd (DIE_CQ_HEAD d) = 0 ∧ t.pkg.rd (DIE_CQ_TAIL d) = 0
      ∧ (t.pkg.ringSt d).tail = 0)
  ∧ (∀ (s : State) (dt d : Nat) (c : RingCmd), s.pkg.has (CTRL_ENABLE (.die d)) = false →
      (s.pkg.ringState d = RING_DRAINING ∨ s.pkg.ringState d = RING_HALTED) → (s.pkg.ringSt d).drainBeat ≤ s.pkg.beatNo → (s.pkg.ringSt d).inflight = [c] →
    ∃ t, exec (.ringDrainDeadline dt d) s = .next t
      ∧ t.pkg = (if (s.pkg.pass dt).pastPoint d c then s.pkg.pass dt else (s.pkg.pass dt).stopCmd d c ST_ABORTED_BY_DISABLE))

/-! ### Management (14_control_interface.md) -/

/-- The telemetry ring (R373) and the MCTP endpoint (R371, R396, R425, R440): a due record is written to its slot and kept; the endpoint answers each
command with what it names, from the start of hub firmware and not before. -/
def Obligations.TelemetryAndEndpoint : Prop :=
  (∀ (s : State) (dt : Nat), s.pkg.telDue = true →
    ∃ t, exec (.telemetryRecord dt) s = .next t ∧ t.pkg.mctp.telemetry = (s.pkg.pass dt).telRecord ∧ t.pkg.rd PKG_TEL_SEQ = (s.pkg.rd PKG_TEL_SEQ + 1) % 2 ^ 64
      ∧ (s.pkg.rangeOk (bitsOf (s.pkg.rd PKG_TEL_BASE) 12 36 * 4096 + 256 * (s.pkg.rd PKG_TEL_SEQ % 2 ^ s.pkg.get PKG_TEL_CFG_DEPTH_LOG2)) 256 = true →
          t.pkg.mem = storeBytes s.pkg.mem (bitsOf (s.pkg.rd PKG_TEL_BASE) 12 36 * 4096 + 256 * (s.pkg.rd PKG_TEL_SEQ % 2 ^ s.pkg.get PKG_TEL_CFG_DEPTH_LOG2))
            (s.pkg.pass dt).telRecord))
  ∧ (∀ (s : State) (dt : Nat), s.pkg.telDue = false → exec (.telemetryRecord dt) s = .next { s with pkg := s.pkg.pass dt })
  ∧ (∀ p : Package, p.telRecord.length = 256)
  ∧ (∀ (s : State) (dt eid : Nat), s.pkg.mctpUp = true → 0 < eid → eid < 255 →
    ∃ t, exec (.setEndpointId dt eid) s = .next t ∧ t.pkg.get PKG_MCTP_STATUS_EID = eid ∧ t.pkg.has PKG_MCTP_STATUS_ASSIGNED = true
      ∧ t.pkg.mctp.responses = s.pkg.mctp.responses ++ [mctpMsg MCTP_CONTROL MC_SET_EID (leBytes 1 0 ++ (leBytes 1 0 ++ leBytes 1 eid ++ leBytes 1 0))])
  ∧ (∀ (s : State) (dt : Nat), s.pkg.mctpUp = true →
    exec (.getEndpointId dt) s = .next { s with pkg := (s.pkg.pass dt).control MC_GET_EID (leBytes 1 (s.pkg.get PKG_MCTP_STATUS_EID) ++ leBytes 2 0) }
    ∧ exec (.getEndpointUuid dt) s = .next { s with pkg := (s.pkg.pass dt).control MC_GET_UUID (beBytes 16 (Config.uuid s.pkg.serial).toNat) }
    ∧ exec (.getMctpVersionSupport dt) s = .next { s with pkg := (s.pkg.pass dt).control MC_GET_VERSION (leBytes 1 1 ++ beBytes 4 Config.mctpVersions.toNat) }
    ∧ exec (.getMessageTypeSupport dt) s
        = .next { s with pkg := (s.pkg.pass dt).control MC_GET_TYPES (leBytes 1 2 ++ leBytes 1 MCTP_CONTROL ++ leBytes 1 MCTP_NALTO) }
    ∧ exec (.getVendorDefinedMsgSupport dt) s
        = .next { s with pkg := (s.pkg.pass dt).control MC_GET_VENDOR (leBytes 1 0xFF ++ leBytes 1 1 ++ beBytes 4 Config.iana.toNat) }
    ∧ exec (.getIdentity dt) s = .next { s with pkg := ((s.pkg.pass dt).nalto NC_IDENTITY
        (leBytes 8 s.pkg.serial ++ leBytes 8 s.pkg.variantWord ++ leBytes 8 s.pkg.fittedWord)) }
    ∧ (∀ d first count, (d = 8 ∨ s.pkg.dieOn d = true) → exec (.readErrlog dt d first count) s = .next { s with pkg := ((s.pkg.pass dt).nalto NC_ERRLOG
        ((List.range (min count 31)).flatMap (fun i => s.pkg.errSlot d (first + i)))) }))
  ∧ (∀ (s : State) (dt : Nat), s.pkg.mctpFull = true →
    exec (.getTelemetry dt) s = .next { s with pkg := (s.pkg.pass dt).nalto NC_TELEMETRY s.pkg.mctp.telemetry }
    ∧ (∀ body, exec (.getMeasurements dt none body) s = .next { s with pkg := (((s.pkg.pass dt).reportRequest REQ_I3C body).2.nalto NC_MEASUREMENTS
        ((s.pkg.pass dt).reportRequest REQ_I3C body).1) })
    ∧ (∀ l : List Nat, l.length ≤ 16 → l.all s.pkg.readable = true → exec (.readReg dt l) s = .next { s with pkg := ((s.pkg.pass dt).nalto NC_READ_REG
        (l.flatMap (fun a => leBytes 8 ((s.pkg.pass dt).readReg a)))) })
    ∧ (∀ l : List Nat, (16 < l.length ∨ ∃ a ∈ l, pageAt a = some .sec) →
        exec (.readReg dt l) s = .next { s with pkg := (s.pkg.pass dt).nalto NC_READ_REG [] }))
  ∧ (∀ (s : State) (dt : Nat), s.pkg.mctpUp = false →
    exec (.getIdentity dt) s = .next { s with pkg := s.pkg.pass dt } ∧ exec (.getEndpointId dt) s = .next { s with pkg := s.pkg.pass dt })

/-! ### Faults and the error log (15_faults_and_recovery.md) -/

/-- Core faults (R378 to R387): a failing core is replaced by the next spare, or its cluster retires; corrected errors count; an uncorrected one in
cluster SRAM poisons its line, in a command list only a report remains; the repair ends the refill; a queued fault is served in its turn. -/
def Obligations.CoreFaultsServed : Prop :=
  (∀ (s : State) (dt c k spare : Nat), s.pkg.canFail c k = true → (s.pkg.clu c).refill = none → (s.pkg.pass dt).spareOf c = some spare →
    exec (.lockstepMismatch dt c k) s = .next { s with pkg := (s.pkg.pass dt).startRefill c k spare 0 (s.pkg.clock + dt) false }
    ∧ exec (.coreEccError dt c k true) s = .next { s with pkg := (s.pkg.pass dt).startRefill c k spare 2 (s.pkg.clock + dt) false }
    ∧ (((s.pkg.pass dt).ctx c k).isSome = true → ((s.pkg.pass dt).core c k).stopped = false →
        exec (.watchdogExpiry dt c k) s = .next { s with pkg := (s.pkg.pass dt).startRefill c k spare 1 (s.pkg.clock + dt) false }))
  ∧ (∀ (s : State) (dt c k : Nat), s.pkg.canFail c k = true → (s.pkg.clu c).refill = none → (s.pkg.pass dt).spareOf c = none →
    exec (.lockstepMismatch dt c k) s = .next { s with pkg := (s.pkg.pass dt).retireCluster c k (((s.pkg.pass dt).posOf c k).getD 0) 0 false })
  ∧ (∀ (p : Package) (c k spare cause at' : Nat) (compound : Bool), c < 576 →
      (p.startRefill c k spare cause at' compound).get (CLU_STATUS_STATE c) = 1
      ∧ (p.startRefill c k spare cause at' compound).rd (CLU_CORE_RETIRES c) = (p.rd (CLU_CORE_RETIRES c) + 1) % 2 ^ 64
      ∧ ((p.startRefill c k spare cause at' compound).clu c).refill
          = some { core := k, spare := spare, position := (p.posOf c k).getD 0, cause := cause, startAt := at', compound := compound }
      ∧ bitAt ((p.startRefill c k spare cause at' compound).rd (IRQ_STATUS (.clu c))) EV_CLU_CORE_RETIRED = true)
  ∧ (∀ (s : State) (dt c k : Nat), c < 576 → s.pkg.canFail c k = true →
    ∃ t, exec (.coreEccError dt c k false) s = .next t ∧ t.pkg.rd (CLU_ECC_CORR c) = (s.pkg.rd (CLU_ECC_CORR c) + 1) % 2 ^ 64
      ∧ t.pkg.cores = s.pkg.cores ∧ t.pkg.mem = s.pkg.mem)
  ∧ (∀ (s : State) (dt c line : Nat) (inList : Bool), c < 576 → s.pkg.dieActive (c / 72) = true → s.pkg.dieFenced (c / 72) = false →
      s.pkg.get (CLU_STATUS_STATE c) ≠ 2 →
    ∃ t u, exec (.clusterEccError dt c line false inList) s = .next t ∧ t.pkg.rd (CLU_ECC_CORR c) = (s.pkg.rd (CLU_ECC_CORR c) + 1) % 2 ^ 64
      ∧ t.pkg.clus = s.pkg.clus ∧ exec (.clusterEccError dt c line true inList) s = .next u
      ∧ (inList = true → u.pkg.clus = s.pkg.clus) ∧ (inList = false → line % (CLU_BYTES / 64) ∈ (u.pkg.clu c).poison))
  ∧ (∀ (s : State) (dt c : Nat) (r : Refill), c < 576 → (s.pkg.clu c).refill = some r → (s.pkg.core c r.spare).point.layerPos = 0 →
    ∃ t, exec (.coreRepairDone dt c) s = .next t ∧ (t.pkg.clu c).refill = none ∧ t.pkg.get (CLU_STATUS_STATE c) = 0
      ∧ t.pkg.rd (CLU_LAST c) = cluLast r.core r.spare r.position r.cause r.compound false ((s.pkg.clock + dt - r.startAt) / Config.usUnits) % 2 ^ 64)
  ∧ (∀ (s : State) (dt c k cause at' : Nat) (rest : List (Nat × Nat × Nat)), (s.pkg.clu c).refill = none → (s.pkg.clu c).queued = (k, cause, at') :: rest →
    exec (.queuedFaultServe dt c) s = .next { s with pkg :=
      ((((s.pkg.pass dt).modClu c (fun x => { x with queued := rest })).showQueued c).serveFault c k cause at' true) })

/-- The hub die and the error logs (R393 to R397): a FATAL report of the hub die stops the package; a head between the head and the tail frees
the entries before it, one beyond the tail is ignored; the fatal slots are freed only while FATAL is clear; an injected report is one of block ERR,
of class FATAL only in TEST. -/
def Obligations.ErrorLogs : Prop :=
  (∀ (s : State) (dt cause : Nat),
    ∃ t, exec (.hubFatal dt cause) s = .next t ∧ t.pkg.fatal = true ∧ bitAt (t.pkg.rd (IRQ_STATUS (.err 8))) EV_ERR_FATAL = true
      ∧ bitAt (t.pkg.rd (ERR_SUMMARY (.err 8))) 2 = true ∧ t.pkg.mem = s.pkg.mem)
  ∧ (∀ (s : State) (d v : Nat), d ≤ 8 → s.pkg.errReach d = true →
      (v % 2 ^ 16 + 2 ^ 16 - s.pkg.rd (ERR_LOG_HEAD d)) % 2 ^ 16 ≤ s.pkg.errUsed d →
    ∃ t, exec (.errLogHeadWrite d v) s = .next t ∧ t.pkg.rd (ERR_LOG_HEAD d) = v % 2 ^ 16 ∧ t.pkg.rd (ERR_LOG_TAIL d) = s.pkg.rd (ERR_LOG_TAIL d)
      ∧ ∀ i, i < (v % 2 ^ 16 + 2 ^ 16 - s.pkg.rd (ERR_LOG_HEAD d)) % 2 ^ 16 →
          mapFind (t.pkg.errLog d).slots ((s.pkg.rd (ERR_LOG_HEAD d) + i) % 2 ^ 16 % 1008) = none)
  ∧ (∀ (s : State) (d v : Nat), s.pkg.errUsed d < (v % 2 ^ 16 + 2 ^ 16 - s.pkg.rd (ERR_LOG_HEAD d)) % 2 ^ 16 →
    exec (.errLogHeadWrite d v) s = .next s)
  ∧ (∀ (s : State) (d : Nat), d ≤ 8 → s.pkg.errReach d = true → s.pkg.has (ERR_STATUS_FATAL d) = false →
    ∃ t, exec (.errFatalClear d) s = .next t ∧ (t.pkg.errLog d).fatalUsed = 0 ∧ t.pkg.get (ERR_STATUS_FATAL_USED d) = 0
      ∧ ∀ e ∈ (t.pkg.errLog d).slots, e.1 < 1008)
  ∧ (∀ (s : State) (d : Nat), s.pkg.has (ERR_STATUS_FATAL d) = true → exec (.errFatalClear d) s = .next s)
  ∧ (∀ (s : State) (d v : Nat), s.pkg.errReach d = true → v % 4 < 2 → exec (.errInject d v) s
      = .next { s with pkg := s.pkg.report (.err d) d (v % 4) (bitsOf v 16 16) s.pkg.beatNo 0 false false })
  ∧ (∀ (s : State) (d v : Nat), v % 4 = 2 → s.pkg.get PWR_STATUS_LC_STATE ≠ LC_TEST → exec (.errInject d v) s = .next s)
  ∧ (∀ (s : State) (d v : Nat), s.pkg.errReach d = true → v % 4 = 2 → s.pkg.get PWR_STATUS_LC_STATE = LC_TEST → exec (.errInject d v) s
      = .next { s with pkg := s.pkg.reportFatal (.err d) d (bitsOf v 16 16) s.pkg.beatNo 0 })

/-! ### Snapshots (16_snapshots.md) -/

/-- Captures (R407 to R415): the freeze ends with streaming and phase starts resume; a section read is sent with its directory entry, one that meets poison
ends the capture, with none left it finishes; a header with STATE 0 opens a receive slot; a notice arms a capture or is counted as skipped;
the cadence's epoch and failure note. -/
def Obligations.CapturesStream : Prop :=
  (∀ (s : State) (dt : Nat) (c : Capture), s.pkg.snap.capture = some c → c.frozen = true → c.streaming = false → s.pkg.fatal = false →
    ∃ t, exec (.captureFreezeEnd dt) s = .next t ∧ t.pkg.snapPause = false ∧ t.pkg.get SNAP_STATUS_STATE = SNAP_STREAMING
      ∧ t.pkg.snap.capture = some { c with streaming := true, freezeUs := (s.pkg.clock + dt - c.freezeAt) / Config.usUnits })
  ∧ (∀ (s : State) (dt : Nat) (c : Capture) (x y : Section) (rest : List Section) (bs : List Byte), s.pkg.snap.capture = some c → c.streaming = true →
      s.pkg.fatal = false → (c.buddy = true → s.pkg.lnk.snapLost = false) → c.todo = x :: y :: rest → x.typ ≠ 0x07 → s.pkg.sectionBytes x = some bs →
    ∃ t, exec (.sectionReadDone dt []) s = .next t
      ∧ t.pkg.snap.capture = some { c with todo := y :: rest, dir := c.dir ++ dirEntry x (crc32c bs) (roundUp c.offset 64) bs.length,
                                           offset := roundUp c.offset 64 + bs.length })
  ∧ (∀ (s : State) (dt : Nat) (c : Capture) (x : Section) (rest : List Section), s.pkg.snap.capture = some c → c.streaming = true → s.pkg.fatal = false →
      (c.buddy = true → s.pkg.lnk.snapLost = false) → c.todo = x :: rest → s.pkg.sectionBytes x = none →
    exec (.sectionReadDone dt []) s = .next { s with pkg := (s.pkg.pass dt).captureFail none true })
  ∧ (∀ (s : State) (dt : Nat) (c : Capture), s.pkg.snap.capture = some c → c.streaming = true → s.pkg.fatal = false →
      (c.buddy = true → s.pkg.lnk.snapLost = false) → c.todo = [] →
    exec (.sectionReadDone dt []) s = .next { s with pkg := (s.pkg.pass dt).finishCapture c })
  ∧ (∀ (s : State) (dt node n : Nat) (data : List Byte), s.pkg.has SNAP_RECV_CFG_VALID = true → s.pkg.get SNAP_RECV_CFG_SRC = node →
      fieldAt data 6 1 = 0 → s.pkg.freeSlot false = some n → s.pkg.snap.receiving = none → data.length ≤ s.pkg.slotBytes' n →
      s.pkg.rangeOk (s.pkg.slotBase n) data.length = true →
    ∃ t, exec (.snapshotReceive dt node 0 data) s = .next t ∧ t.pkg.snap.receiving = some n ∧ t.pkg.slotState n = SLOT_WRITING
      ∧ t.pkg.mem = storeBytes s.pkg.mem (s.pkg.slotBase n) data)
  ∧ (∀ (s : State) (dt node ofs : Nat) (data : List Byte), (s.pkg.has SNAP_RECV_CFG_VALID = false ∨ s.pkg.get SNAP_RECV_CFG_SRC ≠ node) →
    exec (.snapshotReceive dt node ofs data) s = .next { s with pkg := s.pkg.pass dt })
  ∧ (∀ (s : State) (dt step : Nat), s.pkg.has SNAP_CFG_CAD_ENABLE = true →
    ∃ t, exec (.captureNoticeReceive dt step) s = .next t
      ∧ (s.pkg.snap.capture = none → t.pkg.snap.capture = some { tag := none, buddy := decide (s.pkg.get SNAP_CFG_TARGET = 0), step := step })
      ∧ (∀ c, s.pkg.snap.capture = some c → t.pkg.snap.capture = some c ∧ t.pkg.rd SNAP_CAD_SKIPPED = (s.pkg.rd SNAP_CAD_SKIPPED + 1) % 2 ^ 64))
  ∧ (∀ s : State, ∃ t, exec .snapCadEpoch s = .next t ∧ t.pkg.rd SNAP_CAD_FAILS = 0 ∧ t.pkg.snap.epochAt = s.pkg.dtime)
  ∧ (∀ (s : State) (v : Nat), ∃ t, exec (.snapFailNote v) s = .next t
      ∧ t.pkg.rd SNAP_CAD_FAILS = min (2 ^ 32 - 1) (s.pkg.rd SNAP_CAD_FAILS + v % 256))

/-- Restores (R416 to R420): the verify pass keeps an image that passes with the positions to resume at, and ends the restore with the first cause of
Table 16-6 that does not, writing nothing; the write pass takes the positions and completes the command. -/
def Obligations.RestoresVerifyThenWrite : Prop :=
  (∀ (s : State) (dt : Nat) (r : Restore) (img : List Byte) (pos : Option (Nat × Nat)) (res : Nat × Nat), s.pkg.snap.restore = some r → r.result = none →
      r.buddy = false → s.pkg.fatal = false → s.pkg.readImage r.addr = .inr img → s.pkg.readPos r.posAddr = .inr pos →
      (s.pkg.pass dt).judgeImage r img pos = .inr res →
    ∃ t, exec (.restoreVerifyDone dt [] none) s = .next t ∧ t.pkg.snap.restore = some { r with result := some res, image := img }
      ∧ t.pkg.get SNAP_STATUS_STATE = SNAP_WRITING ∧ t.pkg.mem = s.pkg.mem)
  ∧ (∀ (s : State) (dt cause result : Nat) (r : Restore) (img : List Byte) (pos : Option (Nat × Nat)), s.pkg.snap.restore = some r → r.result = none →
      r.buddy = false → s.pkg.fatal = false → s.pkg.readImage r.addr = .inr img → s.pkg.readPos r.posAddr = .inr pos →
      (s.pkg.pass dt).judgeImage r img pos = .inl (cause, result) → cause ≠ SC_SKEW →
    ∃ t, exec (.restoreVerifyDone dt [] none) s = .next t ∧ t.pkg.snap.restore = none ∧ t.pkg.mem = s.pkg.mem ∧ t.pkg.stages = (s.pkg.pass dt).stages
      ∧ t.pkg.get SNAP_LAST_CAUSE = cause % 2 ^ 8 ∧ bitAt (t.pkg.rd (IRQ_STATUS .snap)) EV_SNAP_RESTORE_FAILED = true)
  ∧ (∀ (s : State) (dt data ofs : Nat) (r : Restore), s.pkg.snap.restore = some r → r.result = some (data, ofs) → s.pkg.fatal = false →
    ∃ t, exec (.restoreWriteDone dt) s = .next t ∧ t.pkg.snap.restore = none ∧ t.pkg.rd (ERR_POS_DATA 8) = data % 2 ^ 64
      ∧ t.pkg.rd (ERR_POS_STREAM 8) = ofs % 2 ^ 64 ∧ bitAt (t.pkg.rd (IRQ_STATUS .snap)) EV_SNAP_RESTORE_DONE = true)
  ∧ (∀ (p : Package) (r : Restore) (img : List Byte) (pos : Option (Nat × Nat)), headerOk img = false →
      p.judgeImage r img pos = .inl (SC_NO_IMAGE, SC_NO_IMAGE))

/-! ### Power-up, resets and self-test (17_bringup_bist.md, 19_electrical_ordering.md) -/

/-- The sequence (R423 to R426, R449): power good starts hub firmware where the hub die passes and a slot of class 0 verifies, with nothing in the
stacks, and is FATAL where the hub die fails; a second one does nothing; a die powers up with verified firmware; its self-test makes it ACTIVE,
or ends it with the result of what failed; the timeout powers it off; the package becomes READY at the latest after 6,000 ms. -/
def Obligations.PackagePowersUp : Prop :=
  (∀ (s : State) (dt : Nat) (flash : List (Nat × (ImageRead × ImageRead))) (cert : Option (List Byte)) (q : Part), s.pkg.pwr.goodAt = none →
      q = (s.part.readFlash flash).coldReset s.pkg →
      (imageVerifies 0 (q.revoked % 16) (listAt 0 q.arb 0 % 2 ^ 7) (q.slots 0).1 = true
        ∨ imageVerifies 0 (q.revoked % 16) (listAt 0 q.arb 0 % 2 ^ 7) (q.slots 0).2 = true) →
    ∃ t, exec (.powerGood dt true flash cert) s = .next t ∧ t.part = q ∧ t.pkg.pwr.fw = true ∧ t.pkg.pwr.goodAt = some 0 ∧ t.pkg.clock = dt
      ∧ t.pkg.mem = [] ∧ t.pkg.stages = [] ∧ t.pkg.serial = q.serial ∧ t.pkg.get PWR_STATUS_LC_STATE = q.lc % 2 ^ 3
      ∧ t.pkg.get PWR_STATUS_PHASE = (if q.lc = LC_ENDED then PH_ENDED else PH_HUB_FW))
  ∧ (∀ (s : State) (dt : Nat) (flash : List (Nat × (ImageRead × ImageRead))) (cert : Option (List Byte)), s.pkg.pwr.goodAt = none →
    ∃ t, exec (.powerGood dt false flash cert) s = .next t ∧ t.pkg.fatal = true ∧ t.pkg.get PWR_STATUS_PHASE = PH_FATAL ∧ t.pkg.pwr.fw = false)
  ∧ (∀ (s : State) (dt : Nat) (ok : Bool) (flash : List (Nat × (ImageRead × ImageRead))) (cert : Option (List Byte)), s.pkg.pwr.goodAt ≠ none →
    exec (.powerGood dt ok flash cert) s = .next s)
  ∧ (∀ (s : State) (dt d : Nat), s.pkg.booting = true → s.pkg.dieFitted d = true → d ∉ s.pkg.pwr.ended → d ∉ s.pkg.pwr.powered → s.pkg.pwr.stackFw = true →
      imageVerifies 1 (s.pkg.get SEC_STATUS_REVOKED) (s.pkg.arbCount 1) (s.part.slots 1).1 = true →
      (s.part.slots 1).2.version ≤ (s.part.slots 1).1.version →
    ∃ t, exec (.diePowerUp dt d []) s = .next t ∧ d ∈ t.pkg.pwr.powered ∧ t.pkg.get PWR_STATUS_PHASE = PH_DIES ∧ t.part = s.part)
  ∧ (∀ (s : State) (dt d control : Nat) (fails : List (Nat × Bool)) (repairs : List Repair), s.pkg.booting = true → d < 8 → d ∈ s.pkg.pwr.powered →
      d ∉ s.pkg.pwr.ended → 6 ≤ control →
    ∃ t, exec (.dieSelftestDone dt d fails control true repairs) s = .next t ∧ t.pkg.dieState d = DIE_ACTIVE
      ∧ t.pkg.get (PWR_DIE_BOOT_RESULT d) = DB_ACTIVE ∧ d ∈ t.pkg.pwr.ended)
  ∧ (∀ (s : State) (dt d control : Nat) (fails : List (Nat × Bool)) (repairs : List Repair) (stackOk : Bool), s.pkg.booting = true → d < 8 →
      d ∈ s.pkg.pwr.powered → d ∉ s.pkg.pwr.ended → (control < 6 ∨ stackOk = false) →
    ∃ t, exec (.dieSelftestDone dt d fails control stackOk repairs) s = .next t ∧ t.pkg.dieState d = DIE_FENCED ∧ t.pkg.dieFenced d = true
      ∧ t.pkg.get (PWR_DIE_BOOT_RESULT d) = (if control < 6 then DB_CONTROL else DB_STACK)
      ∧ bitAt (t.pkg.rd (IRQ_STATUS .pwr)) EV_PWR_DIE_BOOT_FAIL = true)
  ∧ (∀ (s : State) (dt d start : Nat), s.pkg.booting = true → s.pkg.dieFitted d = true → d ∉ s.pkg.pwr.ended → s.pkg.pwr.goodAt = some start →
      start + 5500 * Config.msUnits ≤ s.pkg.clock + dt →
    ∃ t, exec (.dieBootTimeout dt d) s = .next t ∧ t.pkg.dieState d = DIE_FENCED ∧ t.pkg.get (PWR_DIE_BOOT_RESULT d) = DB_TIMEOUT)
  ∧ (∀ (s : State) (dt start : Nat), s.pkg.booting = true → s.pkg.pwr.goodAt = some start → start + 6000 * Config.msUnits ≤ s.pkg.clock + dt →
    ∃ t, exec (.pkgReady dt) s = .next t ∧ t.pkg.has PKG_STATUS_READY = true ∧ t.pkg.get PWR_STATUS_PHASE = PH_READY
      ∧ bitAt (t.pkg.rd (IRQ_STATUS .pwr)) EV_PWR_READY = true)

/-- Resets and faults of supply (R427, R428, R442, R471, R472, R475): a lost input, RST_N of 1 ms and the keyed write take the package back before power good;
a shorter RST_N and a wrong key do nothing; a warm reset waits for a ledger write; lost reference clock and rails are reported. -/
def Obligations.ResetsAndSupplyFaults : Prop :=
  (∀ s : State, exec .vinLoss s = .next { s with part := (coldReset s.part s.pkg).1, pkg := (coldReset s.part s.pkg).2 })
  ∧ (∀ (q : Part) (p : Package), (coldReset q p).2 = { variant := q.variant, serial := q.serial, fresh := p.fresh + 1 })
  ∧ (∀ (q : Part) (p : Package) (c : Nat), q.pendingLc = some c → p.pwr.writing = none → p.sec.burns = [] →
      (coldReset q p).1 = { q with lc := c, pendingLc := none })
  ∧ (∀ (q : Part) (p : Package), q.pendingLc = none → p.pwr.writing = none → p.sec.burns = [] → (coldReset q p).1 = q)
  ∧ (∀ (s : State) (ns : Nat), 1000000 ≤ ns → exec (.rstNAssert ns) s = exec .vinLoss s)
  ∧ (∀ (s : State) (ns : Nat), ns < 800000 → exec (.rstNAssert ns) s = .next s)
  ∧ (∀ (s : State) (v : Nat), bitsOf v 16 16 = 0x9A3C → bitAt v 0 = true → exec (.pwrResetCold v) s = exec .vinLoss s)
  ∧ (∀ (s : State) (v : Nat), bitsOf v 16 16 ≠ 0x9A3C → exec (.pwrResetCold v) s = .next s ∧ exec (.pwrResetWarm v []) s = .next s)
  ∧ (∀ (s : State) (v : Nat), bitsOf v 16 16 = 0x9A3C → bitAt v 0 = false → bitAt v 1 = true → s.pkg.pwr.fw = true →
    ∃ t, exec (.pwrResetWarm v []) s = .next t ∧ t.part = s.part
      ∧ (s.pkg.pwr.writing = none → t.pkg = warmReset s.part s.pkg)
      ∧ (s.pkg.pwr.writing ≠ none → t.pkg.pwr.warmHeld = some (bitAt v 2) ∧ t.pkg.has PWR_STATUS_WARM_HELD = true ∧ t.pkg.mem = s.pkg.mem))
  ∧ (∀ (s : State) (dt : Nat) (b : Bool), s.pkg.pwr.warmHeld = some b → s.pkg.pwr.writing = none →
    exec (.warmResetStart dt []) s = .next { s with pkg := warmReset s.part (s.pkg.pass dt) })
  ∧ (∀ (q : Part) (p : Package), (warmReset q p).stages = [] ∧ (warmReset q p).txn = {} ∧ (warmReset q p).clock = p.clock
      ∧ (warmReset q p).pwr.fw = true ∧ (warmReset q p).tap = p.tap ∧ (warmReset q p).has PKG_STATUS_READY = false)
  ∧ (∀ (s : State) (dt : Nat), s.pkg.pwr.goodAt ≠ none → ∃ t, exec (.refclkLoss dt) s = .next t ∧ t.pkg.fatal = true)
  ∧ (∀ (s : State) (dt : Nat), s.pkg.pwr.goodAt ≠ none →
    ∃ t, exec (.railFault dt .hub) s = .next t ∧ t.pkg.fatal = true ∧ t.pkg.rd PWR_RAIL_FAULTS = (s.pkg.rd PWR_RAIL_FAULTS + 1) % 2 ^ 64
      ∧ bitAt (t.pkg.rd (IRQ_STATUS .pwr)) EV_PWR_RAIL_FAULT = true)

/-- Field self-test and the ledger (R431 to R439): a run asked for starts when its unit is isolated, its clock and its heat are right, and fails where
it is not isolated or WAIT_MS have gone; a run that finds nothing passes, one with a failing core fails its test and records the core; a good
ledger write replaces the copy not in force, a failed one loses it. -/
def Obligations.SelfTestAndLedger : Prop :=
  (∀ (s : State) (dt d : Nat) (b : BistRun), d < 8 → mapFind s.pkg.bists d = some b → b.startAt = none → s.pkg.unitIsolated d b = true →
      s.pkg.clockFit d = true → s.pkg.coolEnough d = true →
    ∃ t, exec (.bistRunStart dt d true) s = .next t ∧ mapFind t.pkg.bists d = some { b with startAt := some (s.pkg.clock + dt) }
      ∧ t.pkg.rd BIST_RUNS = (s.pkg.rd BIST_RUNS + 1) % 2 ^ 64 ∧ bitAt (t.pkg.get BIST_STATUS_RUNNING) d = true)
  ∧ (∀ (s : State) (dt d : Nat) (b : BistRun) (railOk : Bool), mapFind s.pkg.bists d = some b → b.startAt = none → s.pkg.unitIsolated d b = false →
    exec (.bistRunStart dt d railOk) s = .next { s with pkg := (s.pkg.pass dt).bistFail d b 1 })
  ∧ (∀ (s : State) (dt d : Nat) (b : BistRun), d < 8 → mapFind s.pkg.bists d = some b → b.startAt = none →
      b.askedAt + s.pkg.get BIST_CFG_WAIT_MS * Config.msUnits ≤ s.pkg.clock + dt →
    ∃ t, exec (.bistWaitTimeout dt d) s = .next t ∧ mapFind t.pkg.bists d = none ∧ t.pkg.rd BIST_FAILS = (s.pkg.rd BIST_FAILS + 1) % 2 ^ 64
      ∧ bitAt (t.pkg.rd (IRQ_STATUS .bist)) EV_BIST_RUN_FAILED = true)
  ∧ (∀ (s : State) (dt d start : Nat) (b : BistRun), d < 8 → b.cluster < 72 → mapFind s.pkg.bists d = some b → b.startAt = some start → b.pausedAt = none →
      b.noRepair = true → s.pkg.clockFit d = true → s.pkg.get (CLU_STATUS_STATE (72 * d + b.cluster)) = 0 → b.core ≠ none →
    ∃ t, exec (.bistRunDone dt d 0 true false true) s = .next t ∧ mapFind t.pkg.bists d = none
      ∧ t.pkg.rd BIST_PASSES = (s.pkg.rd BIST_PASSES + 1) % 2 ^ 64 ∧ t.pkg.pwr.ledger = s.pkg.pwr.ledger
      ∧ bitAt (t.pkg.rd (IRQ_STATUS .bist)) EV_BIST_RUN_DONE = true)
  ∧ (∀ (s : State) (dt d start k : Nat) (b : BistRun), d < 8 → b.cluster < 72 → k < 18 → mapFind s.pkg.bists d = some b → b.startAt = some start →
      b.pausedAt = none → b.noRepair = false → s.pkg.clockFit d = true → b.core = some k → s.pkg.pwr.ledger.length < ledgerMax →
      (∀ r ∈ s.pkg.pwr.ledger, ¬ (r.kind = 1 ∧ r.place = d ∧ r.where' = b.cluster ∧ r.location = k)) →
    ∃ t, exec (.bistRunDone dt d (2 ^ k) true false true) s = .next t ∧ mapFind t.pkg.bists d = none
      ∧ t.pkg.rd BIST_FAILS = (s.pkg.rd BIST_FAILS + 1) % 2 ^ 64
      ∧ (∃ r : Repair, t.pkg.pwr.ledger = s.pkg.pwr.ledger ++ [r] ∧ r.kind = 1 ∧ r.place = d ∧ r.where' = b.cluster ∧ r.location = k
          ∧ r.spare = 2 - min 2 (s.pkg.get (CLU_STATUS_SPARES (72 * d + b.cluster))) ∧ r.origin = 1)
      ∧ bitAt (t.pkg.get (CLU_STATUS_RETIRED (72 * d + b.cluster))) k = true)
  ∧ (∀ (s : State) (dt : Nat) (entries : List Repair), s.pkg.pwr.writing = some entries →
      (∀ c, (chooseLedger s.part).2 = some c → c.seq + 1 < 2 ^ 32) →
    ∃ t u, exec (.ledgerWriteDone dt true) s = .next t ∧ exec (.ledgerWriteDone dt false) s = .next u
      ∧ (chooseLedger t.part).2.map (fun c => c.entries) = some entries
      ∧ t.pkg.rd PWR_LEDGER_WRITES = (s.pkg.rd PWR_LEDGER_WRITES + 1) % 2 ^ 64
      ∧ u.part = s.part.replaceCopy none ∧ (chooseLedger u.part).2 = (chooseLedger s.part).2
      ∧ bitAt (u.pkg.rd (IRQ_STATUS .pwr)) EV_PWR_LEDGER_WRITE_FAIL = true)

/-! ### Security (18_security.md) -/

/-- Tokens (R460, R461): a nonce is four fresh words; an accepted token moves what its kind moves, and any submission uses the nonce up; a rejected one
shows its cause and leaves the part; a submission command of another kind than the token's does nothing; a reserved KIND is a layout fault. -/
def Obligations.TokensMoveTheLifeCycle : Prop :=
  (∀ s : State, s.pkg.hubRuns = true →
    ∃ t, exec .newNonce s = .next t ∧ t.pkg.sec.nonce = true ∧ t.part = s.part
      ∧ ∀ w, w < 4 → t.pkg.rd (SEC_NONCE w) = (Config.freeWord (s.pkg.fresh + w)).toNat)
  ∧ (∀ (s : State) (o n : Bool), s.pkg.hubRuns = true → tokenKind s.pkg.token = TK_RETURN → tokenCause s.part s.pkg s.pkg.token o n = 0 →
    ∃ t, exec (.tokenReturn o n) s = .next t ∧ t.part = { s.part with pendingLc := some LC_RETURNED } ∧ t.pkg.sec.nonce = false
      ∧ t.pkg.rd SEC_TOKEN_RESULT = 9 ∧ t.pkg.get SEC_STATUS_PENDING_LC = LC_RETURNED)
  ∧ (∀ (s : State) (o : Bool), s.pkg.hubRuns = true → tokenKind s.pkg.token = TK_DEBUG → tokenCause s.part s.pkg s.pkg.token o false = 0 →
    ∃ t, exec (.tokenDebug o) s = .next t ∧ t.part = s.part ∧ t.pkg.has SEC_STATUS_DEBUG_OPEN = true ∧ t.pkg.sec.nonce = false
      ∧ t.pkg.rd SEC_TOKEN_RESULT = 10 ∧ t.pkg.mr 0 = sha384 (s.pkg.mr 0 ++ sha384 (s.pkg.token.take 64)))
  ∧ (∀ (s : State) (n : Bool), s.pkg.hubRuns = true → tokenKind s.pkg.token = TK_REVOKE → tokenCause s.part s.pkg s.pkg.token false n = 0 →
    ∃ t, exec (.tokenRevoke n) s = .next t ∧ t.part = { s.part with revoked := s.part.revoked ||| 2 ^ fieldAt s.pkg.token 5 1 }
      ∧ t.pkg.sec.nonce = false ∧ t.pkg.rd SEC_TOKEN_RESULT = 11 ∧ t.pkg.get SEC_STATUS_REVOKED = t.part.revoked % 16)
  ∧ (∀ (s : State) (o : Bool), s.pkg.hubRuns = true → tokenKind s.pkg.token = TK_DEPLOY → tokenCause s.part s.pkg s.pkg.token o false = 0 →
    ∃ t, exec (.tokenDeploy o) s = .next t ∧ t.part = { s.part with pendingLc := some LC_DEPLOYED } ∧ t.pkg.rd SEC_TOKEN_RESULT = 12)
  ∧ (∀ (s : State) (o n : Bool), s.pkg.hubRuns = true → tokenKind s.pkg.token = TK_END → tokenCause s.part s.pkg s.pkg.token o n = 0 →
    ∃ t, exec (.tokenEnd o n) s = .next t ∧ t.part = { s.part with pendingLc := some LC_ENDED } ∧ t.pkg.rd SEC_TOKEN_RESULT = 13)
  ∧ (∀ (s : State) (o n : Bool), s.pkg.hubRuns = true → tokenKind s.pkg.token = TK_RETURN → tokenCause s.part s.pkg s.pkg.token o n ≠ 0 →
    ∃ t, exec (.tokenReturn o n) s = .next t ∧ t.part = s.part ∧ t.pkg.sec.nonce = false
      ∧ t.pkg.rd SEC_TOKEN_RESULT = 1 + 16 * tokenCause s.part s.pkg s.pkg.token o n ∧ bitAt (t.pkg.rd (IRQ_STATUS .sec)) EV_SEC_TOKEN_REJECTED = true)
  ∧ (∀ (s : State) (o n : Bool), tokenKind s.pkg.token ≠ TK_RETURN → exec (.tokenReturn o n) s = .next s)
  ∧ (∀ s : State, s.pkg.hubRuns = true → (tokenKind s.pkg.token = 0 ∨ 5 < tokenKind s.pkg.token) →
    ∃ t, exec .tokenKindReserved s = .next t ∧ t.part = s.part ∧ t.pkg.sec.nonce = false
      ∧ t.pkg.rd SEC_TOKEN_RESULT = tokenKind s.pkg.token % 8 + 16 ∧ bitAt (t.pkg.rd (IRQ_STATUS .sec)) EV_SEC_TOKEN_REJECTED = true)

/-- Measurements, reports and anti-rollback (R451, R454 to R458): EXTEND hashes the software's digest onto MR15; a host's report is taken up, signed and
stored; reports not used for 1 s go; a counter's advance burns, one that is not allowed is refused, and a burn ends at its value. -/
def Obligations.MeasurementsAndReports : Prop :=
  (∀ s : State, s.pkg.hubRuns = true →
    ∃ t, exec .extend s = .next t ∧ t.pkg.mr 15 = sha384 (s.pkg.mr 15 ++ (List.range 6).flatMap (fun w => leBytes 8 (s.pkg.rd (SEC_EXTEND w))))
      ∧ ∀ n, n < 15 → t.pkg.mr n = s.pkg.mr n)
  ∧ (∀ (s : State) (v : Nat), bitAt v 0 = true → s.pkg.hubRuns = true → s.pkg.sec.job = none → s.pkg.sec.reports.length < reportsMax →
    ∃ t, exec (.hostReportRequest v) s = .next t ∧ t.pkg.rd SEC_REPORT_STATUS = 1
      ∧ t.pkg.sec.job = some { addr := bitsOf v 6 42 * 64, digests := bitsOf v 1 4, guest := bitAt v 5, nonce := s.pkg.hostNonce })
  ∧ (∀ (s : State) (dt : Nat) (j : ReportJob) (b : List Byte), s.pkg.sec.job = some j →
      b = ((s.pkg.pass dt).signedReport j.nonce j.digests j.guest).1 →
      s.pkg.rangeOk j.addr b.length = true →
    ∃ t, exec (.reportDone dt) s = .next t ∧ t.pkg.sec.job = none ∧ t.pkg.mem = storeBytes s.pkg.mem j.addr b
      ∧ t.pkg.rd SEC_REPORT_STATUS = (2 + 2 ^ 16 * b.length) % 2 ^ 64 ∧ bitAt (t.pkg.rd (IRQ_STATUS .sec)) EV_SEC_REPORT_DONE = true)
  ∧ (∀ (s : State) (dt : Nat), ∃ t, exec (.reportHoldExpiry dt) s = .next t
      ∧ t.pkg.sec.reports = s.pkg.sec.reports.filter (fun r => s.pkg.clock + dt < r.usedAt + Config.secUnits) ∧ t.pkg.regs = s.pkg.regs)
  ∧ (∀ (s : State) (v : Nat), bitsOf v 16 16 = 0x5EC0 → s.pkg.hubRuns = true → bitsOf v 0 3 ≤ 5 → bitsOf v 8 7 ≤ 64 →
      s.pkg.arbCount (bitsOf v 0 3) < bitsOf v 8 7 → bitsOf v 8 7 ≤ s.pkg.arbLimit (bitsOf v 0 3) → s.pkg.lcState ≠ LC_ENDED →
    ∃ t, exec (.arbAdvance v) s = .next t ∧ t.pkg.sec.burns = s.pkg.sec.burns ++ [(bitsOf v 0 3, bitsOf v 8 7)] ∧ t.pkg.has SEC_STATUS_BURNING = true
      ∧ t.part = s.part)
  ∧ (∀ (s : State) (v : Nat), bitsOf v 16 16 = 0x5EC0 → s.pkg.hubRuns = true →
      (5 < bitsOf v 0 3 ∨ bitsOf v 8 7 ≤ s.pkg.arbCount (bitsOf v 0 3) ∨ s.pkg.arbLimit (bitsOf v 0 3) < bitsOf v 8 7) →
    exec (.arbAdvance v) s = .next { s with pkg := s.pkg.bump64 SEC_ARB_REFUSED 1 })
  ∧ (∀ (s : State) (dt c n : Nat) (rest : List (Nat × Nat)), s.pkg.sec.burns = (c, n) :: rest → c ≤ 5 → n ≤ 64 → s.part.wf = true →
    ∃ t, exec (.arbBurnDone dt) s = .next t ∧ listAt 0 t.part.arb c = max (listAt 0 s.part.arb c) n ∧ t.pkg.sec.burns = rest
      ∧ t.pkg.arbCount c = listAt 0 t.part.arb c ∧ bitAt (t.pkg.rd (IRQ_STATUS .sec)) EV_SEC_ARB_ADVANCED = true)

/-- The debug window and the test port (R441, R462): a closed window counts the command as refused; an open one halts and resumes the selected core, and
a halted core's register and memory read back what the window wrote; an edge of TCK moves the TAP by TMS, and a port that is not permitted, or
TRST_N, resets it. -/
def Obligations.DebugWindowAndTestPort : Prop :=
  (∀ (s : State) (a : Nat), s.pkg.has SEC_STATUS_DEBUG_OPEN = false →
    exec .dbgHalt s = .next { s with pkg := s.pkg.bump64 SEC_DBG_REFUSED 1 } ∧ exec .dbgResume s = .next { s with pkg := s.pkg.bump64 SEC_DBG_REFUSED 1 }
    ∧ exec (.dbgReadReg a) s = .next { s with pkg := s.pkg.bump64 SEC_DBG_REFUSED 1 }
    ∧ exec (.dbgWriteReg a) s = .next { s with pkg := s.pkg.bump64 SEC_DBG_REFUSED 1 }
    ∧ exec (.dbgReadMem a) s = .next { s with pkg := s.pkg.bump64 SEC_DBG_REFUSED 1 }
    ∧ exec (.dbgWriteMem a) s = .next { s with pkg := s.pkg.bump64 SEC_DBG_REFUSED 1 })
  ∧ (∀ (s : State) (x : Nat), s.pkg.has SEC_STATUS_DEBUG_OPEN = true → s.pkg.dbgCore = some x →
    ∃ t u, exec .dbgHalt s = .next t ∧ x ∈ t.pkg.sec.halted ∧ t.pkg.regs = s.pkg.regs
      ∧ exec .dbgResume s = .next u ∧ x ∉ u.pkg.sec.halted ∧ u.pkg.regs = s.pkg.regs)
  ∧ (∀ (s : State) (x a : Nat), s.pkg.has SEC_STATUS_DEBUG_OPEN = true → s.pkg.dbgCore = some x → x ∈ s.pkg.sec.halted →
    ∃ t u, exec (.dbgWriteReg a) s = .next t ∧ dbgFind t.pkg.sec.dbgRegs (x, a) = some (BitVec.ofNat 64 (s.pkg.rd SEC_DBG_DATA)) ∧ t.pkg.regs = s.pkg.regs
      ∧ exec (.dbgWriteMem a) s = .next u ∧ dbgFind u.pkg.sec.dbgMem (x, a / 8) = some (BitVec.ofNat 64 (s.pkg.rd SEC_DBG_DATA)))
  ∧ (∀ (s : State) (x a : Nat) (v : Word), s.pkg.has SEC_STATUS_DEBUG_OPEN = true → s.pkg.dbgCore = some x →
    (dbgFind s.pkg.sec.dbgRegs (x, a) = some v → ∃ t, exec (.dbgReadReg a) s = .next t ∧ t.pkg.rd SEC_DBG_DATA = v.toNat ∧ t.pkg.sec = s.pkg.sec)
    ∧ (dbgFind s.pkg.sec.dbgMem (x, a / 8) = some v → ∃ t, exec (.dbgReadMem a) s = .next t ∧ t.pkg.rd SEC_DBG_DATA = v.toNat ∧ t.pkg.sec = s.pkg.sec))
  ∧ (∀ (s : State) (tms tdi : Bool), s.pkg.tapAllowed = true →
    ∃ t, exec (.testPortTck true tms tdi true) s = .next t ∧ t.pkg.tap.state = s.pkg.tap.state.next tms ∧ t.pkg.regs = s.pkg.regs
      ∧ (s.pkg.tap.state.next tms = .testLogicReset → t.pkg.tap.ir = TI_IDCODE))
  ∧ (∀ (s : State) (tms tdi : Bool), s.pkg.tapAllowed = true → s.pkg.tap.state = .updateIr →
    ∃ t, exec (.testPortTck false tms tdi true) s = .next t ∧ t.pkg.tap.ir = s.pkg.tap.irShift % 256 ∧ t.pkg.tap.state = s.pkg.tap.state)
  ∧ (∀ (s : State) (rising tms tdi trstN : Bool), (s.pkg.tapAllowed = false ∨ trstN = false) →
    exec (.testPortTck rising tms tdi trstN) s = .next { s with pkg := s.pkg.tapReset })
/-! ### The block as a whole -/

/-- A step is exec of the command at the front of the queue, on the state with the queue's rest; with an empty queue the block idles (the
model's choice, log entry 1). -/
def Obligations.StepTakesTheFront : Prop :=
  (∀ (c : Instr) (s : State) (rest : List Instr), step { s with pending := c :: rest } = exec c { s with pending := rest })
  ∧ (∀ s : State, s.pending = [] → step s = .next s)

/-- No command ends the block: every one answers a next state, takes nothing from the queue and adds nothing to it, and none moves the part's
fuses and flash but power on and resets, a register write, a token of a kind that moves something, and the writes of fuses and ledger. -/
def Obligations.CommandFrames : Prop :=
  ∀ (c : Instr) (s : State), ∃ t, exec c s = .next t ∧ t.pending = s.pending ∧ (keepsPart c = true → t.part = s.part)

/-- The commands of `storesNothing` leave every byte of stack memory and every line's poison as they were. -/
def Obligations.MemoryFrame : Prop :=
  ∀ (c : Instr) (s t : State), storesNothing c = true → exec c s = .next t →
    (∀ x, memByte t.pkg.mem x = memByte s.pkg.mem x) ∧ t.pkg.poison = s.pkg.poison

/-- Reset (R488, Table 14-1): the part is in PROVISIONED with every anti-rollback counter at 0 and no ledger, no register has been written, so
each reads its reset value, and nothing waits. That memory reads as zero bytes is the model's choice (log entry 4), and so is the variant (log
entry 3). -/
def Obligations.ResetState : Prop :=
  State.reset.pending = [] ∧ State.reset.part.lc = LC_PROVISIONED ∧ State.reset.part.pendingLc = none
  ∧ (∀ i, i < 6 → State.reset.pkg.arbCount i = 0 ∧ listAt 1 State.reset.part.arb i = 0)
  ∧ State.reset.part.ledgerA = none ∧ State.reset.part.ledgerB = none
  ∧ (∀ a, State.reset.pkg.rd a = regReset a) ∧ (∀ x, memByte State.reset.pkg.mem x = 0) ∧ State.reset.pkg.poison = []
  ∧ State.reset.pkg.evq.recs = [] ∧ State.reset.pkg.hubRuns = false ∧ State.reset.Inv

/-- Every step keeps the fuses legal (R440, R449, R458, R461): a legal life-cycle state, a move that waits only forwards, six counters of at
most 64 fuses, and a root key that is not revoked. -/
def Obligations.StepKeepsFusesLegal : Prop :=
  ∀ (s t : State), s.Inv → step s = .next t → t.Inv

/-- Fuses only burn (R440, R458, R461): no step lowers an anti-rollback counter, undoes a revocation, moves the life cycle but to the state that
waited, or changes the part's ordering code or serial; and the life cycle of a legal part never goes back. -/
def Obligations.FusesOnlyBurn : Prop :=
  (∀ (s t : State), step s = .next t → s.part.Burns t.part)
  ∧ (∀ (s t : State), s.Inv → step s = .next t → s.part.lc ≤ t.part.lc)
end

