-- ==== Sys2Proof/Laws/Maps.lean ====
section
/-! SUPPORT. The canonical maps: reading after writing, and that every operation keeps the canonical form. -/

namespace Sys2Proof.Machine

open Sys2Proof

variable {α : Type}

@[simp] theorem mapFind_mapPut_same (m : List (Nat × α)) (i : Nat) (v : α) : mapFind (mapPut m i v) i = some v := by
  induction m with
  | nil => simp [mapPut, mapFind]
  | cons e r ih =>
    obtain ⟨k, w⟩ := e
    unfold mapPut
    split
    · next h => simp [mapFind, h]
    · split
      · simp [mapFind]
      · next h _ => simp [mapFind, Ne.symm h, ih]

theorem mapFind_mapPut_ne (m : List (Nat × α)) {i j : Nat} (v : α) (h : i ≠ j) : mapFind (mapPut m i v) j = mapFind m j := by
  induction m with
  | nil => simp [mapPut, mapFind, h]
  | cons e r ih =>
    obtain ⟨k, w⟩ := e
    unfold mapPut
    split
    · next hk => subst hk; simp [mapFind, h]
    · split
      · simp [mapFind, h]
      · simp [mapFind, ih]

@[simp] theorem mapFind_mapDel_same (m : List (Nat × α)) (i : Nat) : mapFind (mapDel m i) i = none := by
  induction m with
  | nil => rfl
  | cons e r ih =>
    by_cases h : e.1 = i
    · simpa [mapDel, h] using ih
    · simpa [mapDel, h, mapFind] using ih

theorem mapFind_mapDel_ne (m : List (Nat × α)) {i j : Nat} (h : i ≠ j) : mapFind (mapDel m i) j = mapFind m j := by
  induction m with
  | nil => rfl
  | cons e r ih =>
    obtain ⟨k, w⟩ := e
    by_cases hk : k = i
    · subst hk
      simpa [mapDel, mapFind, h] using ih
    · by_cases hj : k = j
      · subst hj
        simp only [mapDel, List.filter_cons]
        simp [hk, mapFind]
      · simpa [mapDel, hk, mapFind, hj] using ih

/-- A read after a write of the same key gives the value written. -/
@[simp] theorem mapGet_mapSet_same [DecidableEq α] (d : α) (m : List (Nat × α)) (i : Nat) (v : α) : mapGet d (mapSet d m i v) i = v := by
  unfold mapGet mapSet
  by_cases h : v = d <;> simp [h]

/-- A write leaves every other key alone. -/
theorem mapGet_mapSet_ne [DecidableEq α] (d : α) (m : List (Nat × α)) {i j : Nat} (v : α) (h : i ≠ j) :
    mapGet d (mapSet d m i v) j = mapGet d m j := by
  unfold mapGet mapSet
  by_cases hv : v = d
  · simp [hv, mapFind_mapDel_ne m h]
  · simp [hv, mapFind_mapPut_ne m v h]

theorem mapGet_mapSet [DecidableEq α] (d : α) (m : List (Nat × α)) (i j : Nat) (v : α) :
    mapGet d (mapSet d m i v) j = if i = j then v else mapGet d m j := by
  by_cases h : i = j
  · subst h; simp
  · simp [h, mapGet_mapSet_ne d m v h]

/-- A map with keys rising from `lo` has them rising from anything below. -/
theorem keysAbove_mono {m : List (Nat × α)} {lo lo' : Nat} (h : lo' ≤ lo) (w : keysAbove lo m = true) : keysAbove lo' m = true := by
  cases m with
  | nil => rfl
  | cons e r => simp_all [keysAbove]; omega

theorem keysAbove_mapPut {m : List (Nat × α)} {lo i : Nat} (v : α) (hi : lo ≤ i) (w : keysAbove lo m = true) :
    keysAbove lo (mapPut m i v) = true := by
  induction m generalizing lo with
  | nil => simp [mapPut, keysAbove]; omega
  | cons e r ih =>
    obtain ⟨k, x⟩ := e
    simp only [keysAbove, Bool.and_eq_true, decide_eq_true_eq] at w
    unfold mapPut
    split
    · simp only [keysAbove, Bool.and_eq_true, decide_eq_true_eq]; exact w
    · split
      · simp only [keysAbove, Bool.and_eq_true, decide_eq_true_eq]
        exact ⟨by omega, by omega, w.2⟩
      · simp only [keysAbove, Bool.and_eq_true, decide_eq_true_eq]
        exact ⟨w.1, ih (by omega) w.2⟩

theorem keysAbove_mapDel {m : List (Nat × α)} {lo i : Nat} (w : keysAbove lo m = true) : keysAbove lo (mapDel m i) = true := by
  induction m generalizing lo with
  | nil => rfl
  | cons e r ih =>
    simp only [keysAbove, Bool.and_eq_true, decide_eq_true_eq] at w
    unfold mapDel at ih ⊢
    by_cases h : e.1 = i
    · simpa [h] using keysAbove_mono (by omega) (ih w.2)
    · simp only [ne_eq, h, not_false_eq_true, decide_true, List.filter_cons_of_pos, keysAbove, Bool.and_eq_true, decide_eq_true_eq]
      exact ⟨w.1, ih w.2⟩

theorem all_mapPut {m : List (Nat × α)} {q : Nat × α → Bool} {i : Nat} {v : α} (hv : ∀ k, q (k, v) = true) (w : m.all q = true) :
    (mapPut m i v).all q = true := by
  induction m with
  | nil => simp [mapPut, hv]
  | cons e r ih =>
    simp only [List.all_cons, Bool.and_eq_true] at w
    unfold mapPut
    split
    · simp only [List.all_cons, Bool.and_eq_true]; exact ⟨hv _, w.2⟩
    · split
      · simp only [List.all_cons, Bool.and_eq_true]; exact ⟨hv _, w⟩
      · simp only [List.all_cons, Bool.and_eq_true]; exact ⟨w.1, ih w.2⟩

/-- A write keeps the canonical form. -/
theorem mapWf_mapSet [DecidableEq α] {d : α} {m : List (Nat × α)} (i : Nat) (v : α) (w : mapWf d m = true) :
    mapWf d (mapSet d m i v) = true := by
  simp only [mapWf, Bool.and_eq_true] at w ⊢
  unfold mapSet
  split
  · exact ⟨keysAbove_mapDel w.1, List.all_eq_true.mpr fun e he => List.all_eq_true.mp w.2 e ((List.mem_filter.mp he).1)⟩
  · next h => exact ⟨keysAbove_mapPut v (Nat.zero_le i) w.1, all_mapPut (fun _ => by simpa using h) w.2⟩

/-- Reading a list element after it is replaced. -/
@[simp] theorem listAt_listPut_same (d : α) (l : List α) (i : Nat) (v : α) : listAt d (listPut d l i v) i = v := by
  induction l generalizing i with
  | nil => induction i with
    | zero => rfl
    | succ n ih => simpa [listPut, listAt] using ih
  | cons x r ih => cases i with
    | zero => rfl
    | succ n => simpa [listPut, listAt] using ih n

end Sys2Proof.Machine
end

