-- ==== Sys2Proof/Laws/Registers.lean ====
section
/-! SUPPORT. Registers (R6): what a read of a register or a field gives after a write, and that a write of another one leaves it. -/

namespace Sys2Proof

theorem bitsOf_lt (v lo len : Nat) : bitsOf v lo len < 2 ^ len := Nat.mod_lt _ (Nat.two_pow_pos _)

theorem putBits_testBit (v lo len x i : Nat) :
    (putBits v lo len x).testBit i = if lo ≤ i ∧ i < lo + len then x.testBit (i - lo) else v.testBit i := by
  have hv : v = 2 ^ lo * (v / 2 ^ lo) + v % 2 ^ lo := (Nat.div_add_mod _ _).symm
  have hh : v / 2 ^ lo = 2 ^ len * (v / 2 ^ lo / 2 ^ len) + v / 2 ^ lo % 2 ^ len := (Nat.div_add_mod _ _).symm
  have hp : putBits v lo len x = 2 ^ lo * (2 ^ len * (v / 2 ^ lo / 2 ^ len) + x % 2 ^ len) + v % 2 ^ lo := by
    have e : v = 2 ^ lo * (2 ^ len * (v / 2 ^ lo / 2 ^ len)) + v / 2 ^ lo % 2 ^ len * 2 ^ lo + v % 2 ^ lo := by
      calc v = 2 ^ lo * (v / 2 ^ lo) + v % 2 ^ lo := hv
        _ = 2 ^ lo * (2 ^ len * (v / 2 ^ lo / 2 ^ len) + v / 2 ^ lo % 2 ^ len) + v % 2 ^ lo := by rw [← hh]
        _ = _ := by rw [Nat.mul_add, Nat.mul_comm (2 ^ lo) (v / 2 ^ lo % 2 ^ len)]
    unfold putBits bitsOf
    rw [Nat.mul_add, Nat.mul_comm (2 ^ lo) (x % 2 ^ len)]
    generalize 2 ^ lo * (2 ^ len * (v / 2 ^ lo / 2 ^ len)) = A at e ⊢
    generalize v / 2 ^ lo % 2 ^ len * 2 ^ lo = B at e ⊢
    generalize v % 2 ^ lo = C at e ⊢
    omega
  have hr : v % 2 ^ lo < 2 ^ lo := Nat.mod_lt _ (Nat.two_pow_pos _)
  rw [hp, Nat.testBit_two_pow_mul_add _ hr, Nat.testBit_two_pow_mul_add _ (Nat.mod_lt x (Nat.two_pow_pos _))]
  by_cases h1 : i < lo
  · have : ¬ lo ≤ i := by omega
    simp [h1, this, Nat.testBit_mod_two_pow]
  · have h1' : lo ≤ i := by omega
    simp only [h1, if_false, h1', true_and]
    by_cases h2 : i < lo + len
    · have : i - lo < len := by omega
      simp [h2, this, Nat.testBit_mod_two_pow]
    · have : ¬ i - lo < len := by omega
      simp only [this, if_false, h2, Nat.testBit_div_two_pow]
      congr 1; omega

theorem bitsOf_testBit (v lo len i : Nat) : (bitsOf v lo len).testBit i = (decide (i < len) && v.testBit (lo + i)) := by
  unfold bitsOf
  rw [Nat.testBit_mod_two_pow, Nat.testBit_div_two_pow, Nat.add_comm]

/-- A field after it is replaced. -/
@[simp] theorem bitsOf_putBits_same (v lo len x : Nat) : bitsOf (putBits v lo len x) lo len = x % 2 ^ len := by
  apply Nat.eq_of_testBit_eq
  intro i
  rw [bitsOf_testBit, putBits_testBit, Nat.testBit_mod_two_pow]
  by_cases h : i < len
  · have h1 : lo ≤ lo + i := by omega
    have h2 : lo + i < lo + len := by omega
    simp [h]
  · simp [h]

/-- A field after another one is replaced. -/
theorem bitsOf_putBits_disjoint (v lo len x l n : Nat) (h : l + n ≤ lo ∨ lo + len ≤ l) : bitsOf (putBits v lo len x) l n = bitsOf v l n := by
  apply Nat.eq_of_testBit_eq
  intro i
  rw [bitsOf_testBit, bitsOf_testBit, putBits_testBit]
  by_cases hi : i < n
  · have : ¬ (lo ≤ l + i ∧ l + i < lo + len) := by omega
    simp [hi, this]
  · simp [hi]

/-- Bits above the field do not matter. -/
theorem bitsOf_mod (v lo len w : Nat) (h : lo + len ≤ w) : bitsOf (v % 2 ^ w) lo len = bitsOf v lo len := by
  apply Nat.eq_of_testBit_eq
  intro i
  rw [bitsOf_testBit, bitsOf_testBit, Nat.testBit_mod_two_pow]
  by_cases hi : i < len
  · have : lo + i < w := by omega
    simp [hi, this]
  · simp [hi]

namespace Machine

/-- A register after it is written. -/
@[simp] theorem Package.rd_wr_same (p : Package) (a v : Nat) : (p.wr a v).rd a = v % 2 ^ 64 := by
  unfold Package.rd Package.wr
  by_cases h : v % 2 ^ 64 = regReset a
  · rw [if_pos h, mapFind_mapDel_same]
    exact h.symm
  · rw [if_neg h, mapFind_mapPut_same]
    exact BitVec.toNat_ofNat v 64

/-- A register after another one is written. -/
theorem Package.rd_wr_ne (p : Package) {a b : Nat} (v : Nat) (h : a ≠ b) : (p.wr a v).rd b = p.rd b := by
  unfold Package.rd Package.wr
  by_cases hv : v % 2 ^ 64 = regReset a
  · simp only [if_pos hv, mapFind_mapDel_ne p.regs h]
  · simp only [if_neg hv, mapFind_mapPut_ne p.regs _ h]

theorem Package.rd_wr (p : Package) (a b v : Nat) : (p.wr a v).rd b = if a = b then v % 2 ^ 64 else p.rd b := by
  by_cases h : a = b
  · subst h; simp
  · simp [h, p.rd_wr_ne v h]

/-- A field after it is written; fields lie within 64 bits. -/
theorem Package.get_put_same (p : Package) (f : Fld) (v : Nat) (h : f.lo + f.len ≤ 64) : (p.put f v).get f = v % 2 ^ f.len := by
  unfold Package.get Package.put
  rw [Package.rd_wr_same, bitsOf_mod _ _ _ _ h, bitsOf_putBits_same]

/-- A field of another register. -/
theorem Package.get_put_ne (p : Package) (f g : Fld) (v : Nat) (h : f.addr ≠ g.addr) : (p.put f v).get g = p.get g := by
  unfold Package.get Package.put
  rw [p.rd_wr_ne _ h]

/-- Another field of the same register. -/
theorem Package.get_put_disjoint (p : Package) (f g : Fld) (v : Nat) (h : g.lo + g.len ≤ 64) (d : g.lo + g.len ≤ f.lo ∨ f.lo + f.len ≤ g.lo) :
    (p.put f v).get g = p.get g := by
  by_cases ha : f.addr = g.addr
  · unfold Package.get Package.put
    rw [← ha, Package.rd_wr_same, bitsOf_mod _ _ _ _ h, bitsOf_putBits_disjoint _ _ _ _ _ _ d]
  · exact p.get_put_ne f g v ha

theorem Package.rd_put_ne (p : Package) (f : Fld) {b : Nat} (v : Nat) (h : f.addr ≠ b) : (p.put f v).rd b = p.rd b := p.rd_wr_ne _ h

theorem Package.rd_bump64 (p : Package) (a n : Nat) : (p.bump64 a n).rd a = (p.rd a + n) % 2 ^ 64 := p.rd_wr_same _ _
theorem Package.rd_bump64_ne (p : Package) {a b : Nat} (n : Nat) (h : a ≠ b) : (p.bump64 a n).rd b = p.rd b := p.rd_wr_ne _ h

end Machine

end Sys2Proof
end

