-- ==== Sys2Proof/Laws/State.lean ====
section
/-! SUPPORT. The fields of the package after each named update: one lemma a field and update, true by unfolding. -/

namespace Sys2Proof.Machine

open Sys2Proof

@[simp] theorem Package.wr_variant (p : Package) (a v : Nat) : (p.wr a v).variant = p.variant := rfl
@[simp] theorem Package.wr_serial (p : Package) (a v : Nat) : (p.wr a v).serial = p.serial := rfl
@[simp] theorem Package.wr_clock (p : Package) (a v : Nat) : (p.wr a v).clock = p.clock := rfl
@[simp] theorem Package.wr_dofs (p : Package) (a v : Nat) : (p.wr a v).dofs = p.dofs := rfl
@[simp] theorem Package.wr_mem (p : Package) (a v : Nat) : (p.wr a v).mem = p.mem := rfl
@[simp] theorem Package.wr_poison (p : Package) (a v : Nat) : (p.wr a v).poison = p.poison := rfl
@[simp] theorem Package.wr_fresh (p : Package) (a v : Nat) : (p.wr a v).fresh = p.fresh := rfl
@[simp] theorem Package.wr_beat (p : Package) (a v : Nat) : (p.wr a v).beat = p.beat := rfl
@[simp] theorem Package.wr_txn (p : Package) (a v : Nat) : (p.wr a v).txn = p.txn := rfl
@[simp] theorem Package.wr_evq (p : Package) (a v : Nat) : (p.wr a v).evq = p.evq := rfl
@[simp] theorem Package.wr_stages (p : Package) (a v : Nat) : (p.wr a v).stages = p.stages := rfl
@[simp] theorem Package.wr_groups (p : Package) (a v : Nat) : (p.wr a v).groups = p.groups := rfl
@[simp] theorem Package.wr_lnk (p : Package) (a v : Nat) : (p.wr a v).lnk = p.lnk := rfl
@[simp] theorem Package.wr_bridge (p : Package) (a v : Nat) : (p.wr a v).bridge = p.bridge := rfl
@[simp] theorem Package.wr_inFlight (p : Package) (a v : Nat) : (p.wr a v).inFlight = p.inFlight := rfl
@[simp] theorem Package.wr_errLogs (p : Package) (a v : Nat) : (p.wr a v).errLogs = p.errLogs := rfl
@[simp] theorem Package.wr_forwards (p : Package) (a v : Nat) : (p.wr a v).forwards = p.forwards := rfl
@[simp] theorem Package.wr_posCount (p : Package) (a v : Nat) : (p.wr a v).posCount = p.posCount := rfl
@[simp] theorem Package.wr_snapPause (p : Package) (a v : Nat) : (p.wr a v).snapPause = p.snapPause := rfl
@[simp] theorem Package.wr_thermalDies (p : Package) (a v : Nat) : (p.wr a v).thermalDies = p.thermalDies := rfl
@[simp] theorem Package.wr_powerDies (p : Package) (a v : Nat) : (p.wr a v).powerDies = p.powerDies := rfl
@[simp] theorem Package.wr_cores (p : Package) (a v : Nat) : (p.wr a v).cores = p.cores := rfl
@[simp] theorem Package.wr_clus (p : Package) (a v : Nat) : (p.wr a v).clus = p.clus := rfl
@[simp] theorem Package.wr_num (p : Package) (a v : Nat) : (p.wr a v).num = p.num := rfl
@[simp] theorem Package.wr_moe (p : Package) (a v : Nat) : (p.wr a v).moe = p.moe := rfl
@[simp] theorem Package.wr_pours (p : Package) (a v : Nat) : (p.wr a v).pours = p.pours := rfl
@[simp] theorem Package.wr_gathers (p : Package) (a v : Nat) : (p.wr a v).gathers = p.gathers := rfl
@[simp] theorem Package.wr_heldFetches (p : Package) (a v : Nat) : (p.wr a v).heldFetches = p.heldFetches := rfl
@[simp] theorem Package.wr_aclk (p : Package) (a v : Nat) : (p.wr a v).aclk = p.aclk := rfl
@[simp] theorem Package.wr_cru (p : Package) (a v : Nat) : (p.wr a v).cru = p.cru := rfl
@[simp] theorem Package.wr_folds (p : Package) (a v : Nat) : (p.wr a v).folds = p.folds := rfl
@[simp] theorem Package.wr_folded (p : Package) (a v : Nat) : (p.wr a v).folded = p.folded := rfl
@[simp] theorem Package.wr_engSince (p : Package) (a v : Nat) : (p.wr a v).engSince = p.engSince := rfl
@[simp] theorem Package.wr_runs (p : Package) (a v : Nat) : (p.wr a v).runs = p.runs := rfl
@[simp] theorem Package.wr_rings (p : Package) (a v : Nat) : (p.wr a v).rings = p.rings := rfl
@[simp] theorem Package.wr_bists (p : Package) (a v : Nat) : (p.wr a v).bists = p.bists := rfl
@[simp] theorem Package.wr_rewind (p : Package) (a v : Nat) : (p.wr a v).rewind = p.rewind := rfl
@[simp] theorem Package.wr_snap (p : Package) (a v : Nat) : (p.wr a v).snap = p.snap := rfl
@[simp] theorem Package.wr_fab (p : Package) (a v : Nat) : (p.wr a v).fab = p.fab := rfl
@[simp] theorem Package.wr_gate (p : Package) (a v : Nat) : (p.wr a v).gate = p.gate := rfl
@[simp] theorem Package.wr_pwr (p : Package) (a v : Nat) : (p.wr a v).pwr = p.pwr := rfl
@[simp] theorem Package.wr_sec (p : Package) (a v : Nat) : (p.wr a v).sec = p.sec := rfl
@[simp] theorem Package.wr_tap (p : Package) (a v : Nat) : (p.wr a v).tap = p.tap := rfl
@[simp] theorem Package.wr_mctp (p : Package) (a v : Nat) : (p.wr a v).mctp = p.mctp := rfl
@[simp] theorem Package.wr_cluAcct (p : Package) (a v : Nat) : (p.wr a v).cluAcct = p.cluAcct := rfl
@[simp] theorem Package.wr_telBase (p : Package) (a v : Nat) : (p.wr a v).telBase = p.telBase := rfl
@[simp] theorem Package.put_variant (p : Package) (f : Fld) (v : Nat) : (p.put f v).variant = p.variant := rfl
@[simp] theorem Package.put_serial (p : Package) (f : Fld) (v : Nat) : (p.put f v).serial = p.serial := rfl
@[simp] theorem Package.put_clock (p : Package) (f : Fld) (v : Nat) : (p.put f v).clock = p.clock := rfl
@[simp] theorem Package.put_dofs (p : Package) (f : Fld) (v : Nat) : (p.put f v).dofs = p.dofs := rfl
@[simp] theorem Package.put_mem (p : Package) (f : Fld) (v : Nat) : (p.put f v).mem = p.mem := rfl
@[simp] theorem Package.put_poison (p : Package) (f : Fld) (v : Nat) : (p.put f v).poison = p.poison := rfl
@[simp] theorem Package.put_fresh (p : Package) (f : Fld) (v : Nat) : (p.put f v).fresh = p.fresh := rfl
@[simp] theorem Package.put_beat (p : Package) (f : Fld) (v : Nat) : (p.put f v).beat = p.beat := rfl
@[simp] theorem Package.put_txn (p : Package) (f : Fld) (v : Nat) : (p.put f v).txn = p.txn := rfl
@[simp] theorem Package.put_evq (p : Package) (f : Fld) (v : Nat) : (p.put f v).evq = p.evq := rfl
@[simp] theorem Package.put_stages (p : Package) (f : Fld) (v : Nat) : (p.put f v).stages = p.stages := rfl
@[simp] theorem Package.put_groups (p : Package) (f : Fld) (v : Nat) : (p.put f v).groups = p.groups := rfl
@[simp] theorem Package.put_lnk (p : Package) (f : Fld) (v : Nat) : (p.put f v).lnk = p.lnk := rfl
@[simp] theorem Package.put_bridge (p : Package) (f : Fld) (v : Nat) : (p.put f v).bridge = p.bridge := rfl
@[simp] theorem Package.put_inFlight (p : Package) (f : Fld) (v : Nat) : (p.put f v).inFlight = p.inFlight := rfl
@[simp] theorem Package.put_errLogs (p : Package) (f : Fld) (v : Nat) : (p.put f v).errLogs = p.errLogs := rfl
@[simp] theorem Package.put_forwards (p : Package) (f : Fld) (v : Nat) : (p.put f v).forwards = p.forwards := rfl
@[simp] theorem Package.put_posCount (p : Package) (f : Fld) (v : Nat) : (p.put f v).posCount = p.posCount := rfl
@[simp] theorem Package.put_snapPause (p : Package) (f : Fld) (v : Nat) : (p.put f v).snapPause = p.snapPause := rfl
@[simp] theorem Package.put_thermalDies (p : Package) (f : Fld) (v : Nat) : (p.put f v).thermalDies = p.thermalDies := rfl
@[simp] theorem Package.put_powerDies (p : Package) (f : Fld) (v : Nat) : (p.put f v).powerDies = p.powerDies := rfl
@[simp] theorem Package.put_cores (p : Package) (f : Fld) (v : Nat) : (p.put f v).cores = p.cores := rfl
@[simp] theorem Package.put_clus (p : Package) (f : Fld) (v : Nat) : (p.put f v).clus = p.clus := rfl
@[simp] theorem Package.put_num (p : Package) (f : Fld) (v : Nat) : (p.put f v).num = p.num := rfl
@[simp] theorem Package.put_moe (p : Package) (f : Fld) (v : Nat) : (p.put f v).moe = p.moe := rfl
@[simp] theorem Package.put_pours (p : Package) (f : Fld) (v : Nat) : (p.put f v).pours = p.pours := rfl
@[simp] theorem Package.put_gathers (p : Package) (f : Fld) (v : Nat) : (p.put f v).gathers = p.gathers := rfl
@[simp] theorem Package.put_heldFetches (p : Package) (f : Fld) (v : Nat) : (p.put f v).heldFetches = p.heldFetches := rfl
@[simp] theorem Package.put_aclk (p : Package) (f : Fld) (v : Nat) : (p.put f v).aclk = p.aclk := rfl
@[simp] theorem Package.put_cru (p : Package) (f : Fld) (v : Nat) : (p.put f v).cru = p.cru := rfl
@[simp] theorem Package.put_folds (p : Package) (f : Fld) (v : Nat) : (p.put f v).folds = p.folds := rfl
@[simp] theorem Package.put_folded (p : Package) (f : Fld) (v : Nat) : (p.put f v).folded = p.folded := rfl
@[simp] theorem Package.put_engSince (p : Package) (f : Fld) (v : Nat) : (p.put f v).engSince = p.engSince := rfl
@[simp] theorem Package.put_runs (p : Package) (f : Fld) (v : Nat) : (p.put f v).runs = p.runs := rfl
@[simp] theorem Package.put_rings (p : Package) (f : Fld) (v : Nat) : (p.put f v).rings = p.rings := rfl
@[simp] theorem Package.put_bists (p : Package) (f : Fld) (v : Nat) : (p.put f v).bists = p.bists := rfl
@[simp] theorem Package.put_rewind (p : Package) (f : Fld) (v : Nat) : (p.put f v).rewind = p.rewind := rfl
@[simp] theorem Package.put_snap (p : Package) (f : Fld) (v : Nat) : (p.put f v).snap = p.snap := rfl
@[simp] theorem Package.put_fab (p : Package) (f : Fld) (v : Nat) : (p.put f v).fab = p.fab := rfl
@[simp] theorem Package.put_gate (p : Package) (f : Fld) (v : Nat) : (p.put f v).gate = p.gate := rfl
@[simp] theorem Package.put_pwr (p : Package) (f : Fld) (v : Nat) : (p.put f v).pwr = p.pwr := rfl
@[simp] theorem Package.put_sec (p : Package) (f : Fld) (v : Nat) : (p.put f v).sec = p.sec := rfl
@[simp] theorem Package.put_tap (p : Package) (f : Fld) (v : Nat) : (p.put f v).tap = p.tap := rfl
@[simp] theorem Package.put_mctp (p : Package) (f : Fld) (v : Nat) : (p.put f v).mctp = p.mctp := rfl
@[simp] theorem Package.put_cluAcct (p : Package) (f : Fld) (v : Nat) : (p.put f v).cluAcct = p.cluAcct := rfl
@[simp] theorem Package.put_telBase (p : Package) (f : Fld) (v : Nat) : (p.put f v).telBase = p.telBase := rfl
@[simp] theorem Package.bump48_variant (p : Package) (a n : Nat) : (p.bump48 a n).variant = p.variant := rfl
@[simp] theorem Package.bump48_serial (p : Package) (a n : Nat) : (p.bump48 a n).serial = p.serial := rfl
@[simp] theorem Package.bump48_clock (p : Package) (a n : Nat) : (p.bump48 a n).clock = p.clock := rfl
@[simp] theorem Package.bump48_dofs (p : Package) (a n : Nat) : (p.bump48 a n).dofs = p.dofs := rfl
@[simp] theorem Package.bump48_mem (p : Package) (a n : Nat) : (p.bump48 a n).mem = p.mem := rfl
@[simp] theorem Package.bump48_poison (p : Package) (a n : Nat) : (p.bump48 a n).poison = p.poison := rfl
@[simp] theorem Package.bump48_fresh (p : Package) (a n : Nat) : (p.bump48 a n).fresh = p.fresh := rfl
@[simp] theorem Package.bump48_beat (p : Package) (a n : Nat) : (p.bump48 a n).beat = p.beat := rfl
@[simp] theorem Package.bump48_txn (p : Package) (a n : Nat) : (p.bump48 a n).txn = p.txn := rfl
@[simp] theorem Package.bump48_evq (p : Package) (a n : Nat) : (p.bump48 a n).evq = p.evq := rfl
@[simp] theorem Package.bump48_stages (p : Package) (a n : Nat) : (p.bump48 a n).stages = p.stages := rfl
@[simp] theorem Package.bump48_groups (p : Package) (a n : Nat) : (p.bump48 a n).groups = p.groups := rfl
@[simp] theorem Package.bump48_lnk (p : Package) (a n : Nat) : (p.bump48 a n).lnk = p.lnk := rfl
@[simp] theorem Package.bump48_bridge (p : Package) (a n : Nat) : (p.bump48 a n).bridge = p.bridge := rfl
@[simp] theorem Package.bump48_inFlight (p : Package) (a n : Nat) : (p.bump48 a n).inFlight = p.inFlight := rfl
@[simp] theorem Package.bump48_errLogs (p : Package) (a n : Nat) : (p.bump48 a n).errLogs = p.errLogs := rfl
@[simp] theorem Package.bump48_forwards (p : Package) (a n : Nat) : (p.bump48 a n).forwards = p.forwards := rfl
@[simp] theorem Package.bump48_posCount (p : Package) (a n : Nat) : (p.bump48 a n).posCount = p.posCount := rfl
@[simp] theorem Package.bump48_snapPause (p : Package) (a n : Nat) : (p.bump48 a n).snapPause = p.snapPause := rfl
@[simp] theorem Package.bump48_thermalDies (p : Package) (a n : Nat) : (p.bump48 a n).thermalDies = p.thermalDies := rfl
@[simp] theorem Package.bump48_powerDies (p : Package) (a n : Nat) : (p.bump48 a n).powerDies = p.powerDies := rfl
@[simp] theorem Package.bump48_cores (p : Package) (a n : Nat) : (p.bump48 a n).cores = p.cores := rfl
@[simp] theorem Package.bump48_clus (p : Package) (a n : Nat) : (p.bump48 a n).clus = p.clus := rfl
@[simp] theorem Package.bump48_num (p : Package) (a n : Nat) : (p.bump48 a n).num = p.num := rfl
@[simp] theorem Package.bump48_moe (p : Package) (a n : Nat) : (p.bump48 a n).moe = p.moe := rfl
@[simp] theorem Package.bump48_pours (p : Package) (a n : Nat) : (p.bump48 a n).pours = p.pours := rfl
@[simp] theorem Package.bump48_gathers (p : Package) (a n : Nat) : (p.bump48 a n).gathers = p.gathers := rfl
@[simp] theorem Package.bump48_heldFetches (p : Package) (a n : Nat) : (p.bump48 a n).heldFetches = p.heldFetches := rfl
@[simp] theorem Package.bump48_aclk (p : Package) (a n : Nat) : (p.bump48 a n).aclk = p.aclk := rfl
@[simp] theorem Package.bump48_cru (p : Package) (a n : Nat) : (p.bump48 a n).cru = p.cru := rfl
@[simp] theorem Package.bump48_folds (p : Package) (a n : Nat) : (p.bump48 a n).folds = p.folds := rfl
@[simp] theorem Package.bump48_folded (p : Package) (a n : Nat) : (p.bump48 a n).folded = p.folded := rfl
@[simp] theorem Package.bump48_engSince (p : Package) (a n : Nat) : (p.bump48 a n).engSince = p.engSince := rfl
@[simp] theorem Package.bump48_runs (p : Package) (a n : Nat) : (p.bump48 a n).runs = p.runs := rfl
@[simp] theorem Package.bump48_rings (p : Package) (a n : Nat) : (p.bump48 a n).rings = p.rings := rfl
@[simp] theorem Package.bump48_bists (p : Package) (a n : Nat) : (p.bump48 a n).bists = p.bists := rfl
@[simp] theorem Package.bump48_rewind (p : Package) (a n : Nat) : (p.bump48 a n).rewind = p.rewind := rfl
@[simp] theorem Package.bump48_snap (p : Package) (a n : Nat) : (p.bump48 a n).snap = p.snap := rfl
@[simp] theorem Package.bump48_fab (p : Package) (a n : Nat) : (p.bump48 a n).fab = p.fab := rfl
@[simp] theorem Package.bump48_gate (p : Package) (a n : Nat) : (p.bump48 a n).gate = p.gate := rfl
@[simp] theorem Package.bump48_pwr (p : Package) (a n : Nat) : (p.bump48 a n).pwr = p.pwr := rfl
@[simp] theorem Package.bump48_sec (p : Package) (a n : Nat) : (p.bump48 a n).sec = p.sec := rfl
@[simp] theorem Package.bump48_tap (p : Package) (a n : Nat) : (p.bump48 a n).tap = p.tap := rfl
@[simp] theorem Package.bump48_mctp (p : Package) (a n : Nat) : (p.bump48 a n).mctp = p.mctp := rfl
@[simp] theorem Package.bump48_cluAcct (p : Package) (a n : Nat) : (p.bump48 a n).cluAcct = p.cluAcct := rfl
@[simp] theorem Package.bump48_telBase (p : Package) (a n : Nat) : (p.bump48 a n).telBase = p.telBase := rfl
@[simp] theorem Package.bump64_variant (p : Package) (a n : Nat) : (p.bump64 a n).variant = p.variant := rfl
@[simp] theorem Package.bump64_serial (p : Package) (a n : Nat) : (p.bump64 a n).serial = p.serial := rfl
@[simp] theorem Package.bump64_clock (p : Package) (a n : Nat) : (p.bump64 a n).clock = p.clock := rfl
@[simp] theorem Package.bump64_dofs (p : Package) (a n : Nat) : (p.bump64 a n).dofs = p.dofs := rfl
@[simp] theorem Package.bump64_mem (p : Package) (a n : Nat) : (p.bump64 a n).mem = p.mem := rfl
@[simp] theorem Package.bump64_poison (p : Package) (a n : Nat) : (p.bump64 a n).poison = p.poison := rfl
@[simp] theorem Package.bump64_fresh (p : Package) (a n : Nat) : (p.bump64 a n).fresh = p.fresh := rfl
@[simp] theorem Package.bump64_beat (p : Package) (a n : Nat) : (p.bump64 a n).beat = p.beat := rfl
@[simp] theorem Package.bump64_txn (p : Package) (a n : Nat) : (p.bump64 a n).txn = p.txn := rfl
@[simp] theorem Package.bump64_evq (p : Package) (a n : Nat) : (p.bump64 a n).evq = p.evq := rfl
@[simp] theorem Package.bump64_stages (p : Package) (a n : Nat) : (p.bump64 a n).stages = p.stages := rfl
@[simp] theorem Package.bump64_groups (p : Package) (a n : Nat) : (p.bump64 a n).groups = p.groups := rfl
@[simp] theorem Package.bump64_lnk (p : Package) (a n : Nat) : (p.bump64 a n).lnk = p.lnk := rfl
@[simp] theorem Package.bump64_bridge (p : Package) (a n : Nat) : (p.bump64 a n).bridge = p.bridge := rfl
@[simp] theorem Package.bump64_inFlight (p : Package) (a n : Nat) : (p.bump64 a n).inFlight = p.inFlight := rfl
@[simp] theorem Package.bump64_errLogs (p : Package) (a n : Nat) : (p.bump64 a n).errLogs = p.errLogs := rfl
@[simp] theorem Package.bump64_forwards (p : Package) (a n : Nat) : (p.bump64 a n).forwards = p.forwards := rfl
@[simp] theorem Package.bump64_posCount (p : Package) (a n : Nat) : (p.bump64 a n).posCount = p.posCount := rfl
@[simp] theorem Package.bump64_snapPause (p : Package) (a n : Nat) : (p.bump64 a n).snapPause = p.snapPause := rfl
@[simp] theorem Package.bump64_thermalDies (p : Package) (a n : Nat) : (p.bump64 a n).thermalDies = p.thermalDies := rfl
@[simp] theorem Package.bump64_powerDies (p : Package) (a n : Nat) : (p.bump64 a n).powerDies = p.powerDies := rfl
@[simp] theorem Package.bump64_cores (p : Package) (a n : Nat) : (p.bump64 a n).cores = p.cores := rfl
@[simp] theorem Package.bump64_clus (p : Package) (a n : Nat) : (p.bump64 a n).clus = p.clus := rfl
@[simp] theorem Package.bump64_num (p : Package) (a n : Nat) : (p.bump64 a n).num = p.num := rfl
@[simp] theorem Package.bump64_moe (p : Package) (a n : Nat) : (p.bump64 a n).moe = p.moe := rfl
@[simp] theorem Package.bump64_pours (p : Package) (a n : Nat) : (p.bump64 a n).pours = p.pours := rfl
@[simp] theorem Package.bump64_gathers (p : Package) (a n : Nat) : (p.bump64 a n).gathers = p.gathers := rfl
@[simp] theorem Package.bump64_heldFetches (p : Package) (a n : Nat) : (p.bump64 a n).heldFetches = p.heldFetches := rfl
@[simp] theorem Package.bump64_aclk (p : Package) (a n : Nat) : (p.bump64 a n).aclk = p.aclk := rfl
@[simp] theorem Package.bump64_cru (p : Package) (a n : Nat) : (p.bump64 a n).cru = p.cru := rfl
@[simp] theorem Package.bump64_folds (p : Package) (a n : Nat) : (p.bump64 a n).folds = p.folds := rfl
@[simp] theorem Package.bump64_folded (p : Package) (a n : Nat) : (p.bump64 a n).folded = p.folded := rfl
@[simp] theorem Package.bump64_engSince (p : Package) (a n : Nat) : (p.bump64 a n).engSince = p.engSince := rfl
@[simp] theorem Package.bump64_runs (p : Package) (a n : Nat) : (p.bump64 a n).runs = p.runs := rfl
@[simp] theorem Package.bump64_rings (p : Package) (a n : Nat) : (p.bump64 a n).rings = p.rings := rfl
@[simp] theorem Package.bump64_bists (p : Package) (a n : Nat) : (p.bump64 a n).bists = p.bists := rfl
@[simp] theorem Package.bump64_rewind (p : Package) (a n : Nat) : (p.bump64 a n).rewind = p.rewind := rfl
@[simp] theorem Package.bump64_snap (p : Package) (a n : Nat) : (p.bump64 a n).snap = p.snap := rfl
@[simp] theorem Package.bump64_fab (p : Package) (a n : Nat) : (p.bump64 a n).fab = p.fab := rfl
@[simp] theorem Package.bump64_gate (p : Package) (a n : Nat) : (p.bump64 a n).gate = p.gate := rfl
@[simp] theorem Package.bump64_pwr (p : Package) (a n : Nat) : (p.bump64 a n).pwr = p.pwr := rfl
@[simp] theorem Package.bump64_sec (p : Package) (a n : Nat) : (p.bump64 a n).sec = p.sec := rfl
@[simp] theorem Package.bump64_tap (p : Package) (a n : Nat) : (p.bump64 a n).tap = p.tap := rfl
@[simp] theorem Package.bump64_mctp (p : Package) (a n : Nat) : (p.bump64 a n).mctp = p.mctp := rfl
@[simp] theorem Package.bump64_cluAcct (p : Package) (a n : Nat) : (p.bump64 a n).cluAcct = p.cluAcct := rfl
@[simp] theorem Package.bump64_telBase (p : Package) (a n : Nat) : (p.bump64 a n).telBase = p.telBase := rfl
@[simp] theorem Package.setBit_variant (p : Package) (a i : Nat) (b : Bool) : (p.setBit a i b).variant = p.variant := rfl
@[simp] theorem Package.setBit_serial (p : Package) (a i : Nat) (b : Bool) : (p.setBit a i b).serial = p.serial := rfl
@[simp] theorem Package.setBit_clock (p : Package) (a i : Nat) (b : Bool) : (p.setBit a i b).clock = p.clock := rfl
@[simp] theorem Package.setBit_dofs (p : Package) (a i : Nat) (b : Bool) : (p.setBit a i b).dofs = p.dofs := rfl
@[simp] theorem Package.setBit_mem (p : Package) (a i : Nat) (b : Bool) : (p.setBit a i b).mem = p.mem := rfl
@[simp] theorem Package.setBit_poison (p : Package) (a i : Nat) (b : Bool) : (p.setBit a i b).poison = p.poison := rfl
@[simp] theorem Package.setBit_fresh (p : Package) (a i : Nat) (b : Bool) : (p.setBit a i b).fresh = p.fresh := rfl
@[simp] theorem Package.setBit_beat (p : Package) (a i : Nat) (b : Bool) : (p.setBit a i b).beat = p.beat := rfl
@[simp] theorem Package.setBit_txn (p : Package) (a i : Nat) (b : Bool) : (p.setBit a i b).txn = p.txn := rfl
@[simp] theorem Package.setBit_evq (p : Package) (a i : Nat) (b : Bool) : (p.setBit a i b).evq = p.evq := rfl
@[simp] theorem Package.setBit_stages (p : Package) (a i : Nat) (b : Bool) : (p.setBit a i b).stages = p.stages := rfl
@[simp] theorem Package.setBit_groups (p : Package) (a i : Nat) (b : Bool) : (p.setBit a i b).groups = p.groups := rfl
@[simp] theorem Package.setBit_lnk (p : Package) (a i : Nat) (b : Bool) : (p.setBit a i b).lnk = p.lnk := rfl
@[simp] theorem Package.setBit_bridge (p : Package) (a i : Nat) (b : Bool) : (p.setBit a i b).bridge = p.bridge := rfl
@[simp] theorem Package.setBit_inFlight (p : Package) (a i : Nat) (b : Bool) : (p.setBit a i b).inFlight = p.inFlight := rfl
@[simp] theorem Package.setBit_errLogs (p : Package) (a i : Nat) (b : Bool) : (p.setBit a i b).errLogs = p.errLogs := rfl
@[simp] theorem Package.setBit_forwards (p : Package) (a i : Nat) (b : Bool) : (p.setBit a i b).forwards = p.forwards := rfl
@[simp] theorem Package.setBit_posCount (p : Package) (a i : Nat) (b : Bool) : (p.setBit a i b).posCount = p.posCount := rfl
@[simp] theorem Package.setBit_snapPause (p : Package) (a i : Nat) (b : Bool) : (p.setBit a i b).snapPause = p.snapPause := rfl
@[simp] theorem Package.setBit_thermalDies (p : Package) (a i : Nat) (b : Bool) : (p.setBit a i b).thermalDies = p.thermalDies := rfl
@[simp] theorem Package.setBit_powerDies (p : Package) (a i : Nat) (b : Bool) : (p.setBit a i b).powerDies = p.powerDies := rfl
@[simp] theorem Package.setBit_cores (p : Package) (a i : Nat) (b : Bool) : (p.setBit a i b).cores = p.cores := rfl
@[simp] theorem Package.setBit_clus (p : Package) (a i : Nat) (b : Bool) : (p.setBit a i b).clus = p.clus := rfl
@[simp] theorem Package.setBit_num (p : Package) (a i : Nat) (b : Bool) : (p.setBit a i b).num = p.num := rfl
@[simp] theorem Package.setBit_moe (p : Package) (a i : Nat) (b : Bool) : (p.setBit a i b).moe = p.moe := rfl
@[simp] theorem Package.setBit_pours (p : Package) (a i : Nat) (b : Bool) : (p.setBit a i b).pours = p.pours := rfl
@[simp] theorem Package.setBit_gathers (p : Package) (a i : Nat) (b : Bool) : (p.setBit a i b).gathers = p.gathers := rfl
@[simp] theorem Package.setBit_heldFetches (p : Package) (a i : Nat) (b : Bool) : (p.setBit a i b).heldFetches = p.heldFetches := rfl
@[simp] theorem Package.setBit_aclk (p : Package) (a i : Nat) (b : Bool) : (p.setBit a i b).aclk = p.aclk := rfl
@[simp] theorem Package.setBit_cru (p : Package) (a i : Nat) (b : Bool) : (p.setBit a i b).cru = p.cru := rfl
@[simp] theorem Package.setBit_folds (p : Package) (a i : Nat) (b : Bool) : (p.setBit a i b).folds = p.folds := rfl
@[simp] theorem Package.setBit_folded (p : Package) (a i : Nat) (b : Bool) : (p.setBit a i b).folded = p.folded := rfl
@[simp] theorem Package.setBit_engSince (p : Package) (a i : Nat) (b : Bool) : (p.setBit a i b).engSince = p.engSince := rfl
@[simp] theorem Package.setBit_runs (p : Package) (a i : Nat) (b : Bool) : (p.setBit a i b).runs = p.runs := rfl
@[simp] theorem Package.setBit_rings (p : Package) (a i : Nat) (b : Bool) : (p.setBit a i b).rings = p.rings := rfl
@[simp] theorem Package.setBit_bists (p : Package) (a i : Nat) (b : Bool) : (p.setBit a i b).bists = p.bists := rfl
@[simp] theorem Package.setBit_rewind (p : Package) (a i : Nat) (b : Bool) : (p.setBit a i b).rewind = p.rewind := rfl
@[simp] theorem Package.setBit_snap (p : Package) (a i : Nat) (b : Bool) : (p.setBit a i b).snap = p.snap := rfl
@[simp] theorem Package.setBit_fab (p : Package) (a i : Nat) (b : Bool) : (p.setBit a i b).fab = p.fab := rfl
@[simp] theorem Package.setBit_gate (p : Package) (a i : Nat) (b : Bool) : (p.setBit a i b).gate = p.gate := rfl
@[simp] theorem Package.setBit_pwr (p : Package) (a i : Nat) (b : Bool) : (p.setBit a i b).pwr = p.pwr := rfl
@[simp] theorem Package.setBit_sec (p : Package) (a i : Nat) (b : Bool) : (p.setBit a i b).sec = p.sec := rfl
@[simp] theorem Package.setBit_tap (p : Package) (a i : Nat) (b : Bool) : (p.setBit a i b).tap = p.tap := rfl
@[simp] theorem Package.setBit_mctp (p : Package) (a i : Nat) (b : Bool) : (p.setBit a i b).mctp = p.mctp := rfl
@[simp] theorem Package.setBit_cluAcct (p : Package) (a i : Nat) (b : Bool) : (p.setBit a i b).cluAcct = p.cluAcct := rfl
@[simp] theorem Package.setBit_telBase (p : Package) (a i : Nat) (b : Bool) : (p.setBit a i b).telBase = p.telBase := rfl
@[simp] theorem Package.elapse_variant (p : Package) (dt : Nat) : (p.elapse dt).variant = p.variant := rfl
@[simp] theorem Package.elapse_serial (p : Package) (dt : Nat) : (p.elapse dt).serial = p.serial := rfl
@[simp] theorem Package.elapse_regs (p : Package) (dt : Nat) : (p.elapse dt).regs = p.regs := rfl
@[simp] theorem Package.elapse_mem (p : Package) (dt : Nat) : (p.elapse dt).mem = p.mem := rfl
@[simp] theorem Package.elapse_poison (p : Package) (dt : Nat) : (p.elapse dt).poison = p.poison := rfl
@[simp] theorem Package.elapse_fresh (p : Package) (dt : Nat) : (p.elapse dt).fresh = p.fresh := rfl
@[simp] theorem Package.elapse_txn (p : Package) (dt : Nat) : (p.elapse dt).txn = p.txn := rfl
@[simp] theorem Package.elapse_evq (p : Package) (dt : Nat) : (p.elapse dt).evq = p.evq := rfl
@[simp] theorem Package.elapse_stages (p : Package) (dt : Nat) : (p.elapse dt).stages = p.stages := rfl
@[simp] theorem Package.elapse_groups (p : Package) (dt : Nat) : (p.elapse dt).groups = p.groups := rfl
@[simp] theorem Package.elapse_lnk (p : Package) (dt : Nat) : (p.elapse dt).lnk = p.lnk := rfl
@[simp] theorem Package.elapse_bridge (p : Package) (dt : Nat) : (p.elapse dt).bridge = p.bridge := rfl
@[simp] theorem Package.elapse_inFlight (p : Package) (dt : Nat) : (p.elapse dt).inFlight = p.inFlight := rfl
@[simp] theorem Package.elapse_errLogs (p : Package) (dt : Nat) : (p.elapse dt).errLogs = p.errLogs := rfl
@[simp] theorem Package.elapse_forwards (p : Package) (dt : Nat) : (p.elapse dt).forwards = p.forwards := rfl
@[simp] theorem Package.elapse_posCount (p : Package) (dt : Nat) : (p.elapse dt).posCount = p.posCount := rfl
@[simp] theorem Package.elapse_snapPause (p : Package) (dt : Nat) : (p.elapse dt).snapPause = p.snapPause := rfl
@[simp] theorem Package.elapse_thermalDies (p : Package) (dt : Nat) : (p.elapse dt).thermalDies = p.thermalDies := rfl
@[simp] theorem Package.elapse_powerDies (p : Package) (dt : Nat) : (p.elapse dt).powerDies = p.powerDies := rfl
@[simp] theorem Package.elapse_cores (p : Package) (dt : Nat) : (p.elapse dt).cores = p.cores := rfl
@[simp] theorem Package.elapse_clus (p : Package) (dt : Nat) : (p.elapse dt).clus = p.clus := rfl
@[simp] theorem Package.elapse_num (p : Package) (dt : Nat) : (p.elapse dt).num = p.num := rfl
@[simp] theorem Package.elapse_moe (p : Package) (dt : Nat) : (p.elapse dt).moe = p.moe := rfl
@[simp] theorem Package.elapse_pours (p : Package) (dt : Nat) : (p.elapse dt).pours = p.pours := rfl
@[simp] theorem Package.elapse_gathers (p : Package) (dt : Nat) : (p.elapse dt).gathers = p.gathers := rfl
@[simp] theorem Package.elapse_heldFetches (p : Package) (dt : Nat) : (p.elapse dt).heldFetches = p.heldFetches := rfl
@[simp] theorem Package.elapse_aclk (p : Package) (dt : Nat) : (p.elapse dt).aclk = p.aclk := rfl
@[simp] theorem Package.elapse_cru (p : Package) (dt : Nat) : (p.elapse dt).cru = p.cru := rfl
@[simp] theorem Package.elapse_folds (p : Package) (dt : Nat) : (p.elapse dt).folds = p.folds := rfl
@[simp] theorem Package.elapse_folded (p : Package) (dt : Nat) : (p.elapse dt).folded = p.folded := rfl
@[simp] theorem Package.elapse_engSince (p : Package) (dt : Nat) : (p.elapse dt).engSince = p.engSince := rfl
@[simp] theorem Package.elapse_runs (p : Package) (dt : Nat) : (p.elapse dt).runs = p.runs := rfl
@[simp] theorem Package.elapse_rings (p : Package) (dt : Nat) : (p.elapse dt).rings = p.rings := rfl
@[simp] theorem Package.elapse_bists (p : Package) (dt : Nat) : (p.elapse dt).bists = p.bists := rfl
@[simp] theorem Package.elapse_rewind (p : Package) (dt : Nat) : (p.elapse dt).rewind = p.rewind := rfl
@[simp] theorem Package.elapse_snap (p : Package) (dt : Nat) : (p.elapse dt).snap = p.snap := rfl
@[simp] theorem Package.elapse_fab (p : Package) (dt : Nat) : (p.elapse dt).fab = p.fab := rfl
@[simp] theorem Package.elapse_gate (p : Package) (dt : Nat) : (p.elapse dt).gate = p.gate := rfl
@[simp] theorem Package.elapse_pwr (p : Package) (dt : Nat) : (p.elapse dt).pwr = p.pwr := rfl
@[simp] theorem Package.elapse_sec (p : Package) (dt : Nat) : (p.elapse dt).sec = p.sec := rfl
@[simp] theorem Package.elapse_tap (p : Package) (dt : Nat) : (p.elapse dt).tap = p.tap := rfl
@[simp] theorem Package.elapse_mctp (p : Package) (dt : Nat) : (p.elapse dt).mctp = p.mctp := rfl
@[simp] theorem Package.elapse_cluAcct (p : Package) (dt : Nat) : (p.elapse dt).cluAcct = p.cluAcct := rfl
@[simp] theorem Package.elapse_telBase (p : Package) (dt : Nat) : (p.elapse dt).telBase = p.telBase := rfl
@[simp] theorem Package.elapse_rd (p : Package) (dt : Nat) (r : Nat) : (p.elapse dt).rd r = p.rd r := rfl
@[simp] theorem Package.elapse_get (p : Package) (dt : Nat) (g : Fld) : (p.elapse dt).get g = p.get g := rfl
@[simp] theorem Package.elapse_has (p : Package) (dt : Nat) (g : Fld) : (p.elapse dt).has g = p.has g := rfl
@[simp] theorem Package.setDtime_variant (p : Package) (v : Nat) : (p.setDtime v).variant = p.variant := rfl
@[simp] theorem Package.setDtime_serial (p : Package) (v : Nat) : (p.setDtime v).serial = p.serial := rfl
@[simp] theorem Package.setDtime_regs (p : Package) (v : Nat) : (p.setDtime v).regs = p.regs := rfl
@[simp] theorem Package.setDtime_clock (p : Package) (v : Nat) : (p.setDtime v).clock = p.clock := rfl
@[simp] theorem Package.setDtime_mem (p : Package) (v : Nat) : (p.setDtime v).mem = p.mem := rfl
@[simp] theorem Package.setDtime_poison (p : Package) (v : Nat) : (p.setDtime v).poison = p.poison := rfl
@[simp] theorem Package.setDtime_fresh (p : Package) (v : Nat) : (p.setDtime v).fresh = p.fresh := rfl
@[simp] theorem Package.setDtime_beat (p : Package) (v : Nat) : (p.setDtime v).beat = p.beat := rfl
@[simp] theorem Package.setDtime_txn (p : Package) (v : Nat) : (p.setDtime v).txn = p.txn := rfl
@[simp] theorem Package.setDtime_evq (p : Package) (v : Nat) : (p.setDtime v).evq = p.evq := rfl
@[simp] theorem Package.setDtime_stages (p : Package) (v : Nat) : (p.setDtime v).stages = p.stages := rfl
@[simp] theorem Package.setDtime_groups (p : Package) (v : Nat) : (p.setDtime v).groups = p.groups := rfl
@[simp] theorem Package.setDtime_lnk (p : Package) (v : Nat) : (p.setDtime v).lnk = p.lnk := rfl
@[simp] theorem Package.setDtime_bridge (p : Package) (v : Nat) : (p.setDtime v).bridge = p.bridge := rfl
@[simp] theorem Package.setDtime_inFlight (p : Package) (v : Nat) : (p.setDtime v).inFlight = p.inFlight := rfl
@[simp] theorem Package.setDtime_errLogs (p : Package) (v : Nat) : (p.setDtime v).errLogs = p.errLogs := rfl
@[simp] theorem Package.setDtime_forwards (p : Package) (v : Nat) : (p.setDtime v).forwards = p.forwards := rfl
@[simp] theorem Package.setDtime_posCount (p : Package) (v : Nat) : (p.setDtime v).posCount = p.posCount := rfl
@[simp] theorem Package.setDtime_snapPause (p : Package) (v : Nat) : (p.setDtime v).snapPause = p.snapPause := rfl
@[simp] theorem Package.setDtime_thermalDies (p : Package) (v : Nat) : (p.setDtime v).thermalDies = p.thermalDies := rfl
@[simp] theorem Package.setDtime_powerDies (p : Package) (v : Nat) : (p.setDtime v).powerDies = p.powerDies := rfl
@[simp] theorem Package.setDtime_cores (p : Package) (v : Nat) : (p.setDtime v).cores = p.cores := rfl
@[simp] theorem Package.setDtime_clus (p : Package) (v : Nat) : (p.setDtime v).clus = p.clus := rfl
@[simp] theorem Package.setDtime_num (p : Package) (v : Nat) : (p.setDtime v).num = p.num := rfl
@[simp] theorem Package.setDtime_moe (p : Package) (v : Nat) : (p.setDtime v).moe = p.moe := rfl
@[simp] theorem Package.setDtime_pours (p : Package) (v : Nat) : (p.setDtime v).pours = p.pours := rfl
@[simp] theorem Package.setDtime_gathers (p : Package) (v : Nat) : (p.setDtime v).gathers = p.gathers := rfl
@[simp] theorem Package.setDtime_heldFetches (p : Package) (v : Nat) : (p.setDtime v).heldFetches = p.heldFetches := rfl
@[simp] theorem Package.setDtime_aclk (p : Package) (v : Nat) : (p.setDtime v).aclk = p.aclk := rfl
@[simp] theorem Package.setDtime_cru (p : Package) (v : Nat) : (p.setDtime v).cru = p.cru := rfl
@[simp] theorem Package.setDtime_folds (p : Package) (v : Nat) : (p.setDtime v).folds = p.folds := rfl
@[simp] theorem Package.setDtime_folded (p : Package) (v : Nat) : (p.setDtime v).folded = p.folded := rfl
@[simp] theorem Package.setDtime_engSince (p : Package) (v : Nat) : (p.setDtime v).engSince = p.engSince := rfl
@[simp] theorem Package.setDtime_runs (p : Package) (v : Nat) : (p.setDtime v).runs = p.runs := rfl
@[simp] theorem Package.setDtime_rings (p : Package) (v : Nat) : (p.setDtime v).rings = p.rings := rfl
@[simp] theorem Package.setDtime_bists (p : Package) (v : Nat) : (p.setDtime v).bists = p.bists := rfl
@[simp] theorem Package.setDtime_rewind (p : Package) (v : Nat) : (p.setDtime v).rewind = p.rewind := rfl
@[simp] theorem Package.setDtime_snap (p : Package) (v : Nat) : (p.setDtime v).snap = p.snap := rfl
@[simp] theorem Package.setDtime_fab (p : Package) (v : Nat) : (p.setDtime v).fab = p.fab := rfl
@[simp] theorem Package.setDtime_gate (p : Package) (v : Nat) : (p.setDtime v).gate = p.gate := rfl
@[simp] theorem Package.setDtime_pwr (p : Package) (v : Nat) : (p.setDtime v).pwr = p.pwr := rfl
@[simp] theorem Package.setDtime_sec (p : Package) (v : Nat) : (p.setDtime v).sec = p.sec := rfl
@[simp] theorem Package.setDtime_tap (p : Package) (v : Nat) : (p.setDtime v).tap = p.tap := rfl
@[simp] theorem Package.setDtime_mctp (p : Package) (v : Nat) : (p.setDtime v).mctp = p.mctp := rfl
@[simp] theorem Package.setDtime_cluAcct (p : Package) (v : Nat) : (p.setDtime v).cluAcct = p.cluAcct := rfl
@[simp] theorem Package.setDtime_telBase (p : Package) (v : Nat) : (p.setDtime v).telBase = p.telBase := rfl
@[simp] theorem Package.setDtime_rd (p : Package) (v : Nat) (r : Nat) : (p.setDtime v).rd r = p.rd r := rfl
@[simp] theorem Package.setDtime_get (p : Package) (v : Nat) (g : Fld) : (p.setDtime v).get g = p.get g := rfl
@[simp] theorem Package.setDtime_has (p : Package) (v : Nat) (g : Fld) : (p.setDtime v).has g = p.has g := rfl
@[simp] theorem Package.setErrLog_variant (p : Package) (d : Nat) (l : ErrLog) : (p.setErrLog d l).variant = p.variant := rfl
@[simp] theorem Package.setErrLog_serial (p : Package) (d : Nat) (l : ErrLog) : (p.setErrLog d l).serial = p.serial := rfl
@[simp] theorem Package.setErrLog_regs (p : Package) (d : Nat) (l : ErrLog) : (p.setErrLog d l).regs = p.regs := rfl
@[simp] theorem Package.setErrLog_clock (p : Package) (d : Nat) (l : ErrLog) : (p.setErrLog d l).clock = p.clock := rfl
@[simp] theorem Package.setErrLog_dofs (p : Package) (d : Nat) (l : ErrLog) : (p.setErrLog d l).dofs = p.dofs := rfl
@[simp] theorem Package.setErrLog_mem (p : Package) (d : Nat) (l : ErrLog) : (p.setErrLog d l).mem = p.mem := rfl
@[simp] theorem Package.setErrLog_poison (p : Package) (d : Nat) (l : ErrLog) : (p.setErrLog d l).poison = p.poison := rfl
@[simp] theorem Package.setErrLog_fresh (p : Package) (d : Nat) (l : ErrLog) : (p.setErrLog d l).fresh = p.fresh := rfl
@[simp] theorem Package.setErrLog_beat (p : Package) (d : Nat) (l : ErrLog) : (p.setErrLog d l).beat = p.beat := rfl
@[simp] theorem Package.setErrLog_txn (p : Package) (d : Nat) (l : ErrLog) : (p.setErrLog d l).txn = p.txn := rfl
@[simp] theorem Package.setErrLog_evq (p : Package) (d : Nat) (l : ErrLog) : (p.setErrLog d l).evq = p.evq := rfl
@[simp] theorem Package.setErrLog_stages (p : Package) (d : Nat) (l : ErrLog) : (p.setErrLog d l).stages = p.stages := rfl
@[simp] theorem Package.setErrLog_groups (p : Package) (d : Nat) (l : ErrLog) : (p.setErrLog d l).groups = p.groups := rfl
@[simp] theorem Package.setErrLog_lnk (p : Package) (d : Nat) (l : ErrLog) : (p.setErrLog d l).lnk = p.lnk := rfl
@[simp] theorem Package.setErrLog_bridge (p : Package) (d : Nat) (l : ErrLog) : (p.setErrLog d l).bridge = p.bridge := rfl
@[simp] theorem Package.setErrLog_inFlight (p : Package) (d : Nat) (l : ErrLog) : (p.setErrLog d l).inFlight = p.inFlight := rfl
@[simp] theorem Package.setErrLog_forwards (p : Package) (d : Nat) (l : ErrLog) : (p.setErrLog d l).forwards = p.forwards := rfl
@[simp] theorem Package.setErrLog_posCount (p : Package) (d : Nat) (l : ErrLog) : (p.setErrLog d l).posCount = p.posCount := rfl
@[simp] theorem Package.setErrLog_snapPause (p : Package) (d : Nat) (l : ErrLog) : (p.setErrLog d l).snapPause = p.snapPause := rfl
@[simp] theorem Package.setErrLog_thermalDies (p : Package) (d : Nat) (l : ErrLog) : (p.setErrLog d l).thermalDies = p.thermalDies := rfl
@[simp] theorem Package.setErrLog_powerDies (p : Package) (d : Nat) (l : ErrLog) : (p.setErrLog d l).powerDies = p.powerDies := rfl
@[simp] theorem Package.setErrLog_cores (p : Package) (d : Nat) (l : ErrLog) : (p.setErrLog d l).cores = p.cores := rfl
@[simp] theorem Package.setErrLog_clus (p : Package) (d : Nat) (l : ErrLog) : (p.setErrLog d l).clus = p.clus := rfl
@[simp] theorem Package.setErrLog_num (p : Package) (d : Nat) (l : ErrLog) : (p.setErrLog d l).num = p.num := rfl
@[simp] theorem Package.setErrLog_moe (p : Package) (d : Nat) (l : ErrLog) : (p.setErrLog d l).moe = p.moe := rfl
@[simp] theorem Package.setErrLog_pours (p : Package) (d : Nat) (l : ErrLog) : (p.setErrLog d l).pours = p.pours := rfl
@[simp] theorem Package.setErrLog_gathers (p : Package) (d : Nat) (l : ErrLog) : (p.setErrLog d l).gathers = p.gathers := rfl
@[simp] theorem Package.setErrLog_heldFetches (p : Package) (d : Nat) (l : ErrLog) : (p.setErrLog d l).heldFetches = p.heldFetches := rfl
@[simp] theorem Package.setErrLog_aclk (p : Package) (d : Nat) (l : ErrLog) : (p.setErrLog d l).aclk = p.aclk := rfl
@[simp] theorem Package.setErrLog_cru (p : Package) (d : Nat) (l : ErrLog) : (p.setErrLog d l).cru = p.cru := rfl
@[simp] theorem Package.setErrLog_folds (p : Package) (d : Nat) (l : ErrLog) : (p.setErrLog d l).folds = p.folds := rfl
@[simp] theorem Package.setErrLog_folded (p : Package) (d : Nat) (l : ErrLog) : (p.setErrLog d l).folded = p.folded := rfl
@[simp] theorem Package.setErrLog_engSince (p : Package) (d : Nat) (l : ErrLog) : (p.setErrLog d l).engSince = p.engSince := rfl
@[simp] theorem Package.setErrLog_runs (p : Package) (d : Nat) (l : ErrLog) : (p.setErrLog d l).runs = p.runs := rfl
@[simp] theorem Package.setErrLog_rings (p : Package) (d : Nat) (l : ErrLog) : (p.setErrLog d l).rings = p.rings := rfl
@[simp] theorem Package.setErrLog_bists (p : Package) (d : Nat) (l : ErrLog) : (p.setErrLog d l).bists = p.bists := rfl
@[simp] theorem Package.setErrLog_rewind (p : Package) (d : Nat) (l : ErrLog) : (p.setErrLog d l).rewind = p.rewind := rfl
@[simp] theorem Package.setErrLog_snap (p : Package) (d : Nat) (l : ErrLog) : (p.setErrLog d l).snap = p.snap := rfl
@[simp] theorem Package.setErrLog_fab (p : Package) (d : Nat) (l : ErrLog) : (p.setErrLog d l).fab = p.fab := rfl
@[simp] theorem Package.setErrLog_gate (p : Package) (d : Nat) (l : ErrLog) : (p.setErrLog d l).gate = p.gate := rfl
@[simp] theorem Package.setErrLog_pwr (p : Package) (d : Nat) (l : ErrLog) : (p.setErrLog d l).pwr = p.pwr := rfl
@[simp] theorem Package.setErrLog_sec (p : Package) (d : Nat) (l : ErrLog) : (p.setErrLog d l).sec = p.sec := rfl
@[simp] theorem Package.setErrLog_tap (p : Package) (d : Nat) (l : ErrLog) : (p.setErrLog d l).tap = p.tap := rfl
@[simp] theorem Package.setErrLog_mctp (p : Package) (d : Nat) (l : ErrLog) : (p.setErrLog d l).mctp = p.mctp := rfl
@[simp] theorem Package.setErrLog_cluAcct (p : Package) (d : Nat) (l : ErrLog) : (p.setErrLog d l).cluAcct = p.cluAcct := rfl
@[simp] theorem Package.setErrLog_telBase (p : Package) (d : Nat) (l : ErrLog) : (p.setErrLog d l).telBase = p.telBase := rfl
@[simp] theorem Package.setErrLog_rd (p : Package) (d : Nat) (l : ErrLog) (r : Nat) : (p.setErrLog d l).rd r = p.rd r := rfl
@[simp] theorem Package.setErrLog_get (p : Package) (d : Nat) (l : ErrLog) (g : Fld) : (p.setErrLog d l).get g = p.get g := rfl
@[simp] theorem Package.setErrLog_has (p : Package) (d : Nat) (l : ErrLog) (g : Fld) : (p.setErrLog d l).has g = p.has g := rfl
@[simp] theorem Package.setStg_variant (p : Package) (i : Nat) (x : Stage) : (p.setStg i x).variant = p.variant := rfl
@[simp] theorem Package.setStg_serial (p : Package) (i : Nat) (x : Stage) : (p.setStg i x).serial = p.serial := rfl
@[simp] theorem Package.setStg_regs (p : Package) (i : Nat) (x : Stage) : (p.setStg i x).regs = p.regs := rfl
@[simp] theorem Package.setStg_clock (p : Package) (i : Nat) (x : Stage) : (p.setStg i x).clock = p.clock := rfl
@[simp] theorem Package.setStg_dofs (p : Package) (i : Nat) (x : Stage) : (p.setStg i x).dofs = p.dofs := rfl
@[simp] theorem Package.setStg_mem (p : Package) (i : Nat) (x : Stage) : (p.setStg i x).mem = p.mem := rfl
@[simp] theorem Package.setStg_poison (p : Package) (i : Nat) (x : Stage) : (p.setStg i x).poison = p.poison := rfl
@[simp] theorem Package.setStg_fresh (p : Package) (i : Nat) (x : Stage) : (p.setStg i x).fresh = p.fresh := rfl
@[simp] theorem Package.setStg_beat (p : Package) (i : Nat) (x : Stage) : (p.setStg i x).beat = p.beat := rfl
@[simp] theorem Package.setStg_txn (p : Package) (i : Nat) (x : Stage) : (p.setStg i x).txn = p.txn := rfl
@[simp] theorem Package.setStg_evq (p : Package) (i : Nat) (x : Stage) : (p.setStg i x).evq = p.evq := rfl
@[simp] theorem Package.setStg_groups (p : Package) (i : Nat) (x : Stage) : (p.setStg i x).groups = p.groups := rfl
@[simp] theorem Package.setStg_lnk (p : Package) (i : Nat) (x : Stage) : (p.setStg i x).lnk = p.lnk := rfl
@[simp] theorem Package.setStg_bridge (p : Package) (i : Nat) (x : Stage) : (p.setStg i x).bridge = p.bridge := rfl
@[simp] theorem Package.setStg_inFlight (p : Package) (i : Nat) (x : Stage) : (p.setStg i x).inFlight = p.inFlight := rfl
@[simp] theorem Package.setStg_errLogs (p : Package) (i : Nat) (x : Stage) : (p.setStg i x).errLogs = p.errLogs := rfl
@[simp] theorem Package.setStg_forwards (p : Package) (i : Nat) (x : Stage) : (p.setStg i x).forwards = p.forwards := rfl
@[simp] theorem Package.setStg_posCount (p : Package) (i : Nat) (x : Stage) : (p.setStg i x).posCount = p.posCount := rfl
@[simp] theorem Package.setStg_snapPause (p : Package) (i : Nat) (x : Stage) : (p.setStg i x).snapPause = p.snapPause := rfl
@[simp] theorem Package.setStg_thermalDies (p : Package) (i : Nat) (x : Stage) : (p.setStg i x).thermalDies = p.thermalDies := rfl
@[simp] theorem Package.setStg_powerDies (p : Package) (i : Nat) (x : Stage) : (p.setStg i x).powerDies = p.powerDies := rfl
@[simp] theorem Package.setStg_cores (p : Package) (i : Nat) (x : Stage) : (p.setStg i x).cores = p.cores := rfl
@[simp] theorem Package.setStg_clus (p : Package) (i : Nat) (x : Stage) : (p.setStg i x).clus = p.clus := rfl
@[simp] theorem Package.setStg_num (p : Package) (i : Nat) (x : Stage) : (p.setStg i x).num = p.num := rfl
@[simp] theorem Package.setStg_moe (p : Package) (i : Nat) (x : Stage) : (p.setStg i x).moe = p.moe := rfl
@[simp] theorem Package.setStg_pours (p : Package) (i : Nat) (x : Stage) : (p.setStg i x).pours = p.pours := rfl
@[simp] theorem Package.setStg_gathers (p : Package) (i : Nat) (x : Stage) : (p.setStg i x).gathers = p.gathers := rfl
@[simp] theorem Package.setStg_heldFetches (p : Package) (i : Nat) (x : Stage) : (p.setStg i x).heldFetches = p.heldFetches := rfl
@[simp] theorem Package.setStg_aclk (p : Package) (i : Nat) (x : Stage) : (p.setStg i x).aclk = p.aclk := rfl
@[simp] theorem Package.setStg_cru (p : Package) (i : Nat) (x : Stage) : (p.setStg i x).cru = p.cru := rfl
@[simp] theorem Package.setStg_folds (p : Package) (i : Nat) (x : Stage) : (p.setStg i x).folds = p.folds := rfl
@[simp] theorem Package.setStg_folded (p : Package) (i : Nat) (x : Stage) : (p.setStg i x).folded = p.folded := rfl
@[simp] theorem Package.setStg_engSince (p : Package) (i : Nat) (x : Stage) : (p.setStg i x).engSince = p.engSince := rfl
@[simp] theorem Package.setStg_runs (p : Package) (i : Nat) (x : Stage) : (p.setStg i x).runs = p.runs := rfl
@[simp] theorem Package.setStg_rings (p : Package) (i : Nat) (x : Stage) : (p.setStg i x).rings = p.rings := rfl
@[simp] theorem Package.setStg_bists (p : Package) (i : Nat) (x : Stage) : (p.setStg i x).bists = p.bists := rfl
@[simp] theorem Package.setStg_rewind (p : Package) (i : Nat) (x : Stage) : (p.setStg i x).rewind = p.rewind := rfl
@[simp] theorem Package.setStg_snap (p : Package) (i : Nat) (x : Stage) : (p.setStg i x).snap = p.snap := rfl
@[simp] theorem Package.setStg_fab (p : Package) (i : Nat) (x : Stage) : (p.setStg i x).fab = p.fab := rfl
@[simp] theorem Package.setStg_gate (p : Package) (i : Nat) (x : Stage) : (p.setStg i x).gate = p.gate := rfl
@[simp] theorem Package.setStg_pwr (p : Package) (i : Nat) (x : Stage) : (p.setStg i x).pwr = p.pwr := rfl
@[simp] theorem Package.setStg_sec (p : Package) (i : Nat) (x : Stage) : (p.setStg i x).sec = p.sec := rfl
@[simp] theorem Package.setStg_tap (p : Package) (i : Nat) (x : Stage) : (p.setStg i x).tap = p.tap := rfl
@[simp] theorem Package.setStg_mctp (p : Package) (i : Nat) (x : Stage) : (p.setStg i x).mctp = p.mctp := rfl
@[simp] theorem Package.setStg_cluAcct (p : Package) (i : Nat) (x : Stage) : (p.setStg i x).cluAcct = p.cluAcct := rfl
@[simp] theorem Package.setStg_telBase (p : Package) (i : Nat) (x : Stage) : (p.setStg i x).telBase = p.telBase := rfl
@[simp] theorem Package.setStg_rd (p : Package) (i : Nat) (x : Stage) (r : Nat) : (p.setStg i x).rd r = p.rd r := rfl
@[simp] theorem Package.setStg_get (p : Package) (i : Nat) (x : Stage) (g : Fld) : (p.setStg i x).get g = p.get g := rfl
@[simp] theorem Package.setStg_has (p : Package) (i : Nat) (x : Stage) (g : Fld) : (p.setStg i x).has g = p.has g := rfl
@[simp] theorem Package.setGrp_variant (p : Package) (i : Nat) (x : Group) : (p.setGrp i x).variant = p.variant := rfl
@[simp] theorem Package.setGrp_serial (p : Package) (i : Nat) (x : Group) : (p.setGrp i x).serial = p.serial := rfl
@[simp] theorem Package.setGrp_regs (p : Package) (i : Nat) (x : Group) : (p.setGrp i x).regs = p.regs := rfl
@[simp] theorem Package.setGrp_clock (p : Package) (i : Nat) (x : Group) : (p.setGrp i x).clock = p.clock := rfl
@[simp] theorem Package.setGrp_dofs (p : Package) (i : Nat) (x : Group) : (p.setGrp i x).dofs = p.dofs := rfl
@[simp] theorem Package.setGrp_mem (p : Package) (i : Nat) (x : Group) : (p.setGrp i x).mem = p.mem := rfl
@[simp] theorem Package.setGrp_poison (p : Package) (i : Nat) (x : Group) : (p.setGrp i x).poison = p.poison := rfl
@[simp] theorem Package.setGrp_fresh (p : Package) (i : Nat) (x : Group) : (p.setGrp i x).fresh = p.fresh := rfl
@[simp] theorem Package.setGrp_beat (p : Package) (i : Nat) (x : Group) : (p.setGrp i x).beat = p.beat := rfl
@[simp] theorem Package.setGrp_txn (p : Package) (i : Nat) (x : Group) : (p.setGrp i x).txn = p.txn := rfl
@[simp] theorem Package.setGrp_evq (p : Package) (i : Nat) (x : Group) : (p.setGrp i x).evq = p.evq := rfl
@[simp] theorem Package.setGrp_stages (p : Package) (i : Nat) (x : Group) : (p.setGrp i x).stages = p.stages := rfl
@[simp] theorem Package.setGrp_lnk (p : Package) (i : Nat) (x : Group) : (p.setGrp i x).lnk = p.lnk := rfl
@[simp] theorem Package.setGrp_bridge (p : Package) (i : Nat) (x : Group) : (p.setGrp i x).bridge = p.bridge := rfl
@[simp] theorem Package.setGrp_inFlight (p : Package) (i : Nat) (x : Group) : (p.setGrp i x).inFlight = p.inFlight := rfl
@[simp] theorem Package.setGrp_errLogs (p : Package) (i : Nat) (x : Group) : (p.setGrp i x).errLogs = p.errLogs := rfl
@[simp] theorem Package.setGrp_forwards (p : Package) (i : Nat) (x : Group) : (p.setGrp i x).forwards = p.forwards := rfl
@[simp] theorem Package.setGrp_posCount (p : Package) (i : Nat) (x : Group) : (p.setGrp i x).posCount = p.posCount := rfl
@[simp] theorem Package.setGrp_snapPause (p : Package) (i : Nat) (x : Group) : (p.setGrp i x).snapPause = p.snapPause := rfl
@[simp] theorem Package.setGrp_thermalDies (p : Package) (i : Nat) (x : Group) : (p.setGrp i x).thermalDies = p.thermalDies := rfl
@[simp] theorem Package.setGrp_powerDies (p : Package) (i : Nat) (x : Group) : (p.setGrp i x).powerDies = p.powerDies := rfl
@[simp] theorem Package.setGrp_cores (p : Package) (i : Nat) (x : Group) : (p.setGrp i x).cores = p.cores := rfl
@[simp] theorem Package.setGrp_clus (p : Package) (i : Nat) (x : Group) : (p.setGrp i x).clus = p.clus := rfl
@[simp] theorem Package.setGrp_num (p : Package) (i : Nat) (x : Group) : (p.setGrp i x).num = p.num := rfl
@[simp] theorem Package.setGrp_moe (p : Package) (i : Nat) (x : Group) : (p.setGrp i x).moe = p.moe := rfl
@[simp] theorem Package.setGrp_pours (p : Package) (i : Nat) (x : Group) : (p.setGrp i x).pours = p.pours := rfl
@[simp] theorem Package.setGrp_gathers (p : Package) (i : Nat) (x : Group) : (p.setGrp i x).gathers = p.gathers := rfl
@[simp] theorem Package.setGrp_heldFetches (p : Package) (i : Nat) (x : Group) : (p.setGrp i x).heldFetches = p.heldFetches := rfl
@[simp] theorem Package.setGrp_aclk (p : Package) (i : Nat) (x : Group) : (p.setGrp i x).aclk = p.aclk := rfl
@[simp] theorem Package.setGrp_cru (p : Package) (i : Nat) (x : Group) : (p.setGrp i x).cru = p.cru := rfl
@[simp] theorem Package.setGrp_folds (p : Package) (i : Nat) (x : Group) : (p.setGrp i x).folds = p.folds := rfl
@[simp] theorem Package.setGrp_folded (p : Package) (i : Nat) (x : Group) : (p.setGrp i x).folded = p.folded := rfl
@[simp] theorem Package.setGrp_engSince (p : Package) (i : Nat) (x : Group) : (p.setGrp i x).engSince = p.engSince := rfl
@[simp] theorem Package.setGrp_runs (p : Package) (i : Nat) (x : Group) : (p.setGrp i x).runs = p.runs := rfl
@[simp] theorem Package.setGrp_rings (p : Package) (i : Nat) (x : Group) : (p.setGrp i x).rings = p.rings := rfl
@[simp] theorem Package.setGrp_bists (p : Package) (i : Nat) (x : Group) : (p.setGrp i x).bists = p.bists := rfl
@[simp] theorem Package.setGrp_rewind (p : Package) (i : Nat) (x : Group) : (p.setGrp i x).rewind = p.rewind := rfl
@[simp] theorem Package.setGrp_snap (p : Package) (i : Nat) (x : Group) : (p.setGrp i x).snap = p.snap := rfl
@[simp] theorem Package.setGrp_fab (p : Package) (i : Nat) (x : Group) : (p.setGrp i x).fab = p.fab := rfl
@[simp] theorem Package.setGrp_gate (p : Package) (i : Nat) (x : Group) : (p.setGrp i x).gate = p.gate := rfl
@[simp] theorem Package.setGrp_pwr (p : Package) (i : Nat) (x : Group) : (p.setGrp i x).pwr = p.pwr := rfl
@[simp] theorem Package.setGrp_sec (p : Package) (i : Nat) (x : Group) : (p.setGrp i x).sec = p.sec := rfl
@[simp] theorem Package.setGrp_tap (p : Package) (i : Nat) (x : Group) : (p.setGrp i x).tap = p.tap := rfl
@[simp] theorem Package.setGrp_mctp (p : Package) (i : Nat) (x : Group) : (p.setGrp i x).mctp = p.mctp := rfl
@[simp] theorem Package.setGrp_cluAcct (p : Package) (i : Nat) (x : Group) : (p.setGrp i x).cluAcct = p.cluAcct := rfl
@[simp] theorem Package.setGrp_telBase (p : Package) (i : Nat) (x : Group) : (p.setGrp i x).telBase = p.telBase := rfl
@[simp] theorem Package.setGrp_rd (p : Package) (i : Nat) (x : Group) (r : Nat) : (p.setGrp i x).rd r = p.rd r := rfl
@[simp] theorem Package.setGrp_get (p : Package) (i : Nat) (x : Group) (g : Fld) : (p.setGrp i x).get g = p.get g := rfl
@[simp] theorem Package.setGrp_has (p : Package) (i : Nat) (x : Group) (g : Fld) : (p.setGrp i x).has g = p.has g := rfl
@[simp] theorem Package.setPort_variant (p : Package) (i : Nat) (x : Link) : (p.setPort i x).variant = p.variant := rfl
@[simp] theorem Package.setPort_serial (p : Package) (i : Nat) (x : Link) : (p.setPort i x).serial = p.serial := rfl
@[simp] theorem Package.setPort_regs (p : Package) (i : Nat) (x : Link) : (p.setPort i x).regs = p.regs := rfl
@[simp] theorem Package.setPort_clock (p : Package) (i : Nat) (x : Link) : (p.setPort i x).clock = p.clock := rfl
@[simp] theorem Package.setPort_dofs (p : Package) (i : Nat) (x : Link) : (p.setPort i x).dofs = p.dofs := rfl
@[simp] theorem Package.setPort_mem (p : Package) (i : Nat) (x : Link) : (p.setPort i x).mem = p.mem := rfl
@[simp] theorem Package.setPort_poison (p : Package) (i : Nat) (x : Link) : (p.setPort i x).poison = p.poison := rfl
@[simp] theorem Package.setPort_fresh (p : Package) (i : Nat) (x : Link) : (p.setPort i x).fresh = p.fresh := rfl
@[simp] theorem Package.setPort_beat (p : Package) (i : Nat) (x : Link) : (p.setPort i x).beat = p.beat := rfl
@[simp] theorem Package.setPort_txn (p : Package) (i : Nat) (x : Link) : (p.setPort i x).txn = p.txn := rfl
@[simp] theorem Package.setPort_evq (p : Package) (i : Nat) (x : Link) : (p.setPort i x).evq = p.evq := rfl
@[simp] theorem Package.setPort_stages (p : Package) (i : Nat) (x : Link) : (p.setPort i x).stages = p.stages := rfl
@[simp] theorem Package.setPort_groups (p : Package) (i : Nat) (x : Link) : (p.setPort i x).groups = p.groups := rfl
@[simp] theorem Package.setPort_bridge (p : Package) (i : Nat) (x : Link) : (p.setPort i x).bridge = p.bridge := rfl
@[simp] theorem Package.setPort_inFlight (p : Package) (i : Nat) (x : Link) : (p.setPort i x).inFlight = p.inFlight := rfl
@[simp] theorem Package.setPort_errLogs (p : Package) (i : Nat) (x : Link) : (p.setPort i x).errLogs = p.errLogs := rfl
@[simp] theorem Package.setPort_forwards (p : Package) (i : Nat) (x : Link) : (p.setPort i x).forwards = p.forwards := rfl
@[simp] theorem Package.setPort_posCount (p : Package) (i : Nat) (x : Link) : (p.setPort i x).posCount = p.posCount := rfl
@[simp] theorem Package.setPort_snapPause (p : Package) (i : Nat) (x : Link) : (p.setPort i x).snapPause = p.snapPause := rfl
@[simp] theorem Package.setPort_thermalDies (p : Package) (i : Nat) (x : Link) : (p.setPort i x).thermalDies = p.thermalDies := rfl
@[simp] theorem Package.setPort_powerDies (p : Package) (i : Nat) (x : Link) : (p.setPort i x).powerDies = p.powerDies := rfl
@[simp] theorem Package.setPort_cores (p : Package) (i : Nat) (x : Link) : (p.setPort i x).cores = p.cores := rfl
@[simp] theorem Package.setPort_clus (p : Package) (i : Nat) (x : Link) : (p.setPort i x).clus = p.clus := rfl
@[simp] theorem Package.setPort_num (p : Package) (i : Nat) (x : Link) : (p.setPort i x).num = p.num := rfl
@[simp] theorem Package.setPort_moe (p : Package) (i : Nat) (x : Link) : (p.setPort i x).moe = p.moe := rfl
@[simp] theorem Package.setPort_pours (p : Package) (i : Nat) (x : Link) : (p.setPort i x).pours = p.pours := rfl
@[simp] theorem Package.setPort_gathers (p : Package) (i : Nat) (x : Link) : (p.setPort i x).gathers = p.gathers := rfl
@[simp] theorem Package.setPort_heldFetches (p : Package) (i : Nat) (x : Link) : (p.setPort i x).heldFetches = p.heldFetches := rfl
@[simp] theorem Package.setPort_aclk (p : Package) (i : Nat) (x : Link) : (p.setPort i x).aclk = p.aclk := rfl
@[simp] theorem Package.setPort_cru (p : Package) (i : Nat) (x : Link) : (p.setPort i x).cru = p.cru := rfl
@[simp] theorem Package.setPort_folds (p : Package) (i : Nat) (x : Link) : (p.setPort i x).folds = p.folds := rfl
@[simp] theorem Package.setPort_folded (p : Package) (i : Nat) (x : Link) : (p.setPort i x).folded = p.folded := rfl
@[simp] theorem Package.setPort_engSince (p : Package) (i : Nat) (x : Link) : (p.setPort i x).engSince = p.engSince := rfl
@[simp] theorem Package.setPort_runs (p : Package) (i : Nat) (x : Link) : (p.setPort i x).runs = p.runs := rfl
@[simp] theorem Package.setPort_rings (p : Package) (i : Nat) (x : Link) : (p.setPort i x).rings = p.rings := rfl
@[simp] theorem Package.setPort_bists (p : Package) (i : Nat) (x : Link) : (p.setPort i x).bists = p.bists := rfl
@[simp] theorem Package.setPort_rewind (p : Package) (i : Nat) (x : Link) : (p.setPort i x).rewind = p.rewind := rfl
@[simp] theorem Package.setPort_snap (p : Package) (i : Nat) (x : Link) : (p.setPort i x).snap = p.snap := rfl
@[simp] theorem Package.setPort_fab (p : Package) (i : Nat) (x : Link) : (p.setPort i x).fab = p.fab := rfl
@[simp] theorem Package.setPort_gate (p : Package) (i : Nat) (x : Link) : (p.setPort i x).gate = p.gate := rfl
@[simp] theorem Package.setPort_pwr (p : Package) (i : Nat) (x : Link) : (p.setPort i x).pwr = p.pwr := rfl
@[simp] theorem Package.setPort_sec (p : Package) (i : Nat) (x : Link) : (p.setPort i x).sec = p.sec := rfl
@[simp] theorem Package.setPort_tap (p : Package) (i : Nat) (x : Link) : (p.setPort i x).tap = p.tap := rfl
@[simp] theorem Package.setPort_mctp (p : Package) (i : Nat) (x : Link) : (p.setPort i x).mctp = p.mctp := rfl
@[simp] theorem Package.setPort_cluAcct (p : Package) (i : Nat) (x : Link) : (p.setPort i x).cluAcct = p.cluAcct := rfl
@[simp] theorem Package.setPort_telBase (p : Package) (i : Nat) (x : Link) : (p.setPort i x).telBase = p.telBase := rfl
@[simp] theorem Package.setPort_rd (p : Package) (i : Nat) (x : Link) (r : Nat) : (p.setPort i x).rd r = p.rd r := rfl
@[simp] theorem Package.setPort_get (p : Package) (i : Nat) (x : Link) (g : Fld) : (p.setPort i x).get g = p.get g := rfl
@[simp] theorem Package.setPort_has (p : Package) (i : Nat) (x : Link) (g : Fld) : (p.setPort i x).has g = p.has g := rfl

/-- A stage after it is set. -/
@[simp] theorem Package.stg_setStg (p : Package) (i : Nat) (x : Stage) : (p.setStg i x).stg i = x := mapGet_mapSet_same _ _ _ _
theorem Package.stg_setStg_ne (p : Package) {i j : Nat} (x : Stage) (h : i ≠ j) : (p.setStg i x).stg j = p.stg j := mapGet_mapSet_ne _ _ _ h
/-- A group after it is set. -/
@[simp] theorem Package.grp_setGrp (p : Package) (i : Nat) (x : Group) : (p.setGrp i x).grp i = x := mapGet_mapSet_same _ _ _ _
theorem Package.grp_setGrp_ne (p : Package) {i j : Nat} (x : Group) (h : i ≠ j) : (p.setGrp i x).grp j = p.grp j := mapGet_mapSet_ne _ _ _ h
/-- A port after it is set. -/
@[simp] theorem Package.port_setPort (p : Package) (i : Nat) (x : Link) : (p.setPort i x).port i = x := mapGet_mapSet_same _ _ _ _
theorem Package.port_setPort_ne (p : Package) {i j : Nat} (x : Link) (h : i ≠ j) : (p.setPort i x).port j = p.port j := mapGet_mapSet_ne _ _ _ h
/-- An error log after it is set. -/
@[simp] theorem Package.errLog_setErrLog (p : Package) (i : Nat) (x : ErrLog) : (p.setErrLog i x).errLog i = x := mapGet_mapSet_same _ _ _ _

/-- The fields of the state after a command on the package alone. -/
theorem onPkg_next (f : Package → Package) (s : State) : onPkg f s = .next { s with pkg := f s.pkg } := rfl

end Sys2Proof.Machine
end

