-- ==== Sys2Proof/Laws/Memory.lean ====
section
/-! SUPPORT. Stack memory: every operation keeps the canonical form, and a write leaves every other byte alone. -/

namespace Sys2Proof.Machine

open Sys2Proof

theorem memWf_nil : memWf [] = true := rfl

theorem memWf_memPut {m : List Host.Cell} (x : Nat) (v : Byte) (h : memWf m = true) : memWf (memPut m x v) = true :=
  mapWf_mapSet x v h

@[simp] theorem memByte_memPut_same (m : List Host.Cell) (x : Nat) (v : Byte) : memByte (memPut m x v) x = v := mapGet_mapSet_same _ _ _ _

theorem memByte_memPut_ne (m : List Host.Cell) {x y : Nat} (v : Byte) (h : x ≠ y) : memByte (memPut m x v) y = memByte m y :=
  mapGet_mapSet_ne _ _ _ h

theorem memWf_storeBytes {m : List Host.Cell} (a : Nat) (bs : List Byte) (h : memWf m = true) : memWf (storeBytes m a bs) = true := by
  induction bs generalizing m a with
  | nil => exact h
  | cons b r ih =>
    unfold storeBytes
    split
    · exact ih _ (memWf_memPut _ _ h)
    · exact ih _ h

/-- A byte that no address of the write names is unchanged. -/
theorem memByte_storeBytes_other {m : List Host.Cell} (a : Nat) (bs : List Byte) (y : Nat)
    (h : ∀ i, i < bs.length → physOf (a + i) ≠ some y) : memByte (storeBytes m a bs) y = memByte m y := by
  induction bs generalizing m a with
  | nil => rfl
  | cons b r ih =>
    have hr : ∀ i, i < r.length → physOf (a + 1 + i) ≠ some y := fun i hi => by
      have := h (i + 1) (by simpa using hi)
      rwa [Nat.add_right_comm, Nat.add_assoc]
    unfold storeBytes
    split
    · next x hx =>
      have hy : x ≠ y := fun e => h 0 (by simp) (by simpa [e] using hx)
      rw [ih _ hr, memByte_memPut_ne _ _ hy]
    · exact ih _ hr

theorem Package.each_keeps {α : Type} (P : Package → Prop) (f : Package → α → Package) (hf : ∀ p e, P p → P (f p e)) (p : Package) (l : List α)
    (h : P p) : P (p.each l f) := by
  unfold Package.each
  induction l generalizing p with
  | nil => exact h
  | cons e r ih => exact ih _ (hf _ _ h)

@[simp] theorem Package.countBytes_mem (p : Package) (reg : Nat → Nat) (a n : Nat) : (p.countBytes reg a n).mem = p.mem :=
  Package.each_keeps (fun q => q.mem = p.mem) (fun q (e : Nat × Nat) => q.bump64 (reg e.1) e.2) (fun _ _ h => h) p _ rfl

@[simp] theorem Package.store_mem (p : Package) (a : Nat) (bs : List Byte) : (p.store a bs).mem = storeBytes p.mem a bs := by
  simp [Package.store]

/-- A store keeps memory canonical. -/
theorem Package.memWf_store (p : Package) (a : Nat) (bs : List Byte) (h : memWf p.mem = true) : memWf (p.store a bs).mem = true := by
  rw [Package.store_mem]; exact memWf_storeBytes a bs h

theorem Package.memWf_tryStore (p : Package) (a : Nat) (bs : List Byte) (h : memWf p.mem = true) : memWf (p.tryStore a bs).mem = true := by
  unfold Package.tryStore
  split
  · exact p.memWf_store a bs h
  · exact h

/-- Bytes and the number they spell (R5). -/
theorem leBytes_length (n v : Nat) : (leBytes n v).length = n := by
  induction n generalizing v with
  | zero => rfl
  | succ n ih => simp [leBytes, ih]

theorem leNat_leBytes (n v : Nat) : leNat (leBytes n v) = v % 256 ^ n := by
  induction n generalizing v with
  | zero => simp [leBytes, leNat, Nat.mod_one]
  | succ n ih =>
    have h : v % 256 ^ (n + 1) = v % 256 + 256 * (v / 256 % 256 ^ n) := by rw [Nat.pow_succ, Nat.mul_comm (256 ^ n) 256, Nat.mod_mul]
    have hb : (BitVec.ofNat 8 v).toNat = v % 256 := by rw [BitVec.toNat_ofNat]
    rw [leBytes, leNat, ih, hb, h]

end Sys2Proof.Machine
end

