-- ==== Sys2Proof/Laws/Events.lean ====
section
/-! SUPPORT. Raising an event (R343, R369) and reporting a fault (R377, R393): which registers they write, and that they leave everything
else of the package. -/

namespace Sys2Proof.Machine

open Sys2Proof

/-- The registers that the event queue shows. -/
def evtRegs : List Nat := [PKG_EVT_SEQ, PKG_EVT_STATUS, PKG_EVT_LOST]

theorem Package.evtStatus_rd (p : Package) {a : Nat} (h : a ≠ PKG_EVT_STATUS) : p.evtStatus.rd a = p.rd a := by
  unfold Package.evtStatus
  rw [Package.rd_put_ne _ _ _ (by simpa [PKG_EVT_STATUS_HELD] using h.symm), Package.rd_put_ne _ _ _ (by simpa [PKG_EVT_STATUS_QUEUED] using h.symm)]

/-- A record changes no register but those of the event queue. -/
theorem Package.record_rd (p : Package) (g : Page) (ev : Nat) (f : Bool) (a0 a1 : Nat) {a : Nat} (h : a ∉ evtRegs) :
    (p.record g ev f a0 a1).rd a = p.rd a := by
  simp only [evtRegs, List.mem_cons, List.not_mem_nil, or_false, not_or] at h
  unfold Package.record
  split
  · rfl
  · dsimp only
    split
    · rw [Package.evtStatus_rd _ h.2.1]
      exact Package.rd_wr_ne _ _ (Ne.symm h.1)
    · rw [Package.rd_bump64_ne _ _ (Ne.symm h.2.2)]
      exact Package.rd_wr_ne _ _ (Ne.symm h.1)

theorem Package.event_rd (p : Package) (g : Page) (ev : Nat) (f : Bool) (a0 a1 : Nat) {a : Nat} (h : a ∉ evtRegs) (hg : a ≠ IRQ_STATUS g) :
    (p.event g ev f a0 a1).rd a = p.rd a := by
  have e : (p.setBit (IRQ_STATUS g) ev true).rd a = p.rd a := Package.rd_put_ne _ _ _ (by simpa using hg.symm)
  unfold Package.event
  dsimp only
  split
  · rw [Package.record_rd _ _ _ _ _ _ h, e]
  · exact e

/-- An event changes no register but the page's status and those of the event queue. -/
theorem Package.raise_rd (p : Package) (g : Page) (ev a0 a1 : Nat) {a : Nat} (h : a ∉ evtRegs) (hg : a ≠ IRQ_STATUS g) :
    (p.raise g ev a0 a1).rd a = p.rd a := p.event_rd g ev false a0 a1 h hg

theorem Package.raise_get (p : Package) (g : Page) (ev a0 a1 : Nat) {f : Fld} (h : f.addr ∉ evtRegs) (hg : f.addr ≠ IRQ_STATUS g) :
    (p.raise g ev a0 a1).get f = p.get f := by unfold Package.get; rw [Package.raise_rd _ _ _ _ _ h hg]

theorem Package.raise_has (p : Package) (g : Page) (ev a0 a1 : Nat) {f : Fld} (h : f.addr ∉ evtRegs) (hg : f.addr ≠ IRQ_STATUS g) :
    (p.raise g ev a0 a1).has f = p.has f := by unfold Package.has; rw [Package.raise_get _ _ _ _ _ h hg]

/-- Every page starts at a multiple of 4 KiB, so no page's status is a register of the event queue. -/
theorem Page.base_mod (g : Page) : g.base % 4096 = 0 := by
  cases g <;> simp only [Page.base, pageDIE, pageXE, pageACC, pageCLU, pageERR, pageD] <;> (try split) <;> omega

theorem irqStatus_not_evt (g : Page) : IRQ_STATUS g ∉ evtRegs := by
  have := g.base_mod
  simp only [evtRegs, List.mem_cons, List.not_mem_nil, or_false, not_or, IRQ_STATUS, PKG_EVT_SEQ, PKG_EVT_STATUS, PKG_EVT_LOST]
  omega

/-- An event that is raised shows in its page's `IRQ_STATUS`. -/
theorem Package.raise_status (p : Package) (g : Page) (ev a0 a1 : Nat) (h : ev < 64) :
    bitAt ((p.raise g ev a0 a1).rd (IRQ_STATUS g)) ev = true := by
  have e : bitAt ((p.setBit (IRQ_STATUS g) ev true).rd (IRQ_STATUS g)) ev = true := by
    unfold Package.setBit Package.put
    rw [Package.rd_wr_same]
    have hb : ev ≤ ev ∧ ev < ev + 1 := by omega
    simp only [bitAt, Nat.testBit_mod_two_pow, h, putBits_testBit, b2n, hb, decide_true, Bool.true_and, if_true, Nat.sub_self]
    simp
  unfold Package.raise Package.event
  dsimp only
  split
  · rw [Package.record_rd _ _ _ _ _ _ (irqStatus_not_evt g)]; exact e
  · exact e

/-- A package with other registers and another event queue. -/
def Package.withEvents (p : Package) (r : List (Nat × Word)) (q : EventQueue) : Package := { p with regs := r, evq := q }

/-- Everything but registers and the event queue is the same. -/
def Package.EventsOnly (p q : Package) : Prop := ∃ r e, q = p.withEvents r e

theorem Package.EventsOnly.trans {p q r : Package} (h : p.EventsOnly q) (k : q.EventsOnly r) : p.EventsOnly r := by
  obtain ⟨a, b, rfl⟩ := h
  obtain ⟨c, d, rfl⟩ := k
  exact ⟨c, d, rfl⟩

theorem Package.eventsOnly_wr (p : Package) (a v : Nat) : p.EventsOnly (p.wr a v) := ⟨(p.wr a v).regs, p.evq, rfl⟩
theorem Package.eventsOnly_evq (p : Package) (q : EventQueue) : p.EventsOnly { p with evq := q } := ⟨p.regs, q, rfl⟩
theorem Package.eventsOnly_evtStatus (p : Package) : p.EventsOnly p.evtStatus := (p.eventsOnly_wr _ _).trans (Package.eventsOnly_wr _ _ _)

theorem Package.record_shape (p : Package) (g : Page) (ev : Nat) (f : Bool) (a0 a1 : Nat) : p.EventsOnly (p.record g ev f a0 a1) := by
  unfold Package.record
  split
  · exact p.eventsOnly_evq _
  · dsimp only
    split
    · exact ((p.eventsOnly_wr _ _).trans (Package.eventsOnly_evq _ _)).trans (Package.eventsOnly_evtStatus _)
    · exact ((p.eventsOnly_wr _ _).trans (Package.eventsOnly_evq _ _)).trans (Package.eventsOnly_wr _ _ _)

theorem Package.event_shape (p : Package) (g : Page) (ev : Nat) (f : Bool) (a0 a1 : Nat) : p.EventsOnly (p.event g ev f a0 a1) := by
  unfold Package.event
  dsimp only
  split
  · exact (p.eventsOnly_wr _ _).trans (Package.record_shape _ _ _ _ _ _)
  · exact p.eventsOnly_wr _ _

/-- An event changes only registers and the event queue. -/
theorem Package.raise_shape (p : Package) (g : Page) (ev a0 a1 : Nat) : ∃ r q, p.raise g ev a0 a1 = p.withEvents r q :=
  p.event_shape g ev false a0 a1

@[simp] theorem Package.raise_variant (p : Package) (g : Page) (ev a0 a1 : Nat) : (p.raise g ev a0 a1).variant = p.variant := by
  obtain ⟨r, q, h⟩ := p.raise_shape g ev a0 a1; rw [h]; rfl
@[simp] theorem Package.raise_serial (p : Package) (g : Page) (ev a0 a1 : Nat) : (p.raise g ev a0 a1).serial = p.serial := by
  obtain ⟨r, q, h⟩ := p.raise_shape g ev a0 a1; rw [h]; rfl
@[simp] theorem Package.raise_clock (p : Package) (g : Page) (ev a0 a1 : Nat) : (p.raise g ev a0 a1).clock = p.clock := by
  obtain ⟨r, q, h⟩ := p.raise_shape g ev a0 a1; rw [h]; rfl
@[simp] theorem Package.raise_dofs (p : Package) (g : Page) (ev a0 a1 : Nat) : (p.raise g ev a0 a1).dofs = p.dofs := by
  obtain ⟨r, q, h⟩ := p.raise_shape g ev a0 a1; rw [h]; rfl
@[simp] theorem Package.raise_mem (p : Package) (g : Page) (ev a0 a1 : Nat) : (p.raise g ev a0 a1).mem = p.mem := by
  obtain ⟨r, q, h⟩ := p.raise_shape g ev a0 a1; rw [h]; rfl
@[simp] theorem Package.raise_poison (p : Package) (g : Page) (ev a0 a1 : Nat) : (p.raise g ev a0 a1).poison = p.poison := by
  obtain ⟨r, q, h⟩ := p.raise_shape g ev a0 a1; rw [h]; rfl
@[simp] theorem Package.raise_fresh (p : Package) (g : Page) (ev a0 a1 : Nat) : (p.raise g ev a0 a1).fresh = p.fresh := by
  obtain ⟨r, q, h⟩ := p.raise_shape g ev a0 a1; rw [h]; rfl
@[simp] theorem Package.raise_beat (p : Package) (g : Page) (ev a0 a1 : Nat) : (p.raise g ev a0 a1).beat = p.beat := by
  obtain ⟨r, q, h⟩ := p.raise_shape g ev a0 a1; rw [h]; rfl
@[simp] theorem Package.raise_txn (p : Package) (g : Page) (ev a0 a1 : Nat) : (p.raise g ev a0 a1).txn = p.txn := by
  obtain ⟨r, q, h⟩ := p.raise_shape g ev a0 a1; rw [h]; rfl
@[simp] theorem Package.raise_stages (p : Package) (g : Page) (ev a0 a1 : Nat) : (p.raise g ev a0 a1).stages = p.stages := by
  obtain ⟨r, q, h⟩ := p.raise_shape g ev a0 a1; rw [h]; rfl
@[simp] theorem Package.raise_groups (p : Package) (g : Page) (ev a0 a1 : Nat) : (p.raise g ev a0 a1).groups = p.groups := by
  obtain ⟨r, q, h⟩ := p.raise_shape g ev a0 a1; rw [h]; rfl
@[simp] theorem Package.raise_lnk (p : Package) (g : Page) (ev a0 a1 : Nat) : (p.raise g ev a0 a1).lnk = p.lnk := by
  obtain ⟨r, q, h⟩ := p.raise_shape g ev a0 a1; rw [h]; rfl
@[simp] theorem Package.raise_bridge (p : Package) (g : Page) (ev a0 a1 : Nat) : (p.raise g ev a0 a1).bridge = p.bridge := by
  obtain ⟨r, q, h⟩ := p.raise_shape g ev a0 a1; rw [h]; rfl
@[simp] theorem Package.raise_inFlight (p : Package) (g : Page) (ev a0 a1 : Nat) : (p.raise g ev a0 a1).inFlight = p.inFlight := by
  obtain ⟨r, q, h⟩ := p.raise_shape g ev a0 a1; rw [h]; rfl
@[simp] theorem Package.raise_errLogs (p : Package) (g : Page) (ev a0 a1 : Nat) : (p.raise g ev a0 a1).errLogs = p.errLogs := by
  obtain ⟨r, q, h⟩ := p.raise_shape g ev a0 a1; rw [h]; rfl
@[simp] theorem Package.raise_forwards (p : Package) (g : Page) (ev a0 a1 : Nat) : (p.raise g ev a0 a1).forwards = p.forwards := by
  obtain ⟨r, q, h⟩ := p.raise_shape g ev a0 a1; rw [h]; rfl
@[simp] theorem Package.raise_posCount (p : Package) (g : Page) (ev a0 a1 : Nat) : (p.raise g ev a0 a1).posCount = p.posCount := by
  obtain ⟨r, q, h⟩ := p.raise_shape g ev a0 a1; rw [h]; rfl
@[simp] theorem Package.raise_snapPause (p : Package) (g : Page) (ev a0 a1 : Nat) : (p.raise g ev a0 a1).snapPause = p.snapPause := by
  obtain ⟨r, q, h⟩ := p.raise_shape g ev a0 a1; rw [h]; rfl
@[simp] theorem Package.raise_thermalDies (p : Package) (g : Page) (ev a0 a1 : Nat) : (p.raise g ev a0 a1).thermalDies = p.thermalDies := by
  obtain ⟨r, q, h⟩ := p.raise_shape g ev a0 a1; rw [h]; rfl
@[simp] theorem Package.raise_powerDies (p : Package) (g : Page) (ev a0 a1 : Nat) : (p.raise g ev a0 a1).powerDies = p.powerDies := by
  obtain ⟨r, q, h⟩ := p.raise_shape g ev a0 a1; rw [h]; rfl
@[simp] theorem Package.raise_cores (p : Package) (g : Page) (ev a0 a1 : Nat) : (p.raise g ev a0 a1).cores = p.cores := by
  obtain ⟨r, q, h⟩ := p.raise_shape g ev a0 a1; rw [h]; rfl
@[simp] theorem Package.raise_clus (p : Package) (g : Page) (ev a0 a1 : Nat) : (p.raise g ev a0 a1).clus = p.clus := by
  obtain ⟨r, q, h⟩ := p.raise_shape g ev a0 a1; rw [h]; rfl
@[simp] theorem Package.raise_num (p : Package) (g : Page) (ev a0 a1 : Nat) : (p.raise g ev a0 a1).num = p.num := by
  obtain ⟨r, q, h⟩ := p.raise_shape g ev a0 a1; rw [h]; rfl
@[simp] theorem Package.raise_moe (p : Package) (g : Page) (ev a0 a1 : Nat) : (p.raise g ev a0 a1).moe = p.moe := by
  obtain ⟨r, q, h⟩ := p.raise_shape g ev a0 a1; rw [h]; rfl
@[simp] theorem Package.raise_pours (p : Package) (g : Page) (ev a0 a1 : Nat) : (p.raise g ev a0 a1).pours = p.pours := by
  obtain ⟨r, q, h⟩ := p.raise_shape g ev a0 a1; rw [h]; rfl
@[simp] theorem Package.raise_gathers (p : Package) (g : Page) (ev a0 a1 : Nat) : (p.raise g ev a0 a1).gathers = p.gathers := by
  obtain ⟨r, q, h⟩ := p.raise_shape g ev a0 a1; rw [h]; rfl
@[simp] theorem Package.raise_heldFetches (p : Package) (g : Page) (ev a0 a1 : Nat) : (p.raise g ev a0 a1).heldFetches = p.heldFetches := by
  obtain ⟨r, q, h⟩ := p.raise_shape g ev a0 a1; rw [h]; rfl
@[simp] theorem Package.raise_aclk (p : Package) (g : Page) (ev a0 a1 : Nat) : (p.raise g ev a0 a1).aclk = p.aclk := by
  obtain ⟨r, q, h⟩ := p.raise_shape g ev a0 a1; rw [h]; rfl
@[simp] theorem Package.raise_cru (p : Package) (g : Page) (ev a0 a1 : Nat) : (p.raise g ev a0 a1).cru = p.cru := by
  obtain ⟨r, q, h⟩ := p.raise_shape g ev a0 a1; rw [h]; rfl
@[simp] theorem Package.raise_folds (p : Package) (g : Page) (ev a0 a1 : Nat) : (p.raise g ev a0 a1).folds = p.folds := by
  obtain ⟨r, q, h⟩ := p.raise_shape g ev a0 a1; rw [h]; rfl
@[simp] theorem Package.raise_folded (p : Package) (g : Page) (ev a0 a1 : Nat) : (p.raise g ev a0 a1).folded = p.folded := by
  obtain ⟨r, q, h⟩ := p.raise_shape g ev a0 a1; rw [h]; rfl
@[simp] theorem Package.raise_engSince (p : Package) (g : Page) (ev a0 a1 : Nat) : (p.raise g ev a0 a1).engSince = p.engSince := by
  obtain ⟨r, q, h⟩ := p.raise_shape g ev a0 a1; rw [h]; rfl
@[simp] theorem Package.raise_runs (p : Package) (g : Page) (ev a0 a1 : Nat) : (p.raise g ev a0 a1).runs = p.runs := by
  obtain ⟨r, q, h⟩ := p.raise_shape g ev a0 a1; rw [h]; rfl
@[simp] theorem Package.raise_rings (p : Package) (g : Page) (ev a0 a1 : Nat) : (p.raise g ev a0 a1).rings = p.rings := by
  obtain ⟨r, q, h⟩ := p.raise_shape g ev a0 a1; rw [h]; rfl
@[simp] theorem Package.raise_bists (p : Package) (g : Page) (ev a0 a1 : Nat) : (p.raise g ev a0 a1).bists = p.bists := by
  obtain ⟨r, q, h⟩ := p.raise_shape g ev a0 a1; rw [h]; rfl
@[simp] theorem Package.raise_rewind (p : Package) (g : Page) (ev a0 a1 : Nat) : (p.raise g ev a0 a1).rewind = p.rewind := by
  obtain ⟨r, q, h⟩ := p.raise_shape g ev a0 a1; rw [h]; rfl
@[simp] theorem Package.raise_snap (p : Package) (g : Page) (ev a0 a1 : Nat) : (p.raise g ev a0 a1).snap = p.snap := by
  obtain ⟨r, q, h⟩ := p.raise_shape g ev a0 a1; rw [h]; rfl
@[simp] theorem Package.raise_fab (p : Package) (g : Page) (ev a0 a1 : Nat) : (p.raise g ev a0 a1).fab = p.fab := by
  obtain ⟨r, q, h⟩ := p.raise_shape g ev a0 a1; rw [h]; rfl
@[simp] theorem Package.raise_gate (p : Package) (g : Page) (ev a0 a1 : Nat) : (p.raise g ev a0 a1).gate = p.gate := by
  obtain ⟨r, q, h⟩ := p.raise_shape g ev a0 a1; rw [h]; rfl
@[simp] theorem Package.raise_pwr (p : Package) (g : Page) (ev a0 a1 : Nat) : (p.raise g ev a0 a1).pwr = p.pwr := by
  obtain ⟨r, q, h⟩ := p.raise_shape g ev a0 a1; rw [h]; rfl
@[simp] theorem Package.raise_sec (p : Package) (g : Page) (ev a0 a1 : Nat) : (p.raise g ev a0 a1).sec = p.sec := by
  obtain ⟨r, q, h⟩ := p.raise_shape g ev a0 a1; rw [h]; rfl
@[simp] theorem Package.raise_tap (p : Package) (g : Page) (ev a0 a1 : Nat) : (p.raise g ev a0 a1).tap = p.tap := by
  obtain ⟨r, q, h⟩ := p.raise_shape g ev a0 a1; rw [h]; rfl
@[simp] theorem Package.raise_mctp (p : Package) (g : Page) (ev a0 a1 : Nat) : (p.raise g ev a0 a1).mctp = p.mctp := by
  obtain ⟨r, q, h⟩ := p.raise_shape g ev a0 a1; rw [h]; rfl
@[simp] theorem Package.raise_cluAcct (p : Package) (g : Page) (ev a0 a1 : Nat) : (p.raise g ev a0 a1).cluAcct = p.cluAcct := by
  obtain ⟨r, q, h⟩ := p.raise_shape g ev a0 a1; rw [h]; rfl
@[simp] theorem Package.raise_telBase (p : Package) (g : Page) (ev a0 a1 : Nat) : (p.raise g ev a0 a1).telBase = p.telBase := by
  obtain ⟨r, q, h⟩ := p.raise_shape g ev a0 a1; rw [h]; rfl
@[simp] theorem Package.raise_stg (p : Package) (g : Page) (ev a0 a1 : Nat) (i : Nat) : (p.raise g ev a0 a1).stg i = p.stg i := by
  simp [Package.stg]
@[simp] theorem Package.wr_stg (p : Package) (r v : Nat) (i : Nat) : (p.wr r v).stg i = p.stg i := rfl
@[simp] theorem Package.put_stg (p : Package) (f : Fld) (v : Nat) (i : Nat) : (p.put f v).stg i = p.stg i := rfl
@[simp] theorem Package.bump64_stg (p : Package) (r v : Nat) (i : Nat) : (p.bump64 r v).stg i = p.stg i := rfl
@[simp] theorem Package.bump48_stg (p : Package) (r v : Nat) (i : Nat) : (p.bump48 r v).stg i = p.stg i := rfl
@[simp] theorem Package.setBit_stg (p : Package) (r v : Nat) (b : Bool) (i : Nat) : (p.setBit r v b).stg i = p.stg i := rfl
@[simp] theorem Package.elapse_stg (p : Package) (dt : Nat) (i : Nat) : (p.elapse dt).stg i = p.stg i := rfl
@[simp] theorem Package.raise_grp (p : Package) (g : Page) (ev a0 a1 : Nat) (i : Nat) : (p.raise g ev a0 a1).grp i = p.grp i := by
  simp [Package.grp]
@[simp] theorem Package.wr_grp (p : Package) (r v : Nat) (i : Nat) : (p.wr r v).grp i = p.grp i := rfl
@[simp] theorem Package.put_grp (p : Package) (f : Fld) (v : Nat) (i : Nat) : (p.put f v).grp i = p.grp i := rfl
@[simp] theorem Package.bump64_grp (p : Package) (r v : Nat) (i : Nat) : (p.bump64 r v).grp i = p.grp i := rfl
@[simp] theorem Package.bump48_grp (p : Package) (r v : Nat) (i : Nat) : (p.bump48 r v).grp i = p.grp i := rfl
@[simp] theorem Package.setBit_grp (p : Package) (r v : Nat) (b : Bool) (i : Nat) : (p.setBit r v b).grp i = p.grp i := rfl
@[simp] theorem Package.elapse_grp (p : Package) (dt : Nat) (i : Nat) : (p.elapse dt).grp i = p.grp i := rfl
@[simp] theorem Package.raise_port (p : Package) (g : Page) (ev a0 a1 : Nat) (i : Nat) : (p.raise g ev a0 a1).port i = p.port i := by
  simp [Package.port]
@[simp] theorem Package.wr_port (p : Package) (r v : Nat) (i : Nat) : (p.wr r v).port i = p.port i := rfl
@[simp] theorem Package.put_port (p : Package) (f : Fld) (v : Nat) (i : Nat) : (p.put f v).port i = p.port i := rfl
@[simp] theorem Package.bump64_port (p : Package) (r v : Nat) (i : Nat) : (p.bump64 r v).port i = p.port i := rfl
@[simp] theorem Package.bump48_port (p : Package) (r v : Nat) (i : Nat) : (p.bump48 r v).port i = p.port i := rfl
@[simp] theorem Package.setBit_port (p : Package) (r v : Nat) (b : Bool) (i : Nat) : (p.setBit r v b).port i = p.port i := rfl
@[simp] theorem Package.elapse_port (p : Package) (dt : Nat) (i : Nat) : (p.elapse dt).port i = p.port i := rfl
@[simp] theorem Package.raise_errLog (p : Package) (g : Page) (ev a0 a1 : Nat) (i : Nat) : (p.raise g ev a0 a1).errLog i = p.errLog i := by
  simp [Package.errLog]
@[simp] theorem Package.wr_errLog (p : Package) (r v : Nat) (i : Nat) : (p.wr r v).errLog i = p.errLog i := rfl
@[simp] theorem Package.put_errLog (p : Package) (f : Fld) (v : Nat) (i : Nat) : (p.put f v).errLog i = p.errLog i := rfl
@[simp] theorem Package.bump64_errLog (p : Package) (r v : Nat) (i : Nat) : (p.bump64 r v).errLog i = p.errLog i := rfl
@[simp] theorem Package.bump48_errLog (p : Package) (r v : Nat) (i : Nat) : (p.bump48 r v).errLog i = p.errLog i := rfl
@[simp] theorem Package.setBit_errLog (p : Package) (r v : Nat) (b : Bool) (i : Nat) : (p.setBit r v b).errLog i = p.errLog i := rfl
@[simp] theorem Package.elapse_errLog (p : Package) (dt : Nat) (i : Nat) : (p.elapse dt).errLog i = p.errLog i := rfl

end Sys2Proof.Machine
end

