-- ==== Sys2Proof/Laws/Report.lean ====
section
/-! SUPPORT. Reporting a fault (R377, R393, R394): which registers it writes, and that it leaves everything else of the package. -/

namespace Sys2Proof.Machine

open Sys2Proof

/-- The registers that a report to the log of die d on page g can write. -/
def reportRegs (g : Page) (d : Nat) : List Nat :=
  evtRegs ++ [ERR_SUMMARY g, IRQ_STATUS (.err d), ERR_STATUS d, ERR_LOG_TAIL d, ERR_COALESCED d, ERR_LOST_CORR d, ERR_LOST_UNCORR d, ERR_LOST_FATAL d]

/-- A package with other registers, another event queue and other error logs. -/
def Package.withReport (p : Package) (r : List (Nat × Word)) (q : EventQueue) (l : List (Nat × ErrLog)) : Package :=
  { p with regs := r, evq := q, errLogs := l }

/-- Everything but registers, the event queue and the error logs is the same. -/
def Package.ReportOnly (p q : Package) : Prop := ∃ r e l, q = p.withReport r e l

theorem Package.ReportOnly.trans {p q r : Package} (h : p.ReportOnly q) (k : q.ReportOnly r) : p.ReportOnly r := by
  obtain ⟨a, b, c, rfl⟩ := h
  obtain ⟨d, e, f, rfl⟩ := k
  exact ⟨d, e, f, rfl⟩

theorem Package.ReportOnly.refl (p : Package) : p.ReportOnly p := ⟨p.regs, p.evq, p.errLogs, rfl⟩

theorem Package.EventsOnly.report {p q : Package} (h : p.EventsOnly q) : p.ReportOnly q := by
  obtain ⟨a, b, rfl⟩ := h
  exact ⟨a, b, p.errLogs, rfl⟩

theorem Package.reportOnly_wr (p : Package) (a v : Nat) : p.ReportOnly (p.wr a v) := (p.eventsOnly_wr a v).report
theorem Package.reportOnly_log (p : Package) (d : Nat) (l : ErrLog) : p.ReportOnly (p.setErrLog d l) := ⟨p.regs, p.evq, (p.setErrLog d l).errLogs, rfl⟩
theorem Package.reportOnly_status (p : Package) (d : Nat) : p.ReportOnly (p.errStatus d) :=
  ((p.reportOnly_wr _ _).trans (Package.reportOnly_wr _ _ _)).trans (Package.reportOnly_wr _ _ _)

theorem Package.report_shape (p : Package) (g : Page) (d cls cause a0 a1 : Nat) (b c : Bool) : p.ReportOnly (p.report g d cls cause a0 a1 b c) := by
  unfold Package.report
  dsimp only
  refine (show p.ReportOnly (p.setBit (ERR_SUMMARY g) cls true) from p.reportOnly_wr _ _).trans ?_
  split
  · exact (Package.reportOnly_log _ _ _).trans (Package.reportOnly_wr _ _ _)
  · split
    · split
      · exact (Package.reportOnly_log _ _ _).trans (Package.reportOnly_status _ _)
      · exact (Package.reportOnly_log _ _ _).trans (Package.reportOnly_wr _ _ _)
    · split
      · split
        · exact ((Package.reportOnly_log _ _ _).trans ((Package.reportOnly_wr _ _ _).trans (Package.reportOnly_status _ _))).trans
            (Package.event_shape _ _ _ _ _ _).report
        · exact (Package.reportOnly_log _ _ _).trans ((Package.reportOnly_wr _ _ _).trans (Package.reportOnly_status _ _))
      · exact (Package.reportOnly_log _ _ _).trans (Package.reportOnly_wr _ _ _)

@[simp] theorem Package.report_variant (p : Package) (g : Page) (d cls cause a0 a1 : Nat) (b c : Bool) :
    (p.report g d cls cause a0 a1 b c).variant = p.variant := by
  obtain ⟨r, q, l, h⟩ := p.report_shape g d cls cause a0 a1 b c; rw [h]; rfl
@[simp] theorem Package.report_serial (p : Package) (g : Page) (d cls cause a0 a1 : Nat) (b c : Bool) :
    (p.report g d cls cause a0 a1 b c).serial = p.serial := by
  obtain ⟨r, q, l, h⟩ := p.report_shape g d cls cause a0 a1 b c; rw [h]; rfl
@[simp] theorem Package.report_clock (p : Package) (g : Page) (d cls cause a0 a1 : Nat) (b c : Bool) :
    (p.report g d cls cause a0 a1 b c).clock = p.clock := by
  obtain ⟨r, q, l, h⟩ := p.report_shape g d cls cause a0 a1 b c; rw [h]; rfl
@[simp] theorem Package.report_dofs (p : Package) (g : Page) (d cls cause a0 a1 : Nat) (b c : Bool) :
    (p.report g d cls cause a0 a1 b c).dofs = p.dofs := by
  obtain ⟨r, q, l, h⟩ := p.report_shape g d cls cause a0 a1 b c; rw [h]; rfl
@[simp] theorem Package.report_mem (p : Package) (g : Page) (d cls cause a0 a1 : Nat) (b c : Bool) :
    (p.report g d cls cause a0 a1 b c).mem = p.mem := by
  obtain ⟨r, q, l, h⟩ := p.report_shape g d cls cause a0 a1 b c; rw [h]; rfl
@[simp] theorem Package.report_poison (p : Package) (g : Page) (d cls cause a0 a1 : Nat) (b c : Bool) :
    (p.report g d cls cause a0 a1 b c).poison = p.poison := by
  obtain ⟨r, q, l, h⟩ := p.report_shape g d cls cause a0 a1 b c; rw [h]; rfl
@[simp] theorem Package.report_fresh (p : Package) (g : Page) (d cls cause a0 a1 : Nat) (b c : Bool) :
    (p.report g d cls cause a0 a1 b c).fresh = p.fresh := by
  obtain ⟨r, q, l, h⟩ := p.report_shape g d cls cause a0 a1 b c; rw [h]; rfl
@[simp] theorem Package.report_beat (p : Package) (g : Page) (d cls cause a0 a1 : Nat) (b c : Bool) :
    (p.report g d cls cause a0 a1 b c).beat = p.beat := by
  obtain ⟨r, q, l, h⟩ := p.report_shape g d cls cause a0 a1 b c; rw [h]; rfl
@[simp] theorem Package.report_txn (p : Package) (g : Page) (d cls cause a0 a1 : Nat) (b c : Bool) :
    (p.report g d cls cause a0 a1 b c).txn = p.txn := by
  obtain ⟨r, q, l, h⟩ := p.report_shape g d cls cause a0 a1 b c; rw [h]; rfl
@[simp] theorem Package.report_stages (p : Package) (g : Page) (d cls cause a0 a1 : Nat) (b c : Bool) :
    (p.report g d cls cause a0 a1 b c).stages = p.stages := by
  obtain ⟨r, q, l, h⟩ := p.report_shape g d cls cause a0 a1 b c; rw [h]; rfl
@[simp] theorem Package.report_groups (p : Package) (g : Page) (d cls cause a0 a1 : Nat) (b c : Bool) :
    (p.report g d cls cause a0 a1 b c).groups = p.groups := by
  obtain ⟨r, q, l, h⟩ := p.report_shape g d cls cause a0 a1 b c; rw [h]; rfl
@[simp] theorem Package.report_lnk (p : Package) (g : Page) (d cls cause a0 a1 : Nat) (b c : Bool) :
    (p.report g d cls cause a0 a1 b c).lnk = p.lnk := by
  obtain ⟨r, q, l, h⟩ := p.report_shape g d cls cause a0 a1 b c; rw [h]; rfl
@[simp] theorem Package.report_bridge (p : Package) (g : Page) (d cls cause a0 a1 : Nat) (b c : Bool) :
    (p.report g d cls cause a0 a1 b c).bridge = p.bridge := by
  obtain ⟨r, q, l, h⟩ := p.report_shape g d cls cause a0 a1 b c; rw [h]; rfl
@[simp] theorem Package.report_inFlight (p : Package) (g : Page) (d cls cause a0 a1 : Nat) (b c : Bool) :
    (p.report g d cls cause a0 a1 b c).inFlight = p.inFlight := by
  obtain ⟨r, q, l, h⟩ := p.report_shape g d cls cause a0 a1 b c; rw [h]; rfl
@[simp] theorem Package.report_forwards (p : Package) (g : Page) (d cls cause a0 a1 : Nat) (b c : Bool) :
    (p.report g d cls cause a0 a1 b c).forwards = p.forwards := by
  obtain ⟨r, q, l, h⟩ := p.report_shape g d cls cause a0 a1 b c; rw [h]; rfl
@[simp] theorem Package.report_posCount (p : Package) (g : Page) (d cls cause a0 a1 : Nat) (b c : Bool) :
    (p.report g d cls cause a0 a1 b c).posCount = p.posCount := by
  obtain ⟨r, q, l, h⟩ := p.report_shape g d cls cause a0 a1 b c; rw [h]; rfl
@[simp] theorem Package.report_snapPause (p : Package) (g : Page) (d cls cause a0 a1 : Nat) (b c : Bool) :
    (p.report g d cls cause a0 a1 b c).snapPause = p.snapPause := by
  obtain ⟨r, q, l, h⟩ := p.report_shape g d cls cause a0 a1 b c; rw [h]; rfl
@[simp] theorem Package.report_thermalDies (p : Package) (g : Page) (d cls cause a0 a1 : Nat) (b c : Bool) :
    (p.report g d cls cause a0 a1 b c).thermalDies = p.thermalDies := by
  obtain ⟨r, q, l, h⟩ := p.report_shape g d cls cause a0 a1 b c; rw [h]; rfl
@[simp] theorem Package.report_powerDies (p : Package) (g : Page) (d cls cause a0 a1 : Nat) (b c : Bool) :
    (p.report g d cls cause a0 a1 b c).powerDies = p.powerDies := by
  obtain ⟨r, q, l, h⟩ := p.report_shape g d cls cause a0 a1 b c; rw [h]; rfl
@[simp] theorem Package.report_cores (p : Package) (g : Page) (d cls cause a0 a1 : Nat) (b c : Bool) :
    (p.report g d cls cause a0 a1 b c).cores = p.cores := by
  obtain ⟨r, q, l, h⟩ := p.report_shape g d cls cause a0 a1 b c; rw [h]; rfl
@[simp] theorem Package.report_clus (p : Package) (g : Page) (d cls cause a0 a1 : Nat) (b c : Bool) :
    (p.report g d cls cause a0 a1 b c).clus = p.clus := by
  obtain ⟨r, q, l, h⟩ := p.report_shape g d cls cause a0 a1 b c; rw [h]; rfl
@[simp] theorem Package.report_num (p : Package) (g : Page) (d cls cause a0 a1 : Nat) (b c : Bool) :
    (p.report g d cls cause a0 a1 b c).num = p.num := by
  obtain ⟨r, q, l, h⟩ := p.report_shape g d cls cause a0 a1 b c; rw [h]; rfl
@[simp] theorem Package.report_moe (p : Package) (g : Page) (d cls cause a0 a1 : Nat) (b c : Bool) :
    (p.report g d cls cause a0 a1 b c).moe = p.moe := by
  obtain ⟨r, q, l, h⟩ := p.report_shape g d cls cause a0 a1 b c; rw [h]; rfl
@[simp] theorem Package.report_pours (p : Package) (g : Page) (d cls cause a0 a1 : Nat) (b c : Bool) :
    (p.report g d cls cause a0 a1 b c).pours = p.pours := by
  obtain ⟨r, q, l, h⟩ := p.report_shape g d cls cause a0 a1 b c; rw [h]; rfl
@[simp] theorem Package.report_gathers (p : Package) (g : Page) (d cls cause a0 a1 : Nat) (b c : Bool) :
    (p.report g d cls cause a0 a1 b c).gathers = p.gathers := by
  obtain ⟨r, q, l, h⟩ := p.report_shape g d cls cause a0 a1 b c; rw [h]; rfl
@[simp] theorem Package.report_heldFetches (p : Package) (g : Page) (d cls cause a0 a1 : Nat) (b c : Bool) :
    (p.report g d cls cause a0 a1 b c).heldFetches = p.heldFetches := by
  obtain ⟨r, q, l, h⟩ := p.report_shape g d cls cause a0 a1 b c; rw [h]; rfl
@[simp] theorem Package.report_aclk (p : Package) (g : Page) (d cls cause a0 a1 : Nat) (b c : Bool) :
    (p.report g d cls cause a0 a1 b c).aclk = p.aclk := by
  obtain ⟨r, q, l, h⟩ := p.report_shape g d cls cause a0 a1 b c; rw [h]; rfl
@[simp] theorem Package.report_cru (p : Package) (g : Page) (d cls cause a0 a1 : Nat) (b c : Bool) :
    (p.report g d cls cause a0 a1 b c).cru = p.cru := by
  obtain ⟨r, q, l, h⟩ := p.report_shape g d cls cause a0 a1 b c; rw [h]; rfl
@[simp] theorem Package.report_folds (p : Package) (g : Page) (d cls cause a0 a1 : Nat) (b c : Bool) :
    (p.report g d cls cause a0 a1 b c).folds = p.folds := by
  obtain ⟨r, q, l, h⟩ := p.report_shape g d cls cause a0 a1 b c; rw [h]; rfl
@[simp] theorem Package.report_folded (p : Package) (g : Page) (d cls cause a0 a1 : Nat) (b c : Bool) :
    (p.report g d cls cause a0 a1 b c).folded = p.folded := by
  obtain ⟨r, q, l, h⟩ := p.report_shape g d cls cause a0 a1 b c; rw [h]; rfl
@[simp] theorem Package.report_engSince (p : Package) (g : Page) (d cls cause a0 a1 : Nat) (b c : Bool) :
    (p.report g d cls cause a0 a1 b c).engSince = p.engSince := by
  obtain ⟨r, q, l, h⟩ := p.report_shape g d cls cause a0 a1 b c; rw [h]; rfl
@[simp] theorem Package.report_runs (p : Package) (g : Page) (d cls cause a0 a1 : Nat) (b c : Bool) :
    (p.report g d cls cause a0 a1 b c).runs = p.runs := by
  obtain ⟨r, q, l, h⟩ := p.report_shape g d cls cause a0 a1 b c; rw [h]; rfl
@[simp] theorem Package.report_rings (p : Package) (g : Page) (d cls cause a0 a1 : Nat) (b c : Bool) :
    (p.report g d cls cause a0 a1 b c).rings = p.rings := by
  obtain ⟨r, q, l, h⟩ := p.report_shape g d cls cause a0 a1 b c; rw [h]; rfl
@[simp] theorem Package.report_bists (p : Package) (g : Page) (d cls cause a0 a1 : Nat) (b c : Bool) :
    (p.report g d cls cause a0 a1 b c).bists = p.bists := by
  obtain ⟨r, q, l, h⟩ := p.report_shape g d cls cause a0 a1 b c; rw [h]; rfl
@[simp] theorem Package.report_rewind (p : Package) (g : Page) (d cls cause a0 a1 : Nat) (b c : Bool) :
    (p.report g d cls cause a0 a1 b c).rewind = p.rewind := by
  obtain ⟨r, q, l, h⟩ := p.report_shape g d cls cause a0 a1 b c; rw [h]; rfl
@[simp] theorem Package.report_snap (p : Package) (g : Page) (d cls cause a0 a1 : Nat) (b c : Bool) :
    (p.report g d cls cause a0 a1 b c).snap = p.snap := by
  obtain ⟨r, q, l, h⟩ := p.report_shape g d cls cause a0 a1 b c; rw [h]; rfl
@[simp] theorem Package.report_fab (p : Package) (g : Page) (d cls cause a0 a1 : Nat) (b c : Bool) :
    (p.report g d cls cause a0 a1 b c).fab = p.fab := by
  obtain ⟨r, q, l, h⟩ := p.report_shape g d cls cause a0 a1 b c; rw [h]; rfl
@[simp] theorem Package.report_gate (p : Package) (g : Page) (d cls cause a0 a1 : Nat) (b c : Bool) :
    (p.report g d cls cause a0 a1 b c).gate = p.gate := by
  obtain ⟨r, q, l, h⟩ := p.report_shape g d cls cause a0 a1 b c; rw [h]; rfl
@[simp] theorem Package.report_pwr (p : Package) (g : Page) (d cls cause a0 a1 : Nat) (b c : Bool) :
    (p.report g d cls cause a0 a1 b c).pwr = p.pwr := by
  obtain ⟨r, q, l, h⟩ := p.report_shape g d cls cause a0 a1 b c; rw [h]; rfl
@[simp] theorem Package.report_sec (p : Package) (g : Page) (d cls cause a0 a1 : Nat) (b c : Bool) :
    (p.report g d cls cause a0 a1 b c).sec = p.sec := by
  obtain ⟨r, q, l, h⟩ := p.report_shape g d cls cause a0 a1 b c; rw [h]; rfl
@[simp] theorem Package.report_tap (p : Package) (g : Page) (d cls cause a0 a1 : Nat) (b c : Bool) :
    (p.report g d cls cause a0 a1 b c).tap = p.tap := by
  obtain ⟨r, q, l, h⟩ := p.report_shape g d cls cause a0 a1 b c; rw [h]; rfl
@[simp] theorem Package.report_mctp (p : Package) (g : Page) (d cls cause a0 a1 : Nat) (b c : Bool) :
    (p.report g d cls cause a0 a1 b c).mctp = p.mctp := by
  obtain ⟨r, q, l, h⟩ := p.report_shape g d cls cause a0 a1 b c; rw [h]; rfl
@[simp] theorem Package.report_cluAcct (p : Package) (g : Page) (d cls cause a0 a1 : Nat) (b c : Bool) :
    (p.report g d cls cause a0 a1 b c).cluAcct = p.cluAcct := by
  obtain ⟨r, q, l, h⟩ := p.report_shape g d cls cause a0 a1 b c; rw [h]; rfl
@[simp] theorem Package.report_telBase (p : Package) (g : Page) (d cls cause a0 a1 : Nat) (b c : Bool) :
    (p.report g d cls cause a0 a1 b c).telBase = p.telBase := by
  obtain ⟨r, q, l, h⟩ := p.report_shape g d cls cause a0 a1 b c; rw [h]; rfl

theorem Package.errStatus_rd (p : Package) (d : Nat) {a : Nat} (h : a ≠ ERR_STATUS d) : (p.errStatus d).rd a = p.rd a := by
  unfold Package.errStatus
  dsimp only
  rw [Package.rd_put_ne _ _ _ (by simpa [ERR_STATUS_FULL] using h.symm), Package.rd_put_ne _ _ _ (by simpa [ERR_STATUS_FATAL_USED] using h.symm),
    Package.rd_put_ne _ _ _ (by simpa [ERR_STATUS_USED] using h.symm)]

/-- A report changes no register but those of the log, the page's summary and the event queue. -/
theorem Package.report_rd (p : Package) (g : Page) (d cls cause a0 a1 : Nat) (b c : Bool) {a : Nat} (h : a ∉ reportRegs g d) :
    (p.report g d cls cause a0 a1 b c).rd a = p.rd a := by
  simp only [reportRegs, List.mem_append, not_or, List.mem_cons, List.not_mem_nil, or_false] at h
  obtain ⟨he, hs, hi, hst, ht, hc, hl0, hl1, hl2⟩ := h
  have lost : a ≠ lostCounter d cls := by
    unfold lostCounter
    split
    · exact hl0
    · split <;> assumption
  have e0 : ∀ q : Package, (q.setBit (ERR_SUMMARY g) cls true).rd a = q.rd a := fun q => q.rd_put_ne _ _ (by simpa using Ne.symm hs)
  have eb : ∀ (q : Package) (r n : Nat), a ≠ r → (q.bump64 r n).rd a = q.rd a := fun q r n hn => q.rd_bump64_ne _ hn.symm
  unfold Package.report
  dsimp only
  split
  · rw [eb _ _ _ hc, Package.setErrLog_rd, e0]
  · split
    · split
      · rw [Package.errStatus_rd _ _ hst, Package.setErrLog_rd, e0]
      · rw [eb _ _ _ lost, Package.setErrLog_rd, e0]
    · split
      · split
        · rw [Package.raise_rd _ _ _ _ _ he hi, Package.errStatus_rd _ _ hst, Package.rd_wr_ne _ _ (Ne.symm ht), Package.setErrLog_rd, e0]
        · rw [Package.errStatus_rd _ _ hst, Package.rd_wr_ne _ _ (Ne.symm ht), Package.setErrLog_rd, e0]
      · rw [eb _ _ _ lost, Package.setErrLog_rd, e0]

end Sys2Proof.Machine
end

