-- ==== Sys2Proof/Laws/Pass.lean ====
section
/-! SUPPORT. Letting time pass (`Package.pass`): the clock runs on, the accounts of stages and clusters grow, a slew goes on, and nothing else
changes. -/

namespace Sys2Proof.Machine

open Sys2Proof

/-- A stage with other accounts. -/
def Stage.withAccts (x : Stage) (a : List Nat) (i o : Nat) : Stage := { x with acct := a, inputUnmet := i, otherUnmet := o }

/-- A package with other stages and cluster accounts. -/
def Package.withAccts (p : Package) (l : List (Nat × Stage)) (c : List (Nat × List Nat)) : Package := { p with stages := l, cluAcct := c }

/-- Only accounts differ. -/
def Package.AcctsOnly (p q : Package) : Prop :=
  (∃ l c, q = p.withAccts l c) ∧ ∀ s, ∃ a i o, q.stg s = (p.stg s).withAccts a i o

theorem Package.AcctsOnly.refl (p : Package) : p.AcctsOnly p :=
  ⟨⟨p.stages, p.cluAcct, rfl⟩, fun s => ⟨(p.stg s).acct, (p.stg s).inputUnmet, (p.stg s).otherUnmet, rfl⟩⟩

theorem Package.AcctsOnly.trans {p q r : Package} (h : p.AcctsOnly q) (k : q.AcctsOnly r) : p.AcctsOnly r := by
  refine ⟨?_, fun s => ?_⟩
  · obtain ⟨a, b, rfl⟩ := h.1
    obtain ⟨c, d, rfl⟩ := k.1
    exact ⟨c, d, rfl⟩
  · obtain ⟨a, i, o, hs⟩ := h.2 s
    obtain ⟨b, j, n, ks⟩ := k.2 s
    exact ⟨b, j, n, by rw [ks, hs]; rfl⟩

theorem Package.acctsOnly_foldl {α : Type} (l : List α) (f : Package → α → Package) (h : ∀ q e, Package.AcctsOnly q (f q e)) (p : Package) :
    p.AcctsOnly (l.foldl f p) := by
  induction l generalizing p with
  | nil => exact .refl p
  | cons e r ih => exact (h p e).trans (ih _)

/-- A stage after one is changed. -/
theorem Package.stg_modStg (p : Package) (t s : Nat) (f : Stage → Stage) : (p.modStg t f).stg s = if t = s then f (p.stg s) else p.stg s := by
  unfold Package.modStg Package.setStg Package.stg
  rw [mapGet_mapSet]
  split
  · next h => rw [h]
  · rfl

theorem Package.acctsOnly_modStg (p : Package) (t : Nat) (a : Stage → List Nat) (i o : Stage → Nat) :
    p.AcctsOnly (p.modStg t (fun x => { x with acct := a x, inputUnmet := i x, otherUnmet := o x })) := by
  refine ⟨⟨_, p.cluAcct, rfl⟩, fun s => ?_⟩
  rw [Package.stg_modStg]
  split
  · exact ⟨a (p.stg s), i (p.stg s), o (p.stg s), rfl⟩
  · exact ⟨(p.stg s).acct, (p.stg s).inputUnmet, (p.stg s).otherUnmet, rfl⟩

theorem Package.acctsOnly_clu (p : Package) (c : List (Nat × List Nat)) : p.AcctsOnly { p with cluAcct := c } :=
  ⟨⟨p.stages, c, rfl⟩, fun s => ⟨(p.stg s).acct, (p.stg s).inputUnmet, (p.stg s).otherUnmet, rfl⟩⟩

/-- Time that passes changes accounts alone, and then the clock runs on. -/
theorem Package.pass_shape (p : Package) (dt : Nat) : ∃ q, p.AcctsOnly q ∧ (p.pass dt = q ∧ dt = 0 ∨ p.pass dt = q.elapse dt) := by
  unfold Package.pass
  split
  · next h => exact ⟨p, .refl p, .inl ⟨rfl, h⟩⟩
  · exact ⟨_, (Package.acctsOnly_foldl _ _ (fun q s => q.acctsOnly_modStg s _ _ _) p).trans
      (Package.acctsOnly_foldl _ _ (fun q c => q.acctsOnly_clu _) _), .inr rfl⟩

@[simp] theorem Package.pass_variant (p : Package) (dt : Nat) : (p.pass dt).variant = p.variant := by
  obtain ⟨q, ⟨⟨l, c, rfl⟩, _⟩, ⟨h, _⟩ | h⟩ := p.pass_shape dt <;> rw [h] <;> rfl
@[simp] theorem Package.pass_serial (p : Package) (dt : Nat) : (p.pass dt).serial = p.serial := by
  obtain ⟨q, ⟨⟨l, c, rfl⟩, _⟩, ⟨h, _⟩ | h⟩ := p.pass_shape dt <;> rw [h] <;> rfl
@[simp] theorem Package.pass_regs (p : Package) (dt : Nat) : (p.pass dt).regs = p.regs := by
  obtain ⟨q, ⟨⟨l, c, rfl⟩, _⟩, ⟨h, _⟩ | h⟩ := p.pass_shape dt <;> rw [h] <;> rfl
@[simp] theorem Package.pass_mem (p : Package) (dt : Nat) : (p.pass dt).mem = p.mem := by
  obtain ⟨q, ⟨⟨l, c, rfl⟩, _⟩, ⟨h, _⟩ | h⟩ := p.pass_shape dt <;> rw [h] <;> rfl
@[simp] theorem Package.pass_poison (p : Package) (dt : Nat) : (p.pass dt).poison = p.poison := by
  obtain ⟨q, ⟨⟨l, c, rfl⟩, _⟩, ⟨h, _⟩ | h⟩ := p.pass_shape dt <;> rw [h] <;> rfl
@[simp] theorem Package.pass_fresh (p : Package) (dt : Nat) : (p.pass dt).fresh = p.fresh := by
  obtain ⟨q, ⟨⟨l, c, rfl⟩, _⟩, ⟨h, _⟩ | h⟩ := p.pass_shape dt <;> rw [h] <;> rfl
@[simp] theorem Package.pass_txn (p : Package) (dt : Nat) : (p.pass dt).txn = p.txn := by
  obtain ⟨q, ⟨⟨l, c, rfl⟩, _⟩, ⟨h, _⟩ | h⟩ := p.pass_shape dt <;> rw [h] <;> rfl
@[simp] theorem Package.pass_evq (p : Package) (dt : Nat) : (p.pass dt).evq = p.evq := by
  obtain ⟨q, ⟨⟨l, c, rfl⟩, _⟩, ⟨h, _⟩ | h⟩ := p.pass_shape dt <;> rw [h] <;> rfl
@[simp] theorem Package.pass_groups (p : Package) (dt : Nat) : (p.pass dt).groups = p.groups := by
  obtain ⟨q, ⟨⟨l, c, rfl⟩, _⟩, ⟨h, _⟩ | h⟩ := p.pass_shape dt <;> rw [h] <;> rfl
@[simp] theorem Package.pass_lnk (p : Package) (dt : Nat) : (p.pass dt).lnk = p.lnk := by
  obtain ⟨q, ⟨⟨l, c, rfl⟩, _⟩, ⟨h, _⟩ | h⟩ := p.pass_shape dt <;> rw [h] <;> rfl
@[simp] theorem Package.pass_bridge (p : Package) (dt : Nat) : (p.pass dt).bridge = p.bridge := by
  obtain ⟨q, ⟨⟨l, c, rfl⟩, _⟩, ⟨h, _⟩ | h⟩ := p.pass_shape dt <;> rw [h] <;> rfl
@[simp] theorem Package.pass_inFlight (p : Package) (dt : Nat) : (p.pass dt).inFlight = p.inFlight := by
  obtain ⟨q, ⟨⟨l, c, rfl⟩, _⟩, ⟨h, _⟩ | h⟩ := p.pass_shape dt <;> rw [h] <;> rfl
@[simp] theorem Package.pass_errLogs (p : Package) (dt : Nat) : (p.pass dt).errLogs = p.errLogs := by
  obtain ⟨q, ⟨⟨l, c, rfl⟩, _⟩, ⟨h, _⟩ | h⟩ := p.pass_shape dt <;> rw [h] <;> rfl
@[simp] theorem Package.pass_forwards (p : Package) (dt : Nat) : (p.pass dt).forwards = p.forwards := by
  obtain ⟨q, ⟨⟨l, c, rfl⟩, _⟩, ⟨h, _⟩ | h⟩ := p.pass_shape dt <;> rw [h] <;> rfl
@[simp] theorem Package.pass_posCount (p : Package) (dt : Nat) : (p.pass dt).posCount = p.posCount := by
  obtain ⟨q, ⟨⟨l, c, rfl⟩, _⟩, ⟨h, _⟩ | h⟩ := p.pass_shape dt <;> rw [h] <;> rfl
@[simp] theorem Package.pass_snapPause (p : Package) (dt : Nat) : (p.pass dt).snapPause = p.snapPause := by
  obtain ⟨q, ⟨⟨l, c, rfl⟩, _⟩, ⟨h, _⟩ | h⟩ := p.pass_shape dt <;> rw [h] <;> rfl
@[simp] theorem Package.pass_thermalDies (p : Package) (dt : Nat) : (p.pass dt).thermalDies = p.thermalDies := by
  obtain ⟨q, ⟨⟨l, c, rfl⟩, _⟩, ⟨h, _⟩ | h⟩ := p.pass_shape dt <;> rw [h] <;> rfl
@[simp] theorem Package.pass_powerDies (p : Package) (dt : Nat) : (p.pass dt).powerDies = p.powerDies := by
  obtain ⟨q, ⟨⟨l, c, rfl⟩, _⟩, ⟨h, _⟩ | h⟩ := p.pass_shape dt <;> rw [h] <;> rfl
@[simp] theorem Package.pass_cores (p : Package) (dt : Nat) : (p.pass dt).cores = p.cores := by
  obtain ⟨q, ⟨⟨l, c, rfl⟩, _⟩, ⟨h, _⟩ | h⟩ := p.pass_shape dt <;> rw [h] <;> rfl
@[simp] theorem Package.pass_clus (p : Package) (dt : Nat) : (p.pass dt).clus = p.clus := by
  obtain ⟨q, ⟨⟨l, c, rfl⟩, _⟩, ⟨h, _⟩ | h⟩ := p.pass_shape dt <;> rw [h] <;> rfl
@[simp] theorem Package.pass_num (p : Package) (dt : Nat) : (p.pass dt).num = p.num := by
  obtain ⟨q, ⟨⟨l, c, rfl⟩, _⟩, ⟨h, _⟩ | h⟩ := p.pass_shape dt <;> rw [h] <;> rfl
@[simp] theorem Package.pass_moe (p : Package) (dt : Nat) : (p.pass dt).moe = p.moe := by
  obtain ⟨q, ⟨⟨l, c, rfl⟩, _⟩, ⟨h, _⟩ | h⟩ := p.pass_shape dt <;> rw [h] <;> rfl
@[simp] theorem Package.pass_pours (p : Package) (dt : Nat) : (p.pass dt).pours = p.pours := by
  obtain ⟨q, ⟨⟨l, c, rfl⟩, _⟩, ⟨h, _⟩ | h⟩ := p.pass_shape dt <;> rw [h] <;> rfl
@[simp] theorem Package.pass_gathers (p : Package) (dt : Nat) : (p.pass dt).gathers = p.gathers := by
  obtain ⟨q, ⟨⟨l, c, rfl⟩, _⟩, ⟨h, _⟩ | h⟩ := p.pass_shape dt <;> rw [h] <;> rfl
@[simp] theorem Package.pass_heldFetches (p : Package) (dt : Nat) : (p.pass dt).heldFetches = p.heldFetches := by
  obtain ⟨q, ⟨⟨l, c, rfl⟩, _⟩, ⟨h, _⟩ | h⟩ := p.pass_shape dt <;> rw [h] <;> rfl
@[simp] theorem Package.pass_aclk (p : Package) (dt : Nat) : (p.pass dt).aclk = p.aclk := by
  obtain ⟨q, ⟨⟨l, c, rfl⟩, _⟩, ⟨h, _⟩ | h⟩ := p.pass_shape dt <;> rw [h] <;> rfl
@[simp] theorem Package.pass_cru (p : Package) (dt : Nat) : (p.pass dt).cru = p.cru := by
  obtain ⟨q, ⟨⟨l, c, rfl⟩, _⟩, ⟨h, _⟩ | h⟩ := p.pass_shape dt <;> rw [h] <;> rfl
@[simp] theorem Package.pass_folds (p : Package) (dt : Nat) : (p.pass dt).folds = p.folds := by
  obtain ⟨q, ⟨⟨l, c, rfl⟩, _⟩, ⟨h, _⟩ | h⟩ := p.pass_shape dt <;> rw [h] <;> rfl
@[simp] theorem Package.pass_folded (p : Package) (dt : Nat) : (p.pass dt).folded = p.folded := by
  obtain ⟨q, ⟨⟨l, c, rfl⟩, _⟩, ⟨h, _⟩ | h⟩ := p.pass_shape dt <;> rw [h] <;> rfl
@[simp] theorem Package.pass_engSince (p : Package) (dt : Nat) : (p.pass dt).engSince = p.engSince := by
  obtain ⟨q, ⟨⟨l, c, rfl⟩, _⟩, ⟨h, _⟩ | h⟩ := p.pass_shape dt <;> rw [h] <;> rfl
@[simp] theorem Package.pass_runs (p : Package) (dt : Nat) : (p.pass dt).runs = p.runs := by
  obtain ⟨q, ⟨⟨l, c, rfl⟩, _⟩, ⟨h, _⟩ | h⟩ := p.pass_shape dt <;> rw [h] <;> rfl
@[simp] theorem Package.pass_rings (p : Package) (dt : Nat) : (p.pass dt).rings = p.rings := by
  obtain ⟨q, ⟨⟨l, c, rfl⟩, _⟩, ⟨h, _⟩ | h⟩ := p.pass_shape dt <;> rw [h] <;> rfl
@[simp] theorem Package.pass_bists (p : Package) (dt : Nat) : (p.pass dt).bists = p.bists := by
  obtain ⟨q, ⟨⟨l, c, rfl⟩, _⟩, ⟨h, _⟩ | h⟩ := p.pass_shape dt <;> rw [h] <;> rfl
@[simp] theorem Package.pass_rewind (p : Package) (dt : Nat) : (p.pass dt).rewind = p.rewind := by
  obtain ⟨q, ⟨⟨l, c, rfl⟩, _⟩, ⟨h, _⟩ | h⟩ := p.pass_shape dt <;> rw [h] <;> rfl
@[simp] theorem Package.pass_snap (p : Package) (dt : Nat) : (p.pass dt).snap = p.snap := by
  obtain ⟨q, ⟨⟨l, c, rfl⟩, _⟩, ⟨h, _⟩ | h⟩ := p.pass_shape dt <;> rw [h] <;> rfl
@[simp] theorem Package.pass_fab (p : Package) (dt : Nat) : (p.pass dt).fab = p.fab := by
  obtain ⟨q, ⟨⟨l, c, rfl⟩, _⟩, ⟨h, _⟩ | h⟩ := p.pass_shape dt <;> rw [h] <;> rfl
@[simp] theorem Package.pass_gate (p : Package) (dt : Nat) : (p.pass dt).gate = p.gate := by
  obtain ⟨q, ⟨⟨l, c, rfl⟩, _⟩, ⟨h, _⟩ | h⟩ := p.pass_shape dt <;> rw [h] <;> rfl
@[simp] theorem Package.pass_pwr (p : Package) (dt : Nat) : (p.pass dt).pwr = p.pwr := by
  obtain ⟨q, ⟨⟨l, c, rfl⟩, _⟩, ⟨h, _⟩ | h⟩ := p.pass_shape dt <;> rw [h] <;> rfl
@[simp] theorem Package.pass_sec (p : Package) (dt : Nat) : (p.pass dt).sec = p.sec := by
  obtain ⟨q, ⟨⟨l, c, rfl⟩, _⟩, ⟨h, _⟩ | h⟩ := p.pass_shape dt <;> rw [h] <;> rfl
@[simp] theorem Package.pass_tap (p : Package) (dt : Nat) : (p.pass dt).tap = p.tap := by
  obtain ⟨q, ⟨⟨l, c, rfl⟩, _⟩, ⟨h, _⟩ | h⟩ := p.pass_shape dt <;> rw [h] <;> rfl
@[simp] theorem Package.pass_mctp (p : Package) (dt : Nat) : (p.pass dt).mctp = p.mctp := by
  obtain ⟨q, ⟨⟨l, c, rfl⟩, _⟩, ⟨h, _⟩ | h⟩ := p.pass_shape dt <;> rw [h] <;> rfl
@[simp] theorem Package.pass_telBase (p : Package) (dt : Nat) : (p.pass dt).telBase = p.telBase := by
  obtain ⟨q, ⟨⟨l, c, rfl⟩, _⟩, ⟨h, _⟩ | h⟩ := p.pass_shape dt <;> rw [h] <;> rfl
@[simp] theorem Package.pass_rd (p : Package) (dt a : Nat) : (p.pass dt).rd a = p.rd a := by unfold Package.rd; rw [Package.pass_regs]
@[simp] theorem Package.pass_get (p : Package) (dt : Nat) (f : Fld) : (p.pass dt).get f = p.get f := by unfold Package.get; rw [Package.pass_rd]
@[simp] theorem Package.pass_has (p : Package) (dt : Nat) (f : Fld) : (p.pass dt).has f = p.has f := by unfold Package.has; rw [Package.pass_get]
@[simp] theorem Package.pass_grp (p : Package) (dt g : Nat) : (p.pass dt).grp g = p.grp g := by unfold Package.grp; rw [Package.pass_groups]
@[simp] theorem Package.pass_port (p : Package) (dt k : Nat) : (p.pass dt).port k = p.port k := by unfold Package.port; rw [Package.pass_lnk]
@[simp] theorem Package.pass_errLog (p : Package) (dt d : Nat) : (p.pass dt).errLog d = p.errLog d := by unfold Package.errLog; rw [Package.pass_errLogs]
@[simp] theorem Package.pass_stgState (p : Package) (dt s : Nat) : (p.pass dt).stgState s = p.stgState s := by simp [Package.stgState]
@[simp] theorem Package.pass_beatState (p : Package) (dt : Nat) : (p.pass dt).beatState = p.beatState := by simp [Package.beatState]
@[simp] theorem Package.pass_beatNo (p : Package) (dt : Nat) : (p.pass dt).beatNo = p.beatNo := by simp [Package.beatNo]
@[simp] theorem Package.pass_dies (p : Package) (dt : Nat) : (p.pass dt).dies = p.dies := by simp [Package.dies]
@[simp] theorem Package.pass_dieFitted (p : Package) (dt d : Nat) : (p.pass dt).dieFitted d = p.dieFitted d := by simp [Package.dieFitted]
@[simp] theorem Package.pass_dieFenced (p : Package) (dt d : Nat) : (p.pass dt).dieFenced d = p.dieFenced d := by simp [Package.dieFenced]
@[simp] theorem Package.pass_dieActive (p : Package) (dt d : Nat) : (p.pass dt).dieActive d = p.dieActive d := by simp [Package.dieActive]
@[simp] theorem Package.pass_leader (p : Package) (dt s : Nat) : (p.pass dt).leader s = p.leader s := by simp [Package.leader]

@[simp] theorem Package.pass_clock (p : Package) (dt : Nat) : (p.pass dt).clock = p.clock + dt := by
  obtain ⟨q, ⟨⟨l, c, rfl⟩, _⟩, ⟨h, z⟩ | h⟩ := p.pass_shape dt
  · rw [h, z]; rfl
  · rw [h]; rfl

@[simp] theorem Package.pass_beat_nextTick (p : Package) (dt : Nat) : (p.pass dt).beat.nextTick = p.beat.nextTick := by
  obtain ⟨q, ⟨⟨l, c, rfl⟩, _⟩, ⟨h, _⟩ | h⟩ := p.pass_shape dt <;> rw [h] <;> rfl
@[simp] theorem Package.pass_beat_lastTick (p : Package) (dt : Nat) : (p.pass dt).beat.lastTick = p.beat.lastTick := by
  obtain ⟨q, ⟨⟨l, c, rfl⟩, _⟩, ⟨h, _⟩ | h⟩ := p.pass_shape dt <;> rw [h] <;> rfl
@[simp] theorem Package.pass_beat_epochHeld (p : Package) (dt : Nat) : (p.pass dt).beat.epochHeld = p.beat.epochHeld := by
  obtain ⟨q, ⟨⟨l, c, rfl⟩, _⟩, ⟨h, _⟩ | h⟩ := p.pass_shape dt <;> rw [h] <;> rfl
@[simp] theorem Package.pass_beat_ticked (p : Package) (dt : Nat) : (p.pass dt).beat.ticked = p.beat.ticked := by
  obtain ⟨q, ⟨⟨l, c, rfl⟩, _⟩, ⟨h, _⟩ | h⟩ := p.pass_shape dt <;> rw [h] <;> rfl
@[simp] theorem Package.pass_beat_pend (p : Package) (dt : Nat) : (p.pass dt).beat.pend = p.beat.pend := by
  obtain ⟨q, ⟨⟨l, c, rfl⟩, _⟩, ⟨h, _⟩ | h⟩ := p.pass_shape dt <;> rw [h] <;> rfl
@[simp] theorem Package.pass_beat_view (p : Package) (dt : Nat) : (p.pass dt).beat.view = p.beat.view := by
  obtain ⟨q, ⟨⟨l, c, rfl⟩, _⟩, ⟨h, _⟩ | h⟩ := p.pass_shape dt <;> rw [h] <;> rfl
@[simp] theorem Package.pass_beat_viewSince (p : Package) (dt : Nat) : (p.pass dt).beat.viewSince = p.beat.viewSince := by
  obtain ⟨q, ⟨⟨l, c, rfl⟩, _⟩, ⟨h, _⟩ | h⟩ := p.pass_shape dt <;> rw [h] <;> rfl
@[simp] theorem Package.pass_beat_electionSince (p : Package) (dt : Nat) : (p.pass dt).beat.electionSince = p.beat.electionSince := by
  obtain ⟨q, ⟨⟨l, c, rfl⟩, _⟩, ⟨h, _⟩ | h⟩ := p.pass_shape dt <;> rw [h] <;> rfl
@[simp] theorem Package.pass_beat_lostRaised (p : Package) (dt : Nat) : (p.pass dt).beat.lostRaised = p.beat.lostRaised := by
  obtain ⟨q, ⟨⟨l, c, rfl⟩, _⟩, ⟨h, _⟩ | h⟩ := p.pass_shape dt <;> rw [h] <;> rfl
@[simp] theorem Package.pass_beat_heard (p : Package) (dt : Nat) : (p.pass dt).beat.heard = p.beat.heard := by
  obtain ⟨q, ⟨⟨l, c, rfl⟩, _⟩, ⟨h, _⟩ | h⟩ := p.pass_shape dt <;> rw [h] <;> rfl
@[simp] theorem Package.pass_beat_acquiringSince (p : Package) (dt : Nat) : (p.pass dt).beat.acquiringSince = p.beat.acquiringSince := by
  obtain ⟨q, ⟨⟨l, c, rfl⟩, _⟩, ⟨h, _⟩ | h⟩ := p.pass_shape dt <;> rw [h] <;> rfl
@[simp] theorem Package.pass_beat_acquireRaised (p : Package) (dt : Nat) : (p.pass dt).beat.acquireRaised = p.beat.acquireRaised := by
  obtain ⟨q, ⟨⟨l, c, rfl⟩, _⟩, ⟨h, _⟩ | h⟩ := p.pass_shape dt <;> rw [h] <;> rfl
@[simp] theorem Package.pass_beat_t1 (p : Package) (dt : Nat) : (p.pass dt).beat.t1 = p.beat.t1 := by
  obtain ⟨q, ⟨⟨l, c, rfl⟩, _⟩, ⟨h, _⟩ | h⟩ := p.pass_shape dt <;> rw [h] <;> rfl
@[simp] theorem Package.pass_beat_t2 (p : Package) (dt : Nat) : (p.pass dt).beat.t2 = p.beat.t2 := by
  obtain ⟨q, ⟨⟨l, c, rfl⟩, _⟩, ⟨h, _⟩ | h⟩ := p.pass_shape dt <;> rw [h] <;> rfl
@[simp] theorem Package.pass_beat_t3 (p : Package) (dt : Nat) : (p.pass dt).beat.t3 = p.beat.t3 := by
  obtain ⟨q, ⟨⟨l, c, rfl⟩, _⟩, ⟨h, _⟩ | h⟩ := p.pass_shape dt <;> rw [h] <;> rfl
@[simp] theorem Package.pass_beat_t4 (p : Package) (dt : Nat) : (p.pass dt).beat.t4 = p.beat.t4 := by
  obtain ⟨q, ⟨⟨l, c, rfl⟩, _⟩, ⟨h, _⟩ | h⟩ := p.pass_shape dt <;> rw [h] <;> rfl
@[simp] theorem Package.pass_beat_measured (p : Package) (dt : Nat) : (p.pass dt).beat.measured = p.beat.measured := by
  obtain ⟨q, ⟨⟨l, c, rfl⟩, _⟩, ⟨h, _⟩ | h⟩ := p.pass_shape dt <;> rw [h] <;> rfl
@[simp] theorem Package.pass_beat_stepped (p : Package) (dt : Nat) : (p.pass dt).beat.stepped = p.beat.stepped := by
  obtain ⟨q, ⟨⟨l, c, rfl⟩, _⟩, ⟨h, _⟩ | h⟩ := p.pass_shape dt <;> rw [h] <;> rfl
@[simp] theorem Package.pass_beat_silentBeats (p : Package) (dt : Nat) : (p.pass dt).beat.silentBeats = p.beat.silentBeats := by
  obtain ⟨q, ⟨⟨l, c, rfl⟩, _⟩, ⟨h, _⟩ | h⟩ := p.pass_shape dt <;> rw [h] <;> rfl
@[simp] theorem Package.pass_beat_requestBeats (p : Package) (dt : Nat) : (p.pass dt).beat.requestBeats = p.beat.requestBeats := by
  obtain ⟨q, ⟨⟨l, c, rfl⟩, _⟩, ⟨h, _⟩ | h⟩ := p.pass_shape dt <;> rw [h] <;> rfl
@[simp] theorem Package.pass_beat_goodRun (p : Package) (dt : Nat) : (p.pass dt).beat.goodRun = p.beat.goodRun := by
  obtain ⟨q, ⟨⟨l, c, rfl⟩, _⟩, ⟨h, _⟩ | h⟩ := p.pass_shape dt <;> rw [h] <;> rfl
@[simp] theorem Package.pass_beat_stepWaiting (p : Package) (dt : Nat) : (p.pass dt).beat.stepWaiting = p.beat.stepWaiting := by
  obtain ⟨q, ⟨⟨l, c, rfl⟩, _⟩, ⟨h, _⟩ | h⟩ := p.pass_shape dt <;> rw [h] <;> rfl
@[simp] theorem Package.pass_beat_lastMsg (p : Package) (dt : Nat) : (p.pass dt).beat.lastMsg = p.beat.lastMsg := by
  obtain ⟨q, ⟨⟨l, c, rfl⟩, _⟩, ⟨h, _⟩ | h⟩ := p.pass_shape dt <;> rw [h] <;> rfl
@[simp] theorem Package.pass_beat_holdoverSince (p : Package) (dt : Nat) : (p.pass dt).beat.holdoverSince = p.beat.holdoverSince := by
  obtain ⟨q, ⟨⟨l, c, rfl⟩, _⟩, ⟨h, _⟩ | h⟩ := p.pass_shape dt <;> rw [h] <;> rfl
@[simp] theorem Package.pass_beat_noticeDies (p : Package) (dt : Nat) : (p.pass dt).beat.noticeDies = p.beat.noticeDies := by
  obtain ⟨q, ⟨⟨l, c, rfl⟩, _⟩, ⟨h, _⟩ | h⟩ := p.pass_shape dt <;> rw [h] <;> rfl
@[simp] theorem Package.pass_beat_noticeBeat (p : Package) (dt : Nat) : (p.pass dt).beat.noticeBeat = p.beat.noticeBeat := by
  obtain ⟨q, ⟨⟨l, c, rfl⟩, _⟩, ⟨h, _⟩ | h⟩ := p.pass_shape dt <;> rw [h] <;> rfl
@[simp] theorem Package.pass_beat_pulses (p : Package) (dt : Nat) : (p.pass dt).beat.pulses = p.beat.pulses := by
  obtain ⟨q, ⟨⟨l, c, rfl⟩, _⟩, ⟨h, _⟩ | h⟩ := p.pass_shape dt <;> rw [h] <;> rfl
@[simp] theorem Package.pass_beat_lastPulse (p : Package) (dt : Nat) : (p.pass dt).beat.lastPulse = p.beat.lastPulse := by
  obtain ⟨q, ⟨⟨l, c, rfl⟩, _⟩, ⟨h, _⟩ | h⟩ := p.pass_shape dt <;> rw [h] <;> rfl
@[simp] theorem Package.pass_beat_lastRefEdge (p : Package) (dt : Nat) : (p.pass dt).beat.lastRefEdge = p.beat.lastRefEdge := by
  obtain ⟨q, ⟨⟨l, c, rfl⟩, _⟩, ⟨h, _⟩ | h⟩ := p.pass_shape dt <;> rw [h] <;> rfl

@[simp] theorem Package.pass_ticking (p : Package) (dt : Nat) : (p.pass dt).ticking = p.ticking := by simp [Package.ticking]
@[simp] theorem Package.pass_periodUnits (p : Package) (dt : Nat) : (p.pass dt).periodUnits = p.periodUnits := by
  unfold Package.periodUnits; simp

theorem Package.pass_stg (p : Package) (dt s : Nat) : ∃ a i o, (p.pass dt).stg s = (p.stg s).withAccts a i o := by
  obtain ⟨q, ⟨_, hs⟩, ⟨h, _⟩ | h⟩ := p.pass_shape dt
  · rw [h]; exact hs s
  · rw [h]; exact hs s

@[simp] theorem Package.pass_stg_phase (p : Package) (dt s : Nat) : ((p.pass dt).stg s).phase = (p.stg s).phase := by
  obtain ⟨a, i, o, h⟩ := p.pass_stg dt s; rw [h]; rfl
@[simp] theorem Package.pass_stg_fq (p : Package) (dt s : Nat) : ((p.pass dt).stg s).fq = (p.stg s).fq := by
  obtain ⟨a, i, o, h⟩ := p.pass_stg dt s; rw [h]; rfl
@[simp] theorem Package.pass_stg_bq (p : Package) (dt s : Nat) : ((p.pass dt).stg s).bq = (p.stg s).bq := by
  obtain ⟨a, i, o, h⟩ := p.pass_stg dt s; rw [h]; rfl
@[simp] theorem Package.pass_stg_chans (p : Package) (dt s : Nat) : ((p.pass dt).stg s).chans = (p.stg s).chans := by
  obtain ⟨a, i, o, h⟩ := p.pass_stg dt s; rw [h]; rfl
@[simp] theorem Package.pass_stg_bindPending (p : Package) (dt s : Nat) : ((p.pass dt).stg s).bindPending = (p.stg s).bindPending := by
  obtain ⟨a, i, o, h⟩ := p.pass_stg dt s; rw [h]; rfl
@[simp] theorem Package.pass_stg_clusters (p : Package) (dt s : Nat) : ((p.pass dt).stg s).clusters = (p.stg s).clusters := by
  obtain ⟨a, i, o, h⟩ := p.pass_stg dt s; rw [h]; rfl
@[simp] theorem Package.pass_stg_pourDone (p : Package) (dt s : Nat) : ((p.pass dt).stg s).pourDone = (p.stg s).pourDone := by
  obtain ⟨a, i, o, h⟩ := p.pass_stg dt s; rw [h]; rfl
@[simp] theorem Package.pass_stg_tag (p : Package) (dt s : Nat) : ((p.pass dt).stg s).tag = (p.stg s).tag := by
  obtain ⟨a, i, o, h⟩ := p.pass_stg dt s; rw [h]; rfl
@[simp] theorem Package.pass_stg_stash (p : Package) (dt s : Nat) : ((p.pass dt).stg s).stash = (p.stg s).stash := by
  obtain ⟨a, i, o, h⟩ := p.pass_stg dt s; rw [h]; rfl
@[simp] theorem Package.pass_stg_stashHead (p : Package) (dt s : Nat) : ((p.pass dt).stg s).stashHead = (p.stg s).stashHead := by
  obtain ⟨a, i, o, h⟩ := p.pass_stg dt s; rw [h]; rfl
@[simp] theorem Package.pass_stg_stashStalled (p : Package) (dt s : Nat) : ((p.pass dt).stg s).stashStalled = (p.stg s).stashStalled := by
  obtain ⟨a, i, o, h⟩ := p.pass_stg dt s; rw [h]; rfl
@[simp] theorem Package.pass_stg_issueA (p : Package) (dt s : Nat) : ((p.pass dt).stg s).issueA = (p.stg s).issueA := by
  obtain ⟨a, i, o, h⟩ := p.pass_stg dt s; rw [h]; rfl
@[simp] theorem Package.pass_stg_issueB (p : Package) (dt s : Nat) : ((p.pass dt).stg s).issueB = (p.stg s).issueB := by
  obtain ⟨a, i, o, h⟩ := p.pass_stg dt s; rw [h]; rfl
@[simp] theorem Package.pass_stg_checked (p : Package) (dt s : Nat) : ((p.pass dt).stg s).checked = (p.stg s).checked := by
  obtain ⟨a, i, o, h⟩ := p.pass_stg dt s; rw [h]; rfl
@[simp] theorem Package.pass_stg_clearAsked (p : Package) (dt s : Nat) : ((p.pass dt).stg s).clearAsked = (p.stg s).clearAsked := by
  obtain ⟨a, i, o, h⟩ := p.pass_stg dt s; rw [h]; rfl
@[simp] theorem Package.pass_stg_drainBeat (p : Package) (dt s : Nat) : ((p.pass dt).stg s).drainBeat = (p.stg s).drainBeat := by
  obtain ⟨a, i, o, h⟩ := p.pass_stg dt s; rw [h]; rfl
@[simp] theorem Package.pass_stg_reopen (p : Package) (dt s : Nat) : ((p.pass dt).stg s).reopen = (p.stg s).reopen := by
  obtain ⟨a, i, o, h⟩ := p.pass_stg dt s; rw [h]; rfl
@[simp] theorem Package.pass_stg_foldWaited (p : Package) (dt s : Nat) : ((p.pass dt).stg s).foldWaited = (p.stg s).foldWaited := by
  obtain ⟨a, i, o, h⟩ := p.pass_stg dt s; rw [h]; rfl
@[simp] theorem Package.pass_stg_lastBackward (p : Package) (dt s : Nat) : ((p.pass dt).stg s).lastBackward = (p.stg s).lastBackward := by
  obtain ⟨a, i, o, h⟩ := p.pass_stg dt s; rw [h]; rfl
@[simp] theorem Package.pass_stg_slotUsed (p : Package) (dt s : Nat) : ((p.pass dt).stg s).slotUsed = (p.stg s).slotUsed := by
  obtain ⟨a, i, o, h⟩ := p.pass_stg dt s; rw [h]; rfl
@[simp] theorem Package.pass_stg_gaveUp (p : Package) (dt s : Nat) : ((p.pass dt).stg s).gaveUp = (p.stg s).gaveUp := by
  obtain ⟨a, i, o, h⟩ := p.pass_stg dt s; rw [h]; rfl
@[simp] theorem Package.pass_stg_lastStart (p : Package) (dt s : Nat) : ((p.pass dt).stg s).lastStart = (p.stg s).lastStart := by
  obtain ⟨a, i, o, h⟩ := p.pass_stg dt s; rw [h]; rfl
@[simp] theorem Package.pass_stg_resumeWait (p : Package) (dt s : Nat) : ((p.pass dt).stg s).resumeWait = (p.stg s).resumeWait := by
  obtain ⟨a, i, o, h⟩ := p.pass_stg dt s; rw [h]; rfl
@[simp] theorem Package.pass_stg_shrinkPending (p : Package) (dt s : Nat) : ((p.pass dt).stg s).shrinkPending = (p.stg s).shrinkPending := by
  obtain ⟨a, i, o, h⟩ := p.pass_stg dt s; rw [h]; rfl
@[simp] theorem Package.pass_stg_recovery (p : Package) (dt s : Nat) : ((p.pass dt).stg s).recovery = (p.stg s).recovery := by
  obtain ⟨a, i, o, h⟩ := p.pass_stg dt s; rw [h]; rfl
@[simp] theorem Package.pass_stg_restored (p : Package) (dt s : Nat) : ((p.pass dt).stg s).restored = (p.stg s).restored := by
  obtain ⟨a, i, o, h⟩ := p.pass_stg dt s; rw [h]; rfl

end Sys2Proof.Machine
end

