-- ==== Sys2Proof/Laws/Seq.lean ====
section
/-! SUPPORT. What a core does with the next word of its list when nothing waits on it: the word's command runs at once, and nothing else
moves. -/

namespace Sys2Proof.Machine

open Sys2Proof

theorem mapPut_mapPut {α : Type} (m : List (Nat × α)) (i : Nat) (a b : α) : mapPut (mapPut m i a) i b = mapPut m i b := by
  induction m with
  | nil => simp [mapPut]
  | cons e r ih =>
    obtain ⟨k, w⟩ := e
    by_cases h : i = k
    · simp [mapPut, h]
    · by_cases h2 : i < k
      · simp [mapPut, h, h2]
      · simp [mapPut, h, h2, ih]

theorem mapDel_mapPut {α : Type} (m : List (Nat × α)) (i : Nat) (a : α) : mapDel (mapPut m i a) i = mapDel m i := by
  induction m with
  | nil => simp [mapPut, mapDel]
  | cons e r ih =>
    obtain ⟨k, w⟩ := e
    unfold mapDel at ih
    by_cases h : i = k
    · subst h; simp [mapPut, mapDel]
    · have hk : k ≠ i := fun e => h e.symm
      by_cases h2 : i < k
      · simp [mapPut, h, h2, mapDel]
      · simpa [mapPut, h, h2, mapDel, List.filter_cons, hk] using ih

/-- Only the last of two writes of a key counts, unless the first wrote the default. -/
theorem mapSet_mapSet {α : Type} [DecidableEq α] (d : α) (m : List (Nat × α)) (i : Nat) {a b : α} (h : a ≠ d) :
    mapSet d (mapSet d m i a) i b = mapSet d m i b := by
  unfold mapSet
  by_cases hb : b = d
  · simp [h, hb, mapDel_mapPut]
  · simp [h, hb, mapPut_mapPut]

@[simp] theorem Package.core_setCore (p : Package) (c k : Nat) (x : Core) : (p.setCore c k x).core c k = x := mapGet_mapSet_same _ _ _ _

theorem Package.core_setCore_ne (p : Package) {c k c' k' : Nat} (x : Core) (h : 32 * c + k ≠ 32 * c' + k') :
    (p.setCore c k x).core c' k' = p.core c' k' := mapGet_mapSet_ne _ _ _ h

@[simp] theorem Package.core_modCore (p : Package) (c k : Nat) (f : Core → Core) : (p.modCore c k f).core c k = f (p.core c k) :=
  p.core_setCore c k _

theorem Package.setCore_setCore (p : Package) (c k : Nat) {x : Core} (y : Core) (h : x ≠ {}) : (p.setCore c k x).setCore c k y = p.setCore c k y := by
  unfold Package.setCore
  simp [mapSet_mapSet _ _ _ h]

@[simp] theorem Package.clu_setCore (p : Package) (c k c' : Nat) (x : Core) : (p.setCore c k x).clu c' = p.clu c' := rfl
@[simp] theorem Package.filling_setCore (p : Package) (c k c' k' : Nat) (x : Core) : (p.setCore c k x).filling c' k' = p.filling c' k' := rfl

/-- What a core serves depends on the core only by its place in the lists of the phase. -/
theorem Package.ctx_setCore (p : Package) (c k : Nat) (x : Core) (h : x.layerPos = (p.core c k).layerPos) :
    (p.setCore c k x).ctx c k = p.ctx c k := by
  unfold Package.ctx
  rw [Package.core_setCore, h]
  rfl

theorem unitOf_cases (co : Core) (u : CoreUnit) (l : List Held) : (co.setQueue u l).queue u = l := by cases u <;> rfl

/-- A quiet core does not move. -/
theorem Package.advance_quiet (p : Package) (c k : Nat) (h : (p.core c k).quiet = true) : p.advance c k = none := by
  simp only [Core.quiet, Bool.and_eq_true, List.isEmpty_iff, Option.isNone_iff_eq_none] at h
  obtain ⟨⟨⟨⟨⟨h1, h2⟩, h3⟩, h4⟩, h5⟩, h6⟩ := h
  unfold Package.advance
  split
  · rfl
  · simp [Package.tryUnit, Package.trySeq, Package.tryBehind, Core.queue, h1, h2, h3, h4, h5, h6]

theorem Package.settle_quiet (p : Package) (c k n : Nat) (h : (p.core c k).quiet = true) : p.settle c k n = p := by
  cases n with
  | zero => rfl
  | succ n => simp [Package.settle, p.advance_quiet c k h]

@[simp] theorem Package.core_bump64 (p : Package) (a n c k : Nat) : (p.bump64 a n).core c k = p.core c k := rfl

/-- A core with another record of its replay point. -/
def Core.withPoint (co : Core) (pt : ReplayPoint) : Core := { co with point := pt }

/-- Time without a replay point (R385) touches the core's record of it alone. -/
theorem Package.watchPoint_core (p : Package) (c k : Nat) :
    ∃ pt, (p.watchPoint c k).core c k = (p.core c k).withPoint pt ∧ (p.watchPoint c k).clus = p.clus := by
  unfold Package.watchPoint
  dsimp only
  split
  · exact ⟨{ (p.core c k).point with long := true }, by rw [Package.core_bump64, Package.core_modCore]; rfl, rfl⟩
  · exact ⟨(p.core c k).point, rfl, rfl⟩

/-- The package as a quiet core's command starts, seen through the sequencer. -/
theorem startCmd_eq {p : Package} {c k : Nat} {x : Ctx} {h : Held} {q : Package} (hs : h.since = none) (hp : h.pred = true)
    (hsig : signalOf h.word = 0 ∨ ((p.core c k).takeToken (waitOf h.word)).token (signalOf h.word) < 255)
    (hr : runCommand (p.modCore c k (fun co => co.takeToken (waitOf h.word))) c k x h = .done q) :
    startCmd p c k x h = .gone (q.complete c k h) := by
  have e : (decide (signalOf h.word ≠ 0) && decide (255 ≤ ((p.core c k).takeToken (waitOf h.word)).token (signalOf h.word))) = false := by
    rcases hsig with e | e
    · simp [e]
    · simp only [Bool.and_eq_false_iff, decide_eq_false_iff_not]; omega
  unfold startCmd
  simp only [hs, Option.isNone_none, if_true, hp, Bool.not_true, Bool.false_eq_true, if_false, hr, Package.core_modCore, e]

/-- The core as the sequencer leaves it while its command is under way. -/
def Core.underway (co : Core) : Core := { co with behind := [], index := co.index + 1, ordinal := co.ordinal + 1 }

/-- What dispatch does with a word whose predicate is true and that nothing refuses. -/
theorem Package.dispatch_eq {p : Package} {c k : Nat} {x : Ctx} {w : CmdWord} {co : Core} (hco : p.core c k = co)
    (hpred : (!co.skip && (!predBit w || co.pred (predIndex w))) = true) (hd : opcodeDefined (opcodeOf w) = true)
    (hg : (decide (co.ordinal = 0) && x.layer.predicated && x.run.isNone && (decide (x.dir = .fwd) || x.recompute) && !isGate w) = false) :
    p.dispatch c k x w = (p.setCore c k { co with index := co.index + 1, ordinal := co.ordinal + 1 }).modCore c k (fun y =>
      match unitOf (opcodeOf w) with
      | none => { y with seq := some { word := w, index := co.index, ordinal := co.ordinal, pred := true } }
      | some u => y.setQueue u (y.queue u ++ [{ word := w, index := co.index, ordinal := co.ordinal, pred := true }])) := by
  unfold Package.dispatch
  simp only [hco, hpred, hd, Bool.not_true, Bool.false_eq_true, if_false, hg]
  split <;> simp_all

/-- The one command that waits in a unit's queue starts and is done. -/
theorem Package.advance_unit {p : Package} {c k : Nat} {x : Ctx} {y : Core} {u : CoreUnit} {h : Held} {q : Package} (hy : p.core c k = y)
    (hx : p.ctx c k = some x) (hst : y.stopped = false) (hf : p.filling c k = false) (hu : ∀ v, y.queue v = if v = u then [h] else [])
    (hs : h.since = none) (ht : y.tokenReady h.word = true) (hg : startCmd (p.setCore c k (y.setQueue u [])) c k x h = .gone q) :
    p.advance c k = some q := by
  have none' : ∀ v, v ≠ u → p.tryUnit c k x v = none := fun v hv => by
    unfold Package.tryUnit
    simp [hy, hu, hv]
  have some' : p.tryUnit c k x u = some q := by
    unfold Package.tryUnit
    simp [hy, hu, hs, ht, hg]
  unfold Package.advance
  simp only [hx, hy, hst, hf, Bool.or_self, Bool.false_eq_true, if_false]
  cases u
  · rw [some']; rfl
  · rw [none' .mx (by decide), some']; rfl
  · rw [none' .mx (by decide), none' .ac (by decide), some']; rfl
  · rw [none' .mx (by decide), none' .ac (by decide), none' .ve (by decide), some']; rfl

/-- The sequencer's one command starts and is done. -/
theorem Package.advance_seq {p : Package} {c k : Nat} {x : Ctx} {y : Core} {h : Held} {q : Package} (hy : p.core c k = y)
    (hx : p.ctx c k = some x) (hst : y.stopped = false) (hf : p.filling c k = false) (hu : ∀ v, y.queue v = []) (hh : y.seq = some h)
    (hs : h.since = none) (ht : y.tokenReady h.word = true) (hg : startCmd (p.setCore c k { y with seq := none }) c k x h = .gone q) :
    p.advance c k = some q := by
  have none' : ∀ v, p.tryUnit c k x v = none := fun v => by
    unfold Package.tryUnit
    simp [hy, hu]
  have qe : y.queuesEmpty = true := by
    have := hu .mx; have := hu .ac; have := hu .ve; have := hu .dm
    simp_all [Core.queuesEmpty, Core.queue]
  have some' : p.trySeq c k x = some q := by
    unfold Package.trySeq
    simp [hy, hh, hs, ht, qe, hg]
  unfold Package.advance
  simp only [hx, hy, hst, hf, Bool.or_self, Bool.false_eq_true, if_false]
  rw [none' .mx, none' .ac, none' .ve, none' .dm, some']; rfl

theorem Core.takeToken_underway (co : Core) (t s : Nat) : (co.underway.takeToken t).token s = (co.takeToken t).token s := by
  unfold Core.takeToken
  split <;> rfl

theorem Core.takeToken_same {a b : Core} (h : a.tokens = b.tokens) (t s : Nat) : (a.takeToken t).token s = (b.takeToken t).token s := by
  unfold Core.takeToken Core.setToken Core.token
  split <;> simp [h]

theorem Core.ne_default {co : Core} (h : co.since ≠ []) : co ≠ {} := fun e => h (by rw [e])

/-- A core about to dispatch its one word ends, two moves on, with the word's command done. -/
theorem Package.settle_word {p : Package} {c k n : Nat} {x : Ctx} {w : CmdWord} {q : Package} (hx : p.ctx c k = some x)
    (hd : opcodeDefined (opcodeOf w) = true) (hst : (p.core c k).stopped = false) (hf : p.filling c k = false) (hb : (p.core c k).behind = [w])
    (hq : { p.core c k with behind := [] }.quiet = true) (hs : (p.core c k).since ≠ [])
    (hl : (p.core c k).skip = false) (hp : predBit w = true → (p.core c k).pred (predIndex w) = true) (hwt : (p.core c k).tokenReady w = true)
    (hsig : signalOf w = 0 ∨ ((p.core c k).takeToken (waitOf w)).token (signalOf w) < 255)
    (hg : (p.core c k).ordinal ≠ 0 ∨ x.layer.predicated = false)
    (hr : runCommand (p.modCore c k (fun co => (co.underway).takeToken (waitOf w))) c k x (p.heldFor c k w) = .done q)
    (hqq : ((q.complete c k (p.heldFor c k w)).core c k).quiet = true) :
    p.settle c k (n + 2) = q.complete c k (p.heldFor c k w) := by
  simp only [Core.quiet, Bool.and_eq_true, List.isEmpty_iff, Option.isNone_iff_eq_none] at hq
  obtain ⟨⟨⟨⟨⟨h1, h2⟩, h3⟩, h4⟩, h5⟩, -⟩ := hq
  generalize hco : p.core c k = co at *
  have hpred : (!co.skip && (!predBit w || co.pred (predIndex w))) = true := by
    rw [hl]
    cases hbit : predBit w
    · rfl
    · simpa using hp hbit
  have hgate : (decide (co.ordinal = 0) && x.layer.predicated && x.run.isNone && (decide (x.dir = .fwd) || x.recompute) && !isGate w) = false := by
    rcases hg with e | e <;> simp [e]
  have hcd : co.canDispatch w = true := by
    unfold Core.canDispatch
    simp only [h5, Option.isNone_none, Bool.true_and]
    split
    · rfl
    · next u _ => cases u <;> simp [Core.queue, h1, h2, h3, h4]
  have a1 : p.advance c k = some ((p.setCore c k { co with behind := [] }).dispatch c k x w) := by
    simp [Package.advance, hx, hco, hst, hf, Package.tryUnit, Package.trySeq, Package.tryBehind, Core.queue, h1, h2, h3, h4, h5, hb, hcd]
  have hheld : p.heldFor c k w = { word := w, index := co.index, ordinal := co.ordinal, pred := true } := by simp [Package.heldFor, hco]
  have n0 : ({ co with behind := [] } : Core) ≠ {} := Core.ne_default hs
  have n1 : co.underway ≠ {} := Core.ne_default hs
  have e1 : (p.setCore c k { co with behind := [] }).dispatch c k x w =
      match unitOf (opcodeOf w) with
      | none => p.setCore c k { co.underway with seq := some (p.heldFor c k w) }
      | some u => p.setCore c k (co.underway.setQueue u [p.heldFor c k w]) := by
    rw [Package.dispatch_eq (co := { co with behind := [] }) (Package.core_setCore _ _ _ _) hpred hd hgate, Package.setCore_setCore _ _ _ _ n0, hheld]
    unfold Package.modCore
    rw [Package.core_setCore]
    refine (Package.setCore_setCore (x := co.underway) p c k _ n1).trans ?_
    split
    · rfl
    · next u _ => cases u <;> simp [Core.queue, Core.underway, Core.setQueue, h1, h2, h3, h4]
  have hst' : ∀ y : Core, y.layerPos = co.layerPos → (p.setCore c k y).ctx c k = some x := fun y hy => by
    rw [Package.ctx_setCore _ _ _ _ (by rw [hco]; exact hy), hx]
  have start : ∀ y : Core, y ≠ {} → (∃ b, y = co.underway.setQueue b []) ∨ y = { co.underway with seq := none } →
      startCmd ((p.setCore c k y)) c k x (p.heldFor c k w) = .gone (q.complete c k (p.heldFor c k w)) := by
    intro y ny hy
    have ey : y = co.underway := by
      rcases hy with ⟨b, rfl⟩ | rfl
      · cases b <;> simp [Core.setQueue, Core.underway, h1, h2, h3, h4]
      · simp [Core.underway, h5]
    subst ey
    refine startCmd_eq rfl rfl ?_ ?_
    · rw [Package.core_setCore, Core.takeToken_underway]; exact hsig
    · rw [← hr]
      congr 1
      unfold Package.modCore
      rw [Package.core_setCore, Package.setCore_setCore _ _ _ _ ny, hco]
      rfl
  have a2 : ((p.setCore c k { co with behind := [] }).dispatch c k x w).advance c k = some (q.complete c k (p.heldFor c k w)) := by
    rw [e1]
    cases hu : unitOf (opcodeOf w) with
    | none =>
      refine Package.advance_seq (h := p.heldFor c k w) (Package.core_setCore _ _ _ _) (hst' _ rfl) hst hf ?_ rfl rfl hwt ?_
      · intro v; cases v <;> assumption
      · refine (congrArg (fun z => startCmd z c k x _) (Package.setCore_setCore p c k (x := { co.underway with seq := some (p.heldFor c k w) })
          { co.underway with seq := none } (Core.ne_default hs))).trans ?_
        exact start _ (Core.ne_default hs) (.inr rfl)
    | some u =>
      have hs' : (co.underway.setQueue u [p.heldFor c k w]).since ≠ [] := by cases u <;> exact hs
      refine Package.advance_unit (u := u) (h := p.heldFor c k w) (Package.core_setCore _ _ _ _) (hst' _ (by cases u <;> rfl))
        (by cases u <;> exact hst) hf ?_ rfl (by cases u <;> exact hwt) ?_
      · intro v; cases u <;> cases v <;> simp [Core.setQueue, Core.queue, Core.underway, h1, h2, h3, h4]
      · have e2 : (co.underway.setQueue u [p.heldFor c k w]).setQueue u [] = co.underway.setQueue u [] := by cases u <;> rfl
        refine (congrArg (fun z => startCmd z c k x _) ((Package.setCore_setCore p c k (x := co.underway.setQueue u [p.heldFor c k w])
          _ (Core.ne_default hs')).trans (congrArg (fun z => p.setCore c k z) e2))).trans ?_
        exact start _ (Core.ne_default (by cases u <;> exact hs)) (.inl ⟨u, rfl⟩)
  show p.settle c k (n + 1 + 1) = _
  rw [Package.settle, a1]
  show Package.settle c k (n + 1) _ = _
  rw [Package.settle, a2]
  exact Package.settle_quiet _ _ _ _ hqq

/-- A core that takes a word at once does the word's command and no more. -/
theorem issue_done {p : Package} {op dt c k : Nat} {w : CmdWord} {x : Ctx} {q : Package} (h : CoreTakes (p.pass dt) c k x (withOpcode op w))
    (hd : opcodeDefined (opcodeOf (withOpcode op w)) = true)
    (hr : runCommand ((p.pass dt).taken c k (withOpcode op w)) c k x ((p.pass dt).heldFor c k (withOpcode op w)) = .done q)
    (hqq : ((q.complete c k ((p.pass dt).heldFor c k (withOpcode op w))).core c k).quiet = true) :
    issue op dt c k w p = q.complete c k ((p.pass dt).heldFor c k (withOpcode op w)) := by
  have ei : ∀ p1 : Package, p1 = p.pass dt → issue op dt c k w p = (match p1.ctx c k with
      | none => p1
      | some x => if !p1.serves c k x || (p1.core c k).left = 0 then p1 else (p1.accept c k (withOpcode op w)).run c k) := by
    rintro _ rfl; rfl
  have ei := ei _ rfl
  generalize p.pass dt = p1 at *
  generalize withOpcode op w = v at *
  rw [ei, h.ctx]
  simp only [h.serves, h.left, Bool.not_true, decide_false, Bool.or_self, Bool.false_eq_true, if_false]
  have hq := h.quiet
  have hsv := h.serves
  generalize hco : p1.core c k = co at *
  simp only [Core.quiet, Bool.and_eq_true, List.isEmpty_iff, Option.isNone_iff_eq_none] at hq
  obtain ⟨⟨⟨⟨⟨h1, h2⟩, h3⟩, h4⟩, h5⟩, h6⟩ := hq
  obtain ⟨pt, hpt, hcl⟩ := Package.watchPoint_core
    (p1.setCore c k { co with left := co.left - 1, since := co.since ++ [v], behind := co.behind ++ [v] }) c k
  rw [Package.core_setCore] at hpt
  have ea : p1.accept c k v = (p1.setCore c k { co with left := co.left - 1, since := co.since ++ [v], behind := co.behind ++ [v] }).watchPoint c k := by
    unfold Package.accept; rw [hco]
  have hac : (p1.accept c k v).core c k
      = Core.withPoint { co with left := co.left - 1, since := co.since ++ [v], behind := co.behind ++ [v] } pt := by rw [ea, hpt]
  have hst : co.stopped = false := by
    simp only [Package.serves, hco, Bool.and_eq_true, Bool.not_eq_true'] at hsv
    exact hsv.1.2
  have hheld : (p1.accept c k v).heldFor c k v = p1.heldFor c k v := by
    unfold Package.heldFor; rw [hac, hco]; rfl
  have hm : ((p1.accept c k v).core c k).moves = 4 + 2 := by
    rw [hac]; simp [Core.moves, Core.withPoint, h1, h2, h3, h4, h5, h6]
  unfold Package.run
  rw [hm, ← hheld]
  refine Package.settle_word h.after hd (by rw [hac]; exact hst) ?_ (by rw [hac]; simp [Core.withPoint, h6]) ?_
    (by rw [hac]; simp [Core.withPoint]) (by rw [hac]; exact hco ▸ h.live) (by rw [hac]; exact hco ▸ h.pred) (by rw [hac]; exact hco ▸ h.wait)
    (by rw [hac]; refine Or.imp id (fun e => ?_) (hco ▸ h.signal : _ ∨ (co.takeToken _).token _ < 255); refine Nat.lt_of_le_of_lt (Nat.le_of_eq (Core.takeToken_same ?_ _ _)) e; rfl) (by rw [hac]; exact hco ▸ h.gate) ?_ ?_
  · have hf := h.filled
    unfold Package.filling Package.clu at hf ⊢
    rw [ea, hcl]
    exact hf
  · rw [hac]; simp [Core.quiet, Core.withPoint, h1, h2, h3, h4, h5]
  · rw [hheld]; exact hr
  · rw [hheld]; exact hqq

theorem opcodeOf_withOpcode {op : Nat} (w : CmdWord) (h : op < 256) : opcodeOf (withOpcode op w) = op := by
  have e : putBits w.toNat 0 8 op < 2 ^ 256 := by
    refine Nat.lt_pow_two_of_testBit _ (fun i hi => ?_)
    rw [putBits_testBit]
    have := Nat.testBit_lt_two_pow (Nat.lt_of_lt_of_le w.isLt (Nat.pow_le_pow_right (by decide) hi))
    have h8 : ¬ i < 0 + 8 := by omega
    simp [h8, this]
  unfold opcodeOf withOpcode cw
  rw [BitVec.toNat_ofNat, Nat.mod_eq_of_lt e, bitsOf_putBits_same]
  exact Nat.mod_eq_of_lt h

/-- Quiet cores stay quiet. -/
def Package.Still (p q : Package) : Prop := ∀ c k, (p.core c k).quiet = true → (q.core c k).quiet = true

theorem Package.Still.refl (p : Package) : p.Still p := fun _ _ h => h
theorem Package.Still.trans {p q r : Package} (a : p.Still q) (b : q.Still r) : p.Still r := fun c k h => b c k (a c k h)

theorem Package.still_of_cores {p q : Package} (h : q.cores = p.cores) : p.Still q := fun c k hq => by
  unfold Package.core at *; rw [h]; exact hq

theorem Package.still_setCore (p : Package) (c k : Nat) (x : Core) (h : (p.core c k).quiet = true → x.quiet = true) : p.Still (p.setCore c k x) := by
  intro c' k' hq
  unfold Package.setCore Package.core at *
  rw [mapGet_mapSet]
  split
  · next e => rw [← e] at hq; exact h hq
  · exact hq

theorem Package.still_modCore (p : Package) (c k : Nat) (f : Core → Core) (h : ∀ co, co.quiet = true → (f co).quiet = true) : p.Still (p.modCore c k f) :=
  p.still_setCore c k _ (h _)

theorem Package.still_each {α : Type} (p : Package) (l : List α) (f : Package → α → Package) (h : ∀ (q : Package) e, q.Still (f q e)) : p.Still (p.each l f) :=
  Package.each_keeps (fun q => p.Still q) f (fun q e hq => hq.trans (h q e)) p l (Package.Still.refl p)

theorem Package.still_addStats (p : Package) (a b : Nat) (st : Stats) : p.Still (p.addStats a b st) := Package.still_of_cores rfl
theorem Package.still_bump64 (p : Package) (a n : Nat) : p.Still (p.bump64 a n) := Package.still_of_cores rfl

theorem Package.still_releaseStats (p : Package) (c k : Nat) : p.Still (p.releaseStats c k) :=
  (p.still_each _ _ (fun q _ => q.still_addStats _ _ _)).trans (Package.still_modCore _ _ _ _ (fun _ h => h))

theorem Package.still_passPoint (p : Package) (c k : Nat) : p.Still (p.passPoint c k) :=
  (p.still_releaseStats c k).trans (Package.still_modCore _ _ _ _ (fun _ h => h))

theorem Package.still_complete (p : Package) (c k : Nat) (h : Held) : p.Still (p.complete c k h) := by
  have a : p.Still (p.modCore c k (fun co => co.giveToken (signalOf h.word))) :=
    p.still_modCore _ _ _ (fun co hq => by unfold Core.giveToken; split <;> exact hq)
  unfold Package.complete
  dsimp only
  split
  · refine a.trans ?_
    unfold Package.syncPoint
    split
    · exact Package.still_bump64 _ _ _
    · exact Package.still_passPoint _ _ _
  · exact a

/-- What a core that takes a word at once is while the word's command runs: quiet. -/
theorem CoreTakes.quiet_taken {p : Package} {c k : Nat} {x : Ctx} {w : CmdWord} (h : CoreTakes p c k x w) : ((p.taken c k w).core c k).quiet = true := by
  have hq := h.quiet
  obtain ⟨pt, hpt, -⟩ := Package.watchPoint_core (p.setCore c k
    { p.core c k with left := (p.core c k).left - 1, since := (p.core c k).since ++ [w], behind := (p.core c k).behind ++ [w] }) c k
  rw [Package.core_setCore] at hpt
  have hac : (p.accept c k w).core c k = _ := hpt
  unfold Package.taken
  rw [Package.core_modCore, hac]
  simp only [Core.quiet, Bool.and_eq_true, List.isEmpty_iff, Option.isNone_iff_eq_none] at hq
  obtain ⟨⟨⟨⟨⟨h1, h2⟩, h3⟩, h4⟩, h5⟩, h6⟩ := hq
  unfold Core.takeToken
  split <;> simp [Core.quiet, Core.withPoint, Core.setToken, h1, h2, h3, h4, h5]

/-- A row of the opcode table runs as stated when its command ends with what `f` gives and leaves quiet cores quiet. -/
theorem commandRuns_of {op : Nat} {i : Nat → Nat → Nat → CmdWord → Instr} {ok : Package → Nat → Nat → Ctx → Held → Prop}
    {f : Package → Nat → Nat → Ctx → Held → Package} (he : ∀ dt c k w s, exec (i dt c k w) s = onPkg (issue op dt c k w) s) (hop : op < 256)
    (hd : opcodeDefined op = true)
    (hr : ∀ p c k x h, opcodeOf h.word = op → ok p c k x h → runCommand p c k x h = .done (f p c k x h))
    (hq : ∀ p c k x h, ok p c k x h → p.Still (f p c k x h)) : CommandRuns op i ok f := by
  intro s dt c k x w ht hok
  have hw : opcodeOf (withOpcode op w) = op := opcodeOf_withOpcode w hop
  rw [he]
  unfold onPkg
  rw [issue_done ht (by rw [hw]; exact hd) (hr _ _ _ _ _ hw hok)]
  exact Package.still_complete _ _ _ _ _ _ (hq _ _ _ _ _ hok _ _ ht.quiet_taken)

/-- Writing a vector operand. -/
theorem Package.still_vWrite (p : Package) (c k : Nat) (w : CmdWord) (i : Nat) (bs : List Byte) : p.Still (p.vWrite c k w i bs) := by
  have h (a : Nat) (l : List Byte) : ∀ co : Core, co.quiet = true → (co.putSlotBytes a l).quiet = true := by
    induction l generalizing a with
    | nil => intro co h; exact h
    | cons b l ih => intro co h; unfold Core.putSlotBytes; exact ih _ _ h
  unfold Package.vWrite Package.locWrite
  split
  · exact p.still_modCore _ _ _ (h _ _)
  · split
    · exact Package.still_of_cores rfl
    · exact p.still_modCore _ _ _ (fun _ h => h)

/-- A vector command that passes runs. -/
theorem vRun_done {p : Package} {c : Nat} {w : CmdWord} {a b m : List (Nat × Nat)} {f : Package → CmdEnd} (h : p.vPasses c w a b m) :
  vRun p c w a b m f = f p := by
  unfold vRun
  simp [h.1, h.2]

end Sys2Proof.Machine
end

