-- ==== Sys2Proof/WellFormed.lean ====
section
/-! DEFINITION. When a command can occur at all: its indices name something the hardware has, and its values fit the fields that carry
them. The meanings are total: a command that is not well formed has no counterpart in the hardware, and nothing is claimed of it. -/

namespace Sys2Proof

open Machine

namespace WellFormed

/-- A virtual stage (R48). -/
def okStage (n : Nat) : Bool := decide (n < Config.stages)
/-- A stage channel (R60): 0 to 3. -/
def okChan (n : Nat) : Bool := decide (n < 4)
/-- A global cluster (R48). -/
def okCluster (n : Nat) : Bool := decide (n < Config.clusters)
/-- A physical core of a cluster (R14). -/
def okCore (n : Nat) : Bool := decide (n < Config.coresPerCluster)
/-- An Eloarun link (R285). -/
def okLink (n : Nat) : Bool := decide (n < Config.links)
/-- A lane or a virtual channel of a link (R285, R292). -/
def okEighth (n : Nat) : Bool := decide (n < 8)
/-- A compute die position (R1). -/
def okDie (n : Nat) : Bool := decide (n < 8)
/-- A compute die position, or 8 for the hub die. -/
def okAnyDie (n : Nat) : Bool := decide (n < 9)
/-- A memory stack (R219). -/
def okStack (n : Nat) : Bool := decide (n < 32)
/-- A shroud (Table 1-2). -/
def okShroud (n : Nat) : Bool := decide (n < 12)
/-- A tie entry (R192). -/
def okTie (n : Nat) : Bool := decide (n < 64)
/-- A number of 16 bits: a node, a tag, a micro-batch. -/
def okB16 (n : Nat) : Bool := decide (n < 2 ^ 16)
/-- A number of 32 bits. -/
def okB32 (n : Nat) : Bool := decide (n < 2 ^ 32)
/-- A number of 64 bits: a register value, a step, a time. -/
def okB64 (n : Nat) : Bool := decide (n < 2 ^ 64)
/-- A package address (R220). -/
def okAddress (n : Nat) : Bool := decide (n < 2 ^ 42)
/-- A number of one byte. -/
def okB8 (n : Nat) : Bool := decide (n < 2 ^ 8)
/-- The half of a register that a 32-bit write names (R6). -/
def okHalf : Option Nat → Bool
  | none => true
  | some h => decide (h < 2)
/-- A node, or a PATH address. -/
def okDest : Option Nat → Bool
  | none => true
  | some n => okB16 n
/-- A payload's descriptor (Table 3-2). -/
def okOutput (o : Output) : Bool :=
  okStage o.stage && okB16 o.src.node && okStage o.src.stage && okChan o.src.chan && okB16 o.microBatch && okB64 o.step && okB32 o.check && okB32 o.scale
/-- A message (Table 12-5). -/
def okMsg (m : Msg) : Bool := okB16 m.dest && decide (m.cls < 16) && okB8 m.hops && okB16 m.src
/-- A host request (Table 12-8). -/
def okHostReq (r : HostReq) : Bool := okB16 r.tag && okB8 r.op && okB64 r.addr && decide (r.len < 2 ^ 16)
/-- A flit (Table 12-3). -/
def okFlit (f : WireFlit) : Bool := decide (f.typ < 4) && decide (f.vc < 8) && decide (f.cvc < 8)
/-- A transmission's header (Table 11-2). -/
def okCruHeader (h : CruHeader) : Bool := okB16 h.index && okB16 h.sender && okB16 h.dest && okB64 h.step
/-- An expert header (R210). -/
def okMoeHeader (h : MoeHeader) : Bool := okStage h.stage && decide (h.expert < 256) && okB16 h.microBatch && okB64 h.step

end WellFormed

open WellFormed in
/-- Is the command one that can occur. -/
def Instr.wf : Instr → Bool
  | .tick _ => true
  | .tickNotice _ => true
  | .phaseLateStart _ stage => okStage stage
  | .workDeadline _ => true
  | .computeEnd _ stage cluster core => okStage stage && okCluster cluster && okCore core
  | .outputLanded _ stage chan => okStage stage && okChan chan
  | .phaseHung _ stage => okStage stage
  | .periodChange => true
  | .announceReceive _ link _ => okLink link
  | .electionEnd _ => true
  | .electionTimeout _ => true
  | .acquireTimeout _ => true
  | .timeMessageReceive _ link _ => okLink link
  | .delayRequestSend _ => true
  | .delayRequestReceive _ link t3 => okLink link && okB64 t3
  | .delayResponseReceive _ link t4 => okLink link && okB64 t4
  | .holdoverEntry _ => true
  | .rejoin => true
  | .rejoinStep _ => true
  | .beatEnable _ _ => true
  | .refLock _ _ => true
  | .refLoss _ => true
  | .secondPulse _ => true
  | .microBatchReceive _ o => okOutput o
  | .creditReceive _ stage chan _ => okStage stage && okChan chan
  | .channelOpenReceive _ stage _ x => okStage stage && okB16 x.node && okStage x.stage && okChan x.chan
  | .channelOpenAnswer _ stage chan _ _ _ _ => okStage stage && okChan chan
  | .channelOpenTimeout _ stage chan => okStage stage && okChan chan
  | .stageDrainDeadline _ stage => okStage stage
  | .stageDisabled _ stage => okStage stage
  | .fqPush _ stage _ => okStage stage
  | .qflushForward stage => okStage stage
  | .qflushBackward stage => okStage stage
  | .halHold _ stage _ => okStage stage
  | .halClear stage => okStage stage
  | .winIssueStage stage _ half value => okStage stage && okHalf half && okB64 value
  | .winPush stage half value => okStage stage && okHalf half && okB64 value
  | .winFlush stage => okStage stage
  | .layerListStart _ cluster core => okCluster cluster && okCore core
  | .nop _ cluster core _ => okCluster cluster && okCore core
  | .sync _ cluster core _ => okCluster cluster && okCore core
  | .mma _ cluster core _ => okCluster cluster && okCore core
  | .trimWindowEnd _ cluster core => okCluster cluster && okCore core
  | .rampDownStep _ cluster core => okCluster cluster && okCore core
  | .add _ cluster core _ => okCluster cluster && okCore core
  | .mul _ cluster core _ => okCluster cluster && okCore core
  | .fma _ cluster core _ => okCluster cluster && okCore core
  | .max _ cluster core _ => okCluster cluster && okCore core
  | .min _ cluster core _ => okCluster cluster && okCore core
  | .exp _ cluster core _ => okCluster cluster && okCore core
  | .log _ cluster core _ => okCluster cluster && okCore core
  | .rcp _ cluster core _ => okCluster cluster && okCore core
  | .rsqrt _ cluster core _ => okCluster cluster && okCore core
  | .tanh _ cluster core _ => okCluster cluster && okCore core
  | .gelu _ cluster core _ => okCluster cluster && okCore core
  | .silu _ cluster core _ => okCluster cluster && okCore core
  | .sigmoid _ cluster core _ => okCluster cluster && okCore core
  | .cvt _ cluster core _ => okCluster cluster && okCore core
  | .maskBits _ cluster core _ => okCluster cluster && okCore core
  | .signBits _ cluster core _ => okCluster cluster && okCore core
  | .deriv _ cluster core _ => okCluster cluster && okCore core
  | .rowreduce _ cluster core _ => okCluster cluster && okCore core
  | .rng _ cluster core _ => okCluster cluster && okCore core
  | .amaxBarrierRelease _ stage slot => okStage stage && okB32 slot
  | .accDrain _ cluster core _ => okCluster cluster && okCore core
  | .accLoad _ cluster core _ => okCluster cluster && okCore core
  | .accZero _ cluster core _ => okCluster cluster && okCore core
  | .accGcfg _ cluster core _ => okCluster cluster && okCore core
  | .accSpill _ cluster core _ => okCluster cluster && okCore core
  | .accClose _ cluster core _ => okCluster cluster && okCore core
  | .accDiscard _ cluster core _ => okCluster cluster && okCore core
  | .accRsStore _ cluster core _ => okCluster cluster && okCore core
  | .accTsStore _ cluster core _ => okCluster cluster && okCore core
  | .dmLoad _ cluster core _ _ => okCluster cluster && okCore core
  | .dmStore _ cluster core _ => okCluster cluster && okCore core
  | .dmLocal _ cluster core _ => okCluster cluster && okCore core
  | .dmOutdesc _ cluster core _ => okCluster cluster && okCore core
  | .pset _ cluster core _ => okCluster cluster && okCore core
  | .skipgen _ cluster core _ => okCluster cluster && okCore core
  | .moeRoute _ cluster core _ => okCluster cluster && okCore core
  | .moePlacement _ stage _ => okStage stage
  | .moeWait _ cluster core _ => okCluster cluster && okCore core
  | .moeHeaderReceive _ h _ => okMoeHeader h
  | .moeWaitComplete _ cluster core => okCluster cluster && okCore core
  | .moeArriveDeadline _ cluster core => okCluster cluster && okCore core
  | .moeReturn _ cluster core _ => okCluster cluster && okCore core
  | .moeReturnReceive _ stage _ expert step microBatch _ _ => okStage stage && okB8 expert && okB64 step && okB16 microBatch
  | .moeCombine _ cluster core _ => okCluster cluster && okCore core
  | .moeCombineComplete _ cluster core => okCluster cluster && okCore core
  | .moeReturnDeadline _ cluster core => okCluster cluster && okCore core
  | .tieFold _ tie => okTie tie
  | .tieFoldDone _ tie => okTie tie
  | .assayCheckDone _ cluster core _ => okCluster cluster && okCore core
  | .warmForce slot => okB32 slot
  | .warmForceAll => true
  | .scrubRead _ stack _ _ => okStack stack
  | .stackThermal _ stack _ => okStack stack
  | .pourRegionDone _ stack _ => okStack stack
  | .gatherRequestReceive _ node stage version _ _ => okB16 node && okStage stage && okB64 version
  | .gatherWaitExpire _ node stage => okB16 node && okStage stage
  | .gatherBlockReceive _ stage version _ crc _ _ => okStage stage && okB64 version && okB32 crc
  | .gatherAbsentReceive _ stage version _ => okStage stage && okB64 version
  | .contributionReady _ index step => okB16 index && okB64 step
  | .admissionRequest _ node index step => okB16 node && okB16 index && okB64 step
  | .admissionGrant _ node index step => okB16 node && okB16 index && okB64 step
  | .contributionReceive _ h _ => okCruHeader h
  | .ringPartialReceive _ h _ => okCruHeader h
  | .softDeadline _ index => okB16 index
  | .hardLimit _ index => okB16 index
  | .resultWrite _ index => okB16 index
  | .ownReportReady _ step => okB64 step
  | .childReportReceive _ child _ => okB16 child
  | .treeLimitExpiry _ step => okB64 step
  | .stepDecide _ step => okB64 step
  | .stepOutcomeReceive _ _ => true
  | .dataFlitReceive _ k f _ => okLink k && okFlit f
  | .idleFlitReceive _ k f _ => okLink k && okFlit f
  | .nakReceive _ k f _ => okLink k && okFlit f
  | .alignReceive _ k f _ => okLink k && okFlit f
  | .flitSend _ k => okLink k
  | .messageReceive _ k m _ => okLink k && okMsg m
  | .trainingStart _ k => okLink k
  | .partnerExchange _ k _ _ => okLink k
  | .linkUp _ k => okLink k
  | .trainingLimit _ k => okLink k
  | .trainingRestartTimer _ k => okLink k
  | .lightDetected _ k => okLink k
  | .codewordLockLoss _ k lane => okLink k && okEighth lane
  | .retrain k => okLink k
  | .fastRetrainDone _ k _ => okLink k
  | .fastRetrainTimeout _ k => okLink k
  | .healthWindow _ k _ _ => okLink k
  | .linkDisable _ k => okLink k
  | .linkDisableComplete _ k => okLink k
  | .opticalTelemetry _ k _ _ => okLink k
  | .vcStuck _ k v => okLink k && okEighth v
  | .regRd _ link src dest r => okLink link && okB16 src && okDest dest && okHostReq r
  | .regWr _ link src dest r => okLink link && okB16 src && okDest dest && okHostReq r
  | .memRd _ link src dest r _ => okLink link && okB16 src && okDest dest && okHostReq r
  | .memWr _ link src dest r => okLink link && okB16 src && okDest dest && okHostReq r
  | .hostResponseReceive _ _ => true
  | .hostRequestTimeout _ => true
  | .bridgeActivate _ => true
  | .eventRecordSend _ => true
  | .heartbeatSend _ die => okAnyDie die
  | .heartbeatMissing _ die _ => okDie die
  | .fenceRelease _ => true
  | .softwareFence _ die => okDie die
  | .dieReadmit _ die => okDie die
  | .readmitStepDone _ die _ _ => okDie die
  | .readmitActivate _ die => okDie die
  | .capabilityRecordReceive _ die gen _ _ => okAnyDie die && okB16 gen
  | .shroudTrainingDone _ shroud _ _ => okShroud shroud
  | .widthBeaconSend _ shroud => okShroud shroud
  | .widthBeaconReceive _ shroud => okShroud shroud
  | .shroudRetrain shroud => okShroud shroud
  | .shroudRestore shroud => okShroud shroud
  | .gatePolicyLoad _ => true
  | .guestTrainingDone _ vendor device _ => okB16 vendor && okB16 device
  | .gateClose => true
  | .guestLinkLoss _ => true
  | .guestRegRd _ dest r => okB64 dest && okHostReq r
  | .guestRegWr _ dest r => okB64 dest && okHostReq r
  | .guestMemRd _ dest r _ => okB64 dest && okHostReq r
  | .guestMemWr _ dest r => okB64 dest && okHostReq r
  | .guestEvent _ dest r => okB64 dest && okHostReq r
  | .gateHeldRelease _ _ => true
  | .powerManagerInterval _ _ _ _ _ _ _ _ => true
  | .thermalInterval _ _ _ => true
  | .thermalTrip _ die => okAnyDie die
  | .stackOvertemp _ stack _ => okStack stack
  | .registerWrite requester addr _ value => okB16 requester && okB64 addr && okB64 value
  | .txnBegin requester value => okB16 requester && okB64 value
  | .txnCommit requester => okB16 requester
  | .txnValidationDone _ => true
  | .txnRollback => true
  | .txnTimeout _ => true
  | .irqForce page value => okAddress page && okB64 value
  | .ringDoorbell die value => okAnyDie die && okB64 value
  | .commandFetch _ die _ => okAnyDie die
  | .ringNop _ die tag => okAnyDie die && okB16 tag
  | .copy _ die tag _ => okAnyDie die && okB16 tag
  | .fill _ die tag => okAnyDie die && okB16 tag
  | .check _ die tag _ => okAnyDie die && okB16 tag
  | .run _ die tag => okDie die && okB16 tag
  | .bist _ die tag => okDie die && okB16 tag
  | .snapCapture _ tag => okB16 tag
  | .snapRestore _ tag => okB16 tag
  | .rewind _ tag => okB16 tag
  | .commandComplete _ die tag => okAnyDie die && okB16 tag
  | .cqStall _ die => okAnyDie die
  | .cqHeadWrite die value => okAnyDie die && okB64 value
  | .commandAbort die value => okAnyDie die && okB64 value
  | .ringResume die => okAnyDie die
  | .ringReset die => okAnyDie die
  | .ringDrainDeadline _ die => okAnyDie die
  | .telemetryRecord _ => true
  | .setEndpointId _ eid => okB8 eid
  | .getEndpointId _ => true
  | .getEndpointUuid _ => true
  | .getMctpVersionSupport _ => true
  | .getMessageTypeSupport _ => true
  | .getVendorDefinedMsgSupport _ => true
  | .getIdentity _ => true
  | .getTelemetry _ => true
  | .readErrlog _ die first _ => okAnyDie die && okB16 first
  | .getMeasurements _ peer _ => okDest peer
  | .readReg _ _ => true
  | .lockstepMismatch _ cluster core => okCluster cluster && okCore core
  | .watchdogExpiry _ cluster core => okCluster cluster && okCore core
  | .coreEccError _ cluster core _ => okCluster cluster && okCore core
  | .clusterEccError _ cluster _ _ _ => okCluster cluster
  | .coreRepairDone _ cluster => okCluster cluster
  | .queuedFaultServe _ cluster => okCluster cluster
  | .hubFatal _ cause => okB16 cause
  | .errLogHeadWrite die value => okAnyDie die && okB64 value
  | .errFatalClear die => okAnyDie die
  | .errInject die value => okAnyDie die && okB64 value
  | .captureFreezeEnd _ => true
  | .sectionReadDone _ _ => true
  | .snapshotReceive _ node _ _ => okB16 node
  | .captureNoticeReceive _ step => okB64 step
  | .restoreVerifyDone _ _ _ => true
  | .restoreWriteDone _ => true
  | .snapCadEpoch => true
  | .snapFailNote value => okB64 value
  | .powerGood _ _ _ _ => true
  | .diePowerUp _ die _ => okDie die
  | .dieSelftestDone _ die _ _ _ _ => okDie die
  | .dieBootTimeout _ die => okDie die
  | .pkgReady _ => true
  | .rstNAssert _ => true
  | .pwrResetCold value => okB64 value
  | .pwrResetWarm value _ => okB64 value
  | .warmResetStart _ _ => true
  | .vinLoss => true
  | .refclkLoss _ => true
  | .railFault _ _ => true
  | .bistRunStart _ die _ => okDie die
  | .bistWaitTimeout _ die => okDie die
  | .bistRunDone _ die _ _ _ _ => okDie die
  | .ledgerWriteDone _ _ => true
  | .newNonce => true
  | .tokenReturn _ _ => true
  | .tokenDebug _ => true
  | .tokenRevoke _ => true
  | .tokenDeploy _ => true
  | .tokenEnd _ _ => true
  | .extend => true
  | .hostReportRequest value => okB64 value
  | .reportDone _ => true
  | .reportHoldExpiry _ => true
  | .arbAdvance value => okB64 value
  | .arbBurnDone _ => true
  | .dbgHalt => true
  | .dbgResume => true
  | .dbgReadReg _ => true
  | .dbgWriteReg _ => true
  | .dbgReadMem _ => true
  | .dbgWriteMem _ => true
  | .reservedOpcode _ cluster core _ => okCluster cluster && okCore core
  | .tokenKindReserved => true
  | .testPortTck _ _ _ _ => true

end Sys2Proof
end

