-- ==== Sys2Proof/Tests/Slice0.lean ====
section
/-! SUPPORT. A concrete state and operands for the hypotheses of each statement, clause by clause, and ill-formed commands that the checks of
WellFormed.lean refuse. -/

namespace Sys2Proof.Tests

set_option Elab.async false

open Sys2Proof Sys2Proof.Machine


/-! ### States -/

def on (f : Package → Package) : State := { State.reset with pkg := f State.reset.pkg }
def ticking (p : Package) : Package :=
  { (((p.put BEAT_CTRL_ENABLE 1).put BEAT_STATUS_STATE 3).put PKG_STATUS_READY 1) with beat := { p.beat with epochHeld := true } }
def linkOn (k : Nat) (p : Package) : Package := p.setLinkState k LINK_UP
/-- A ticking package whose stage 0 is READY, with version 0 current and queues of four slots. -/
def stage0 (f : Stage → Stage) (p : Package) : Package :=
  ((((((((ticking p).put (STG_STATUS_STATE 0) 2).put (STG_VRING_CFG_DEPTH 0) 2).setVRole 0 0 V_CURRENT).put (STG_FQ_CFG_DEPTH 0) 4).put
    (STG_FQ_CFG_SLOT_UNITS 0) 1).put (STG_BQ_CFG_DEPTH 0) 4).wr (STG_FQ_PBASE 0) 0x200000).wr (STG_FQ_BASE 0) 0x100000 |>.modStg 0 f
def sender0 : Sender := { node := 0, stage := 1, chan := 2, route := 1 }
def out0 : Output :=
  { stage := 0, dir := .fwd, src := sender0, last := false, microBatch := 3, format := 0, step := 5, version := 0, bytes := 3,
    check := crc32c [1, 2, 3], scale := 0, data := [1, 2, 3] }
def phase0 : Phase := { dir := .fwd, step := 5, microBatch := 3, index := 0, winTag := 0, version := 0, beat := 0, tickAt := 0, startAt := 0, entry := 0 }
def window0 : Window :=
  { owner := 0, fwdBase := 0, fwdCount := 0, bwdBase := 3, bwdCount := 1, notify := true, ckptAll := false, lag := 0, step := 5, tag := 9 }
def desc0 : Desc := { flags := descFlags true .bwd true, microBatch := 3, format := 0, step := 5, version := 0, payload := 0x300000, bytes := 64,
                      check := 0, scale := 0, source := 0, land := 0 }
def stash0 : StashRec := { step := 5, microBatch := 3, dirIndex := 0, base := 0, bytes := 64, version := 0, level := 0, stageCkpt := false, inputCopy := false }
/-- Stage 0's group has a backward phase to start, with its descriptor in memory and its record in the stash. -/
def bwd0 (p : Package) : Package :=
  let p := stage0 (fun x => { x with bq := { entries := [(0, .valid)], tail := 1 }, stash := [stash0] }) p
  let p := (p.put (HAL_WIN_STATUS_STATE 0) WIN_BWD).modGrp 0 (fun g => { g with cur := some window0 })
  ((p.put (STG_VRING_STATE_RESOLVED_STEP 0) 4).wr (STG_BQ_BASE 0) 0x400000).store 0x400000 desc0.toBytes
/-- A command word with given field values at given bits. -/
def wd (l : List (Nat × Nat)) : CmdWord := BitVec.ofNat 256 ((l.map (fun e => e.2 * 2 ^ e.1)).sum)
/-- Stage 0 runs its phase on cluster 0, whose core 0 has three commands of its list left. -/
def core0 (f : Core → Core) (p : Package) : Package :=
  (stage0 (fun x => { x with phase := some phase0, clusters := [0] }) p).setCore 0 0 (f { serving := some (1, 0), left := 3, layerPos := 1 })
def ctx0 : Ctx :=
  { stage := 0, run := none, step := 5, microBatch := 3, dir := .fwd, layer := Layer.none, layerIdx := 0, rank := 0, recompute := false, inScale := 0,
    version := 0 }
/-- The conditions of `CoreTakes`, as a value. -/
def takes (p : Package) (c k : Nat) (x : Ctx) (w : CmdWord) : Bool :=
  decide (p.ctx c k = some x) && decide ((p.accept c k w).ctx c k = some x) && p.serves c k x && decide ((p.core c k).left ≠ 0) && (p.core c k).quiet
    && !p.filling c k && !(p.core c k).skip && (!predBit w || (p.core c k).pred (predIndex w)) && (p.core c k).tokenReady w
    && (decide (signalOf w = 0) || decide (((p.core c k).takeToken (waitOf w)).token (signalOf w) < 255))
    && (decide ((p.core c k).ordinal ≠ 0) || !x.layer.predicated)
def run0 : RunJob := { ring := 0, tag := 7, die := 0, first := 0, count := 1, layer := 0, list := 0x10000, len := 2, startAt := 0 }
def drain0 : CmdWord := wd [(11, 1), (80, 8), (128, 1), (160, F32_ONE)]
/-- Group 1 is bound to slot 3, with one open element and one K-step in block 0. -/
def grp0 (co : Core) : Core := (co.setSlot 3 { opened := 1, group := 1, elems := [(0, F32_ONE)] }).setGroup 1 { slot := some 3, steps := [1] }
/-- Core 0's stage has the expert table 0 with one expert that it owns. -/
def moe0 (f : Core → Core) (p : Package) : Package :=
  let p := (((core0 f p).put ⟨FEATURE_ACCEPT .pkg 0, 10, 1⟩ 1).wr MOE_TDIR_COUNT 1).wr MOE_TDIR_BASE 0x500000
  (p.store 0x500000 (leBytes 8 0x500100)).store 0x500100
    (leBytes 2 1 ++ leBytes 1 1 ++ leBytes 1 5 ++ leBytes 2 32 ++ leBytes 1 5 ++ leBytes 57 0
      ++ leBytes 2 8 ++ leBytes 1 1 ++ leBytes 1 0 ++ leBytes 2 1 ++ leBytes 2 0 ++ leBytes 8 0 ++ leBytes 2 0 ++ leBytes 2 16 ++ leBytes 12 0)
def table0 : MoeTable :=
  { experts := 1, kRoute := 1, rowFmt := 5, rowElems := 32, retFmt := 5, tokensMax := 0, logOffset := 0, logBytes := 0, addr := 0x500100 }
/-- The package once a core has used table 0. -/
def used0 (p : Package) : Package := { p with moe := { p.moe with checked := (0, 0, 0) :: p.moe.checked } }
def taken0 (p : Package) (op : Nat) (w : CmdWord) : Package := p.taken 0 0 (withOpcode op w)
def again0 : Ctx := { ctx0 with recompute := true }
/-- A backward phase that runs its forward lists again. -/
def recompute0 (f : Core → Core) (p : Package) : Package :=
  (moe0 f p).modStg 0 (fun x => { x with phase := some { phase0 with dir := .bwd, recompute := true } }) |>.put (STG_LAYERS_COUNT 0) 1
def ctxR : Ctx := { ctx0 with dir := .bwd, recompute := true }
def held0 (op : Nat) (w : CmdWord) : Held := { word := withOpcode op w, index := 0, ordinal := 0, pred := true, since := some 0 }
def header0 : MoeHeader := { stage := 0, table := 0, expert := 0, sender := 0, step := 5, microBatch := 3, dir := .fwd, count := 1, src := sender0 }
def issues0 : List RouteIssue := (List.range 16).map (fun k => routeIssue 0 k (withOpcode 0xA4 (wd [(96, 0)])))
/-- Core 0 waits in its sequencer with a command of an opcode, and the one sender's header has come. -/
def waits0 (op : Nat) : State :=
  on (fun p => let p := moe0 (fun co => { co with seq := some (held0 op 0) }) p; { p with moe := { p.moe with headers := [header0] } })
/-- Stage 0's package has one history record, of zeros but for a current-amax flag as given. -/
def hist0 (flags : Nat) (p : Package) : Package :=
  (((stage0 id p).wr NUM_HIST_SLOTS 1).wr NUM_HIST_BASE 0x600000).store 0x600003 (leBytes 1 flags)
/-- A Pour of step 5 with region 0, four elements of FORM 0 with FP32 state in stack 0. -/
def pour0 : PourJob := { step := 5, clip := F32_ONE, perRegion := false, startAt := 0, regions := [0], hp := [(0, leBytes 64 0)] }
def regionBytes0 : List Byte :=
  leBytes 5 0 ++ leBytes 1 5 ++ leBytes 1 5 ++ leBytes 1 1 ++ leBytes 8 0 ++ leBytes 8 4 ++ leBytes 8 0x20000010000 ++ leBytes 8 0x20000011000 ++ leBytes 8 0
    ++ leBytes 8 0x20000012000 ++ leBytes 72 0
def pouring0 (p : Package) : Package :=
  { ((hist0 0 p).wr POUR_RTAB_BASE 0x700000).store 0x700000 regionBytes0 with pours := [pour0] }
/-- A tie entry with one use, stage 0's layer 0, of two elements. -/
def tieBytes0 : List Byte := leBytes 2 9 ++ leBytes 1 1 ++ leBytes 5 0 ++ leBytes 8 2 ++ leBytes 8 0x720000 ++ leBytes 8 0x710000 ++ leBytes 32 0
def tied0 (p : Package) : Package :=
  (((hist0 0 p).put BWD_CFG_TIES 1).wr BWD_TIE_BASE 0x700000).store 0x700000 tieBytes0 |>.modStg 0 (fun x => { x with lastBackward := some 5 })
def fold0 : Fold := { tie := 0, tieId := 9, step := 5, startAt := 0, stages := [0] }
def blk0 : GatherBlk := { layer := 0, member := 1, ofs := 4096, len := 3 }
def gath0 (b : GatherBlk) (p : Package) : Package := (stage0 id p).setGather 0 { version := 0, out := [b], notReady := [0] }
def fetch0 : HeldFetch := { node := 0x21, stage := 0, version := 4, ofs := 0, len := 64, since := 0 }
def assay0 (j : AssayJob) : State := on (core0 (fun co => { co with assay := some j }))
def job0 : AssayJob := { stage := 0, step := 5, sums := [{ n := F32_ONE, w := F32_ONE, s := F32_ONE }] }
/-- Bucket 0, of tie entry 0 under DIRECT with two elements, and its gradient array; the tie has been folded for step 5. -/
def bktBytes0 : List Byte :=
  leBytes 4 7 ++ leBytes 1 0 ++ leBytes 1 5 ++ leBytes 1 0 ++ leBytes 1 5 ++ leBytes 2 0 ++ leBytes 2 0 ++ leBytes 1 1 ++ leBytes 3 0 ++ leBytes 8 2
    ++ leBytes 8 2 ++ leBytes 8 0x750000 ++ leBytes 24 0
def bkt0 : Bucket := Bucket.ofBytes bktBytes0
def cru0 (f : CruUnit → CruUnit) (p : Package) : Package :=
  let p := (((tied0 p).wr POUR_RTAB_BASE 0x730000).store 0x730000 regionBytes0).wr CRU_BTAB_BASE 0x740000
  let p := ((((p.wr CRU_CFG 0).wr CRU_BTAB_COUNT 1)).wr CRU_RECV_SIZE 4096).store 0x740000 bktBytes0
  { p with folded := [(0, 6)], cru := f p.cru }
def bctx0 : BktCtx := { bucket := 0, step := 5, openBeat := some 0, acc := [0, 0] }
def cruHeader0 : CruHeader :=
  { bucketId := 7, index := 0, flags := 0, format := 5, step := 5, sender := 0x21, dest := 0, member := 0, count := 1, elements := 2, sum := 0,
    abs := 0, sumC := 0, absC := 0 }
def xmit0 : Xmit := { node := 0x21, mask := 1, header := cruHeader0, data := [0, 0, 0, 0] }
def region0 : Region := Region.ofBytes regionBytes0
def scale0 : Int × Nat := ((on (cru0 id)).pkg.bucketScale bkt0 5).getD (0, 0)
/-- Bucket 0 has its context, as given. -/
def opened0 (x : BktCtx) : State := on (cru0 (fun c => { c with ctxs := [(0, x)] }))
def report0 : StepReport := { step := 5, stall := false, missing := false, nonfinite := false, cksum := false, n2 := 0, stats := [] }
def outcome0 : Outcome := { step := 5, commit := false, cause := 1, perRegion := false, clip := 0, norm := 0, stats := [] }
/-- A node of the step tree with one child, and its account of step 5. -/
def tree0 (a : StepAcct) : State :=
  on (fun p => let p := (ticking p).wr CRU_TREE_CFG 0; { (p.put CRU_TREE_CFG_CHILDREN 1).put CRU_TREE_CFG_ROOT 1 with cru := { p.cru with steps := [(5, a)] } })
def flit0 (typ seq : Nat) : WireFlit :=
  { typ := typ, seq := seq, ack := none, vc := 2, som := true, eom := true, cvc := 0, bytes := 64, credit := 0 }
def port0 (f : Link → Link) : State := on (fun p => (linkOn 3 p).modPort 3 f)
def msg0 : Msg := { dest := 0x21, cls := CLS_CONTROL, hops := 4, src := 0x22, len := 8, body := .fields 9 [] [] }
def txFlit0 : TxFlit := { seq := 4, vc := 2, som := true, eom := true, bytes := 64, resends := 0, msg := msg0 }
/-- A message waits on every channel; the partner's shares give each this many flits. -/
def queued0 (share : Nat) (l : Link) : Link :=
  { l with flitCount := 1, vcs := List.replicate 8 { msgs := [msg0] }, peerShares := List.replicate 8 share }
def partner0 : Partner := { serial := 77, node := 0x21, nodeValid := true, domain := 0, link := 5, adapter := false, revision := 1, shares := [] }
/-- Link 3 in a state, with link firmware running. -/
def link0 (st : Nat) (f : Link → Link) : State :=
  on (fun p => { ((p.put (LNK_CTRL_ENABLE 3) 1).setLinkState 3 st).modPort 3 f with pwr := { p.pwr with fw := true } })
def pick0 : Nat × Nat × Nat := (((port0 (queued0 8)).pkg.port 3).pick ((port0 (queued0 8)).pkg.rd (LNK_VC_WEIGHT 3))).getD (0, 0, 0)
/-- A READY package of node 0x21 with a host on link 0 and a package route to node 0x22 on link 3. -/
def host0 (p : Package) : Package :=
  let p := (((linkOn 3 (linkOn 0 p)).put (LNK_STATUS_HOST_MODE 0) 1).put PKG_STATUS_READY 1).put LNK_NODE_VALID 1
  let p := (p.put LNK_NODE_NODE 0x21).put LNK_HB_CTRL_ACTIVE 1
  { p with lnk := { p.lnk with routes := [(0x22, 8)] } }
def req0 (a len : Nat) (data : List Byte) : HostReq :=
  { tag := 3, op := 0, width32 := false, addr := a, len := len, data := data, path := [], back := [] }
def rsp0 : HostRsp := { tag := 3, status := 0, data := [], back := [] }
def evRec0 : EventRec :=
  { seq := 0, code := 0, event := 0, inst := 0, time := 0, count := 1, forced := false, lossBefore := false, arg0 := 0, arg1 := 0 }
/-- The board-management record's receiver is this package's own host. -/
def events0 (p : Package) : Package :=
  let p := ((host0 p).put LNK_HB_NODE_NODE 0x21).put LNK_HB_NODE_VALID 1
  { p with evq := { p.evq with recs := [evRec0] } }
def shroud0 (st : Nat) (f : Shroud → Shroud) : State := on (fun p => (p.setShroudState 2 st).modShroud 2 f)
/-- A die at a state of `FAB_DIE_STATE` with a re-admission at a step. -/
def die0 (d st : Nat) (j : Option (Nat × Nat)) : State :=
  on (fun p => let p := p.setDieState d st; { p with fab := { p.fab with readmits := (j.map (fun x => (d, x))).toList } })
/-- A policy of serial 5 that permits every operation: one window of all of memory's first 8 KiB, the BEAT page, and 9 W. -/
def policy0 (rates limit : Nat) : List Byte :=
  leBytes 4 GATE_MAGIC ++ leBytes 2 1 ++ leBytes 2 512 ++ leBytes 4 5 ++ leBytes 2 0x1D1 ++ leBytes 2 9 ++ leBytes 2 31 ++ leBytes 1 1 ++ leBytes 1 1
    ++ leBytes 4 rates ++ leBytes 4 rates ++ leBytes 4 rates ++ leBytes 1 9 ++ leBytes 1 0 ++ leBytes 2 limit ++ leBytes 8 State.reset.part.ownerKeyId
    ++ leBytes 20 0 ++ (leBytes 8 0 ++ leBytes 4 2 ++ leBytes 1 3 ++ leBytes 3 0) ++ leBytes 240 0 ++ (leBytes 4 0x2000 ++ leBytes 2 1 ++ leBytes 2 0)
    ++ leBytes 56 0 ++ leBytes 128 0
/-- A QDX7G whose hub firmware runs, its guest site in a state. -/
def site0 (st rates limit : Nat) (f : GateUnit → GateUnit) : State :=
  on (fun p =>
    let p := { p with variant := .qdx7g, pwr := { p.pwr with fw := true } }
    ((p.put GATE_STATUS_STATE st).modGate (fun g => f { g with policy := policy0 rates limit, tokRd := 2 ^ 20, tokWr := 2 ^ 20, tokReq := 256000 })))
/-- The closed site's policy stands in memory. -/
def loads0 (b : List Byte) : State :=
  on (fun p => (((({ p with variant := .qdx7g, pwr := { p.pwr with fw := true } } : Package).put GATE_STATUS_STATE SITE_CLOSED).wr GATE_POLICY_BASE 0x800000)).store 0x800000 b)
/-- A transaction of node 0x30, open since reset. -/
def txn0 (f : Txn → Txn) (p : Package) : Package := ((p.put PKG_TXN_STATUS_STATE TXN_OPEN).put PKG_TXN_STATUS_OWNER 0x30).modTxn f
def regAt (g : Page) (a : Nat) : RegDef := (g.regs.find? (fun r => r.lists (a % 0x1000))).getD ⟨0, 0, 0, .ro, 0, 0⟩
/-- A descriptor of a class with tag 5 and the rest of its first 40 bytes. -/
def rdesc0 (cls : Nat) (src dst n v : Nat) : List Byte := leBytes 1 cls ++ leBytes 1 0 ++ leBytes 2 5 ++ leBytes 4 0 ++ leBytes 8 src ++ leBytes 8 dst ++ leBytes 8 n ++ leBytes 8 v ++ leBytes 24 0
def rcmd0 (b : List Byte) : RingCmd := { tag := 5, cls := descCls b, fence := false, desc := b }
/-- Ring d of a READY package is ACTIVE with 64 entries and 64 records. -/
def ring0 (d : Nat) (f : RingSt → RingSt) (p : Package) : Package :=
  let p := ((p.put PKG_STATUS_READY 1).put (DIE_RING_CFG_DEPTH_LOG2 d) 6).put (DIE_RING_CFG_CQ_DEPTH_LOG2 d) 6
  (((p.wr (DIE_RING_BASE d) 0xA00000).wr (DIE_CQ_BASE d) 0xA10000).setRingState d RING_ACTIVE).modRing d f
/-- Ring d has one command in flight. -/
def rings0 (d : Nat) (b : List Byte) : State := on (ring0 d (fun r => { r with inflight := [rcmd0 b] }))
def rec0 : CqRec := { tag := 5, status := 0, result := 0, cls := 0, abortResult := false, replayed := false, errLogged := false, since := 0 }
def tel0 (p : Package) : Package := ((ticking p).put PKG_TEL_CFG_PERIOD_BEATS 1)
def fw0 (f : Package → Package) : State := on (fun p => f { p with pwr := { p.pwr with fw := true } })
/-- Die 0 is ACTIVE; cluster 0 with a change. -/
def clu0 (f : Cluster → Cluster) : State := on (fun p => ((List.range 16).foldl (fun p q => p.mapCore 0 q q) (p.setDieState 0 DIE_ACTIVE)).modClu 0 f)
def refill0 : Refill := { core := 3, spare := 16, position := 3, cause := 0, startAt := 0, compound := false }
def capturing0 (c : Capture) : State := on (fun p => { p with snap := { p.snap with capture := some c } })
def capture0 : Capture := { tag := none, buddy := false, step := 3, slot := 2, base := 0xC00000, frozen := true }
def section0 (a : Nat) : Section := { typ := 1, index := 0, dest := 0, ranges := [(a, 64)] }
/-- Node 0x21 may write this package's receive area of two 4-KiB slots. -/
def recv0 (p : Package) : Package := (((p.put SNAP_RECV_CFG_VALID 1).put SNAP_RECV_CFG_SRC 0x21).wr SNAP_RECV_BASE 0xC00000).wr SNAP_RECV_SIZE 0x2000
/-- An image without sections, of a variant. -/
def image0 (variant : Nat) : List Byte :=
  let b := leBytes 4 MOULD_MAGIC ++ leBytes 2 1 ++ leBytes 1 1 ++ leBytes 9 0 ++ leBytes 2 variant ++ leBytes 90 0 ++ leBytes 4 0 ++ leBytes 8 256 ++ leBytes 16 0
    ++ leBytes 4 (crc32c [])
  b ++ leBytes 4 (crc32c b) ++ leBytes 112 0
def restore0 : Restore := { tag := 5, addr := 0xD00000, slot := none, align := 0, skipHistory := true, posAddr := 0 }
def restoring0 (variant : Nat) (r : Restore) : State :=
  on (fun p => { p.store 0xD00000 (image0 variant) with snap := { p.snap with restore := some r } })
def variant0 : Nat := State.reset.pkg.variantWord % 2 ^ 16
/-- The image of a class that verifies: key slot 0, SVN 0, no body. -/
def good0 (cls : Nat) : ImageRead :=
  { header := leBytes 4 IMAGE_MAGIC ++ leBytes 1 cls ++ leBytes 27 0 ++ sha384 [] ++ leBytes 432 0, body := [], sigOk := true }
/-- A package on its way up, with die 2 powered. -/
def boot0 (f : Package → Package) : State :=
  on (fun p => f { p with pwr := { p.pwr with fw := true, goodAt := some 0, powered := [2], stackFw := true } })
def bist0 (start : Option Nat) (core : Option Nat) (noRepair : Bool) : BistRun :=
  { tag := 5, cluster := 4, core := core, noRepair := noRepair, askedAt := 0, startAt := start }
def testing0 (b : BistRun) : State := on (fun p => { p.wr (BIST_ISOLATE 2) (2 ^ 20) with bists := [(2, b)] })
def repair0 : Repair := { kind := 1, place := 0, where' := 1, location := 2, spare := 0, origin := 0 }
/-- A token of a kind for the part of reset, signed where the kind asks for it. -/
def token0 (kind arg owner : Nat) : List Byte :=
  leBytes 4 TOKEN_MAGIC ++ leBytes 1 kind ++ leBytes 1 arg ++ leBytes 2 0 ++ leBytes 8 State.reset.pkg.serial ++ leBytes 32 0 ++ leBytes 8 owner
    ++ leBytes 200 0
/-- Hub firmware runs in a life-cycle state, a nonce serves, and the token stands in memory. -/
def submits0 (lc kind arg owner : Nat) : State :=
  { boot0 (fun p => ({ p with sec := { p.sec with nonce := true } }.wr SEC_TOKEN_BASE 0xE00000).store 0xE00000 (token0 kind arg owner)) with
    part := { State.reset.part with lc := lc } }
def owner0 : Nat := State.reset.part.ownerKeyId
/-- The debug window is open with core 3 of the hub die selected. -/
def debug0 (f : SecUnit → SecUnit) : State :=
  boot0 (fun p => { ((p.put SEC_STATUS_DEBUG_OPEN 1).put SEC_DBG_SEL_DIE 8).put SEC_DBG_SEL_CORE 3 with sec := f p.sec })
def tap0 (st : TapState) : State := boot0 (fun p => { p with tap := { p.tap with state := st, irShift := 0x102 } })
def job1 : ReportJob := { addr := 0xF00000, digests := 1, guest := false, nonce := List.replicate 32 7 }
def reporter0 : State := boot0 (fun p => { p with sec := { p.sec with job := some job1 } })
def report1 : List Byte :=
  ((reporter0.pkg.pass 7).signedReport job1.nonce job1.digests job1.guest).1

theorem takes_sound {p : Package} {c k : Nat} {x : Ctx} {w : CmdWord} (h : takes p c k x w = true) : CoreTakes p c k x w := by
  simp only [takes, Bool.and_eq_true, Bool.or_eq_true, decide_eq_true_eq, Bool.not_eq_true'] at h
  obtain ⟨⟨⟨⟨⟨⟨⟨⟨⟨⟨h1, h2⟩, h3⟩, h4⟩, h5⟩, h6⟩, h7⟩, h8⟩, h9⟩, h10⟩, h11⟩ := h
  refine ⟨h1, h2, h3, h4, h5, h6, h7, fun e => h8.resolve_left (by simp [e]), h9, h10, h11⟩

/-! ### Each statement's hypotheses hold somewhere -/

theorem wit_beatUnit :
    (∃ (s : State) (dt : Nat), s.pkg.ticking = true ∧ ¬ dsub (s.pkg.pass dt).dtime s.pkg.beat.nextTick < 0)
  ∧ (∃ (p : Package), p.beat.pend = none)
  ∧ (∃ (s : State), s.pkg.ticking = true)
  ∧ (∃ (s : State) (q : PendPeriod), s.pkg.beat.pend = some q ∧ q.beat ≤ s.pkg.beatNo)
  ∧ (∃ (s : State), s.pkg.get BEAT_OUT_CFG_MODE = 2) :=
  ⟨⟨on ticking, 0, by decide +kernel⟩,
    ⟨State.reset.pkg, by decide +kernel⟩,
    ⟨on ticking, by decide +kernel⟩,
    ⟨on (fun p => { ticking p with beat := { p.beat with pend := some { beat := 0, period := 3000, landing := 40 } } }),
        { beat := 0, period := 3000, landing := 40 }, by decide +kernel⟩,
    ⟨on (fun p => p.put BEAT_OUT_CFG_MODE 2), by decide +kernel⟩⟩

theorem wit_elections :
    (∃ (s : State) (link : Nat) (a : Announce), s.pkg.has BEAT_CTRL_ENABLE = true ∧ a.domain = s.pkg.get BEAT_DOMAIN_ID ∧ s.pkg.linkTakes link =
        true)
  ∧ (∃ (s : State) (dt : Nat) (m : Nat), s.pkg.beat.view.best = some m ∧ s.pkg.has BEAT_STATUS_ELECTION = true ∧ s.pkg.beat.viewSince + 4 *
        s.pkg.periodUnits ≤ s.pkg.clock + dt)
  ∧ (∃ (s : State) (dt : Nat), s.pkg.has BEAT_STATUS_ELECTION = true ∧ s.pkg.beat.view.best = none ∧ s.pkg.beat.lostRaised = false ∧
        s.pkg.beat.electionSince + 10 * Config.secUnits ≤ s.pkg.clock + dt)
  ∧ (∃ (s : State) (dt : Nat), s.pkg.beatState = 2 ∧ s.pkg.beat.acquireRaised = false ∧ s.pkg.beat.acquiringSince + 10 * Config.secUnits ≤
        s.pkg.clock + dt) :=
  ⟨⟨on (fun p => linkOn 3 (ticking p)), 3,
        { domain := 0, group := 1, serial := 9, best := some 9, bestConfigured := false, hops := 0, groupBest := none, groupConfigured := false, candidate := true, groupCandidate := false },
        by decide +kernel⟩,
    ⟨on (fun p => { ((ticking p).put BEAT_STATUS_ELECTION 1) with beat := { p.beat with view := { best := some 0 } } }), 4 *
        State.reset.pkg.periodUnits, 0, by decide +kernel⟩,
    ⟨on (fun p => (ticking p).put BEAT_STATUS_ELECTION 1), 10 * Config.secUnits, by decide +kernel⟩,
    ⟨on (fun p => (ticking p).put BEAT_STATUS_STATE 2), 10 * Config.secUnits, by decide +kernel⟩⟩

theorem wit_timeExchange :
    (∃ (s : State) (link : Nat) (m : TimeMsg), s.pkg.has BEAT_CTRL_ENABLE = true ∧ m.domain = s.pkg.get BEAT_DOMAIN_ID ∧ link = s.pkg.get
        BEAT_UPLINK_LINK)
  ∧ (∃ (s : State), s.pkg.has BEAT_CTRL_ENABLE = true ∧ s.pkg.get BEAT_UPLINK_LINK ≠ 0x1F)
  ∧ (∃ (s : State), s.pkg.has BEAT_CTRL_ENABLE = true)
  ∧ (∃ (s : State) (link : Nat), s.pkg.has BEAT_CTRL_ENABLE = true ∧ link = s.pkg.get BEAT_UPLINK_LINK) :=
  ⟨⟨on (fun p => (linkOn 2 (ticking p)).put BEAT_UPLINK_LINK 2), 2,
        { domain := 0, master := 9, hops := 1, t1 := 40, epoch := 0, period := 3000, landing := 40, beat := 1, beatTick := 7, pend := none },
        by decide +kernel⟩,
    ⟨on (fun p => (linkOn 2 (ticking p)).put BEAT_UPLINK_LINK 2), by decide +kernel⟩,
    ⟨on (fun p => linkOn 2 (ticking p)), by decide +kernel⟩,
    ⟨on (fun p => (linkOn 2 (ticking p)).put BEAT_UPLINK_LINK 2), 2, by decide +kernel⟩⟩

theorem wit_timeLossAndReturn :
    (∃ (s : State), s.pkg.has BEAT_CTRL_ENABLE = true ∧ s.pkg.get BEAT_STATUS_ROLE ≠ 2 ∧ s.pkg.get BEAT_UPLINK_LINK ≠ 0x1F ∧ s.pkg.get
        BEAT_HOLDOVER_CFG_MISS ≤ s.pkg.beat.silentBeats ∧ s.pkg.otherUplink = none ∧ s.pkg.beatState = 3)
  ∧ (∃ (s : State) (off : Int), s.pkg.has BEAT_CTRL_REJOIN = true ∧ s.pkg.beatState = 5 ∧ s.pkg.beat.stepWaiting = some off)
  ∧ (∃ (s : State), s.pkg.has BEAT_CTRL_REJOIN = true ∧ s.pkg.beat.stepWaiting = none)
  ∧ (∃ (s : State), s.pkg.has BEAT_CTRL_ENABLE = false)
  ∧ (∃ (s : State), s.pkg.has BEAT_CTRL_ENABLE = true)
  ∧ (∃ (s : State), s.pkg.has BEAT_REF_CFG_ENABLE = true)
  ∧ (∃ (s : State), s.pkg.has BEAT_STATUS_REF_LOCKED = true) :=
  ⟨⟨on (fun p => { ((linkOn 2 (ticking p)).put BEAT_UPLINK_LINK 2) with beat := { p.beat with epochHeld := true, silentBeats := 3 } }),
        by decide +kernel⟩,
    ⟨on (fun p =>
        { (((ticking p).put BEAT_STATUS_STATE 5).put BEAT_CTRL_REJOIN 1) with beat := { p.beat with epochHeld := true, stepWaiting := some 5000 } }),
        5000, by decide +kernel⟩,
    ⟨on (fun p => (ticking p).put BEAT_CTRL_REJOIN 1), by decide +kernel⟩,
    ⟨State.reset, by decide +kernel⟩,
    ⟨on ticking, by decide +kernel⟩,
    ⟨on (fun p => (ticking p).put BEAT_REF_CFG_ENABLE 1), by decide +kernel⟩,
    ⟨on (fun p => ((ticking p).put BEAT_REF_CFG_ENABLE 1).put BEAT_STATUS_REF_LOCKED 1), by decide +kernel⟩⟩

theorem wit_microBatchLands :
    (∃ (s : State) (o : Output), o.stage < 32 ∧ (s.pkg.queue o.stage o.dir).sender = some o.src ∧ (s.pkg.queue o.stage o.dir).entries.length <
        s.pkg.qDepth o.stage o.dir ∧ s.pkg.payloadOk o = true ∧ s.pkg.rangeOk (s.pkg.qSlotAddr o.stage o.dir (s.pkg.queue o.stage o.dir).tail) o.bytes
        = true ∧ s.pkg.rangeOk (s.pkg.qDescAddr o.stage o.dir (s.pkg.queue o.stage o.dir).tail) 64 = true) :=
  ⟨on (stage0 (fun x => { x with fq := { sender := some sender0 } })), out0, by decide +kernel⟩

theorem wit_channelsOpenAndCredit :
    (∃ (s : State) (stage : Nat) (chan : Nat), s.pkg.get (STG_CH_STATE_STATE stage chan) = 2)
  ∧ (∃ (s : State) (stage : Nat) (d : Dir) (x : Sender), s.pkg.stgState stage ≠ 0 ∧ (d = .fwd → s.pkg.has (STG_CTRL_FQ_SW_FEED stage) = false) ∧
        ((s.pkg.queue stage d).sender = none ∨ (s.pkg.queue stage d).sender = some x))
  ∧ (∃ (s : State) (stage : Nat) (d : Dir) (x : Sender) (y : Sender), s.pkg.stgState stage ≠ 0 ∧ y ≠ x ∧ (s.pkg.queue stage d).sender = some y)
  ∧ (∃ (s : State) (stage : Nat), s.pkg.stgState stage ≠ 0 ∧ s.pkg.has (STG_CTRL_FQ_SW_FEED stage) = true)
  ∧ (∃ (s : State) (stage : Nat) (chan : Nat), stage < 32 ∧ chan < 4 ∧ s.pkg.get (STG_CH_STATE_STATE stage chan) = 1)
  ∧ (∃ (s : State) (stage : Nat) (chan : Nat) (result : Nat), stage < 32 ∧ chan < 4 ∧ result ≠ 0 ∧ s.pkg.get (STG_CH_STATE_STATE stage chan) = 1)
  ∧ (∃ (s : State) (dt : Nat) (stage : Nat) (chan : Nat) (at' : Nat), stage < 32 ∧ chan < 4 ∧ (listAt {} (s.pkg.stg stage).chans chan).openSent =
        some at' ∧ at' + s.pkg.periodUnits ≤ s.pkg.clock + dt ∧ s.pkg.get (STG_CH_STATE_STATE stage chan) = 1) :=
  ⟨⟨on (fun p => ((p.put (STG_CH_STATE_STATE 0 1) 2).put (STG_CH_STATE_PEER_DEPTH 0 1) 4).put (STG_CH_STATE_CREDITS 0 1) 3), 0, 1,
        by decide +kernel⟩,
    ⟨on (stage0 id), 0, .bwd, sender0, by decide +kernel⟩,
    ⟨on (stage0 (fun x => { x with fq := { sender := some { sender0 with chan := 3 } } })), 0, .fwd, sender0, { sender0 with chan := 3 },
        by decide +kernel⟩,
    ⟨on (fun p => (stage0 id p).put (STG_CTRL_FQ_SW_FEED 0) 1), 0, by decide +kernel⟩,
    ⟨on (fun p => p.put (STG_CH_STATE_STATE 31 3) 1), 31, 3, by decide +kernel⟩,
    ⟨on (fun p => p.put (STG_CH_STATE_STATE 31 3) 1), 31, 3, 1, by decide +kernel⟩,
    ⟨on (fun p => (p.put (STG_CH_STATE_STATE 0 1) 1).modStg 0 (fun x => { x with chans := [{}, { openSent := some 0 }, {}, {}] })),
        State.reset.pkg.periodUnits, 0, 1, 0, by decide +kernel⟩⟩

theorem wit_windowsAndDisabling :
    (∃ (s : State) (stage : Nat) (ph : Phase), stage < 32 ∧ s.pkg.stgState stage = 3 ∧ (s.pkg.stg stage).phase = some ph ∧ (s.pkg.stg
        stage).drainBeat ≤ s.pkg.beatNo)
  ∧ (∃ (s : State) (stage : Nat), ((∀ d x, (s.pkg.queue stage d).sender = some x → x.stage < 32 ∧ x.chan < 4)) ∧ stage < 32 ∧ s.pkg.stgState stage =
        3 ∧ (s.pkg.stg stage).phase = none ∧ (s.pkg.stg stage).reopen = false)
  ∧ (∃ (s : State) (stage : Nat) (value : Nat) (half : Option Nat), (s.pkg.grp (s.pkg.leader stage)).fifo.length < 16 ∧ s.pkg.windowCheck stage
        (s.pkg.stg stage).issueA (mergeHalf (s.pkg.stg stage).issueB half value) = 0)
  ∧ (∃ (s : State) (stage : Nat), (s.pkg.stgState stage = 0 ∨ s.pkg.winState (s.pkg.leader stage) = 4)) :=
  ⟨⟨on (fun p => (stage0 (fun x => { x with phase := some phase0 }) p).put (STG_STATUS_STATE 0) 3), 0, phase0, by decide +kernel⟩,
    ⟨on (fun p => ((stage0 (fun x => { x with stash := [stash0] }) p).put (STG_STATUS_STATE 0) 3).modGrp 0 (fun g => { g with fifo := [window0] })),
        0, (by intro d x h; cases d <;> nomatch h), by decide +kernel⟩,
    ⟨on (stage0 (fun x => { x with issueA := 2 ^ 16 * 64 })), 0, 5, none, by decide +kernel⟩,
    ⟨on (fun p => (stage0 id p).modGrp 0 (fun g => { g with fifo := [window0] }) |>.put (STG_STATUS_STATE 0) 0), 0, by decide +kernel⟩⟩

theorem wit_queuePushAndFlush :
    (∃ (s : State) (stage : Nat) (n : Nat), stage < 32 ∧ n < 128 ∧ s.pkg.has (STG_CTRL_FQ_SW_FEED stage) = true ∧ (s.pkg.stg
        stage).fq.entries.length + n ≤ s.pkg.qDepth stage .fwd)
  ∧ (∃ (s : State) (stage : Nat) (n : Nat), n < 128 ∧ s.pkg.has (STG_CTRL_FQ_SW_FEED stage) = true ∧ s.pkg.qDepth stage .fwd - (s.pkg.stg
        stage).fq.entries.length < n)
  ∧ (∃ (s : State) (stage : Nat) (n : Nat), n < 128 ∧ s.pkg.has (STG_CTRL_FQ_SW_FEED stage) = false)
  ∧ (∃ (s : State) (stage : Nat) (x : Sender), s.pkg.stgState stage ≠ 0 ∧ s.pkg.has (STG_CTRL_FQ_SW_FEED stage) = true ∧ x.route = 1)
  ∧ (∃ (s : State) (stage : Nat), stage < 32 ∧ s.pkg.stgState stage = 0)
  ∧ (∃ (s : State) (stage : Nat), stage < 32 ∧ s.pkg.stgState stage = 0)
  ∧ (∃ (s : State) (stage : Nat), s.pkg.stgState stage ≠ 0) :=
  ⟨⟨on (fun p => (stage0 id p).put (STG_CTRL_FQ_SW_FEED 0) 1), 0, 4, by decide +kernel⟩,
    ⟨on (fun p => (stage0 id p).put (STG_CTRL_FQ_SW_FEED 0) 1), 0, 5, by decide +kernel⟩,
    ⟨on (stage0 id), 0, 1, by decide +kernel⟩,
    ⟨on (fun p => (stage0 id p).put (STG_CTRL_FQ_SW_FEED 0) 1), 0, sender0, by decide +kernel⟩,
    ⟨on (stage0 (fun x => { x with fq := { entries := [(3, .valid)], tail := 0 } }) · |>.put (STG_STATUS_STATE 0) 0), 0, by decide +kernel⟩,
    ⟨on (stage0 (fun x => { x with bq := { entries := [(3, .valid)], tail := 0 } }) · |>.put (STG_STATUS_STATE 0) 0), 0, by decide +kernel⟩,
    ⟨on (stage0 id), 0, by decide +kernel⟩⟩

theorem wit_phasesStartAndEnd :
    (∃ (s : State) (dt : Nat) (stage : Nat) (w : Window) (idx : Nat) (mb : Nat) (step : Nat) (i : Nat) (st : EntrySt), stage < 32 ∧ (s.pkg.pass
        dt).beforeDeadline = true ∧ (s.pkg.stg stage).gaveUp = none ∧ (s.pkg.grp (s.pkg.leader stage)).cur = some w ∧ w.owner = stage ∧ (s.pkg.grp
        (s.pkg.leader stage)).next = some (.bwd, idx, mb, step) ∧ (s.pkg.pass dt).verdict (s.pkg.leader stage) = .start ∧ (s.pkg.queue stage
        .bwd).head = some (i, st) ∧ s.pkg.descOf stage .bwd i = some (desc0))
  ∧ (∃ (s : State) (dt : Nat) (stage : Nat) (ph : Phase), (s.pkg.stg stage).phase = some ph ∧ ph.endAt = none ∧ ph.channels = [] ∧ (s.pkg.pass
        dt).computeDone stage ph = true)
  ∧ (∃ (s : State) (dt : Nat) (stage : Nat) (ph : Phase) (o : OutDesc), (s.pkg.stg stage).phase = some ph ∧ ph.endAt = none ∧ ph.out = some o ∧
        allLanded ph = false ∧ (∀ n ∈ ph.channels, s.pkg.get (STG_CH_CFG_ROUTE stage n) ≠ 0) ∧ stage < 32 ∧ (∀ n ∈ ph.channels, n < 4) ∧ (∀ e ∈
        s.pkg.stageCores stage, e.1 < 576 ∧ e.2 < 18) ∧ (s.pkg.pass dt).computeDone stage ph = true)
  ∧ (∃ (s : State) (stage : Nat) (chan : Nat) (ph : Phase), (s.pkg.stg stage).phase = some ph ∧ ph.endAt.isSome = true ∧ chan ∈ ph.channels ∧ (∀ n ∈
        ph.channels, n = chan ∨ n ∈ ph.landed))
  ∧ (∃ (s : State) (stage : Nat) (chan : Nat) (ph : Phase), (s.pkg.stg stage).phase = some ph ∧ ph.endAt.isSome = true ∧ chan ∈ ph.channels ∧ (∃ n ∈
        ph.channels, n ≠ chan ∧ n ∉ ph.landed))
  ∧ (∃ (s : State) (stage : Nat) (ph : Phase), stage < 32 ∧ (s.pkg.stg stage).phase = some ph ∧ (∀ n ∈ ph.channels, n < 4) ∧ ph.beat + s.pkg.get
        BEAT_SLOT_CFG_HUNG_BEATS + 1 ≤ s.pkg.beatNo ∧ s.pkg.stgState stage = 2) :=
  ⟨⟨on bwd0, 5, 0, window0, 0, 3, 5, 0, .valid, by decide +kernel⟩,
    ⟨on (stage0 (fun x => { x with phase := some phase0 })), 0, 0, phase0, by decide +kernel⟩,
    ⟨on (fun p => (stage0 (fun x => { x with phase := some { phase0 with channels := [1], out := some { format := 0, bytes := 3, scale := 0 } } })
        p).put (STG_CH_CFG_ROUTE 0 1) 1), 0, 0, { phase0 with channels := [1], out := some { format := 0, bytes := 3, scale := 0 } },
        { format := 0, bytes := 3, scale := 0 }, by decide +kernel⟩,
    ⟨on (stage0 (fun x => { x with phase := some { phase0 with channels := [1, 2], landed := [2], endAt := some 0 } })), 0, 1,
        { phase0 with channels := [1, 2], landed := [2], endAt := some 0 }, by decide +kernel⟩,
    ⟨on (stage0 (fun x => { x with phase := some { phase0 with channels := [1, 2], endAt := some 0 } })), 0, 1,
        { phase0 with channels := [1, 2], endAt := some 0 }, by decide +kernel⟩,
    ⟨on (fun p => (stage0 (fun x => { x with phase := some phase0 }) p).wr BEAT_NUMBER 5), 0, phase0, by decide +kernel⟩⟩

theorem wit_sequencerCommands :
    (∃ (s : State) (dt : Nat) (c : Nat) (k : Nat) (st : Nat) (ph : Phase), ((s.pkg.pass dt).posOf c k).isSome = true ∧ ((s.pkg.pass dt).core c
        k).stopped = false ∧ ((s.pkg.pass dt).core c k).listGiven = true ∧ (s.pkg.pass dt).filling c k = false ∧ (s.pkg.pass dt).servedRun c = none ∧
        (s.pkg.pass dt).servedStage c = some (st, ph) ∧ ((s.pkg.pass dt).core c k).serving = some (1 + st, ph.startAt) ∧ ((s.pkg.pass dt).core c
        k).layerPos < (s.pkg.pass dt).listCount st ph ∧ (s.pkg.pass dt).layerReady st ph.version ((s.pkg.pass dt).listAtPos st ph ((s.pkg.pass
        dt).core c k).layerPos).1 = true)
  ∧ (∃ (s : State) (dt : Nat) (c : Nat) (k : Nat) (r : RunJob), ((s.pkg.pass dt).posOf c k).isSome = true ∧ ((s.pkg.pass dt).core c k).stopped =
        false ∧ ((s.pkg.pass dt).core c k).listGiven = true ∧ (s.pkg.pass dt).filling c k = false ∧ (s.pkg.pass dt).servedRun c = some r ∧
        ((s.pkg.pass dt).core c k).serving = some (0, r.startAt) ∧ ((s.pkg.pass dt).core c k).layerPos = 0)
  ∧ (∃ (s : State) (dt : Nat) (c : Nat) (k : Nat) (x : Ctx) (w : CmdWord), CoreTakes (s.pkg.pass dt) c k x (withOpcode (0x00) w) ∧ (strayBits
        ((s.pkg.pass dt).heldFor c k (withOpcode (0x00) w)).word baseFields = false))
  ∧ (∃ (s : State) (dt : Nat) (c : Nat) (k : Nat) (x : Ctx) (w : CmdWord), CoreTakes (s.pkg.pass dt) c k x (withOpcode (0x01) w) ∧ (strayBits
        ((s.pkg.pass dt).heldFor c k (withOpcode (0x01) w)).word (baseFields ++ [(8, 1)]) = false))
  ∧ (∃ (s : State) (dt : Nat) (c : Nat) (k : Nat) (x : Ctx) (w : CmdWord), CoreTakes (s.pkg.pass dt) c k x (withOpcode (0xA0) w) ∧ (psetForm
        ((s.pkg.pass dt).heldFor c k (withOpcode (0xA0) w)).word = 0 ∧ cw ((s.pkg.pass dt).heldFor c k (withOpcode (0xA0) w)).word 32 4 ≤ 5 ∧
        strayBits ((s.pkg.pass dt).heldFor c k (withOpcode (0xA0) w)).word (baseFields ++ [(8, 3), (32, 4)] ++ [(56, 1)]) = false))
  ∧ (∃ (s : State) (dt : Nat) (c : Nat) (k : Nat) (x : Ctx) (w : CmdWord), CoreTakes (s.pkg.pass dt) c k x (withOpcode (0xA0) w) ∧ ((psetForm
        ((s.pkg.pass dt).heldFor c k (withOpcode (0xA0) w)).word = 1 ∨ psetForm ((s.pkg.pass dt).heldFor c k (withOpcode (0xA0) w)).word = 2) ∧ cw
        ((s.pkg.pass dt).heldFor c k (withOpcode (0xA0) w)).word 32 4 ≤ 5 ∧ strayBits ((s.pkg.pass dt).heldFor c k (withOpcode (0xA0) w)).word
        (baseFields ++ [(8, 3), (32, 4)] ++ [(40, 4)]) = false))
  ∧ (∃ (s : State) (dt : Nat) (c : Nat) (k : Nat) (x : Ctx) (w : CmdWord), CoreTakes (s.pkg.pass dt) c k x (withOpcode (0xA0) w) ∧ ((psetForm
        ((s.pkg.pass dt).heldFor c k (withOpcode (0xA0) w)).word = 3 ∨ psetForm ((s.pkg.pass dt).heldFor c k (withOpcode (0xA0) w)).word = 4) ∧ cw
        ((s.pkg.pass dt).heldFor c k (withOpcode (0xA0) w)).word 32 4 ≤ 5 ∧ strayBits ((s.pkg.pass dt).heldFor c k (withOpcode (0xA0) w)).word
        (baseFields ++ [(8, 3), (32, 4)] ++ [(40, 8)]) = false))
  ∧ (∃ (s : State) (dt : Nat) (c : Nat) (k : Nat) (x : Ctx) (w : CmdWord), CoreTakes (s.pkg.pass dt) c k x (withOpcode (0xA0) w) ∧ (psetForm
        ((s.pkg.pass dt).heldFor c k (withOpcode (0xA0) w)).word = 5 ∧ cw ((s.pkg.pass dt).heldFor c k (withOpcode (0xA0) w)).word 32 4 ≤ 5 ∧ 16 * cw
        ((s.pkg.pass dt).heldFor c k (withOpcode (0xA0) w)).word 64 16 + 4 ≤ OP_BYTES ∧ strayBits ((s.pkg.pass dt).heldFor c k (withOpcode (0xA0)
        w)).word (baseFields ++ [(8, 3), (32, 4)] ++ [(64, 16)]) = false))
  ∧ (∃ (s : State) (dt : Nat) (c : Nat) (k : Nat) (x : Ctx) (w : CmdWord), CoreTakes (s.pkg.pass dt) c k x (withOpcode (0xA0) w) ∧ (psetForm
        ((s.pkg.pass dt).heldFor c k (withOpcode (0xA0) w)).word = 6 ∧ cw ((s.pkg.pass dt).heldFor c k (withOpcode (0xA0) w)).word 32 4 = 6 ∧
        ((s.pkg.pass dt).taken c k (withOpcode (0xA0) w)).feature 11 = true ∧ x.run = none ∧ x.dir = .fwd ∧ strayBits ((s.pkg.pass dt).heldFor c k
        (withOpcode (0xA0) w)).word (baseFields ++ [(8, 3), (32, 4)] ++ [(128, 48)]) = false ∧ cw ((s.pkg.pass dt).heldFor c k (withOpcode (0xA0)
        w)).word 128 48 % 4 = 0 ∧ ∃ b, ((s.pkg.pass dt).taken c k (withOpcode (0xA0) w)).load (cw ((s.pkg.pass dt).heldFor c k (withOpcode (0xA0)
        w)).word 128 48 + 4 * x.microBatch) 4 = .ok b))
  ∧ (∃ (s : State) (dt : Nat) (c : Nat) (k : Nat) (x : Ctx) (w : CmdWord), CoreTakes (s.pkg.pass dt) c k x (withOpcode (0xA0) w) ∧ (psetForm
        ((s.pkg.pass dt).heldFor c k (withOpcode (0xA0) w)).word = 6 ∧ cw ((s.pkg.pass dt).heldFor c k (withOpcode (0xA0) w)).word 32 4 = 6 ∧
        ((s.pkg.pass dt).taken c k (withOpcode (0xA0) w)).feature 11 = true ∧ x.run = none ∧ x.dir = .bwd ∧ strayBits ((s.pkg.pass dt).heldFor c k
        (withOpcode (0xA0) w)).word (baseFields ++ [(8, 3), (32, 4)] ++ [(128, 48)]) = false)) :=
  ⟨⟨on (fun p => (core0 (fun co => { co with layerPos := 0, left := 0 }) p).put (STG_LAYERS_COUNT 0) 1), 0, 0, 0, 0, phase0, by decide +kernel⟩,
    ⟨on (fun p => { p with runs := [run0], cores := [(0, { serving := some (0, 0) })] }), 0, 0, 0, run0, by decide +kernel⟩,
    ⟨on (core0 id), 0, 0, 0, ctx0, 0, takes_sound (by decide +kernel), by decide +kernel⟩,
    ⟨on (core0 id), 0, 0, 0, ctx0, wd [(8, 1)], takes_sound (by decide +kernel), by decide +kernel⟩,
    ⟨on (core0 id), 0, 0, 0, ctx0, wd [(8, 0), (32, 5), (56, 1)], takes_sound (by decide +kernel), by decide +kernel⟩,
    ⟨on (core0 id), 0, 0, 0, ctx0, wd [(8, 2), (32, 5), (40, 6)], takes_sound (by decide +kernel), by decide +kernel⟩,
    ⟨on (core0 id), 0, 0, 0, ctx0, wd [(8, 3), (32, 0), (40, 6), (44, 6)], takes_sound (by decide +kernel), by decide +kernel⟩,
    ⟨on (core0 id), 0, 0, 0, ctx0, wd [(8, 5), (32, 0), (64, 0x2FFF)], takes_sound (by decide +kernel), by decide +kernel⟩,
    ⟨on (fun p => (core0 id p).put ⟨FEATURE_ACCEPT .pkg 0, 11, 1⟩ 1), 0, 0, 0, ctx0, wd [(8, 6), (32, 6), (128, 0x10000)], takes_sound
        (by decide +kernel),
        (by exact ⟨by decide +kernel, by decide +kernel, by decide +kernel, by decide +kernel, by decide +kernel, by decide +kernel, by decide +kernel, _, rfl⟩)⟩,
    ⟨on (fun p => ((core0 id p).put ⟨FEATURE_ACCEPT .pkg 0, 11, 1⟩ 1).modStg 0 (fun x => { x with phase := some { phase0 with dir := .bwd } })), 0,
        0, 0, { ctx0 with dir := .bwd }, wd [(8, 6), (32, 6), (128, 0x10000)], takes_sound (by decide +kernel), by decide +kernel⟩⟩

theorem wit_vectorElementwise :
    (∃ (s : State) (dt : Nat) (c : Nat) (k : Nat) (x : Ctx) (w : CmdWord), CoreTakes (s.pkg.pass dt) c k x (withOpcode ((0x40, Instr.add, fadd).1)
        w) ∧ (((s.pkg.pass dt).taken c k (withOpcode ((0x40, Instr.add, fadd).1) w)).vPasses c ((s.pkg.pass dt).heldFor c k (withOpcode ((0x40,
        Instr.add, fadd).1) w)).word [(1, 4 * vCount ((s.pkg.pass dt).heldFor c k (withOpcode ((0x40, Instr.add, fadd).1) w)).word), (3, 4 * vCount
        ((s.pkg.pass dt).heldFor c k (withOpcode ((0x40, Instr.add, fadd).1) w)).word)] [(2, 4 * vCount ((s.pkg.pass dt).heldFor c k (withOpcode
        ((0x40, Instr.add, fadd).1) w)).word)] []))
  ∧ (∃ (s : State) (dt : Nat) (c : Nat) (k : Nat) (x : Ctx) (w : CmdWord), CoreTakes (s.pkg.pass dt) c k x (withOpcode (0x42) w) ∧ (((s.pkg.pass
        dt).taken c k (withOpcode (0x42) w)).vPasses c ((s.pkg.pass dt).heldFor c k (withOpcode (0x42) w)).word [(1, 4 * vCount ((s.pkg.pass
        dt).heldFor c k (withOpcode (0x42) w)).word), (3, 4 * vCount ((s.pkg.pass dt).heldFor c k (withOpcode (0x42) w)).word), (2, 4 * vCount
        ((s.pkg.pass dt).heldFor c k (withOpcode (0x42) w)).word)] [] []))
  ∧ (∃ (s : State) (dt : Nat) (c : Nat) (k : Nat) (x : Ctx) (w : CmdWord), CoreTakes (s.pkg.pass dt) c k x (withOpcode ((0x4A, Instr.rcp).1) w) ∧
        (((s.pkg.pass dt).taken c k (withOpcode ((0x4A, Instr.rcp).1) w)).vPasses c ((s.pkg.pass dt).heldFor c k (withOpcode ((0x4A, Instr.rcp).1)
        w)).word [(1, 4 * vCount ((s.pkg.pass dt).heldFor c k (withOpcode ((0x4A, Instr.rcp).1) w)).word)] [(2, 4 * vCount ((s.pkg.pass dt).heldFor c
        k (withOpcode ((0x4A, Instr.rcp).1) w)).word)] []))
  ∧ (∃ (s : State) (dt : Nat) (c : Nat) (k : Nat) (x : Ctx) (w : CmdWord), CoreTakes (s.pkg.pass dt) c k x (withOpcode ((0x51, Instr.maskBits,
        maskBit).1) w) ∧ (((s.pkg.pass dt).taken c k (withOpcode ((0x51, Instr.maskBits, maskBit).1) w)).vPasses c ((s.pkg.pass dt).heldFor c k
        (withOpcode ((0x51, Instr.maskBits, maskBit).1) w)).word [(1, 4 * vCount ((s.pkg.pass dt).heldFor c k (withOpcode ((0x51, Instr.maskBits,
        maskBit).1) w)).word)] [(2, (vCount ((s.pkg.pass dt).heldFor c k (withOpcode ((0x51, Instr.maskBits, maskBit).1) w)).word + 7) / 8)] []))
  ∧ (∃ (w : CmdWord), vSpace w 2 ≠ 3) :=
  ⟨⟨on (core0 id), 0, 0, 0, ctx0, wd [(64, 1), (80, 2), (96, 3), (128, 4)], takes_sound (by decide +kernel), by decide +kernel⟩,
    ⟨on (core0 id), 0, 0, 0, ctx0, wd [(64, 1), (80, 2), (96, 3), (128, 4)], takes_sound (by decide +kernel), by decide +kernel⟩,
    ⟨on (core0 id), 0, 0, 0, ctx0, wd [(64, 1), (80, 2), (128, 4)], takes_sound (by decide +kernel), by decide +kernel⟩,
    ⟨on (core0 id), 0, 0, 0, ctx0, wd [(64, 1), (80, 2), (128, 9)], takes_sound (by decide +kernel), by decide +kernel⟩,
    ⟨wd [(80, 2), (58, 1)], by decide +kernel⟩⟩

theorem wit_vectorConversions :
    (∃ (s : State) (dt : Nat) (c : Nat) (k : Nat) (x : Ctx) (w : CmdWord), CoreTakes (s.pkg.pass dt) c k x (withOpcode (0x54) w) ∧ (((s.pkg.pass
        dt).taken c k (withOpcode (0x54) w)).vPasses c ((s.pkg.pass dt).heldFor c k (withOpcode (0x54) w)).word [(1, 4 * vCount ((s.pkg.pass
        dt).heldFor c k (withOpcode (0x54) w)).word)] [(2, 4 * rowCount ((s.pkg.pass dt).heldFor c k (withOpcode (0x54) w)).word)] [(112, 16)]))
  ∧ (∃ (s : State) (dt : Nat) (c : Nat) (k : Nat) (x : Ctx) (w : CmdWord), CoreTakes (s.pkg.pass dt) c k x (withOpcode (0x55) w) ∧ (((s.pkg.pass
        dt).taken c k (withOpcode (0x55) w)).vPasses c ((s.pkg.pass dt).heldFor c k (withOpcode (0x55) w)).word [] [(2, 2 * vCount ((s.pkg.pass
        dt).heldFor c k (withOpcode (0x55) w)).word)] []))
  ∧ (∃ (s : State) (dt : Nat) (c : Nat) (k : Nat) (x : Ctx) (w : CmdWord), CoreTakes (s.pkg.pass dt) c k x (withOpcode (0x53) w) ∧ (derivLegal
        ((s.pkg.pass dt).heldFor c k (withOpcode (0x53) w)).word = true ∧ derivIsBits ((s.pkg.pass dt).heldFor c k (withOpcode (0x53) w)).word = true
        ∧ ((s.pkg.pass dt).taken c k (withOpcode (0x53) w)).vPasses c ((s.pkg.pass dt).heldFor c k (withOpcode (0x53) w)).word [(1, derivSpan
        ((s.pkg.pass dt).heldFor c k (withOpcode (0x53) w)).word), (3, 4 * vCount ((s.pkg.pass dt).heldFor c k (withOpcode (0x53) w)).word)] [(2, 4 *
        vCount ((s.pkg.pass dt).heldFor c k (withOpcode (0x53) w)).word)] (derivFields ((s.pkg.pass dt).heldFor c k (withOpcode (0x53) w)).word)))
  ∧ (∃ (q : Package) (scale : Nat) (quant : Option (Nat × Int × Nat)) (s : State) (dt : Nat) (c : Nat) (k : Nat) (x : Ctx) (w : CmdWord), CoreTakes
        (s.pkg.pass dt) c k x (withOpcode (0x53) w) ∧ (derivLegal ((s.pkg.pass dt).heldFor c k (withOpcode (0x53) w)).word = true ∧ derivIsBits
        ((s.pkg.pass dt).heldFor c k (withOpcode (0x53) w)).word = false ∧ ((s.pkg.pass dt).taken c k (withOpcode (0x53) w)).vPasses c ((s.pkg.pass
        dt).heldFor c k (withOpcode (0x53) w)).word [(1, derivSpan ((s.pkg.pass dt).heldFor c k (withOpcode (0x53) w)).word), (3, 4 * vCount
        ((s.pkg.pass dt).heldFor c k (withOpcode (0x53) w)).word)] [(2, 4 * vCount ((s.pkg.pass dt).heldFor c k (withOpcode (0x53) w)).word)]
        (derivFields ((s.pkg.pass dt).heldFor c k (withOpcode (0x53) w)).word) ∧ ((s.pkg.pass dt).taken c k (withOpcode (0x53) w)).resolve x (vImm
        ((s.pkg.pass dt).heldFor c k (withOpcode (0x53) w)).word) none = .ok q scale quant))
  ∧ (∃ (s : State) (dt : Nat) (c : Nat) (k : Nat) (x : Ctx) (w : CmdWord), CoreTakes (s.pkg.pass dt) c k x (withOpcode (0x50) w) ∧ (((s.pkg.pass
        dt).taken c k (withOpcode (0x50) w)).cvtCheck ((s.pkg.pass dt).heldFor c k (withOpcode (0x50) w)).word = 0 ∧ cvtIsAmax ((s.pkg.pass
        dt).heldFor c k (withOpcode (0x50) w)).word = true ∧ ((s.pkg.pass dt).taken c k (withOpcode (0x50) w)).vPasses c ((s.pkg.pass dt).heldFor c k
        (withOpcode (0x50) w)).word (cvtSrcs ((s.pkg.pass dt).heldFor c k (withOpcode (0x50) w)).word) (cvtDsts ((s.pkg.pass dt).heldFor c k
        (withOpcode (0x50) w)).word) [(112, 16), (160, 32)]))
  ∧ (∃ (q : Package) (scale : Nat) (quant : Option (Nat × Int × Nat)) (s : State) (dt : Nat) (c : Nat) (k : Nat) (x : Ctx) (w : CmdWord), CoreTakes
        (s.pkg.pass dt) c k x (withOpcode (0x50) w) ∧ (((s.pkg.pass dt).taken c k (withOpcode (0x50) w)).cvtCheck ((s.pkg.pass dt).heldFor c k
        (withOpcode (0x50) w)).word = 0 ∧ cvtIsAmax ((s.pkg.pass dt).heldFor c k (withOpcode (0x50) w)).word = false ∧ ((s.pkg.pass dt).taken c k
        (withOpcode (0x50) w)).vPasses c ((s.pkg.pass dt).heldFor c k (withOpcode (0x50) w)).word (cvtSrcs ((s.pkg.pass dt).heldFor c k (withOpcode
        (0x50) w)).word) (cvtDsts ((s.pkg.pass dt).heldFor c k (withOpcode (0x50) w)).word) [(112, 16), (160, 32)] ∧ ((s.pkg.pass dt).taken c k
        (withOpcode (0x50) w)).resolve x (vImm ((s.pkg.pass dt).heldFor c k (withOpcode (0x50) w)).word) (some (cvtDst ((s.pkg.pass dt).heldFor c k
        (withOpcode (0x50) w)).word)) = .ok q scale quant)) :=
  ⟨⟨on (core0 id), 0, 0, 0, ctx0, wd [(64, 1), (80, 2), (112, 5), (128, 4)], takes_sound (by decide +kernel), by decide +kernel⟩,
    ⟨on (core0 id), 0, 0, 0, ctx0, wd [(80, 2), (128, 4)], takes_sound (by decide +kernel), by decide +kernel⟩,
    ⟨on (core0 id), 0, 0, 0, ctx0, wd [(64, 1), (80, 2), (96, 3), (112, 1), (128, 4)], takes_sound (by decide +kernel), by decide +kernel⟩,
    ⟨(on (core0 id)).pkg.taken 0 0 (withOpcode 0x53 (wd [(64, 1), (80, 2), (96, 3), (112, 4), (128, 4), (160, F32_ONE)])), F32_ONE, none, on (core0
        id), 0, 0, 0, ctx0, wd [(64, 1), (80, 2), (96, 3), (112, 4), (128, 4), (160, F32_ONE)], takes_sound (by decide +kernel), by decide +kernel⟩,
    ⟨on (core0 id), 0, 0, 0, ctx0, wd [(64, 1), (112, 16 * 32 + 2048), (128, 4)], takes_sound (by decide +kernel), by decide +kernel⟩,
    ⟨(on (core0 id)).pkg.taken 0 0 (withOpcode 0x50 (wd [(64, 1), (80, 2), (112, 5 + 16 * 32), (128, 4), (160, F32_ONE)])), F32_ONE, none, on (core0
        id), 0, 0, 0, ctx0, wd [(64, 1), (80, 2), (112, 5 + 16 * 32), (128, 4), (160, F32_ONE)], takes_sound (by decide +kernel), by decide +kernel⟩⟩

theorem wit_matrixEngine :
    (∃ (opens : Bool) (s : State) (dt : Nat) (c : Nat) (k : Nat) (x : Ctx) (w : CmdWord), CoreTakes (s.pkg.pass dt) c k x (withOpcode (0x10) w) ∧
        (((s.pkg.pass dt).taken c k (withOpcode (0x10) w)).mmaCheck c k ((s.pkg.pass dt).heldFor c k (withOpcode (0x10) w)).word = 0 ∧ bindCase
        (((s.pkg.pass dt).taken c k (withOpcode (0x10) w)).core c k) (mmaGroup ((s.pkg.pass dt).heldFor c k (withOpcode (0x10) w)).word) (mmaSlot
        ((s.pkg.pass dt).heldFor c k (withOpcode (0x10) w)).word) (mmaBegin ((s.pkg.pass dt).heldFor c k (withOpcode (0x10) w)).word) (coveredElems
        ((s.pkg.pass dt).heldFor c k (withOpcode (0x10) w)).word) = some opens))
  ∧ (∃ (s : State) (dt : Nat) (c : Nat) (k : Nat), c < 576 ∧ k < 18 ∧ ((s.pkg.core c k).array = .trim ∨ (s.pkg.core c k).array = .up) ∧ (s.pkg.core
        c k).busyUntil + (s.pkg.pass dt).cycles (c / 72) (s.pkg.get (XE_TRIM_CFG_TRIM_WINDOW c)) ≤ s.pkg.clock + dt)
  ∧ (∃ (s : State) (c : Nat) (k : Nat), c < 576 ∧ k < 18 ∧ (s.pkg.core c k).array = .down) :=
  ⟨⟨true, on (core0 id), 0, 0, 0, ctx0, wd [(8, 1), (64, 0), (80, 2), (96, 128), (192, 3), (224, 1)], takes_sound (by decide +kernel),
        by decide +kernel⟩,
    ⟨on (core0 (fun co => { co with array := .trim, level := 2 })), 10000000, 0, 0, by decide +kernel⟩,
    ⟨on (core0 (fun co => { co with array := .down, level := 1 })), 0, 0, by decide +kernel⟩⟩

theorem wit_accumulatorCommands :
    (∃ (q : Package) (scale : Nat) (quant : Option (Nat × Int × Nat)) (mask : MaskEnd) (s : State) (dt : Nat) (c : Nat) (k : Nat) (x : Ctx) (w :
        CmdWord), CoreTakes (s.pkg.pass dt) c k x (withOpcode (0x20) w) ∧ mask ≠ .bad ∧ mask ≠ .poisoned ∧ (((s.pkg.pass dt).taken c k (withOpcode
        (0x20) w)).drainCause (((s.pkg.pass dt).taken c k (withOpcode (0x20) w)).core c k) ((s.pkg.pass dt).heldFor c k (withOpcode (0x20) w)).word =
        0 ∧ ((s.pkg.pass dt).taken c k (withOpcode (0x20) w)).resolve x (cw ((s.pkg.pass dt).heldFor c k (withOpcode (0x20) w)).word 160 32) (some
        (drainCode ((s.pkg.pass dt).heldFor c k (withOpcode (0x20) w)).word)) = .ok q scale quant ∧ q.maskFor (((s.pkg.pass dt).taken c k (withOpcode
        (0x20) w)).core c k) x quant = mask))
  ∧ (∃ (s : State) (dt : Nat) (c : Nat) (k : Nat) (x : Ctx) (w : CmdWord), CoreTakes (s.pkg.pass dt) c k x (withOpcode (0x21) w) ∧ (accLoadCheck
        (((s.pkg.pass dt).taken c k (withOpcode (0x21) w)).core c k) ((s.pkg.pass dt).heldFor c k (withOpcode (0x21) w)).word = 0 ∧ ((s.pkg.pass
        dt).taken c k (withOpcode (0x21) w)).accLoadPoison c ((s.pkg.pass dt).heldFor c k (withOpcode (0x21) w)).word = false))
  ∧ (∃ (s : State) (dt : Nat) (c : Nat) (k : Nat) (x : Ctx) (w : CmdWord), CoreTakes (s.pkg.pass dt) c k x (withOpcode (0x22) w) ∧ (strayBits
        ((s.pkg.pass dt).heldFor c k (withOpcode (0x22) w)).word (baseFields ++ [(24, 4)]) = false ∧ ((((s.pkg.pass dt).taken c k (withOpcode (0x22)
        w)).core c k).slot (accSlotOf ((s.pkg.pass dt).heldFor c k (withOpcode (0x22) w)).word)).opened = 0))
  ∧ (∃ (s : State) (dt : Nat) (c : Nat) (k : Nat) (x : Ctx) (w : CmdWord), CoreTakes (s.pkg.pass dt) c k x (withOpcode (0x23) w) ∧ (strayBits
        ((s.pkg.pass dt).heldFor c k (withOpcode (0x23) w)).word (baseFields ++ [(28, 3), (32, 8)]) = false ∧ ((((s.pkg.pass dt).taken c k (withOpcode
        (0x23) w)).core c k).group (accGroupOf ((s.pkg.pass dt).heldFor c k (withOpcode (0x23) w)).word)).slot = none))
  ∧ (∃ (s : State) (dt : Nat) (c : Nat) (k : Nat) (x : Ctx) (w : CmdWord), CoreTakes (s.pkg.pass dt) c k x (withOpcode (0x24) w) ∧ (strayBits
        ((s.pkg.pass dt).heldFor c k (withOpcode (0x24) w)).word (baseFields ++ [(28, 3)]) = false ∧ ((((s.pkg.pass dt).taken c k (withOpcode (0x24)
        w)).core c k).group (accGroupOf ((s.pkg.pass dt).heldFor c k (withOpcode (0x24) w)).word)).slot.isSome = true))
  ∧ (∃ (j : Nat) (s : State) (dt : Nat) (c : Nat) (k : Nat) (x : Ctx) (w : CmdWord), CoreTakes (s.pkg.pass dt) c k x (withOpcode (0x25) w) ∧
        (strayBits ((s.pkg.pass dt).heldFor c k (withOpcode (0x25) w)).word (baseFields ++ [(28, 3)]) = false ∧ ((((s.pkg.pass dt).taken c k
        (withOpcode (0x25) w)).core c k).group (accGroupOf ((s.pkg.pass dt).heldFor c k (withOpcode (0x25) w)).word)).slot = some j))
  ∧ (∃ (j : Nat) (s : State) (dt : Nat) (c : Nat) (k : Nat) (x : Ctx) (w : CmdWord), CoreTakes (s.pkg.pass dt) c k x (withOpcode (0x26) w) ∧
        (strayBits ((s.pkg.pass dt).heldFor c k (withOpcode (0x26) w)).word (baseFields ++ [(28, 3)]) = false ∧ ((((s.pkg.pass dt).taken c k
        (withOpcode (0x26) w)).core c k).group (accGroupOf ((s.pkg.pass dt).heldFor c k (withOpcode (0x26) w)).word)).slot = some j))
  ∧ (∃ (s : State) (dt : Nat) (c : Nat) (k : Nat) (x : Ctx) (w : CmdWord), CoreTakes (s.pkg.pass dt) c k x (withOpcode (0x27) w) ∧ (strayBits
        ((s.pkg.pass dt).heldFor c k (withOpcode (0x27) w)).word (baseFields ++ [(8, 2), (32, 3), (64, 16)]) = false ∧ locFits (bitAt ((s.pkg.pass
        dt).heldFor c k (withOpcode (0x27) w)).word.toNat 8) (accAddr ((s.pkg.pass dt).heldFor c k (withOpcode (0x27) w)).word) 256 = true))
  ∧ (∃ (s : State) (dt : Nat) (c : Nat) (k : Nat) (x : Ctx) (w : CmdWord), CoreTakes (s.pkg.pass dt) c k x (withOpcode (0x28) w) ∧ (strayBits
        ((s.pkg.pass dt).heldFor c k (withOpcode (0x28) w)).word (baseFields ++ [(8, 1), (24, 4), (64, 16)]) = false ∧ locFits (bitAt ((s.pkg.pass
        dt).heldFor c k (withOpcode (0x28) w)).word.toNat 8) (accAddr ((s.pkg.pass dt).heldFor c k (withOpcode (0x28) w)).word) 8 = true)) :=
  ⟨⟨(on (core0 id)).pkg.taken 0 0 (withOpcode 0x20 drain0), F32_ONE, none, .none, on (core0 id), 0, 0, 0, ctx0, drain0, takes_sound
        (by decide +kernel), by decide +kernel⟩,
    ⟨on (core0 id), 0, 0, 0, ctx0, wd [(64, 1), (80, 8)], takes_sound (by decide +kernel), by decide +kernel⟩,
    ⟨on (core0 id), 0, 0, 0, ctx0, wd [(24, 15)], takes_sound (by decide +kernel), by decide +kernel⟩,
    ⟨on (core0 id), 0, 0, 0, ctx0, wd [(28, 7), (32, 255)], takes_sound (by decide +kernel), by decide +kernel⟩,
    ⟨on (core0 grp0), 0, 0, 0, ctx0, wd [(28, 1)], takes_sound (by decide +kernel), by decide +kernel⟩,
    ⟨3, on (core0 grp0), 0, 0, 0, ctx0, wd [(28, 1)], takes_sound (by decide +kernel), by decide +kernel⟩,
    ⟨3, on (core0 grp0), 0, 0, 0, ctx0, wd [(28, 1)], takes_sound (by decide +kernel), by decide +kernel⟩,
    ⟨on (core0 id), 0, 0, 0, ctx0, wd [(9, 1), (32, 7), (64, 4)], takes_sound (by decide +kernel), by decide +kernel⟩,
    ⟨on (core0 id), 0, 0, 0, ctx0, wd [(24, 3), (64, 4)], takes_sound (by decide +kernel), by decide +kernel⟩⟩

theorem wit_dataMover :
    (∃ (s : State) (dt : Nat) (c : Nat) (k : Nat) (base : Nat) (bound : Option Nat) (x : Ctx) (w : CmdWord) (found : List (Nat × LineCheck)),
        CoreTakes (((s.pkg.pass dt).loadFinds c k w found).pass 0) c k x (withOpcode 0x80 w) ∧ dmCheck (withOpcode 0x80 w) = 0 ∧ ((((s.pkg.pass
        dt).loadFinds c k w found).pass 0).taken c k (withOpcode 0x80 w)).modeBase c x true (withOpcode 0x80 w) = .mem base bound ∧ dmWithin
        (withOpcode 0x80 w) bound (dmOffsets x (withOpcode 0x80 w)) = true ∧ (∀ o ∈ dmOffsets x (withOpcode 0x80 w), (((s.pkg.pass dt).loadFinds c k w
        found).pass 0).rangeOk (base + o) (dmRowBytes w) = true ∧ (((s.pkg.pass dt).loadFinds c k w found).pass 0).rangePoisoned (base + o)
        (dmRowBytes w) = false))
  ∧ (∃ (base : Nat) (bound : Option Nat) (s : State) (dt : Nat) (c : Nat) (k : Nat) (x : Ctx) (w : CmdWord), CoreTakes (s.pkg.pass dt) c k x
        (withOpcode (0x81) w) ∧ (dmCheck ((s.pkg.pass dt).heldFor c k (withOpcode (0x81) w)).word = 0 ∧ ((s.pkg.pass dt).taken c k (withOpcode (0x81)
        w)).modeBase c x false ((s.pkg.pass dt).heldFor c k (withOpcode (0x81) w)).word = .mem base bound ∧ dmWithin ((s.pkg.pass dt).heldFor c k
        (withOpcode (0x81) w)).word bound (dmOffsets x ((s.pkg.pass dt).heldFor c k (withOpcode (0x81) w)).word) = true ∧ (∀ o ∈ dmOffsets x
        ((s.pkg.pass dt).heldFor c k (withOpcode (0x81) w)).word, ((s.pkg.pass dt).taken c k (withOpcode (0x81) w)).rangeOk (base + o) (dmRowBytes
        ((s.pkg.pass dt).heldFor c k (withOpcode (0x81) w)).word) = true) ∧ (dmCluster ((s.pkg.pass dt).heldFor c k (withOpcode (0x81) w)).word = true
        → ∀ a ∈ dmLocals ((s.pkg.pass dt).heldFor c k (withOpcode (0x81) w)).word, ((s.pkg.pass dt).taken c k (withOpcode (0x81) w)).cluPoisoned c a
        (dmRowBytes ((s.pkg.pass dt).heldFor c k (withOpcode (0x81) w)).word) = false)))
  ∧ (∃ (b : Nat) (s : State) (dt : Nat) (c : Nat) (k : Nat) (x : Ctx) (w : CmdWord), CoreTakes (s.pkg.pass dt) c k x (withOpcode (0x81) w) ∧
        (dmCheck ((s.pkg.pass dt).heldFor c k (withOpcode (0x81) w)).word = 0 ∧ ((s.pkg.pass dt).taken c k (withOpcode (0x81) w)).modeBase c x false
        ((s.pkg.pass dt).heldFor c k (withOpcode (0x81) w)).word = .out b ∧ dmWithin ((s.pkg.pass dt).heldFor c k (withOpcode (0x81) w)).word (some b)
        (dmOffsets x ((s.pkg.pass dt).heldFor c k (withOpcode (0x81) w)).word) = true ∧ (dmCluster ((s.pkg.pass dt).heldFor c k (withOpcode (0x81)
        w)).word = true → ∀ a ∈ dmLocals ((s.pkg.pass dt).heldFor c k (withOpcode (0x81) w)).word, ((s.pkg.pass dt).taken c k (withOpcode (0x81)
        w)).cluPoisoned c a (dmRowBytes ((s.pkg.pass dt).heldFor c k (withOpcode (0x81) w)).word) = false)))
  ∧ (∃ (s : State) (dt : Nat) (c : Nat) (k : Nat) (x : Ctx) (w : CmdWord), CoreTakes (s.pkg.pass dt) c k x (withOpcode (0x81) w) ∧ (dmCheck
        ((s.pkg.pass dt).heldFor c k (withOpcode (0x81) w)).word = 0 ∧ ((s.pkg.pass dt).taken c k (withOpcode (0x81) w)).modeBase c x false
        ((s.pkg.pass dt).heldFor c k (withOpcode (0x81) w)).word = .nothing))
  ∧ (∃ (s : State) (dt : Nat) (c : Nat) (k : Nat) (x : Ctx) (w : CmdWord), CoreTakes (s.pkg.pass dt) c k x (withOpcode (0x82) w) ∧ (dmLocalCheck
        ((s.pkg.pass dt).heldFor c k (withOpcode (0x82) w)).word = 0 ∧ (dmCluster ((s.pkg.pass dt).heldFor c k (withOpcode (0x82) w)).word = true ∨ ∀
        a ∈ dmClusterRows ((s.pkg.pass dt).heldFor c k (withOpcode (0x82) w)).word, ((s.pkg.pass dt).taken c k (withOpcode (0x82) w)).cluPoisoned c a
        (dmRowBytes ((s.pkg.pass dt).heldFor c k (withOpcode (0x82) w)).word) = false)))
  ∧ (∃ (q : Package) (scale : Nat) (quant : Option (Nat × Int × Nat)) (s : State) (dt : Nat) (c : Nat) (k : Nat) (x : Ctx) (w : CmdWord), CoreTakes
        (s.pkg.pass dt) c k x (withOpcode (0x83) w) ∧ (strayBits ((s.pkg.pass dt).heldFor c k (withOpcode (0x83) w)).word (baseFields ++ [(128, 16),
        (160, 64)]) = false ∧ x.recompute = false ∧ (∃ ph, ((s.pkg.pass dt).taken c k (withOpcode (0x83) w)).phaseOf x = some ph ∧ ph.out = none ∧ cw
        ((s.pkg.pass dt).heldFor c k (withOpcode (0x83) w)).word 160 32 ≤ (((s.pkg.pass dt).taken c k (withOpcode (0x83) w)).outBound x.stage ph).getD
        (cw ((s.pkg.pass dt).heldFor c k (withOpcode (0x83) w)).word 160 32)) ∧ ((s.pkg.pass dt).taken c k (withOpcode (0x83) w)).resolve x (cw
        ((s.pkg.pass dt).heldFor c k (withOpcode (0x83) w)).word 192 32) none = .ok q scale quant ∧ (((s.pkg.pass dt).taken c k (withOpcode (0x83)
        w)).core c k).replaying = false)) :=
  ⟨⟨on (core0 id), 0, 0, 0, 0, none, ctx0, wd [(96, 1), (112, 1), (128, 0x10000)], [], takes_sound (by decide +kernel), by decide +kernel⟩,
    ⟨0, none, on (core0 id), 0, 0, 0, ctx0, wd [(96, 1), (112, 1), (128, 0x10000)], takes_sound (by decide +kernel), by decide +kernel⟩,
    ⟨4096, on (fun p => ((core0 id p).modStg 0 (fun x => { x with phase := some { phase0 with channels := [1] } })).put
        (STG_CH_STATE_PEER_SLOT_UNITS 0 1) 1), 0, 0, 0, ctx0, wd [(8, 4), (96, 1), (112, 1), (128, 4080)], takes_sound (by decide +kernel),
        by decide +kernel⟩,
    ⟨on (recompute0 id), 0, 0, 0, ctxR, wd [(8, 4), (96, 1), (112, 1)], takes_sound (by decide +kernel), by decide +kernel⟩,
    ⟨on (core0 id), 0, 0, 0, ctx0, wd [(96, 1), (112, 2), (80, 1), (192, 16)], takes_sound (by decide +kernel), by decide +kernel⟩,
    ⟨taken0 (on (core0 id)).pkg 0x83 (wd [(160, 64), (192, F32_ONE)]), F32_ONE, none, on (core0 id), 0, 0, 0, ctx0, wd [(160, 64), (192, F32_ONE)],
        takes_sound (by decide +kernel),
        (by exact ⟨by decide +kernel, by decide +kernel, ⟨phase0, by decide +kernel⟩, by decide +kernel, by decide +kernel⟩)⟩⟩

theorem wit_commandErrors :
    (∃ (s : State) (dt : Nat) (c : Nat) (k : Nat) (x : Ctx) (w : CmdWord), CoreTakes (s.pkg.pass dt) c k x w ∧ ((∀ ph, (s.pkg.stg x.stage).phase =
        some ph → ∀ n ∈ ph.channels, n < 4)) ∧ x.run = none ∧ opcodeDefined (opcodeOf w) = false ∧ c < 576 ∧ x.stage < 32)
  ∧ (∃ (w : CmdWord), opcodeDefined (opcodeOf w) = true)
  ∧ (∃ (s : State) (dt : Nat) (c : Nat) (k : Nat) (x : Ctx) (w : CmdWord) (cause : Nat), CoreTakes (s.pkg.pass dt) c k x (withOpcode (0x00) w) ∧
        x.run = none ∧ (strayBits ((s.pkg.pass dt).heldFor c k (withOpcode (0x00) w)).word baseFields = true ∧ cause = 1))
  ∧ (∃ (s : State) (dt : Nat) (c : Nat) (k : Nat) (x : Ctx) (w : CmdWord) (cause : Nat), CoreTakes (s.pkg.pass dt) c k x (withOpcode (0x40) w) ∧
        x.run = none ∧ (cause = vCheck ((s.pkg.pass dt).heldFor c k (withOpcode (0x40) w)).word [(1, 4 * vCount ((s.pkg.pass dt).heldFor c k
        (withOpcode (0x40) w)).word), (3, 4 * vCount ((s.pkg.pass dt).heldFor c k (withOpcode (0x40) w)).word), (2, 4 * vCount ((s.pkg.pass
        dt).heldFor c k (withOpcode (0x40) w)).word)] [] ∧ cause ≠ 0))
  ∧ (∃ (s : State) (dt : Nat) (c : Nat) (k : Nat) (x : Ctx) (w : CmdWord) (cause : Nat), CoreTakes (s.pkg.pass dt) c k x (withOpcode (0x10) w) ∧
        x.run = none ∧ (cause = ((s.pkg.pass dt).taken c k (withOpcode (0x10) w)).mmaCheck c k ((s.pkg.pass dt).heldFor c k (withOpcode (0x10)
        w)).word ∧ cause ≠ 0))
  ∧ (∃ (s : State) (dt : Nat) (c : Nat) (k : Nat) (x : Ctx) (w : CmdWord) (cause : Nat), CoreTakes (s.pkg.pass dt) c k x (withOpcode (0x22) w) ∧
        x.run = none ∧ (strayBits ((s.pkg.pass dt).heldFor c k (withOpcode (0x22) w)).word (baseFields ++ [(24, 4)]) = false ∧ ((((s.pkg.pass
        dt).taken c k (withOpcode (0x22) w)).core c k).slot (accSlotOf ((s.pkg.pass dt).heldFor c k (withOpcode (0x22) w)).word)).opened ≠ 0 ∧ cause =
        10))
  ∧ (∃ (s : State) (dt : Nat) (c : Nat) (k : Nat) (x : Ctx) (w : CmdWord) (cause : Nat), CoreTakes (s.pkg.pass dt) c k x (withOpcode (0x80) w) ∧
        x.run = none ∧ (cause = dmCheck ((s.pkg.pass dt).heldFor c k (withOpcode (0x80) w)).word ∧ cause ≠ 0))
  ∧ (∃ (p : Package) (c : Nat) (x : Ctx), ((∀ ph, (p.stg x.stage).phase = some ph → ∀ n ∈ ph.channels, n < 4)) ∧ x.run = none ∧ c < 576 ∧ x.stage <
        32 ∧ p.stgState x.stage = 2) :=
  ⟨⟨on (core0 id), 0, 0, 0, ctx0, wd [(0, 0x02)], takes_sound (by decide +kernel),
        (by intro ph h; rw [show ((on (core0 id)).pkg.stg ctx0.stage).phase = some phase0 by decide +kernel] at h; cases h; decide),
        by decide +kernel⟩,
    ⟨wd [(0, 0xA7)], by decide +kernel⟩,
    ⟨on (core0 id), 0, 0, 0, ctx0, wd [(8, 1)], 1, takes_sound (by decide +kernel), by decide +kernel⟩,
    ⟨on (core0 id), 0, 0, 0, ctx0, wd [(56, 3), (128, 4)], 1, takes_sound (by decide +kernel), by decide +kernel⟩,
    ⟨on (core0 id), 0, 0, 0, ctx0, wd [(24, 8)], 2, takes_sound (by decide +kernel), by decide +kernel⟩,
    ⟨on (core0 grp0), 0, 0, 0, ctx0, wd [(24, 3)], 10, takes_sound (by decide +kernel), by decide +kernel⟩,
    ⟨on (core0 id), 0, 0, 0, ctx0, wd [(64, 0x2FFF), (96, 2), (112, 1)], 16, takes_sound (by decide +kernel), by decide +kernel⟩,
    ⟨(on (core0 id)).pkg, 0, ctx0,
        (by intro ph h; rw [show ((on (core0 id)).pkg.stg ctx0.stage).phase = some phase0 by decide +kernel] at h; cases h; decide),
        by decide +kernel⟩⟩

theorem wit_expertCommands :
    (∃ (s : State) (dt : Nat) (c : Nat) (k : Nat) (x : Ctx) (w : CmdWord), CoreTakes (s.pkg.pass dt) c k x (withOpcode (0xA1) w) ∧ (((s.pkg.pass
        dt).taken c k (withOpcode (0xA1) w)).skipCheck ((s.pkg.pass dt).heldFor c k (withOpcode (0xA1) w)).word = 0))
  ∧ (∃ (q : Package) (tb : MoeTable) (s : State) (dt : Nat) (c : Nat) (k : Nat) (x : Ctx) (w : CmdWord), CoreTakes (s.pkg.pass dt) c k x (withOpcode
        (0xA4) w) ∧ (((s.pkg.pass dt).taken c k (withOpcode (0xA4) w)).useTable x ((s.pkg.pass dt).heldFor c k (withOpcode (0xA4) w)).word routeFields
        = .ok q tb ∧ q.routeCheck tb ((s.pkg.pass dt).heldFor c k (withOpcode (0xA4) w)).word = 0 ∧ q.routePoison tb ((s.pkg.pass dt).heldFor c k
        (withOpcode (0xA4) w)).word = false ∧ x.dir = .fwd ∧ x.recompute = false ∧ ((q.core c k).replaying = false ∨ (q.moeRoute (x.stage, cw
        ((s.pkg.pass dt).heldFor c k (withOpcode (0xA4) w)).word 32 6, q.startOf x)).placed = false)))
  ∧ (∃ (q : Package) (tb : MoeTable) (s : State) (dt : Nat) (c : Nat) (k : Nat) (x : Ctx) (w : CmdWord), CoreTakes (s.pkg.pass dt) c k x (withOpcode
        (0xA4) w) ∧ (((s.pkg.pass dt).taken c k (withOpcode (0xA4) w)).useTable x ((s.pkg.pass dt).heldFor c k (withOpcode (0xA4) w)).word routeFields
        = .ok q tb ∧ q.routeCheck tb ((s.pkg.pass dt).heldFor c k (withOpcode (0xA4) w)).word = 0 ∧ q.routePoison tb ((s.pkg.pass dt).heldFor c k
        (withOpcode (0xA4) w)).word = false ∧ x.recompute = true ∧ (q.core c k).replaying = false))
  ∧ (∃ (q : Package) (tb : MoeTable) (s : State) (dt : Nat) (c : Nat) (k : Nat) (x : Ctx) (w : CmdWord), CoreTakes (s.pkg.pass dt) c k x (withOpcode
        (0xA5) w) ∧ (((s.pkg.pass dt).taken c k (withOpcode (0xA5) w)).useTable x ((s.pkg.pass dt).heldFor c k (withOpcode (0xA5) w)).word [(40, 8),
        (56, 3), (64, 16)] = .ok q tb ∧ q.waitCheck x tb ((s.pkg.pass dt).heldFor c k (withOpcode (0xA5) w)).word = 0 ∧ x.recompute = false ∧ (q.core
        c k).replaying = false ∧ q.waitClash x ((s.pkg.pass dt).heldFor c k (withOpcode (0xA5) w)).word = none))
  ∧ (∃ (q : Package) (tb : MoeTable) (s : State) (dt : Nat) (c : Nat) (k : Nat) (x : Ctx) (w : CmdWord), CoreTakes (s.pkg.pass dt) c k x (withOpcode
        (0xA5) w) ∧ (((s.pkg.pass dt).taken c k (withOpcode (0xA5) w)).useTable x ((s.pkg.pass dt).heldFor c k (withOpcode (0xA5) w)).word [(40, 8),
        (56, 3), (64, 16)] = .ok q tb ∧ q.waitCheck x tb ((s.pkg.pass dt).heldFor c k (withOpcode (0xA5) w)).word = 0 ∧ x.recompute = true ∧
        q.moeTable (cw ((s.pkg.pass dt).heldFor c k (withOpcode (0xA5) w)).word 32 6) = some tb))
  ∧ (∃ (q : Package) (tb : MoeTable) (s : State) (dt : Nat) (c : Nat) (k : Nat) (x : Ctx) (w : CmdWord), CoreTakes (s.pkg.pass dt) c k x (withOpcode
        (0xA6) w) ∧ (((s.pkg.pass dt).taken c k (withOpcode (0xA6) w)).useTable x ((s.pkg.pass dt).heldFor c k (withOpcode (0xA6) w)).word [(40, 8),
        (128, 48)] = .ok q tb ∧ q.returnCheck tb ((s.pkg.pass dt).heldFor c k (withOpcode (0xA6) w)).word = 0 ∧ q.rangePoisoned (roAddr ((s.pkg.pass
        dt).heldFor c k (withOpcode (0xA6) w)).word) (q.returnBytes tb ((s.pkg.pass dt).heldFor c k (withOpcode (0xA6) w)).word) = false ∧ x.recompute
        = false ∧ q.moe.sent.contains (x.stage, cw ((s.pkg.pass dt).heldFor c k (withOpcode (0xA6) w)).word 32 6, cw ((s.pkg.pass dt).heldFor c k
        (withOpcode (0xA6) w)).word 40 8, q.startOf x) = false))
  ∧ (∃ (q : Package) (tb : MoeTable) (s : State) (dt : Nat) (c : Nat) (k : Nat) (x : Ctx) (w : CmdWord), CoreTakes (s.pkg.pass dt) c k x (withOpcode
        (0xA7) w) ∧ (((s.pkg.pass dt).taken c k (withOpcode (0xA7) w)).useTable x ((s.pkg.pass dt).heldFor c k (withOpcode (0xA7) w)).word routeFields
        = .ok q tb ∧ q.combineCheck tb ((s.pkg.pass dt).heldFor c k (withOpcode (0xA7) w)).word = 0 ∧ x.recompute = false ∧ (q.core c k).replaying =
        false))
  ∧ (∃ (q : Package) (tb : MoeTable) (s : State) (dt : Nat) (c : Nat) (k : Nat) (x : Ctx) (w : CmdWord), CoreTakes (s.pkg.pass dt) c k x (withOpcode
        (0xA7) w) ∧ (((s.pkg.pass dt).taken c k (withOpcode (0xA7) w)).useTable x ((s.pkg.pass dt).heldFor c k (withOpcode (0xA7) w)).word routeFields
        = .ok q tb ∧ q.combineCheck tb ((s.pkg.pass dt).heldFor c k (withOpcode (0xA7) w)).word = 0 ∧ x.recompute = true)) :=
  ⟨⟨on (core0 id), 0, 0, 0, ctx0, wd [(8, 1), (32, 5), (64, 0), (80, 4), (96, 0x2000), (112, 1), (128, 32), (144, 1)], takes_sound
        (by decide +kernel), by decide +kernel⟩,
    ⟨used0 (taken0 (on (moe0 id)).pkg 0xA4 (wd [(96, 1), (128, 0x10000)])), table0, on (moe0 id), 0, 0, 0, ctx0, wd [(96, 1), (128, 0x10000)],
        takes_sound (by decide +kernel), by decide +kernel⟩,
    ⟨used0 (taken0 (on (recompute0 id)).pkg 0xA4 (wd [(96, 1), (128, 0x10000)])), table0, on (recompute0 id), 0, 0, 0, ctxR, wd [(96, 1), (128,
        0x10000)], takes_sound (by decide +kernel), by decide +kernel⟩,
    ⟨used0 (taken0 (on (moe0 id)).pkg 0xA5 0), table0, on (moe0 id), 0, 0, 0, ctx0, 0, takes_sound (by decide +kernel), by decide +kernel⟩,
    ⟨used0 (taken0 (on (recompute0 id)).pkg 0xA5 0), table0, on (recompute0 id), 0, 0, 0, ctxR, 0, takes_sound (by decide +kernel),
        by decide +kernel⟩,
    ⟨used0 (taken0 (on (moe0 id)).pkg 0xA6 (wd [(128, 0x20000)])), table0, on (moe0 id), 0, 0, 0, ctx0, wd [(128, 0x20000)], takes_sound
        (by decide +kernel), by decide +kernel⟩,
    ⟨used0 (taken0 (on (moe0 id)).pkg 0xA7 (wd [(96, 1), (128, 0x10000)])), table0, on (moe0 id), 0, 0, 0, ctx0, wd [(96, 1), (128, 0x10000)],
        takes_sound (by decide +kernel), by decide +kernel⟩,
    ⟨used0 (taken0 (on (recompute0 id)).pkg 0xA7 (wd [(96, 1), (128, 0x10000)])), table0, on (recompute0 id), 0, 0, 0, ctxR, wd [(96, 1), (128,
        0x10000)], takes_sound (by decide +kernel), by decide +kernel⟩⟩

theorem wit_expertEvents :
    (∃ (s : State) (dt : Nat) (st : Nat) (ti : Nat) (ph : Phase) (tb : MoeTable) (i : RouteIssue) (r : List RouteIssue) (x : Ctx), ((s.pkg.pass
        dt).stg st).phase = some ph ∧ ph.dir = .fwd ∧ (s.pkg.pass dt).moeTable ti = some tb ∧ ((s.pkg.pass dt).moeRoute (st, ti, ph.startAt)).placed =
        false ∧ ((s.pkg.pass dt).moeRoute (st, ti, ph.startAt)).issues = i :: r ∧ (s.pkg.pass dt).allIssued st ((s.pkg.pass dt).moeRoute (st, ti,
        ph.startAt)) = true ∧ (s.pkg.pass dt).ctx i.cluster i.core = some x ∧ rangesOk tb.tokensMax (i :: r) = true)
  ∧ (∃ (s : State) (dt : Nat) (c : Nat) (k : Nat) (x : Ctx) (h : Held) (q : Package), (s.pkg.pass dt).waiting c k 0xA5 = some (x, h) ∧ (s.pkg.pass
        dt).waitDone c k x h.word = some q)
  ∧ (∃ (s : State) (dt : Nat) (c : Nat) (k : Nat) (x : Ctx) (h : Held) (q : Package), (s.pkg.pass dt).waiting c k 0xA5 = some (x, h) ∧ (s.pkg.pass
        dt).deadlinePassed h = true ∧ ((s.pkg.pass dt).giveUpSenders x h.word).waitDone c k x h.word = some q)
  ∧ (∃ (s : State) (dt : Nat) (c : Nat) (k : Nat) (x : Ctx) (h : Held) (q : Package), (s.pkg.pass dt).waiting c k 0xA7 = some (x, h) ∧ (s.pkg.pass
        dt).combineDone c k x h.word = some q)
  ∧ (∃ (s : State) (dt : Nat) (c : Nat) (k : Nat) (x : Ctx) (h : Held) (q : Package), (s.pkg.pass dt).waiting c k 0xA7 = some (x, h) ∧ (s.pkg.pass
        dt).deadlinePassed h = true ∧ ((s.pkg.pass dt).giveUpReturns c k x h.word).combineDone c k x h.word = some q)
  ∧ (∃ (s : State) (st : Nat) (slot : Nat), (s.pkg.barrier st slot).exponent = none ∧ s.pkg.stageCores st ≠ [] ∧ (∀ e ∈ s.pkg.stageCores st, e ∈
        (s.pkg.barrier st slot).cores)) :=
  ⟨⟨on (fun p => (moe0 id p).setMoeRoute (0, 0, 0) { issues := issues0 }), 0, 0, 0, phase0, table0, routeIssue 0 0 (withOpcode 0xA4 (wd [(96,
        0)])), issues0.drop 1, ctx0, by decide +kernel⟩,
    ⟨waits0 0xA5, 0, 0, 0, ctx0, held0 0xA5 0, ((waits0 0xA5).pkg.waitDone 0 0 ctx0 (withOpcode 0xA5 0)).getD {}, by decide +kernel⟩,
    ⟨on (moe0 (fun co => { co with seq := some (held0 0xA5 0) })), 10 ^ 15, 0, 0, ctx0, held0 0xA5 0, ((((on (moe0 (fun co =>
        { co with seq := some (held0 0xA5 0) }))).pkg.pass (10 ^ 15)).giveUpSenders ctx0 (withOpcode 0xA5 0)).waitDone 0 0 ctx0 (withOpcode 0xA5
        0)).getD {}, by decide +kernel⟩,
    ⟨waits0 0xA7, 0, 0, 0, ctx0, held0 0xA7 0, ((waits0 0xA7).pkg.combineDone 0 0 ctx0 (withOpcode 0xA7 0)).getD {}, by decide +kernel⟩,
    ⟨waits0 0xA7, 10 ^ 15, 0, 0, ctx0, held0 0xA7 0, ((((waits0 0xA7).pkg.pass (10 ^ 15)).giveUpReturns 0 0 ctx0 (withOpcode 0xA7 0)).combineDone 0
        0 ctx0 (withOpcode 0xA7 0)).getD {}, by decide +kernel⟩,
    ⟨on (fun p => { core0 id p with num := { p.num with barriers := [(7, { cores := (List.range 16).map (fun k => (0, k)) })] } }), 0, 7,
        by decide +kernel⟩⟩

theorem wit_stackUpkeep :
    (∃ (s : State) (k : Nat) (temp : Nat), k < 32 ∧ s.pkg.stackFitted k = true ∧ temp < 256)
  ∧ (∃ (s : State) (k : Nat) (temp : Nat), k < 32 ∧ s.pkg.stackFitted k = true ∧ 93 ≤ temp ∧ temp < 256 ∧ s.pkg.has (MEM_STATUS_THERMAL_CAP k) =
        false)
  ∧ (∃ (s : State) (k : Nat) (ofs : Nat), s.pkg.stackFitted k = true ∧ s.pkg.dieFenced (k / 4) = false ∧ ofs < 2 ^ 36)
  ∧ (∃ (s : State) (k : Nat) (ofs : Nat), k < 32 ∧ s.pkg.stackFitted k = true ∧ s.pkg.dieFenced (k / 4) = false ∧ ofs / 64 < 2 ^ 30 - 1 ∧
        s.pkg.poisoned (k * 2 ^ 36 + ofs) = false)
  ∧ (∃ (s : State) (k : Nat) (ofs : Nat), k < 32 ∧ s.pkg.stackFitted k = true ∧ s.pkg.dieFenced (k / 4) = false ∧ ofs / 64 < 2 ^ 30 - 1 ∧
        s.pkg.poisoned (k * 2 ^ 36 + ofs) = false) :=
  ⟨⟨on ticking, 31, 85, by decide +kernel⟩,
    ⟨on ticking, 31, 93, by decide +kernel⟩,
    ⟨on ticking, 31, 2 ^ 36 - 64, by decide +kernel⟩,
    ⟨on ticking, 31, 64, by decide +kernel⟩,
    ⟨on ticking, 31, 64, by decide +kernel⟩⟩

theorem wit_storesReadBack :
    (∃ (a : Nat) (bs : List Byte), ((∀ i, i < bs.length → (physOf (a + i)).isSome = true)) ∧ bs.length ≤ 2 ^ 36)
  ∧ (∃ (a : Nat) (bs : List Byte) (y : Nat), ((∀ i, i < bs.length → physOf (a + i) ≠ some y)))
  ∧ (∃ (p : Package), memWf p.mem = true)
  ∧ (∃ (a : Nat) (l : Nat) (bs : List Byte), l ∈ wholeLines a bs.length)
  ∧ (∃ (a : Nat) (l : Nat) (bs : List Byte), l ∉ wholeLines a bs.length)
  ∧ (∃ (p : Package) (a : Nat) (bs : List Byte), p.rangeOk a bs.length = false) :=
  ⟨⟨2 ^ 41 - 2, [1, 2], (by decide +kernel), by decide +kernel⟩,
    ⟨0x100, [1, 2], 0, (by decide +kernel)⟩,
    ⟨State.reset.pkg, by decide +kernel⟩,
    ⟨0, 0, List.replicate 64 7, by decide +kernel⟩,
    ⟨0, 0, List.replicate 63 7, by decide +kernel⟩,
    ⟨State.reset.pkg, 2 ^ 42 - 1, [1, 2], by decide +kernel⟩⟩

theorem wit_addressViews :
    (∃ (a : Nat) (x : Nat), a < 2 ^ 41 ∧ physOf a = some x)
  ∧ (∃ (a : Nat) (b : Nat) (x : Nat), a < 2 ^ 41 ∧ b < 2 ^ 41 ∧ physOf a = some x ∧ physOf b = some x)
  ∧ (∃ (a : Nat) (b : Nat) (x : Nat), 2 ^ 41 ≤ a ∧ 2 ^ 41 ≤ b ∧ physOf a = some x ∧ physOf b = some x)
  ∧ (∃ (x : Nat), x < 2 ^ 41)
  ∧ (∃ (x : Nat), x < 2 ^ 41)
  ∧ (∃ (a : Nat), 2 ^ 42 ≤ a) :=
  ⟨⟨0x00C123456789, 0xF048D15989, by decide +kernel⟩,
    ⟨2 ^ 41 - 1, 2 ^ 41 - 1, 2 ^ 41 - 1, by decide +kernel⟩,
    ⟨2 ^ 41, 2 ^ 41, 0, by decide +kernel⟩,
    ⟨2 ^ 41 - 1, by decide +kernel⟩,
    ⟨2 ^ 41 - 1, by decide +kernel⟩,
    ⟨2 ^ 42, by decide +kernel⟩⟩

theorem wit_pourRegions :
    (∃ (s : State) (dt : Nat) (k : Nat) (i : Nat) (j : PourJob) (r : Region) (q : Package), (s.pkg.pass dt).engineWork k = some (j, i) ∧ (s.pkg.pass
        dt).region i = some r ∧ s.pkg.fatal = false ∧ (s.pkg.stg r.stage).pourDone = none ∧ s.pkg.snapHolds 0x06 i = false ∧ s.pkg.dieFenced (k / 4) =
        false ∧ (s.pkg.pass dt).pourRegion k j i r = some q)
  ∧ (∃ (s : State) (dt : Nat) (k : Nat) (i : Nat) (j : PourJob) (r : Region), (s.pkg.pass dt).engineWork k = some (j, i) ∧ (s.pkg.pass dt).region i
        = some r ∧ s.pkg.fatal = false ∧ (s.pkg.stg r.stage).pourDone = none ∧ s.pkg.snapHolds 0x06 i = false ∧ (s.pkg.dieFenced (k / 4) = true ∨
        (s.pkg.pass dt).pourRegion k j i r = none)) :=
  ⟨⟨on pouring0, 5, 0, 0, pour0, Region.ofBytes regionBytes0, (((on pouring0).pkg.pass 5).pourRegion 0 pour0 0 (Region.ofBytes regionBytes0)).getD
        {}, by decide +kernel⟩,
    ⟨on (fun p => { pouring0 p with poison := [0x10000 / 64] }), 5, 0, 0, pour0, Region.ofBytes regionBytes0, by decide +kernel⟩⟩

theorem wit_tieFoldsAndAssay :
    (∃ (s : State) (dt : Nat) (tie : Nat) (step : Nat) (b : List Byte), (s.pkg.pass dt).foldReady tie = some (step, b) ∧ s.pkg.fatal = false)
  ∧ (∃ (s : State) (dt : Nat) (tie : Nat) (f : Fold) (b : List Byte) (sums : List Nat), s.pkg.folds.find? (fun f => f.tie = tie) = some f ∧
        s.pkg.tieBytes tie = some b ∧ s.pkg.fatal = false ∧ (({ s.pkg.pass dt with folds := s.pkg.folds.filter (fun g => g.tie ≠ tie) }).setBit
        BWD_STATUS tie false).foldSums b = some sums)
  ∧ (∃ (s : State) (c : Nat) (k : Nat) (j : AssayJob), (s.pkg.core c k).assay = some j ∧ j.sums.any Sampled.diverges = false)
  ∧ (∃ (s : State) (c : Nat) (k : Nat) (j : AssayJob) (upset : Bool), (s.pkg.core c k).assay = some j ∧ (upset || j.sums.any Sampled.diverges) =
        true ∧ s.pkg.get NUM_ASSAY_CFG_ACTION = 0)
  ∧ (∃ (s : State) (slot : Nat), s.pkg.rd NUM_HIST_SLOTS ≤ slot)
  ∧ (∃ (s : State) (slot : Nat) (b : List Byte), slot < s.pkg.rd NUM_HIST_SLOTS ∧ s.pkg.histBytes slot = some b ∧ histWarm b = true)
  ∧ (∃ (s : State) (slot : Nat) (b : List Byte), slot < s.pkg.rd NUM_HIST_SLOTS ∧ s.pkg.histBytes slot = some b ∧ histWarm b = false) :=
  ⟨⟨on tied0, 5, 0, 5, tieBytes0, by decide +kernel⟩,
    ⟨on (fun p => { tied0 p with folds := [fold0] }), 5, 0, fold0, tieBytes0, [0, 0], by decide +kernel⟩,
    ⟨assay0 job0, 0, 0, job0, by decide +kernel⟩,
    ⟨on (fun p => (assay0 job0).pkg.put NUM_ASSAY_CFG_ACTION 0), 0, 0, job0, true, by decide +kernel⟩,
    ⟨on (hist0 0), 1, by decide +kernel⟩,
    ⟨on (hist0 2), 0, ((on (hist0 2)).pkg.histBytes 0).getD [], by decide +kernel⟩,
    ⟨on (hist0 0), 0, ((on (hist0 0)).pkg.histBytes 0).getD [], by decide +kernel⟩⟩

theorem wit_gatherExchange :
    (∃ (s : State) (st : Nat) (version : Nat) (n : Nat), s.pkg.fatal = false ∧ s.pkg.slotOf st version = some n)
  ∧ (∃ (s : State) (st : Nat) (version : Nat), s.pkg.fatal = false ∧ s.pkg.slotOf st version = none ∧ s.pkg.stgState st ≠ 0 ∧ s.pkg.currentVersion
        st < version)
  ∧ (∃ (s : State) (st : Nat) (version : Nat), s.pkg.fatal = false ∧ s.pkg.slotOf st version = none ∧ (s.pkg.stgState st = 0 ∨ version ≤
        s.pkg.currentVersion st))
  ∧ (∃ (s : State) (dt : Nat) (node : Nat) (st : Nat) (f : HeldFetch), s.pkg.heldFetches.find? (fun f => f.node = node && f.stage = st) = some f ∧
        f.since + s.pkg.get GATHER_CFG_WAIT_US * Config.usUnits ≤ s.pkg.clock + dt)
  ∧ (∃ (s : State) (st : Nat) (version : Nat) (ofs : Nat) (b : GatherBlk) (data : List Byte), (s.pkg.gather st).flying version ofs = some b ∧
        s.pkg.fatal = false ∧ data.length = b.len)
  ∧ (∃ (s : State) (st : Nat) (version : Nat) (ofs : Nat) (crc : Nat) (b : GatherBlk) (data : List Byte), (s.pkg.gather st).flying version ofs =
        some b ∧ s.pkg.fatal = false ∧ crc32c data ≠ crc ∧ b.alt = false ∧ b.again = false)
  ∧ (∃ (s : State) (st : Nat) (version : Nat) (ofs : Nat) (crc : Nat) (b : GatherBlk) (data : List Byte), (s.pkg.gather st).flying version ofs =
        some b ∧ s.pkg.fatal = false ∧ crc32c data ≠ crc ∧ b.alt = true ∧ st < 32)
  ∧ (∃ (s : State) (st : Nat) (version : Nat) (ofs : Nat) (node : Nat) (alt : Nat) (mask : Nat) (b : GatherBlk), (s.pkg.gather st).flying version
        ofs = some b ∧ s.pkg.fatal = false ∧ s.pkg.memberEntry st b.member = some (node, alt, mask) ∧ b.alt = false ∧ alt ≠ 0xFFF) :=
  ⟨⟨on (stage0 id), 0, 0, 0, by decide +kernel⟩,
    ⟨on (stage0 id), 0, 1, by decide +kernel⟩,
    ⟨on (fun p => (stage0 id p).wr (STG_VNUM 0 0) 4), 0, 3, by decide +kernel⟩,
    ⟨on (fun p => { stage0 id p with heldFetches := [fetch0] }), 10 ^ 12, 0x21, 0, fetch0, by decide +kernel⟩,
    ⟨on (gath0 blk0), 0, 0, 4096, blk0, [1, 2, 3], by decide +kernel⟩,
    ⟨on (gath0 blk0), 0, 0, 4096, 0, blk0, [1, 2, 3], by decide +kernel⟩,
    ⟨on (gath0 { blk0 with alt := true }), 0, 0, 4096, 0, { blk0 with alt := true }, [1, 2, 3], by decide +kernel⟩,
    ⟨on (fun p => ((gath0 blk0 p).wr (GATHER_NODES 0) 0x800000).store 0x800008 (leBytes 8 (0x21 + 2 ^ 12 * 0x22))), 0, 0, 4096, 0x21, 0x22, 0, blk0,
        by decide +kernel⟩⟩

theorem wit_contributionsAndAdmission :
    (∃ (s : State) (dt : Nat) (i : Nat) (step : Nat) (code : Nat) (ek : Int) (b : Bucket) (own : OwnPart) (q : Package), (s.pkg.pass dt).bucket i =
        some b ∧ s.pkg.fatal = false ∧ (s.pkg.pass dt).contributionReady? i b step = true ∧ (b.topk = true → step ≠ 0 → s.pkg.stepResolved (step - 1)
        = true) ∧ (s.pkg.pass dt).bucketScale b step = some (ek, code) ∧ (s.pkg.pass dt).makeOwn i b step ek code = some (own, q))
  ∧ (∃ (s : State) (i : Nat) (step : Nat) (b : Bucket), s.pkg.bucket i = some b ∧ s.pkg.bucketClosed i step = false ∧ s.pkg.stepResolved step =
        false ∧ s.pkg.admits i step = true)
  ∧ (∃ (s : State) (i : Nat) (step : Nat) (b : Bucket), s.pkg.bucket i = some b ∧ s.pkg.bucketClosed i step = false ∧ s.pkg.stepResolved step =
        false ∧ s.pkg.admits i step = false)
  ∧ (∃ (s : State) (node : Nat) (i : Nat) (step : Nat), s.pkg.fatal = false ∧ (∀ x ∈ s.pkg.cru.outbox, (x.node = node && x.header.index = i &&
        x.header.step = step) = false))
  ∧ (∃ (s : State) (node : Nat) (i : Nat) (step : Nat) (x : Xmit), s.pkg.fatal = false ∧ s.pkg.cru.outbox = [x] ∧ x.node = node ∧ x.header.index = i
        ∧ x.header.step = step)
  ∧ (∃ (s : State) (h : CruHeader) (data : List Byte) (b : Bucket), s.pkg.bucket h.index = some b ∧ refuseCause s.pkg.frac b (s.pkg.denseFormats b
        h.step) (rangeLen (s.pkg.ownedRange b (s.pkg.selfMember b.stage))) h data ≠ 0)
  ∧ (∃ (s : State) (h : CruHeader) (data : List Byte) (b : Bucket) (x : BktCtx), s.pkg.bucket h.index = some b ∧ refuseCause s.pkg.frac b
        (s.pkg.denseFormats b h.step) (rangeLen (s.pkg.ownedRange b (s.pkg.selfMember b.stage))) h data = 0 ∧ s.pkg.bctxOf h.index h.step = some x ∧
        s.pkg.bucketClosed h.index h.step = false ∧ s.pkg.stepResolved h.step = false ∧ x.seen.contains h.sender = false)
  ∧ (∃ (s : State) (h : CruHeader) (data : List Byte) (b : Bucket), s.pkg.bucket h.index = some b ∧ refuseCause s.pkg.frac b (s.pkg.denseFormats b
        h.step) (rangeLen (s.pkg.ownedRange b (s.pkg.selfMember b.stage))) h data = 0 ∧ s.pkg.bctxOf h.index h.step = none)
  ∧ (∃ (s : State) (h : CruHeader) (data : List Byte) (b : Bucket) (x : BktCtx), s.pkg.bucket h.index = some b ∧ refuseCause s.pkg.frac b []
        (rangeLen (s.pkg.ownedRange b (ringRange (s.pkg.members' b.stage) h.member))) { h with flags := h.flags ||| 4 } data = 0 ∧ s.pkg.bctxOf
        h.index h.step = some x ∧ s.pkg.bucketClosed h.index h.step = false ∧ s.pkg.stepResolved h.step = false ∧ x.own = none) :=
  ⟨⟨on (cru0 id), 0, 0, 5, scale0.2, scale0.1, bkt0, (((on (cru0 id)).pkg.makeOwn 0 bkt0 5 scale0.1 scale0.2).getD
        ({ bucket := 0, step := 0, vals := [] }, (on (cru0 id)).pkg)).1, (((on (cru0 id)).pkg.makeOwn 0 bkt0 5 scale0.1 scale0.2).getD
        ({ bucket := 0, step := 0, vals := [] }, (on (cru0 id)).pkg)).2, by decide +kernel⟩,
    ⟨on (cru0 id), 0, 5, bkt0, by decide +kernel⟩,
    ⟨on (fun p => (cru0 id p).wr CRU_RECV_SIZE 0), 0, 5, bkt0, by decide +kernel⟩,
    ⟨on (cru0 id), 0x21, 0, 5, by decide +kernel⟩,
    ⟨on (cru0 (fun c => { c with outbox := [xmit0] })), 0x21, 0, 5, xmit0, by decide +kernel⟩,
    ⟨opened0 bctx0, { cruHeader0 with bucketId := 8 }, [0, 0, 0, 0], bkt0, by decide +kernel⟩,
    ⟨opened0 bctx0, cruHeader0, [0, 0, 0, 0], bkt0, bctx0, by decide +kernel⟩,
    ⟨on (cru0 id), cruHeader0, [0, 0, 0, 0], bkt0, by decide +kernel⟩,
    ⟨opened0 bctx0, { cruHeader0 with format := 0x10 }, [0, 0, 0, 0, 0, 0, 0, 0], bkt0, bctx0, by decide +kernel⟩⟩

theorem wit_bucketDeadlinesAndResults :
    (∃ (s : State) (i : Nat) (n : Nat) (b : Bucket) (x : BktCtx), s.pkg.bctx i = some x ∧ x.bucket % 64 = i % 64 ∧ x.openBeat = some n ∧
        s.pkg.bucket x.bucket = some b ∧ x.soft = false ∧ n + s.pkg.get CRU_CFG_SOFT_BEATS ≤ s.pkg.beatNo ∧ x.held = [])
  ∧ (∃ (s : State) (i : Nat) (n : Nat) (b : Bucket) (x : BktCtx), s.pkg.bctx i = some x ∧ x.openBeat = some n ∧ s.pkg.bucket x.bucket = some b ∧
        s.pkg.missingMembers b x ≠ [] ∧ n + s.pkg.get CRU_CFG_HARD_BEATS ≤ s.pkg.beatNo ∧ s.pkg.cru.waiting = [] ∧ s.pkg.cru.own = [])
  ∧ (∃ (s : State) (i : Nat) (b : Bucket) (x : BktCtx) (r : Region) (code : Nat), s.pkg.bctx i = some x ∧ s.pkg.bucket x.bucket = some b ∧
        s.pkg.region b.region = some r ∧ s.pkg.bucketScale b x.step = some ((scale0.1), code) ∧ s.pkg.fatal = false ∧ s.pkg.missingMembers b x = [] ∧
        s.pkg.arrayFree r x.step = true)
  ∧ (∃ (s : State) (i : Nat) (b : Bucket) (x : BktCtx) (r : Region) (code : Nat), s.pkg.bctx i = some x ∧ s.pkg.bucket x.bucket = some b ∧
        s.pkg.region b.region = some r ∧ s.pkg.bucketScale b x.step = some ((scale0.1), code) ∧ s.pkg.fatal = false ∧ s.pkg.missingMembers b x = [] ∧
        s.pkg.arrayFree r x.step = false ∧ x.gradWait = false) :=
  ⟨⟨opened0 bctx0, 0, 0, bkt0, bctx0, by decide +kernel⟩,
    ⟨opened0 bctx0, 0, 0, bkt0, bctx0, by decide +kernel⟩,
    ⟨on (cru0 (fun c => { c with ctxs := [(0, { bctx0 with added := [0] })], resolved := 5 })), 0, bkt0, { bctx0 with added := [0] }, region0,
        scale0.2, by decide +kernel⟩,
    ⟨opened0 { bctx0 with added := [0] }, 0, bkt0, { bctx0 with added := [0] }, region0, scale0.2, by decide +kernel⟩⟩

theorem wit_stepTree :
    (∃ (s : State) (step : Nat), s.pkg.fatal = false ∧ (s.pkg.acct step).ready = none ∧ s.pkg.cru.decided ≤ step ∧ s.pkg.ownReady step = true)
  ∧ (∃ (s : State) (child : Nat) (r : StepReport), s.pkg.cru.decided ≤ r.step ∧ child ∈ s.pkg.children ∧ (∀ c ∈ (s.pkg.acct r.step).children, c.1 ≠
        child) ∧ (s.pkg.acct r.step).ready = none)
  ∧ (∃ (s : State) (step : Nat) (beat : Nat) (own : StepReport), s.pkg.fatal = false ∧ (s.pkg.acct step).ready = some (beat, own) ∧ (s.pkg.acct
        step).sentUp = none ∧ s.pkg.missingChildren (s.pkg.acct step) beat ≠ [] ∧ beat + s.pkg.get CRU_TREE_CFG_LIMIT ≤ s.pkg.beatNo)
  ∧ (∃ (s : State) (dt : Nat) (step : Nat) (r : StepReport), (s.pkg.pass dt).decidable step = some r)
  ∧ (∃ (s : State) (o : Outcome), s.pkg.cru.decided ≤ o.step)
  ∧ (∃ (s : State) (o : Outcome), o.step < s.pkg.cru.decided) :=
  ⟨⟨tree0 {}, 5, by decide +kernel⟩,
    ⟨tree0 {}, 1, report0, by decide +kernel⟩,
    ⟨tree0 { ready := some (0, report0) }, 5, 0, report0, by decide +kernel⟩,
    ⟨tree0 { sentUp := some report0 }, 0, 5, report0, by decide +kernel⟩,
    ⟨tree0 {}, outcome0, by decide +kernel⟩,
    ⟨on (fun p => { p with cru := { p.cru with decided := 6 } }), outcome0, by decide +kernel⟩⟩

theorem wit_flitsReceived :
    (∃ (s : State) (k : Nat) (f : WireFlit), s.pkg.linkUp k = true ∧ f.seq = (s.pkg.port k).expected)
  ∧ (∃ (s : State) (k : Nat) (f : WireFlit), s.pkg.linkUp k = true ∧ f.seq ≠ (s.pkg.port k).expected ∧ ((s.pkg.port k).expected + 2 ^ 14 - f.seq) %
        2 ^ 14 ≤ 2 ^ 13)
  ∧ (∃ (s : State) (dt : Nat) (k : Nat) (f : WireFlit), s.pkg.linkUp k = true ∧ f.seq ≠ (s.pkg.port k).expected ∧ 2 ^ 13 < ((s.pkg.port k).expected
        + 2 ^ 14 - f.seq) % 2 ^ 14 ∧ (s.pkg.port k).nakAfter ≤ s.pkg.clock + dt)
  ∧ (∃ (s : State) (dt : Nat) (k : Nat), s.pkg.linkUp k = true ∧ (s.pkg.port k).nakAfter ≤ s.pkg.clock + dt)
  ∧ (∃ (s : State) (k : Nat), s.pkg.linkUp k = true) :=
  ⟨⟨port0 id, 3, flit0 0 0, by decide +kernel⟩,
    ⟨port0 id, 3, flit0 0 (2 ^ 14 - 1), by decide +kernel⟩,
    ⟨port0 id, 0, 3, flit0 0 1, by decide +kernel⟩,
    ⟨port0 id, 0, 3, by decide +kernel⟩,
    ⟨port0 id, 3, by decide +kernel⟩⟩

theorem wit_flitsSent :
    (∃ (s : State) (k : Nat), s.pkg.linkUp k = true ∧ (s.pkg.port k).flitCount % 20480 = 0)
  ∧ (∃ (s : State) (k : Nat), s.pkg.linkUp k = true ∧ (s.pkg.port k).flitCount % 20480 ≠ 0 ∧ (s.pkg.port k).nakOwed = true)
  ∧ (∃ (s : State) (k : Nat), s.pkg.linkUp k = true ∧ (s.pkg.port k).flitCount % 20480 ≠ 0 ∧ (s.pkg.port k).nakOwed = false ∧ 0 < (s.pkg.port
        k).toResend ∧ (s.pkg.port k).replay[(s.pkg.port k).replay.length - (s.pkg.port k).toResend]? = some (txFlit0))
  ∧ (∃ (s : State) (k : Nat) (v : Nat) (rv : Nat) (rl : Nat) (m : Msg) (rest : List Msg), s.pkg.linkUp k = true ∧ (s.pkg.port k).flitCount % 20480 ≠
        0 ∧ (s.pkg.port k).nakOwed = false ∧ (s.pkg.port k).toResend = 0 ∧ (s.pkg.port k).replay.length < Config.replayFlits ∧ (s.pkg.port k).pick
        (s.pkg.rd (LNK_VC_WEIGHT k)) = some (v, rv, rl) ∧ ((s.pkg.port k).vc v).msgs = m :: rest)
  ∧ (∃ (s : State) (k : Nat), s.pkg.linkUp k = true ∧ (s.pkg.port k).flitCount % 20480 ≠ 0 ∧ (s.pkg.port k).nakOwed = false ∧ (s.pkg.port
        k).toResend = 0 ∧ (Config.replayFlits ≤ (s.pkg.port k).replay.length ∨ (s.pkg.port k).pick (s.pkg.rd (LNK_VC_WEIGHT k)) = none))
  ∧ (∃ (s : State) (k : Nat) (v : Nat), k < 24 ∧ s.pkg.linkUp k = true ∧ ((s.pkg.port k).vc v).msgs ≠ [] ∧ vcCredit (s.pkg.port k) v = 0 ∧
        ((s.pkg.port k).vc v).dryReported = false) :=
  ⟨⟨port0 id, 3, by decide +kernel⟩,
    ⟨port0 (fun l => { l with flitCount := 1, nakOwed := true }), 3, by decide +kernel⟩,
    ⟨port0 (fun l => { l with flitCount := 1, replay := [txFlit0], toResend := 1 }), 3, by decide +kernel⟩,
    ⟨port0 (queued0 8), 3, pick0.1, pick0.2.1, pick0.2.2, msg0, [], by decide +kernel⟩,
    ⟨port0 (queued0 0), 3, by decide +kernel⟩,
    ⟨port0 (queued0 0), 3, 2, by decide +kernel⟩⟩

theorem wit_messagesReceived :
    (∃ (m : Msg), (m.cls = CLS_BEAT ∨ bitAt m.dest 15 = true))
  ∧ (∃ (s : State) (m : Msg), m.cls ≠ CLS_EVENT ∧ s.pkg.has LNK_NODE_VALID = true ∧ m.dest = s.pkg.node)
  ∧ (∃ (s : State) (m : Msg), m.cls ≠ CLS_BEAT ∧ bitAt m.dest 15 = false ∧ (s.pkg.has LNK_NODE_VALID = false ∨ m.dest ≠ s.pkg.node) ∧ m.hops = 0)
  ∧ (∃ (s : State) (dt : Nat) (j : Nat) (m : Msg), m.cls ≠ CLS_BEAT ∧ m.cls ≠ CLS_HOST_REQ ∧ bitAt m.dest 15 = false ∧ (s.pkg.has LNK_NODE_VALID =
        false ∨ m.dest ≠ s.pkg.node) ∧ m.hops ≠ 0 ∧ (s.pkg.pass dt).pickRoute m.dest m.cls = some j) :=
  ⟨⟨{ msg0 with cls := CLS_BEAT }, by decide +kernel⟩,
    ⟨on (fun p => (p.put LNK_NODE_VALID 1).put LNK_NODE_NODE 0x21), msg0, by decide +kernel⟩,
    ⟨State.reset, { msg0 with hops := 0 }, by decide +kernel⟩,
    ⟨on (fun p => let p := (linkOn 3 p).modPort 3 (queued0 8); { p with lnk := { p.lnk with routes := [(0x21, 8)] } }), 0, 3, msg0,
        by decide +kernel⟩⟩

theorem wit_linkTraining :
    (∃ (s : State) (k : Nat), k < 24 ∧ s.pkg.pwr.fw = true ∧ s.pkg.lnk.noFirmware = false ∧ s.pkg.has (LNK_CTRL_ENABLE k) = true ∧ (s.pkg.linkState
        k = LINK_DISABLED ∨ s.pkg.linkState k = LINK_DOWN))
  ∧ (∃ (s : State) (k : Nat) (d : Nat) (q : Partner), k < 24 ∧ s.pkg.linkState k = LINK_TRAINING ∧ d ≤ 2750 ∧ q.serial ≠ s.pkg.serial ∧ q.revision =
        1 ∧ q.adapter = false ∧ s.pkg.hostMode 0 = false ∧ s.pkg.hostMode 1 = false)
  ∧ (∃ (s : State) (k : Nat) (d : Nat) (q : Partner), k < 24 ∧ s.pkg.linkState k = LINK_TRAINING ∧ (q.serial = s.pkg.serial ∨ q.revision ≠ 1 ∨ 2750
        < d))
  ∧ (∃ (s : State) (k : Nat), k < 24 ∧ s.pkg.linkState k = LINK_TRAINING ∧ (s.pkg.port k).exchanged = true)
  ∧ (∃ (s : State) (k : Nat), k < 24 ∧ s.pkg.linkState k = LINK_TRAINING)
  ∧ (∃ (s : State) (k : Nat), k < 24 ∧ s.pkg.pwr.fw = true ∧ s.pkg.lnk.noFirmware = false ∧ s.pkg.has (LNK_CTRL_ENABLE k) = true ∧ s.pkg.linkState k
        = LINK_DOWN) :=
  ⟨⟨link0 LINK_DOWN id, 3, by decide +kernel⟩,
    ⟨link0 LINK_TRAINING id, 3, 2750, partner0, by decide +kernel⟩,
    ⟨link0 LINK_TRAINING id, 3, 2751, partner0, by decide +kernel⟩,
    ⟨link0 LINK_TRAINING (fun l => { l with exchanged := true, partner := some partner0 }), 3, by decide +kernel⟩,
    ⟨link0 LINK_TRAINING id, 3, by decide +kernel⟩,
    ⟨link0 LINK_DOWN id, 3, by decide +kernel⟩⟩

theorem wit_linkHealthAndDisable :
    (∃ (s : State) (k : Nat), k < 24 ∧ s.pkg.linkUp k = true)
  ∧ (∃ (s : State) (k : Nat), k < 24 ∧ s.pkg.linkState k = LINK_RETRAINING)
  ∧ (∃ (s : State) (dt : Nat) (k : Nat), k < 24 ∧ s.pkg.linkState k = LINK_RETRAINING ∧ (s.pkg.port k).retrainStart + 10 * Config.msUnits ≤
        s.pkg.clock + dt)
  ∧ (∃ (s : State) (k : Nat) (uncorr : Nat) (corr : List Nat), k < 24 ∧ s.pkg.linkUp k = true ∧ corr.foldl (· + ·) 0 = 0 ∧ healthOf (s.pkg.rd
        (LNK_HEALTH_CFG k)) corr uncorr = HEALTH_GOOD)
  ∧ (∃ (s : State) (k : Nat) (uncorr : Nat) (corr : List Nat), k < 24 ∧ s.pkg.linkUp k = true ∧ healthOf (s.pkg.rd (LNK_HEALTH_CFG k)) corr uncorr =
        HEALTH_FAILING ∧ s.pkg.get (LNK_STATUS_HEALTH k) ≠ HEALTH_FAILING ∧ (s.pkg.port k).failingRetrain = none)
  ∧ (∃ (s : State) (k : Nat), k < 24 ∧ (s.pkg.linkState k = LINK_UP ∨ s.pkg.linkState k = LINK_RETRAINING))
  ∧ (∃ (s : State) (k : Nat), k < 24 ∧ s.pkg.linkState k = LINK_TRAINING)
  ∧ (∃ (s : State) (dt : Nat) (k : Nat) (since : Nat), k < 24 ∧ (s.pkg.port k).stopping = some since ∧ ((s.pkg.port k).replay = [] ∨ since + 100 *
        Config.usUnits ≤ s.pkg.clock + dt))
  ∧ (∃ (k : Nat) (lanes : List LaneOptics), k < 24 ∧ (∀ o ∈ lanes, laneAlarms o = [])) :=
  ⟨⟨link0 LINK_UP id, 3, by decide +kernel⟩,
    ⟨link0 LINK_RETRAINING id, 3, by decide +kernel⟩,
    ⟨link0 LINK_RETRAINING id, 10 * Config.msUnits, 3, by decide +kernel⟩,
    ⟨link0 LINK_UP id, 3, 0, List.replicate 8 0, by decide +kernel⟩,
    ⟨link0 LINK_UP id, 3, 2, List.replicate 8 0, by decide +kernel⟩,
    ⟨link0 LINK_UP id, 3, by decide +kernel⟩,
    ⟨link0 LINK_TRAINING id, 3, by decide +kernel⟩,
    ⟨link0 LINK_DOWN (fun l => { l with stopping := some 0 }), 0, 3, 0, by decide +kernel⟩,
    ⟨3, [{ tx := 200, rx := 0, bias := 5, biasHigh := false, offGrid := false }], by decide +kernel⟩⟩

theorem wit_hostRequestsServed :
    (∃ (s : State) (k : Nat) (r : HostReq) (g : Page), s.pkg.linkUp k = true ∧ s.pkg.hostMode k = true ∧ s.pkg.has PKG_STATUS_READY = true ∧
        s.pkg.has LNK_NODE_VALID = true ∧ (r.len = 4 ∨ r.len = 8) ∧ r.addr % r.len = 0 ∧ r.width32 = decide (r.len = 4) ∧ pageAt r.addr = some g ∧
        (s.pkg.pageFitted g && s.pkg.pageFenced g) = false)
  ∧ (∃ (s : State) (dt : Nat) (k : Nat) (src : Nat) (r : HostReq) (x : Nat × (Part × Package)), s.pkg.linkUp k = true ∧ s.pkg.hostMode k = true ∧
        s.pkg.has PKG_STATUS_READY = true ∧ s.pkg.has LNK_NODE_VALID = true ∧ r.width32 = decide (r.len = 4) ∧ r.data.length = r.len ∧ regWrite src
        r.addr r.len (leNat r.data) s.part ((s.pkg.pass dt).bump64 LNK_HOST_REQS 1) = x ∧ x.2.2.has PKG_STATUS_READY = true)
  ∧ (∃ (s : State) (k : Nat) (r : HostReq) (b : List Byte), s.pkg.linkUp k = true ∧ s.pkg.hostMode k = true ∧ s.pkg.has PKG_STATUS_READY = true ∧
        s.pkg.has LNK_NODE_VALID = true ∧ r.memForm = true ∧ s.pkg.load r.addr r.len = .ok b)
  ∧ (∃ (s : State) (k : Nat) (r : HostReq), s.pkg.linkUp k = true ∧ s.pkg.hostMode k = true ∧ s.pkg.has PKG_STATUS_READY = true ∧ s.pkg.has
        LNK_NODE_VALID = true ∧ r.memForm = true ∧ r.data.length = r.len ∧ s.pkg.rangeOk r.addr r.len = true)
  ∧ (∃ (s : State) (k : Nat), s.pkg.linkUp k = true ∧ s.pkg.hostMode k = true ∧ s.pkg.has PKG_STATUS_READY = false) :=
  ⟨⟨on host0, 0, req0 BEAT_NUMBER 8 [], .beat, by decide +kernel⟩,
    ⟨on host0, 0, 0, 0x30, req0 PKG_TXN_CFG 8 (leBytes 8 77), regWrite 0x30 PKG_TXN_CFG 8 77 (on host0).part (((on host0).pkg.pass 0).bump64
        LNK_HOST_REQS 1), by decide +kernel⟩,
    ⟨on host0, 0, req0 0xFC0 64 [], List.replicate 64 0, by decide +kernel⟩,
    ⟨on host0, 0, req0 0xFFC 4 [1, 2, 3, 4], by decide +kernel⟩,
    ⟨on (fun p => (host0 p).put PKG_STATUS_READY 0), 0, by decide +kernel⟩⟩

theorem wit_bridgeForwards :
    (∃ (s : State) (k : Nat) (n : Nat) (j : Nat), s.pkg.linkUp k = true ∧ s.pkg.hostMode k = true ∧ s.pkg.has PKG_STATUS_READY = true ∧ s.pkg.has
        LNK_NODE_VALID = true ∧ n ≠ s.pkg.node ∧ n / 16 = s.pkg.node / 16 ∧ s.pkg.has LNK_HB_CTRL_ACTIVE = true ∧ s.pkg.bridge.length <
        Config.bridgeOutstanding ∧ s.pkg.pickRoute n CLS_HOST_REQ = some j)
  ∧ (∃ (s : State) (k : Nat) (n : Nat), s.pkg.linkUp k = true ∧ s.pkg.hostMode k = true ∧ s.pkg.has PKG_STATUS_READY = true ∧ s.pkg.has
        LNK_NODE_VALID = true ∧ n / 16 ≠ s.pkg.node / 16 ∧ s.pkg.has LNK_HB_CTRL_ACTIVE = true ∧ s.pkg.bridge.length < Config.bridgeOutstanding)
  ∧ (∃ (s : State) (r : HostRsp), r.back = [] ∧ s.pkg.bridge.any (fun o => o.tag = r.tag) = true)
  ∧ (∃ (s : State) (r : HostRsp), r.back = [] ∧ s.pkg.bridge.any (fun o => o.tag = r.tag) = false)
  ∧ (∃ (s : State) (r : EventRec) (rest : List EventRec), s.pkg.evq.recs = r :: rest ∧ s.pkg.evtReach = true ∧ s.pkg.evq.lostSince = 0)
  ∧ (∃ (s : State), s.pkg.evtReach = false) :=
  ⟨⟨on host0, 0, 0x22, 3, by decide +kernel⟩,
    ⟨on host0, 0, 0x31, by decide +kernel⟩,
    ⟨on (fun p => { host0 p with bridge := [{ tag := 3, dest := 0x22, issued := 0 }] }), rsp0, by decide +kernel⟩,
    ⟨on host0, rsp0, by decide +kernel⟩,
    ⟨on events0, evRec0, [], by decide +kernel⟩,
    ⟨on host0, by decide +kernel⟩⟩

theorem wit_diesFencedAndReadmitted :
    (∃ (s : State) (d : Nat), s.pkg.dieFitted d = true ∧ s.pkg.dieFenced d = false ∧ (∀ e ∈ s.pkg.fab.silent, e.1 = d → e.2 = 12))
  ∧ (∃ (s : State) (d : Nat) (path : Nat) (other : Nat), s.pkg.dieFitted d = true ∧ s.pkg.dieFenced d = false ∧ path ∈ s.pkg.beatPaths d ∧ other ∈
        s.pkg.beatPaths d ∧ other ≠ path ∧ (d, other) ∉ s.pkg.fab.silent)
  ∧ (∃ (s : State) (d : Nat) (path : Nat), s.pkg.dieFitted d = true ∧ s.pkg.dieFenced d = false ∧ path ∈ s.pkg.beatPaths d ∧ (∀ j ∈ s.pkg.beatPaths
        d, j ≠ path → (d, j) ∈ s.pkg.fab.silent) ∧ (d, path) ∉ s.pkg.fab.silent)
  ∧ (∃ (s : State) (d : Nat), s.pkg.dieFenced d = false)
  ∧ (∃ (s : State) (dt : Nat), s.pkg.fab.fences ≠ [] ∧ (∀ f ∈ s.pkg.fab.fences, f.since + 40 * Config.usUnits ≤ s.pkg.clock + dt))
  ∧ (∃ (s : State) (d : Nat), s.pkg.dieFitted d = true ∧ s.pkg.dieState d = DIE_FENCED ∧ (∀ f ∈ s.pkg.fab.fences, f.die ≠ d))
  ∧ (∃ (s : State) (d : Nat) (step : Nat) (n : Nat), d < 8 ∧ mapFind s.pkg.fab.readmits d = some (step, n) ∧ step ≠ 5)
  ∧ (∃ (s : State) (d : Nat) (n : Nat), d < 8 ∧ mapFind s.pkg.fab.readmits d = some (4, n))
  ∧ (∃ (s : State) (d : Nat) (n : Nat), d < 8 ∧ mapFind s.pkg.fab.readmits d = some (5, n) ∧ n < s.pkg.cru.resolved)
  ∧ (∃ (s : State) (d : Nat) (w : Nat) (words : List Nat), (d = 8 ∨ s.pkg.dieFitted d = true) ∧ w < 4 ∧ within' s.pkg.variant.floor (listAt 0 words
        0) = true)
  ∧ (∃ (s : State) (d : Nat) (words : List Nat), s.pkg.dieFitted d = true ∧ s.pkg.dieFenced d = false ∧ s.pkg.dieState d ≠ DIE_RECOVERING ∧
        s.pkg.has PKG_STATUS_READY = false ∧ within' s.pkg.variant.floor (listAt 0 words 0) = false) :=
  ⟨⟨on (fun p => { p with fab := { p.fab with silent := [(2, 12)] } }), 2, by decide +kernel⟩,
    ⟨on (fun p => p.setShroudState 2 SHROUD_UP), 2, 2, 12, by decide +kernel⟩,
    ⟨on id, 2, 12, by decide +kernel⟩,
    ⟨on (stage0 id), 0, by decide +kernel⟩,
    ⟨on (fun p => { p with fab := { p.fab with fences := [{ die := 2, cause := 0, since := 0, held := 1 }] } }), 40 * Config.usUnits,
        by decide +kernel⟩,
    ⟨{ die0 2 DIE_FENCED none with pkg := (die0 2 DIE_FENCED none).pkg.store (2 ^ 41 + 2 ^ 39) [7] }, 2, by decide +kernel⟩,
    ⟨die0 2 DIE_RECOVERING (some (4, 0)), 2, 4, 0, by decide +kernel⟩,
    ⟨die0 2 DIE_RECOVERING (some (4, 0)), 2, 0, by decide +kernel⟩,
    ⟨{ die0 2 DIE_WAIT_STEP (some (5, 0)) with pkg := { (die0 2 DIE_WAIT_STEP (some (5, 0))).pkg with cru := { (die0 2 DIE_WAIT_STEP (some (5, 0))).pkg.cru with resolved := 1 } } },
        2, 0, by decide +kernel⟩,
    ⟨on id, 8, 3, [0x1BFFFFFF, 0, 0, 5], by decide +kernel⟩,
    ⟨on id, 2, [0x1BFFFFFE, 0, 0, 0], by decide +kernel⟩⟩

theorem wit_shroudWidths :
    (∃ (s : State) (j : Nat), s.pkg.hasShroud j = true ∧ s.pkg.shroudState j = SHROUD_TRAINING ∧ (s.pkg.shroud j).narrowing = false)
  ∧ (∃ (s : State) (j : Nat), s.pkg.hasShroud j = true ∧ s.pkg.shroudState j = SHROUD_UP)
  ∧ (∃ (s : State) (j : Nat) (a : Nat), s.pkg.hasShroud j = true ∧ s.pkg.shroudState j = SHROUD_UP ∧ s.pkg.shroudFenced j = false ∧ (s.pkg.shroud
        j).beacon = some (a, a) ∧ a < 2 ^ 12 ∧ s.pkg.get FAB_CFG_MIN_WIDTH ≤ popcount 12 a)
  ∧ (∃ (s : State) (j : Nat) (a : Nat), s.pkg.hasShroud j = true ∧ s.pkg.shroudState j = SHROUD_UP ∧ s.pkg.shroudFenced j = false ∧ (s.pkg.shroud
        j).beacon = some (a, a) ∧ a < 2 ^ 12 ∧ popcount 12 a < s.pkg.get FAB_CFG_MIN_WIDTH)
  ∧ (∃ (s : State) (dt : Nat) (j : Nat) (a : Nat) (b : Nat), s.pkg.hasShroud j = true ∧ s.pkg.shroudState j = SHROUD_UP ∧ s.pkg.shroudFenced j =
        false ∧ (s.pkg.shroud j).beacon = some (a, b) ∧ a ≠ b ∧ a < 2 ^ 12 ∧ b < 2 ^ 12 ∧ recentMismatches (s.pkg.clock + dt) (((s.pkg.clock + dt) ::
        (s.pkg.shroud j).mismatches).take 3) < 3 ∧ s.pkg.get FAB_CFG_MIN_WIDTH ≤ popcount 12 (a &&& b))
  ∧ (∃ (s : State) (dt : Nat) (j : Nat) (a : Nat) (b : Nat), s.pkg.hasShroud j = true ∧ s.pkg.shroudState j = SHROUD_UP ∧ s.pkg.shroudFenced j =
        false ∧ (s.pkg.shroud j).beacon = some (a, b) ∧ a ≠ b ∧ recentMismatches (s.pkg.clock + dt) (((s.pkg.clock + dt) :: (s.pkg.shroud
        j).mismatches).take 3) = 3)
  ∧ (∃ (s : State) (j : Nat), s.pkg.hasShroud j = true ∧ s.pkg.shroudState j = SHROUD_UP)
  ∧ (∃ (s : State) (j : Nat), s.pkg.hasShroud j = true ∧ s.pkg.shroudState j = SHROUD_DEGRADED) :=
  ⟨⟨shroud0 SHROUD_TRAINING id, 2, by decide +kernel⟩,
    ⟨shroud0 SHROUD_UP id, 2, by decide +kernel⟩,
    ⟨shroud0 SHROUD_UP (fun x => { x with beacon := some (0xFFF, 0xFFF) }), 2, 0xFFF, by decide +kernel⟩,
    ⟨shroud0 SHROUD_UP (fun x => { x with beacon := some (1, 1) }), 2, 1, by decide +kernel⟩,
    ⟨shroud0 SHROUD_UP (fun x => { x with beacon := some (0xFFF, 0xFFE) }), 7, 2, 0xFFF, 0xFFE, by decide +kernel⟩,
    ⟨shroud0 SHROUD_UP (fun x => { x with beacon := some (0xFFF, 0xFFE), mismatches := [0, 0] }), 7, 2, 0xFFF, 0xFFE, by decide +kernel⟩,
    ⟨shroud0 SHROUD_UP id, 2, by decide +kernel⟩,
    ⟨shroud0 SHROUD_DEGRADED id, 2, by decide +kernel⟩⟩

theorem wit_guestSiteOpensAndCloses :
    (∃ (s : State) (b : List Byte), s.pkg.variant.guest = true ∧ s.pkg.hubRuns = true ∧ s.pkg.site = SITE_CLOSED ∧ s.pkg.load (bitsOf (s.pkg.rd
        GATE_POLICY_BASE) 6 42 * 64) 512 = .ok b ∧ policyLayout b = true ∧ fieldAt b 36 8 = s.part.ownerKeyId ∧ s.pkg.arbCount 5 ≤ fieldAt b 8 4)
  ∧ (∃ (s : State) (b : List Byte), s.pkg.variant.guest = true ∧ s.pkg.hubRuns = true ∧ s.pkg.site = SITE_CLOSED ∧ s.pkg.load (bitsOf (s.pkg.rd
        GATE_POLICY_BASE) 6 42 * 64) 512 = .ok b ∧ b.length = 512 ∧ fieldAt b 36 8 = s.part.ownerKeyId ∧ (fieldAt b 8 4 < s.pkg.arbCount 5 ∨
        policyLayout b = false))
  ∧ (∃ (s : State) (vendor : Nat) (device : Nat), s.pkg.site = SITE_TRAINING ∧ vendor % 2 ^ 16 = fieldAt s.pkg.gate.policy 12 2 ∧ device % 2 ^ 16 =
        fieldAt s.pkg.gate.policy 14 2)
  ∧ (∃ (s : State) (vendor : Nat) (device : Nat), s.pkg.site = SITE_TRAINING ∧ (vendor % 2 ^ 16 ≠ fieldAt s.pkg.gate.policy 12 2 ∨ device % 2 ^ 16 ≠
        fieldAt s.pkg.gate.policy 14 2))
  ∧ (∃ (s : State), (s.pkg.site = SITE_TRAINING ∨ s.pkg.site = SITE_OPEN)) :=
  ⟨⟨loads0 (policy0 1 0), policy0 1 0, by decide +kernel⟩,
    ⟨loads0 ((policy0 1 0).set 4 2), (policy0 1 0).set 4 2, by decide +kernel⟩,
    ⟨site0 SITE_TRAINING 1 0 id, 0x1D1, 9, by decide +kernel⟩,
    ⟨site0 SITE_TRAINING 1 0 id, 0x1D1, 8, by decide +kernel⟩,
    ⟨site0 SITE_OPEN 1 0 id, by decide +kernel⟩⟩

theorem wit_guestRequestsGated :
    (∃ (s : State), s.pkg.site = SITE_OPEN ∧ s.pkg.gate.held = [])
  ∧ (∃ (s : State) (dt : Nat) (r : HostReq), s.pkg.site = SITE_OPEN ∧ refusalReasons s.pkg.gate.policy OP_MEM_RD r = [] ∧ (s.pkg.gate.held ≠ [] ∨
        ((s.pkg.pass dt).refillGate).covers OP_MEM_RD r = false))
  ∧ (∃ (s : State) (reason : Nat) (r : HostReq), s.pkg.site = SITE_OPEN ∧ refusalReasons s.pkg.gate.policy OP_REG_WR r = [reason])
  ∧ (∃ (s : State) (dt : Nat) (h : GuestHeld) (rest : List GuestHeld), s.pkg.gate.held = h :: rest ∧ s.pkg.site = SITE_OPEN ∧ ((s.pkg.pass
        dt).refillGate).covers h.req.op h.req = true)
  ∧ (∃ (s : State) (dt : Nat) (h : GuestHeld) (rest : List GuestHeld), s.pkg.gate.held = h :: rest ∧ ((s.pkg.pass dt).refillGate).covers h.req.op
        h.req = false) :=
  ⟨⟨site0 SITE_OPEN 1 0 id, by decide +kernel⟩,
    ⟨site0 SITE_OPEN 0 0 id, 7, req0 0x40 64 [], by decide +kernel⟩,
    ⟨site0 SITE_OPEN 1 1 id, GR_PAGE, req0 0x3010 8 [], by decide +kernel⟩,
    ⟨site0 SITE_OPEN 1 0 (fun g => { g with held := [{ req := { req0 0x40 64 [] with op := OP_MEM_RD }, since := 0 }] }), 7,
        { req := { req0 0x40 64 [] with op := OP_MEM_RD }, since := 0 }, [], by decide +kernel⟩,
    ⟨site0 SITE_OPEN 0 0 (fun g => { g with held := [{ req := { req0 0x40 64 [] with op := OP_MEM_RD }, since := 0 }] }), 7,
        { req := { req0 0x40 64 [] with op := OP_MEM_RD }, since := 0 }, [], by decide +kernel⟩⟩

theorem wit_powerAndTemperature :
    (∃ (s : State), s.pkg.pwr.goodAt ≠ none ∧ s.pkg.site ≠ SITE_TRAINING ∧ s.pkg.site ≠ SITE_OPEN)
  ∧ (∃ (s : State) (watts : Nat), s.pkg.site = SITE_OPEN ∧ fieldAt s.pkg.gate.policy 32 1 < watts ∧ 9 ≤ s.pkg.gate.hotSamples)
  ∧ (∃ (s : State) (d : Nat), s.pkg.dieFitted d = true ∧ s.pkg.dieFenced d = false ∧ mapFind s.pkg.bists d = none)
  ∧ (∃ (s : State), s.pkg.pwr.goodAt ≠ none)
  ∧ (∃ (s : State) (d : Nat), s.pkg.pwr.goodAt ≠ none ∧ s.pkg.dieFitted d = true ∧ s.pkg.dieFenced d = false)
  ∧ (∃ (s : State) (k : Nat), s.pkg.pwr.goodAt ≠ none ∧ s.pkg.stackFitted k = true ∧ s.pkg.dieFenced (k / 4) = false) :=
  ⟨⟨on (fun p => { p with pwr := { p.pwr with goodAt := some 0 } }), by decide +kernel⟩,
    ⟨site0 SITE_OPEN 1 0 (fun g => { g with hotSamples := 9 }), 10, by decide +kernel⟩,
    ⟨on id, 2, by decide +kernel⟩,
    ⟨on (fun p => { p with pwr := { p.pwr with goodAt := some 0 } }), by decide +kernel⟩,
    ⟨on (fun p => { p with pwr := { p.pwr with goodAt := some 0 } }), 2, by decide +kernel⟩,
    ⟨on (fun p => { p with pwr := { p.pwr with goodAt := some 0 } }), 9, by decide +kernel⟩⟩

theorem wit_registerWrites :
    (∃ (a : Nat) (len : Nat), ((len ≠ 4 ∧ len ≠ 8) ∨ a % len ≠ 0))
  ∧ (∃ (s : State) (req : Nat) (a : Nat) (v : Nat) (g : Page) (r : RegDef), a % 8 = 0 ∧ pageAt a = some g ∧ s.pkg.pageFitted g = true ∧
        s.pkg.pageFenced g = false ∧ (g = .gate → s.pkg.variant.guest = true) ∧ g.regs.find? (fun r => r.lists (a % 0x1000)) = some r ∧ r.wmask ≠ 0 ∧
        (regAt .pkg (IRQ_STATUS .pkg)).access = .w1c ∧ s.pkg.writeEffect req g a none v (maskWrite (s.pkg.rd a) (v % 2 ^ 64) r.wmask) (v % 2 ^ 64 &&&
        r.wmask) = none)
  ∧ (∃ (s : State) (req : Nat) (a : Nat) (v : Nat) (g : Page) (r : RegDef), a % 8 = 0 ∧ pageAt a = some g ∧ s.pkg.pageFitted g = true ∧
        s.pkg.pageFenced g = false ∧ (g = .gate → s.pkg.variant.guest = true) ∧ g.regs.find? (fun r => r.lists (a % 0x1000)) = some r ∧ r.wmask ≠ 0 ∧
        (regAt .pkg PKG_TXN_CFG).access = .rw ∧ s.pkg.writeEffect req g a none v (maskWrite (s.pkg.rd a) (v % 2 ^ 64) r.wmask) (v % 2 ^ 64 &&&
        r.wmask) = none)
  ∧ (∃ (s : State) (a : Nat) (g : Page) (r : RegDef), a % 8 = 0 ∧ pageAt a = some g ∧ s.pkg.pageFitted g = true ∧ s.pkg.pageFenced g = false ∧ (g =
        .gate → s.pkg.variant.guest = true) ∧ g.regs.find? (fun r => r.lists (a % 0x1000)) = some r ∧ r.wmask ≠ 0 ∧ (regAt .beat BEAT_PERIOD).access =
        .rwt)
  ∧ (∃ (s : State) (req : Nat) (a : Nat) (g : Page) (r : RegDef), a % 8 = 0 ∧ pageAt a = some g ∧ s.pkg.pageFitted g = true ∧ s.pkg.pageFenced g =
        false ∧ (g = .gate → s.pkg.variant.guest = true) ∧ g.regs.find? (fun r => r.lists (a % 0x1000)) = some r ∧ r.wmask ≠ 0 ∧ (regAt .beat
        BEAT_PERIOD).access = .rwt ∧ s.pkg.owns req = true ∧ s.pkg.txn.value a = none)
  ∧ (∃ (s : State) (page : Nat) (v : Nat) (n : Nat) (g : Page), pageAt page = some g ∧ s.pkg.pageFitted g = true ∧ s.pkg.pageFenced g = false ∧ (g =
        .gate → s.pkg.variant.guest = true) ∧ n < g.events ∧ bitAt v n = true) :=
  ⟨⟨PKG_TXN_CFG + 4, 8, by decide +kernel⟩,
    ⟨on (fun p => p.wr (IRQ_STATUS .pkg) 5), 0x30, IRQ_STATUS .pkg, 1, .pkg, regAt .pkg (IRQ_STATUS .pkg), by decide +kernel⟩,
    ⟨on id, 0x30, PKG_TXN_CFG, 77, .pkg, regAt .pkg PKG_TXN_CFG, by decide +kernel⟩,
    ⟨on id, BEAT_PERIOD, .beat, regAt .beat BEAT_PERIOD, by decide +kernel⟩,
    ⟨on (txn0 id), 0x30, BEAT_PERIOD, .beat, regAt .beat BEAT_PERIOD, by decide +kernel⟩,
    ⟨on id, 0x2000, 2 ^ 0, 0, .beat, by decide +kernel⟩⟩

theorem wit_transactions :
    (∃ (s : State), s.pkg.txnState = TXN_IDLE)
  ∧ (∃ (s : State), s.pkg.txnState ≠ TXN_IDLE)
  ∧ (∃ (s : State) (req : Nat), s.pkg.owns req = true)
  ∧ (∃ (s : State) (req : Nat), s.pkg.owns req = false)
  ∧ (∃ (s : State) (dt : Nat) (a : Nat) (cause : Nat), s.pkg.txnState = TXN_VALIDATING ∧ (s.pkg.pass dt).txnFault = some (a, cause))
  ∧ (∃ (s : State) (dt : Nat), s.pkg.txnState = TXN_VALIDATING ∧ (s.pkg.pass dt).txnFault = none ∧ s.pkg.ticking = true)
  ∧ (∃ (s : State), (s.pkg.txnState = TXN_OPEN ∨ s.pkg.txnState = TXN_VALIDATING))
  ∧ (∃ (s : State) (dt : Nat), s.pkg.txnState = TXN_OPEN ∧ s.pkg.txn.openedAt + s.pkg.get PKG_TXN_CFG_TIMEOUT_MS * Config.msUnits ≤ s.pkg.clock +
        dt) :=
  ⟨⟨on id, by decide +kernel⟩,
    ⟨on (txn0 id), by decide +kernel⟩,
    ⟨on (txn0 id), 0x30, by decide +kernel⟩,
    ⟨on (txn0 id), 0x31, by decide +kernel⟩,
    ⟨on (fun p => (txn0 (fun t => { t with staged := [(BEAT_PERIOD, 5)] }) p).put PKG_TXN_STATUS_STATE TXN_VALIDATING), 7, BEAT_PERIOD, TC_ROLE,
        by decide +kernel⟩,
    ⟨on (fun p => (txn0 (fun t => { t with staged := [(LNK_CFG, 5)] }) (ticking p)).put PKG_TXN_STATUS_STATE TXN_VALIDATING), 7, by decide +kernel⟩,
    ⟨on (txn0 id), by decide +kernel⟩,
    ⟨on (txn0 id), 10 ^ 12, by decide +kernel⟩⟩

theorem wit_ringCommandClasses :
    (∃ (s : State) (d : Nat) (v : Nat), d ≤ 8 ∧ s.pkg.ringReach d = true ∧ (v % 2 ^ 16 + 2 ^ 16 - s.pkg.rd (DIE_RING_HEAD d)) % 2 ^ 16 ≤
        s.pkg.ringDepth d)
  ∧ (∃ (s : State) (d : Nat) (v : Nat), d ≤ 8 ∧ s.pkg.ringReach d = true ∧ s.pkg.ringState d = RING_ACTIVE ∧ s.pkg.ringDepth d < (v % 2 ^ 16 + 2 ^
        16 - s.pkg.rd (DIE_RING_HEAD d)) % 2 ^ 16)
  ∧ (∃ (s : State) (d : Nat) (b : List Byte), d ≤ 8 ∧ s.pkg.ringServes d = true ∧ s.pkg.ringState d = RING_ACTIVE ∧ s.pkg.ringQueued d ≠ 0 ∧
        s.pkg.ringQueued d ≤ s.pkg.ringDepth d ∧ (s.pkg.ringSt d).inflight.length < Config.ringInflight ∧ (s.pkg.ringSt d).waiting = [] ∧
        (s.pkg.ringSt d).aborts = [] ∧ s.pkg.load (s.pkg.ringEntry d (s.pkg.rd (DIE_RING_HEAD d))) 64 = .ok b ∧ s.pkg.ringCmd d (descTag b) = none ∧
        descOk d b = true ∧ s.pkg.classPermitted b = true)
  ∧ (∃ (s : State) (d : Nat), d ≤ 8 ∧ s.pkg.ringServes d = true ∧ s.pkg.ringQueued d ≠ 0 ∧ s.pkg.ringQueued d ≤ s.pkg.ringDepth d ∧ (s.pkg.ringSt
        d).inflight.length < Config.ringInflight ∧ (s.pkg.ringSt d).waiting = [] ∧ s.pkg.load (s.pkg.ringEntry d (s.pkg.rd (DIE_RING_HEAD d))) 64 =
        .refused)
  ∧ (∃ (s : State) (d : Nat) (tag : Nat) (c : RingCmd), s.pkg.startable d tag CC_NOP = some c)
  ∧ (∃ (s : State) (d : Nat) (tag : Nat) (c : RingCmd) (bs : List Byte), s.pkg.startable d tag CC_COPY = some c ∧ s.pkg.rangeOk (fieldAt c.desc 16
        8) (fieldAt c.desc 24 8) = true ∧ s.pkg.load (fieldAt c.desc 8 8) (fieldAt c.desc 24 8) = .ok bs)
  ∧ (∃ (s : State) (d : Nat) (tag : Nat) (c : RingCmd), s.pkg.startable d tag CC_COPY = some c ∧ s.pkg.rangeOk (fieldAt c.desc 8 8) (fieldAt c.desc
        24 8) = false)
  ∧ (∃ (s : State) (d : Nat) (tag : Nat) (c : RingCmd), s.pkg.startable d tag CC_FILL = some c ∧ s.pkg.rangeOk (fieldAt c.desc 16 8) (fieldAt c.desc
        24 8) = true)
  ∧ (∃ (s : State) (d : Nat) (tag : Nat) (c : RingCmd) (bs : List Byte), s.pkg.startable d tag CC_CHECK = some c ∧ s.pkg.load (fieldAt c.desc 8 8)
        (fieldAt c.desc 24 8) = .ok bs)
  ∧ (∃ (s : State) (d : Nat) (tag : Nat) (c : RingCmd), s.pkg.startable d tag CC_RUN = some c)
  ∧ (∃ (s : State) (d : Nat) (tag : Nat) (c : RingCmd), s.pkg.startable d tag CC_RUN = some c ∧ s.pkg.clusterBound 4 = true)
  ∧ (∃ (s : State) (dt : Nat) (d : Nat) (tag : Nat) (c : RingCmd) (b : BistRun), s.pkg.startable d tag CC_BIST = some c ∧ mapFind s.pkg.bists d =
        none ∧ b =
        { tag := tag, cluster := fieldAt c.desc 9 1, core := if fieldAt c.desc 8 1 = 1 then some (fieldAt c.desc 10 1) else none, noRepair := bitAt (fieldAt c.desc 11 1) 0, askedAt := s.pkg.clock + dt }
        ∧ d < 8 ∧ s.pkg.unitIsolated d b = true)
  ∧ (∃ (s : State) (tag : Nat) (c : RingCmd), s.pkg.startable 8 tag CC_CAPTURE = some c ∧ s.pkg.snap.capture = none ∧ s.pkg.snap.restore = none)
  ∧ (∃ (s : State), (s.pkg.snap.capture ≠ none ∨ s.pkg.snap.restore ≠ none))
  ∧ (∃ (s : State) (dt : Nat) (tag : Nat) (c : RingCmd), (s.pkg.pass dt).startable 8 tag CC_RESTORE = some c ∧ s.pkg.snap.restore = none)
  ∧ (∃ (s : State), s.pkg.snap.restore ≠ none)
  ∧ (∃ (s : State) (tag : Nat) (c : RingCmd), s.pkg.startable 8 tag CC_REWIND = some c ∧ s.pkg.rewindCause 4 6 = some 1)
  ∧ (∃ (s : State) (tag : Nat) (c : RingCmd), s.pkg.startable 8 tag CC_REWIND = some c ∧ s.pkg.rewindCause 4 6 = none) :=
  ⟨⟨on (ring0 0 id), 0, 64, by decide +kernel⟩,
    ⟨on (ring0 0 id), 0, 65, by decide +kernel⟩,
    ⟨on (fun p => (ring0 0 (fun r => { r with tail := 1 }) p).store 0xA00000 (rdesc0 CC_NOP 0 0 0 0)), 0, rdesc0 CC_NOP 0 0 0 0, by decide +kernel⟩,
    ⟨on (fun p => (ring0 0 (fun r => { r with tail := 1 }) p).wr (DIE_RING_BASE 0) (2 ^ 48)), 0, by decide +kernel⟩,
    ⟨rings0 0 (rdesc0 CC_NOP 0 0 0 0), 0, 5, rcmd0 (rdesc0 CC_NOP 0 0 0 0), by decide +kernel⟩,
    ⟨rings0 0 (rdesc0 CC_COPY 0x1000 0x2000 64 0), 0, 5, rcmd0 (rdesc0 CC_COPY 0x1000 0x2000 64 0), List.replicate 64 0, by decide +kernel⟩,
    ⟨rings0 0 (rdesc0 CC_COPY (2 ^ 47) 0x2000 64 0), 0, 5, rcmd0 (rdesc0 CC_COPY (2 ^ 47) 0x2000 64 0), by decide +kernel⟩,
    ⟨rings0 0 (rdesc0 CC_FILL 0 0x2000 64 0x0102030405060708), 0, 5, rcmd0 (rdesc0 CC_FILL 0 0x2000 64 0x0102030405060708), by decide +kernel⟩,
    ⟨rings0 0 (rdesc0 CC_CHECK 0x1000 0 64 (2 ^ 32)), 0, 5, rcmd0 (rdesc0 CC_CHECK 0x1000 0 64 (2 ^ 32)), List.replicate 64 0, by decide +kernel⟩,
    ⟨rings0 0 (rdesc0 CC_RUN 0x1000 2 (3 + 256 * 2) 0), 0, 5, rcmd0 (rdesc0 CC_RUN 0x1000 2 (3 + 256 * 2) 0), by decide +kernel⟩,
    ⟨on (fun p => ring0 0 (fun r => { r with inflight := [rcmd0 (rdesc0 CC_RUN 0x1000 2 (3 + 256 * 2) 0)] }) (stage0 (fun x =>
        { x with clusters := [4] }) p)), 0, 5, rcmd0 (rdesc0 CC_RUN 0x1000 2 (3 + 256 * 2) 0), by decide +kernel⟩,
    ⟨on (fun p => (ring0 0 (fun r => { r with inflight := [rcmd0 (rdesc0 CC_BIST 0x1000401 0 0 0)] }) p).wr (BIST_ISOLATE 0) 16), 7, 0, 5, rcmd0
        (rdesc0 CC_BIST 0x1000401 0 0 0), { tag := 5, cluster := 4, core := some 0, noRepair := true, askedAt := 7 }, by decide +kernel⟩,
    ⟨rings0 8 (rdesc0 CC_CAPTURE 9 0 0 0), 5, rcmd0 (rdesc0 CC_CAPTURE 9 0 0 0), by decide +kernel⟩,
    ⟨on (fun p => let p := ring0 8 (fun r => { r with inflight := [rcmd0 (rdesc0 CC_CAPTURE 9 0 0 0)] }) p;
        { p with snap := { p.snap with capture := some { tag := none, buddy := true, step := 3 } } }), by decide +kernel⟩,
    ⟨rings0 8 (rdesc0 CC_RESTORE 1 0 0 0), 7, 5, rcmd0 (rdesc0 CC_RESTORE 1 0 0 0), by decide +kernel⟩,
    ⟨on (fun p => let p := ring0 8 (fun r => { r with inflight := [rcmd0 (rdesc0 CC_RESTORE 1 0 0 0)] }) p;
        { p with snap := { p.snap with restore := some { tag := 4, addr := 0xD00000, slot := none, align := 0, skipHistory := true, posAddr := 0 } } }),
        by decide +kernel⟩,
    ⟨rings0 8 (rdesc0 CC_REWIND 4 6 0 0), 5, rcmd0 (rdesc0 CC_REWIND 4 6 0 0), by decide +kernel⟩,
    ⟨on (fun p => let p := ring0 8 (fun r => { r with inflight := [rcmd0 (rdesc0 CC_REWIND 4 6 0 0)] }) p;
        { p with cru := { p.cru with resolved := 5, rejected := true } }), 5, rcmd0 (rdesc0 CC_REWIND 4 6 0 0), by decide +kernel⟩⟩

theorem wit_ringRecordsAndControl :
    (∃ (s : State) (d : Nat) (tag : Nat) (st : Nat) (res : Nat) (c : RingCmd), d ≤ 8 ∧ s.pkg.ringCmd d tag = some c ∧ c.done = some (st, res) ∧
        s.pkg.runOf d tag = none ∧ (s.pkg.ringSt d).waiting = [] ∧ (s.pkg.ringSt d).aborts = [] ∧ s.pkg.cqUsed d < s.pkg.cqDepth d ∧ s.pkg.rangeOk
        (s.pkg.rd (DIE_CQ_BASE d) + 16 * (s.pkg.rd (DIE_CQ_TAIL d) % s.pkg.cqDepth d)) 16 = true)
  ∧ (∃ (s : State) (dt : Nat) (d : Nat) (w : CqRec) (rest : List CqRec), d ≤ 8 ∧ (s.pkg.ringSt d).waiting = w :: rest ∧ (s.pkg.ringSt d).stallAt =
        none ∧ w.since + 100 * Config.usUnits < s.pkg.clock + dt)
  ∧ (∃ (s : State) (d : Nat), d ≤ 8 ∧ s.pkg.ringReach d = true ∧ (s.pkg.ringSt d).waiting = [] ∧ s.pkg.ringState d ≠ RING_DRAINING)
  ∧ (∃ (s : State) (d : Nat) (v : Nat), s.pkg.ringReach d = true ∧ v % 2 ^ 16 ∈ (s.pkg.ringSt d).aborts)
  ∧ (∃ (s : State) (d : Nat) (v : Nat) (c : RingCmd), d ≤ 8 ∧ s.pkg.ringReach d = true ∧ (s.pkg.ringSt d).aborts.length < Config.ringAborts ∧ v % 2
        ^ 16 ∉ (s.pkg.ringSt d).aborts ∧ s.pkg.ringCmd d (v % 2 ^ 16) = some c ∧ c.cls ≠ CC_RUN)
  ∧ (∃ (s : State) (d : Nat), d ≤ 8 ∧ s.pkg.ringReach d = true ∧ s.pkg.ringState d = RING_HALTED ∧ s.pkg.ringQueued d ≤ s.pkg.ringDepth d)
  ∧ (∃ (s : State) (d : Nat), d ≤ 8 ∧ s.pkg.ringReach d = true ∧ s.pkg.ringState d = RING_DISABLED)
  ∧ (∃ (s : State) (d : Nat) (c : RingCmd), s.pkg.has (CTRL_ENABLE (.die d)) = false ∧ (s.pkg.ringState d = RING_DRAINING ∨ s.pkg.ringState d =
        RING_HALTED) ∧ (s.pkg.ringSt d).drainBeat ≤ s.pkg.beatNo ∧ (s.pkg.ringSt d).inflight = [c]) :=
  ⟨⟨on (ring0 0 (fun r =>
        { r with inflight := [{ rcmd0 (rdesc0 CC_CHECK 0x1000 0 64 (2 ^ 32)) with started := true, past := true, done := some (ST_OK, 9) }] })), 0, 5,
        ST_OK, 9, { rcmd0 (rdesc0 CC_CHECK 0x1000 0 64 (2 ^ 32)) with started := true, past := true, done := some (ST_OK, 9) }, by decide +kernel⟩,
    ⟨on (ring0 0 (fun r => { r with waiting := [rec0] })), 100 * Config.usUnits + 1, 0, rec0, [], by decide +kernel⟩,
    ⟨on (ring0 0 id), 0, by decide +kernel⟩,
    ⟨on (ring0 0 (fun r => { r with aborts := [5] })), 0, 5, by decide +kernel⟩,
    ⟨rings0 0 (rdesc0 CC_NOP 0 0 0 0), 0, 5, rcmd0 (rdesc0 CC_NOP 0 0 0 0), by decide +kernel⟩,
    ⟨on (fun p => (ring0 0 id p).setRingState 0 RING_HALTED), 0, by decide +kernel⟩,
    ⟨on (fun p => (ring0 0 id p).setRingState 0 RING_DISABLED), 0, by decide +kernel⟩,
    ⟨on (fun p => (ring0 0 (fun r => { r with inflight := [rcmd0 (rdesc0 CC_NOP 0 0 0 0)] }) p).setRingState 0 RING_DRAINING), 0, rcmd0 (rdesc0
        CC_NOP 0 0 0 0), by decide +kernel⟩⟩

theorem wit_telemetryAndEndpoint :
    (∃ (s : State), s.pkg.telDue = true ∧ s.pkg.rangeOk (bitsOf (s.pkg.rd PKG_TEL_BASE) 12 36 * 4096 + 256 * (s.pkg.rd PKG_TEL_SEQ % 2 ^ s.pkg.get
        PKG_TEL_CFG_DEPTH_LOG2)) 256 = true)
  ∧ (∃ (s : State), s.pkg.telDue = false)
  ∧ (∃ (s : State) (eid : Nat), s.pkg.mctpUp = true ∧ 0 < eid ∧ eid < 255)
  ∧ (∃ (s : State), s.pkg.mctpUp = true)
  ∧ (∃ (s : State), s.pkg.mctpFull = true)
  ∧ (∃ (s : State), s.pkg.mctpUp = false) :=
  ⟨⟨on tel0, by decide +kernel⟩,
    ⟨on id, by decide +kernel⟩,
    ⟨fw0 id, 254, by decide +kernel⟩,
    ⟨fw0 id, by decide +kernel⟩,
    ⟨fw0 id, by decide +kernel⟩,
    ⟨on id, by decide +kernel⟩⟩

theorem wit_coreFaultsServed :
    (∃ (s : State) (dt : Nat) (c : Nat) (k : Nat) (spare : Nat), s.pkg.canFail c k = true ∧ (s.pkg.clu c).refill = none ∧ (s.pkg.pass dt).spareOf c
        = some spare)
  ∧ (∃ (s : State) (dt : Nat) (c : Nat) (k : Nat), s.pkg.canFail c k = true ∧ (s.pkg.clu c).refill = none ∧ (s.pkg.pass dt).spareOf c = none)
  ∧ (∃ (c : Nat), c < 576)
  ∧ (∃ (s : State) (c : Nat) (k : Nat), c < 576 ∧ s.pkg.canFail c k = true)
  ∧ (∃ (s : State) (c : Nat), c < 576 ∧ s.pkg.dieActive (c / 72) = true ∧ s.pkg.dieFenced (c / 72) = false ∧ s.pkg.get (CLU_STATUS_STATE c) ≠ 2)
  ∧ (∃ (s : State) (c : Nat) (r : Refill), c < 576 ∧ (s.pkg.clu c).refill = some r ∧ (s.pkg.core c r.spare).point.layerPos = 0)
  ∧ (∃ (s : State) (c : Nat) (k : Nat) (cause : Nat) (at' : Nat) (rest : List (Nat × Nat × Nat)), (s.pkg.clu c).refill = none ∧ (s.pkg.clu c).queued
        = (k, cause, at') :: rest) :=
  ⟨⟨clu0 id, 7, 0, 3, 16, by decide +kernel⟩,
    ⟨on (fun p => (clu0 id).pkg.put (CLU_STATUS_SPARES 0) 0), 7, 0, 3, by decide +kernel⟩,
    ⟨575, by decide +kernel⟩,
    ⟨clu0 id, 0, 3, by decide +kernel⟩,
    ⟨clu0 id, 0, by decide +kernel⟩,
    ⟨clu0 (fun x => { x with refill := some refill0 }), 0, refill0, by decide +kernel⟩,
    ⟨clu0 (fun x => { x with queued := [(3, 0, 0)] }), 0, 3, 0, 0, [], by decide +kernel⟩⟩

theorem wit_errorLogs :
    (∃ (s : State) (d : Nat) (v : Nat), d ≤ 8 ∧ s.pkg.errReach d = true ∧ (v % 2 ^ 16 + 2 ^ 16 - s.pkg.rd (ERR_LOG_HEAD d)) % 2 ^ 16 ≤ s.pkg.errUsed
        d)
  ∧ (∃ (s : State) (d : Nat) (v : Nat), s.pkg.errUsed d < (v % 2 ^ 16 + 2 ^ 16 - s.pkg.rd (ERR_LOG_HEAD d)) % 2 ^ 16)
  ∧ (∃ (s : State) (d : Nat), d ≤ 8 ∧ s.pkg.errReach d = true ∧ s.pkg.has (ERR_STATUS_FATAL d) = false)
  ∧ (∃ (s : State) (d : Nat), s.pkg.has (ERR_STATUS_FATAL d) = true)
  ∧ (∃ (s : State) (d : Nat) (v : Nat), s.pkg.errReach d = true ∧ v % 4 < 2)
  ∧ (∃ (s : State) (v : Nat), v % 4 = 2 ∧ s.pkg.get PWR_STATUS_LC_STATE ≠ LC_TEST)
  ∧ (∃ (s : State) (d : Nat) (v : Nat), s.pkg.errReach d = true ∧ v % 4 = 2 ∧ s.pkg.get PWR_STATUS_LC_STATE = LC_TEST) :=
  ⟨⟨on (fun p => p.wr (ERR_LOG_TAIL 8) 3), 8, 2, by decide +kernel⟩,
    ⟨on (fun p => p.wr (ERR_LOG_TAIL 8) 3), 8, 4, by decide +kernel⟩,
    ⟨on id, 8, by decide +kernel⟩,
    ⟨on (fun p => p.put (ERR_STATUS_FATAL 8) 1), 8, by decide +kernel⟩,
    ⟨on id, 8, 0x70001, by decide +kernel⟩,
    ⟨on (fun p => p.put PWR_STATUS_LC_STATE LC_PROVISIONED), 0x70002, by decide +kernel⟩,
    ⟨on id, 8, 0x70002, by decide +kernel⟩⟩

theorem wit_capturesStream :
    (∃ (s : State) (c : Capture), s.pkg.snap.capture = some c ∧ c.frozen = true ∧ c.streaming = false ∧ s.pkg.fatal = false)
  ∧ (∃ (s : State) (c : Capture) (x : Section) (y : Section) (rest : List Section) (bs : List Byte), ((c.buddy = true → s.pkg.lnk.snapLost = false))
        ∧ s.pkg.snap.capture = some c ∧ c.streaming = true ∧ s.pkg.fatal = false ∧ c.todo = x :: y :: rest ∧ x.typ ≠ 0x07 ∧ s.pkg.sectionBytes x =
        some bs)
  ∧ (∃ (s : State) (c : Capture) (x : Section) (rest : List Section), s.pkg.snap.capture = some c ∧ c.streaming = true ∧ s.pkg.fatal = false ∧
        (c.buddy = true → s.pkg.lnk.snapLost = false) ∧ c.todo = x :: rest ∧ s.pkg.sectionBytes x = none)
  ∧ (∃ (s : State) (c : Capture), s.pkg.snap.capture = some c ∧ c.streaming = true ∧ s.pkg.fatal = false ∧ (c.buddy = true → s.pkg.lnk.snapLost =
        false) ∧ c.todo = [])
  ∧ (∃ (s : State) (node : Nat) (n : Nat) (data : List Byte), s.pkg.has SNAP_RECV_CFG_VALID = true ∧ s.pkg.get SNAP_RECV_CFG_SRC = node ∧ fieldAt
        data 6 1 = 0 ∧ s.pkg.freeSlot false = some n ∧ s.pkg.snap.receiving = none ∧ data.length ≤ s.pkg.slotBytes' n ∧ s.pkg.rangeOk (s.pkg.slotBase
        n) data.length = true)
  ∧ (∃ (s : State) (node : Nat), (s.pkg.has SNAP_RECV_CFG_VALID = false ∨ s.pkg.get SNAP_RECV_CFG_SRC ≠ node))
  ∧ (∃ (s : State), s.pkg.has SNAP_CFG_CAD_ENABLE = true)
  ∧ (∃ (s : State), s.pkg.has SNAP_CFG_CAD_ENABLE = true ∧ s.pkg.snap.capture = some capture0) :=
  ⟨⟨capturing0 capture0, capture0, by decide +kernel⟩,
    ⟨capturing0 { capture0 with streaming := true, todo := [section0 0x1000, section0 0x2000] },
        { capture0 with streaming := true, todo := [section0 0x1000, section0 0x2000] }, section0 0x1000, section0 0x2000, [], List.replicate 64 0,
        (by decide +kernel), by decide +kernel⟩,
    ⟨capturing0 { capture0 with streaming := true, todo := [section0 (2 ^ 48)] }, { capture0 with streaming := true, todo := [section0 (2 ^ 48)] },
        section0 (2 ^ 48), [], by decide +kernel⟩,
    ⟨capturing0 { capture0 with streaming := true }, { capture0 with streaming := true }, by decide +kernel⟩,
    ⟨on recv0, 0x21, 0, leBytes 64 0, by decide +kernel⟩,
    ⟨on recv0, 0x22, by decide +kernel⟩,
    ⟨on (fun p => p.put SNAP_CFG_CAD_ENABLE 1), by decide +kernel⟩,
    ⟨on (fun p => (capturing0 capture0).pkg.put SNAP_CFG_CAD_ENABLE 1), by decide +kernel⟩⟩

theorem wit_restoresVerifyThenWrite :
    (∃ (s : State) (dt : Nat) (r : Restore) (img : List Byte) (pos : Option (Nat × Nat)) (res : Nat × Nat), s.pkg.snap.restore = some r ∧ r.result =
        none ∧ r.buddy = false ∧ s.pkg.fatal = false ∧ s.pkg.readImage r.addr = .inr img ∧ s.pkg.readPos r.posAddr = .inr pos ∧ (s.pkg.pass
        dt).judgeImage r img pos = .inr res)
  ∧ (∃ (s : State) (dt : Nat) (cause : Nat) (result : Nat) (r : Restore) (img : List Byte) (pos : Option (Nat × Nat)), s.pkg.snap.restore = some r ∧
        r.result = none ∧ r.buddy = false ∧ s.pkg.fatal = false ∧ s.pkg.readImage r.addr = .inr img ∧ s.pkg.readPos r.posAddr = .inr pos ∧ (s.pkg.pass
        dt).judgeImage r img pos = .inl (cause, result) ∧ cause ≠ SC_SKEW)
  ∧ (∃ (s : State) (data : Nat) (ofs : Nat) (r : Restore), s.pkg.snap.restore = some r ∧ r.result = some (data, ofs) ∧ s.pkg.fatal = false)
  ∧ (∃ (img : List Byte), headerOk img = false) :=
  ⟨⟨restoring0 variant0 restore0, 7, restore0, image0 variant0, none, (0, 0), by decide +kernel⟩,
    ⟨restoring0 (variant0 + 1) restore0, 7, SC_MISMATCH, SC_MISMATCH, restore0, image0 (variant0 + 1), none, by decide +kernel⟩,
    ⟨restoring0 variant0 { restore0 with result := some (3, 4) }, 3, 4, { restore0 with result := some (3, 4) }, by decide +kernel⟩,
    ⟨leBytes 256 0, by decide +kernel⟩⟩

theorem wit_packagePowersUp :
    (∃ (s : State) (flash : List (Nat × (ImageRead × ImageRead))) (q : Part), s.pkg.pwr.goodAt = none ∧ q = (s.part.readFlash flash).coldReset s.pkg
        ∧ (imageVerifies 0 (q.revoked % 16) (listAt 0 q.arb 0 % 2 ^ 7) (q.slots 0).1 = true ∨ imageVerifies 0 (q.revoked % 16) (listAt 0 q.arb 0 % 2 ^
        7) (q.slots 0).2 = true))
  ∧ (∃ (s : State), s.pkg.pwr.goodAt = none)
  ∧ (∃ (s : State), s.pkg.pwr.goodAt ≠ none)
  ∧ (∃ (s : State) (d : Nat), s.pkg.booting = true ∧ s.pkg.dieFitted d = true ∧ d ∉ s.pkg.pwr.ended ∧ d ∉ s.pkg.pwr.powered ∧ s.pkg.pwr.stackFw =
        true ∧ imageVerifies 1 (s.pkg.get SEC_STATUS_REVOKED) (s.pkg.arbCount 1) (s.part.slots 1).1 = true ∧ (s.part.slots 1).2.version ≤
        (s.part.slots 1).1.version)
  ∧ (∃ (s : State) (d : Nat) (control : Nat), s.pkg.booting = true ∧ d < 8 ∧ d ∈ s.pkg.pwr.powered ∧ d ∉ s.pkg.pwr.ended ∧ 6 ≤ control)
  ∧ (∃ (s : State) (d : Nat) (control : Nat) (stackOk : Bool), s.pkg.booting = true ∧ d < 8 ∧ d ∈ s.pkg.pwr.powered ∧ d ∉ s.pkg.pwr.ended ∧ (control
        < 6 ∨ stackOk = false))
  ∧ (∃ (s : State) (dt : Nat) (d : Nat) (start : Nat), s.pkg.booting = true ∧ s.pkg.dieFitted d = true ∧ d ∉ s.pkg.pwr.ended ∧ s.pkg.pwr.goodAt =
        some start ∧ start + 5500 * Config.msUnits ≤ s.pkg.clock + dt)
  ∧ (∃ (s : State) (dt : Nat) (start : Nat), s.pkg.booting = true ∧ s.pkg.pwr.goodAt = some start ∧ start + 6000 * Config.msUnits ≤ s.pkg.clock +
        dt) :=
  ⟨⟨State.reset, [(0, (good0 0, {}))], (State.reset.part.readFlash [(0, (good0 0, {}))]).coldReset State.reset.pkg, by decide +kernel⟩,
    ⟨State.reset, by decide +kernel⟩,
    ⟨boot0 id, by decide +kernel⟩,
    ⟨{ boot0 id with part := { State.reset.part with flash := [(1, (good0 1, good0 1))] } }, 3, by decide +kernel⟩,
    ⟨boot0 id, 2, 6, by decide +kernel⟩,
    ⟨boot0 id, 2, 5, true, by decide +kernel⟩,
    ⟨boot0 id, 5500 * Config.msUnits, 3, 0, by decide +kernel⟩,
    ⟨boot0 id, 6000 * Config.msUnits, 0, by decide +kernel⟩⟩

theorem wit_resetsAndSupplyFaults :
    (∃ (q : Part) (p : Package) (c : Nat), q.pendingLc = some c ∧ p.pwr.writing = none ∧ p.sec.burns = [])
  ∧ (∃ (q : Part) (p : Package), q.pendingLc = none ∧ p.pwr.writing = none ∧ p.sec.burns = [])
  ∧ (∃ (ns : Nat), 1000000 ≤ ns)
  ∧ (∃ (ns : Nat), ns < 800000)
  ∧ (∃ (v : Nat), bitsOf v 16 16 = 0x9A3C ∧ bitAt v 0 = true)
  ∧ (∃ (v : Nat), bitsOf v 16 16 ≠ 0x9A3C)
  ∧ (∃ (s : State) (v : Nat), bitsOf v 16 16 = 0x9A3C ∧ bitAt v 0 = false ∧ bitAt v 1 = true ∧ s.pkg.pwr.fw = true ∧ s.pkg.pwr.writing = none)
  ∧ (∃ (s : State) (v : Nat), bitsOf v 16 16 = 0x9A3C ∧ bitAt v 0 = false ∧ bitAt v 1 = true ∧ s.pkg.pwr.fw = true ∧ s.pkg.pwr.writing ≠ none)
  ∧ (∃ (s : State) (b : Bool), s.pkg.pwr.warmHeld = some b ∧ s.pkg.pwr.writing = none)
  ∧ (∃ (s : State), s.pkg.pwr.goodAt ≠ none)
  ∧ (∃ (s : State), s.pkg.pwr.goodAt ≠ none) :=
  ⟨⟨{ State.reset.part with pendingLc := some LC_ENDED }, State.reset.pkg, LC_ENDED, by decide +kernel⟩,
    ⟨State.reset.part, State.reset.pkg, by decide +kernel⟩,
    ⟨1000000, by decide +kernel⟩,
    ⟨799999, by decide +kernel⟩,
    ⟨0x9A3C0001, by decide +kernel⟩,
    ⟨0x9A3D0001, by decide +kernel⟩,
    ⟨boot0 id, 0x9A3C0006, by decide +kernel⟩,
    ⟨boot0 (fun p => { p with pwr := { p.pwr with writing := some [] } }), 0x9A3C0006, by decide +kernel⟩,
    ⟨boot0 (fun p => { p with pwr := { p.pwr with warmHeld := some false } }), false, by decide +kernel⟩,
    ⟨boot0 id, by decide +kernel⟩,
    ⟨boot0 id, by decide +kernel⟩⟩

theorem wit_selfTestAndLedger :
    (∃ (s : State) (d : Nat) (b : BistRun), d < 8 ∧ mapFind s.pkg.bists d = some b ∧ b.startAt = none ∧ s.pkg.unitIsolated d b = true ∧
        s.pkg.clockFit d = true ∧ s.pkg.coolEnough d = true)
  ∧ (∃ (s : State) (d : Nat) (b : BistRun), mapFind s.pkg.bists d = some b ∧ b.startAt = none ∧ s.pkg.unitIsolated d b = false)
  ∧ (∃ (s : State) (dt : Nat) (d : Nat) (b : BistRun), d < 8 ∧ mapFind s.pkg.bists d = some b ∧ b.startAt = none ∧ b.askedAt + s.pkg.get
        BIST_CFG_WAIT_MS * Config.msUnits ≤ s.pkg.clock + dt)
  ∧ (∃ (s : State) (d : Nat) (start : Nat) (b : BistRun), d < 8 ∧ b.cluster < 72 ∧ mapFind s.pkg.bists d = some b ∧ b.startAt = some start ∧
        b.pausedAt = none ∧ b.noRepair = true ∧ s.pkg.clockFit d = true ∧ s.pkg.get (CLU_STATUS_STATE (72 * d + b.cluster)) = 0 ∧ b.core ≠ none)
  ∧ (∃ (s : State) (d : Nat) (start : Nat) (k : Nat) (b : BistRun), d < 8 ∧ b.cluster < 72 ∧ k < 18 ∧ mapFind s.pkg.bists d = some b ∧ b.startAt =
        some start ∧ b.pausedAt = none ∧ b.noRepair = false ∧ s.pkg.clockFit d = true ∧ b.core = some k ∧ s.pkg.pwr.ledger.length < ledgerMax ∧ (∀ r ∈
        s.pkg.pwr.ledger, ¬ (r.kind = 1 ∧ r.place = d ∧ r.where' = b.cluster ∧ r.location = k)))
  ∧ (∃ (s : State) (entries : List Repair), ((∀ c, (chooseLedger s.part).2 = some c → c.seq + 1 < 2 ^ 32)) ∧ s.pkg.pwr.writing = some entries) :=
  ⟨⟨testing0 (bist0 none none false), 2, bist0 none none false, by decide +kernel⟩,
    ⟨on (fun p => { (clu0 id).pkg with bists := [(0, bist0 none none false)] }), 0, bist0 none none false, by decide +kernel⟩,
    ⟨testing0 (bist0 none none false), 10 ^ 15, 2, bist0 none none false, by decide +kernel⟩,
    ⟨testing0 (bist0 (some 0) (some 3) true), 2, 0, bist0 (some 0) (some 3) true, by decide +kernel⟩,
    ⟨testing0 (bist0 (some 0) (some 3) false), 2, 0, 3, bist0 (some 0) (some 3) false, by decide +kernel⟩,
    ⟨on (fun p => { p with pwr := { p.pwr with writing := some [repair0] } }), [repair0], (by decide +kernel), by decide +kernel⟩⟩

theorem wit_tokensMoveTheLifeCycle :
    (∃ (s : State), s.pkg.hubRuns = true)
  ∧ (∃ (s : State) (o : Bool) (n : Bool), s.pkg.hubRuns = true ∧ tokenKind s.pkg.token = TK_RETURN ∧ tokenCause s.part s.pkg s.pkg.token o n = 0)
  ∧ (∃ (s : State) (o : Bool), s.pkg.hubRuns = true ∧ tokenKind s.pkg.token = TK_DEBUG ∧ tokenCause s.part s.pkg s.pkg.token o false = 0)
  ∧ (∃ (s : State) (n : Bool), s.pkg.hubRuns = true ∧ tokenKind s.pkg.token = TK_REVOKE ∧ tokenCause s.part s.pkg s.pkg.token false n = 0)
  ∧ (∃ (s : State) (o : Bool), s.pkg.hubRuns = true ∧ tokenKind s.pkg.token = TK_DEPLOY ∧ tokenCause s.part s.pkg s.pkg.token o false = 0)
  ∧ (∃ (s : State) (o : Bool) (n : Bool), s.pkg.hubRuns = true ∧ tokenKind s.pkg.token = TK_END ∧ tokenCause s.part s.pkg s.pkg.token o n = 0)
  ∧ (∃ (s : State) (o : Bool) (n : Bool), s.pkg.hubRuns = true ∧ tokenKind s.pkg.token = TK_RETURN ∧ tokenCause s.part s.pkg s.pkg.token o n ≠ 0)
  ∧ (∃ (s : State), tokenKind s.pkg.token ≠ TK_RETURN)
  ∧ (∃ (s : State), s.pkg.hubRuns = true ∧ (tokenKind s.pkg.token = 0 ∨ 5 < tokenKind s.pkg.token)) :=
  ⟨⟨boot0 id, by decide +kernel⟩,
    ⟨submits0 LC_DEPLOYED TK_RETURN 0 owner0, true, true, by decide +kernel⟩,
    ⟨submits0 LC_DEPLOYED TK_DEBUG 0 owner0, true, by decide +kernel⟩,
    ⟨submits0 LC_DEPLOYED TK_REVOKE 3 0, true, by decide +kernel⟩,
    ⟨submits0 LC_PROVISIONED TK_DEPLOY 0 owner0, true, by decide +kernel⟩,
    ⟨submits0 LC_DEPLOYED TK_END 0 owner0, true, false, by decide +kernel⟩,
    ⟨submits0 LC_PROVISIONED TK_RETURN 0 owner0, true, true, by decide +kernel⟩,
    ⟨submits0 LC_PROVISIONED TK_END 0 owner0, by decide +kernel⟩,
    ⟨submits0 LC_PROVISIONED 6 0 owner0, by decide +kernel⟩⟩

theorem wit_measurementsAndReports :
    (∃ (s : State), s.pkg.hubRuns = true)
  ∧ (∃ (s : State) (v : Nat), bitAt v 0 = true ∧ s.pkg.hubRuns = true ∧ s.pkg.sec.job = none ∧ s.pkg.sec.reports.length < reportsMax)
  ∧ (∃ (s : State) (dt : Nat) (j : ReportJob) (b : List Byte), b = ((s.pkg.pass dt).signedReport j.nonce j.digests j.guest).1 ∧ s.pkg.sec.job = some
        j ∧ s.pkg.rangeOk j.addr b.length = true)
  ∧ (∃ (s : State) (v : Nat), bitsOf v 16 16 = 0x5EC0 ∧ s.pkg.hubRuns = true ∧ bitsOf v 0 3 ≤ 5 ∧ bitsOf v 8 7 ≤ 64 ∧ s.pkg.arbCount (bitsOf v 0 3)
        < bitsOf v 8 7 ∧ bitsOf v 8 7 ≤ s.pkg.arbLimit (bitsOf v 0 3) ∧ s.pkg.lcState ≠ LC_ENDED)
  ∧ (∃ (s : State) (v : Nat), bitsOf v 16 16 = 0x5EC0 ∧ s.pkg.hubRuns = true ∧ (5 < bitsOf v 0 3 ∨ bitsOf v 8 7 ≤ s.pkg.arbCount (bitsOf v 0 3) ∨
        s.pkg.arbLimit (bitsOf v 0 3) < bitsOf v 8 7))
  ∧ (∃ (s : State) (c : Nat) (n : Nat) (rest : List (Nat × Nat)), s.pkg.sec.burns = (c, n) :: rest ∧ c ≤ 5 ∧ n ≤ 64 ∧ s.part.wf = true) :=
  ⟨⟨boot0 id, by decide +kernel⟩,
    ⟨boot0 id, 0xF00001, by decide +kernel⟩,
    ⟨reporter0, 7, job1, report1, (by rfl), by decide +kernel⟩,
    ⟨boot0 (fun p => { p with sec := { p.sec with svns := [(0, 64)] } }), 0x5EC00000 + 256 * 64, by decide +kernel⟩,
    ⟨boot0 id, 0x5EC00006 + 256 * 64, by decide +kernel⟩,
    ⟨boot0 (fun p => { p with sec := { p.sec with burns := [(5, 64)] } }), 5, 64, [], by decide +kernel⟩⟩

theorem wit_debugWindowAndTestPort :
    (∃ (s : State), s.pkg.has SEC_STATUS_DEBUG_OPEN = false)
  ∧ (∃ (s : State) (x : Nat), s.pkg.has SEC_STATUS_DEBUG_OPEN = true ∧ s.pkg.dbgCore = some x)
  ∧ (∃ (s : State) (x : Nat), s.pkg.has SEC_STATUS_DEBUG_OPEN = true ∧ s.pkg.dbgCore = some x ∧ x ∈ s.pkg.sec.halted)
  ∧ (∃ (s : State) (x : Nat) (a : Nat) (v : Word), s.pkg.has SEC_STATUS_DEBUG_OPEN = true ∧ s.pkg.dbgCore = some x ∧ dbgFind s.pkg.sec.dbgRegs (x,
        a) = some v ∧ dbgFind s.pkg.sec.dbgMem (x, a / 8) = some v)
  ∧ (∃ (s : State), s.pkg.tapAllowed = true)
  ∧ (∃ (s : State), s.pkg.tapAllowed = true ∧ s.pkg.tap.state = .updateIr)
  ∧ (∃ (s : State) (trstN : Bool), (s.pkg.tapAllowed = false ∨ trstN = false)) :=
  ⟨⟨boot0 id, by decide +kernel⟩,
    ⟨debug0 id, 67, by decide +kernel⟩,
    ⟨debug0 (fun x => { x with halted := [67] }), 67, by decide +kernel⟩,
    ⟨debug0 (fun x => { x with dbgRegs := [((67, 16), 9)], dbgMem := [((67, 2), 9)] }), 67, 16, 9, by decide +kernel⟩,
    ⟨tap0 .testLogicReset, by decide +kernel⟩,
    ⟨tap0 .updateIr, by decide +kernel⟩,
    ⟨State.reset, true, by decide +kernel⟩⟩

theorem wit_stepTakesTheFront :
    (∃ (s : State), s.pending = []) :=
  ⟨State.reset, by decide +kernel⟩

theorem wit_memoryFrame :
    (∃ (c : Instr), storesNothing c = true) :=
  ⟨.txnRollback, by decide +kernel⟩

/-! ### Commands that cannot occur: one for each check of WellFormed.lean, at the first value beyond its range -/

theorem test_wf_core_numbers : Instr.wf (.qflushForward 32) = false ∧ Instr.wf (.outputLanded 0 31 4) = false ∧ Instr.wf (.nop 0 576 0 0) = false
    ∧ Instr.wf (.nop 0 575 18 0) = false ∧ Instr.wf (.nop 0 575 17 0) = true := by decide

theorem test_wf_places : Instr.wf (.retrain 24) = false ∧ Instr.wf (.vcStuck 0 23 8) = false ∧ Instr.wf (.softwareFence 0 8) = false
    ∧ Instr.wf (.ringReset 9) = false ∧ Instr.wf (.ringReset 8) = true ∧ Instr.wf (.stackOvertemp 0 32 0) = false
    ∧ Instr.wf (.shroudRetrain 12) = false ∧ Instr.wf (.tieFold 0 64) = false := by decide

theorem test_wf_widths : Instr.wf (.ringNop 0 8 (2 ^ 16)) = false ∧ Instr.wf (.warmForce (2 ^ 32)) = false ∧ Instr.wf (.stepDecide 0 (2 ^ 64)) = false
    ∧ Instr.wf (.irqForce (2 ^ 42) 0) = false ∧ Instr.wf (.setEndpointId 0 256) = false ∧ Instr.wf (.winPush 0 (some 2) 0) = false
    ∧ Instr.wf (.getMeasurements 0 (some (2 ^ 16)) []) = false := by decide

theorem test_wf_contents : Instr.wf (.microBatchReceive 0 { out0 with stage := 32 }) = false
    ∧ Instr.wf (.messageReceive 0 0 { msg0 with cls := 16 } true) = false ∧ Instr.wf (.regRd 0 0 0 none (req0 (2 ^ 64) 8 [])) = false
    ∧ Instr.wf (.dataFlitReceive 0 0 (flit0 4 0) true) = false ∧ Instr.wf (.contributionReceive 0 { cruHeader0 with index := 2 ^ 16 } []) = false
    ∧ Instr.wf (.moeHeaderReceive 0 { header0 with expert := 256 } []) = false := by decide

/-- The write of a vector command lands in SRAM and in accumulator memory. -/
theorem wit_vectorWrite : (∃ w : CmdWord, vSpace w 2 ≠ 3 ∧ vSpace w 2 ≠ 2) ∧ (∃ w : CmdWord, vSpace w 2 ≠ 3 ∧ vSpace w 2 = 2) :=
  ⟨⟨wd [(80, 2)], by decide⟩, ⟨wd [(58, 2)], by decide⟩⟩

end Sys2Proof.Tests
end

/-! ### The two views of stack memory (R221, Table 10-2)

Each view is decoded by an invertible map: `interleavedAddr` and `2 ^ 41 + ·` give a byte's address in the die-interleaved and the
stack-direct view. That the addresses of a view are distinct bytes, and that each byte has one, are the two sides of these inverses. -/

namespace Sys2Proof.Machine

/-- The first row of Table 10-2. -/
theorem physOf_of_interleaved {a : Nat} (h : a < 2 ^ 41) :
    physOf a = some ((4 * (a / 2 ^ 38) + a / 2 ^ 8 % 4) * 2 ^ 36 + a / 2 ^ 10 % 2 ^ 28 * 2 ^ 8 + a % 2 ^ 8) := by
  have hdie : bitsOf a 38 3 = a / 2 ^ 38 := Nat.mod_eq_of_lt (by omega)
  have hbyte : bitsOf a 0 8 = a % 2 ^ 8 := by rw [bitsOf, Nat.pow_zero, Nat.div_one]
  rw [physOf, if_pos h, hdie, hbyte]
  rfl

theorem eq_fields_of_physOf {a x : Nat} (h : a < 2 ^ 41) (hx : physOf a = some x) :
    x = (4 * (a / 2 ^ 38) + a / 2 ^ 8 % 4) * 2 ^ 36 + a / 2 ^ 10 % 2 ^ 28 * 2 ^ 8 + a % 2 ^ 8 :=
  Option.some.inj (hx.symm.trans (physOf_of_interleaved h))

/-- The second row of Table 10-2: stack and offset together are the address less the view's base. -/
theorem physOf_direct {x : Nat} (h : x < 2 ^ 41) : physOf (2 ^ 41 + x) = some x := by
  have hlow : ¬ 2 ^ 41 + x < 2 ^ 41 := by omega
  have hhigh : 2 ^ 41 + x < 2 ^ 42 := by omega
  have hbits : bitsOf (2 ^ 41 + x) 36 5 * 2 ^ 36 + bitsOf (2 ^ 41 + x) 0 36 = x := by
    unfold bitsOf
    omega
  rw [physOf, if_neg hlow, if_pos hhigh, hbits]

/-- The last row of Table 10-2. -/
theorem physOf_reserved {a : Nat} (h : 2 ^ 42 ≤ a) : physOf a = none := by
  rw [physOf, if_neg (by omega), if_neg (by omega)]

theorem eq_direct_of_physOf {a x : Nat} (h : 2 ^ 41 ≤ a) (hx : physOf a = some x) : a = 2 ^ 41 + x := by
  obtain ⟨y, rfl⟩ := Nat.exists_eq_add_of_le h
  have hy : y < 2 ^ 41 := by
    refine Nat.lt_of_not_le fun hge => ?_
    have hnone : physOf (2 ^ 41 + y) = none := physOf_reserved (by omega)
    exact Option.some_ne_none x (hx.symm.trans hnone)
  rw [Option.some.inj ((physOf_direct hy).symm.trans hx)]

/-- The address of a physical byte in the die-interleaved view: its die, its 256-byte granule, its stack within the die and its place in the
granule. -/
def interleavedAddr (x : Nat) : Nat :=
  physStack x / 4 * 2 ^ 38 + x / 2 ^ 8 % 2 ^ 28 * 2 ^ 10 + physStack x % 4 * 2 ^ 8 + x % 2 ^ 8

theorem interleavedAddr_lt {x : Nat} (h : x < 2 ^ 41) : interleavedAddr x < 2 ^ 41 := by
  unfold interleavedAddr physStack
  omega

section Fields

variable {d g s b : Nat} (hg : g < 2 ^ 28) (hb : b < 2 ^ 8)

include hg hb

theorem physStack_fields : physStack (s * 2 ^ 36 + g * 2 ^ 8 + b) = s := by
  unfold physStack
  omega

theorem stackOffset_fields : (s * 2 ^ 36 + g * 2 ^ 8 + b) % 2 ^ 36 = g * 2 ^ 8 + b := by omega

variable (hs : s < 4)

include hs

/-- The decode of the die-interleaved view on an address given by die `d`, granule `g`, stack `s` within the die and byte `b`. -/
theorem physOf_fields (hd : d < 8) : physOf (d * 2 ^ 38 + g * 2 ^ 10 + s * 2 ^ 8 + b) = some ((4 * d + s) * 2 ^ 36 + g * 2 ^ 8 + b) := by
  have hdie : (d * 2 ^ 38 + g * 2 ^ 10 + s * 2 ^ 8 + b) / 2 ^ 38 = d := by omega
  have hstack : (d * 2 ^ 38 + g * 2 ^ 10 + s * 2 ^ 8 + b) / 2 ^ 8 % 4 = s := by omega
  have hgranule : (d * 2 ^ 38 + g * 2 ^ 10 + s * 2 ^ 8 + b) / 2 ^ 10 % 2 ^ 28 = g := by omega
  have hbyte : (d * 2 ^ 38 + g * 2 ^ 10 + s * 2 ^ 8 + b) % 2 ^ 8 = b := by omega
  rw [physOf_of_interleaved (by omega), hdie, hstack, hgranule, hbyte]

theorem interleavedAddr_fields : interleavedAddr ((4 * d + s) * 2 ^ 36 + g * 2 ^ 8 + b) = d * 2 ^ 38 + g * 2 ^ 10 + s * 2 ^ 8 + b := by
  have hgranule : ((4 * d + s) * 2 ^ 36 + g * 2 ^ 8 + b) / 2 ^ 8 % 2 ^ 28 = g := by omega
  have hbyte : ((4 * d + s) * 2 ^ 36 + g * 2 ^ 8 + b) % 2 ^ 8 = b := by omega
  rw [interleavedAddr, physStack_fields hg hb, hgranule, hbyte]
  omega

end Fields

theorem physOf_interleavedAddr {x : Nat} (h : x < 2 ^ 41) : physOf (interleavedAddr x) = some x := by
  have hdie : physStack x / 4 < 8 := by
    unfold physStack
    omega
  rw [interleavedAddr, physOf_fields (by omega) (by omega) (by omega) hdie, physStack, Option.some.injEq]
  omega

theorem interleavedAddr_of_physOf {a x : Nat} (h : a < 2 ^ 41) (hx : physOf a = some x) : interleavedAddr x = a := by
  rw [eq_fields_of_physOf h hx, interleavedAddr_fields (by omega) (by omega) (by omega)]
  omega

theorem physStack_of_interleaved {a x : Nat} (h : a < 2 ^ 41) (hx : physOf a = some x) :
    physStack x = 4 * (a / 2 ^ 38) + a / 2 ^ 8 % 4 := by
  rw [eq_fields_of_physOf h hx, physStack_fields (by omega) (by omega)]

theorem stackOffset_of_interleaved {a x : Nat} (h : a < 2 ^ 41) (hx : physOf a = some x) :
    x % 2 ^ 36 = a / 2 ^ 10 % 2 ^ 28 * 2 ^ 8 + a % 2 ^ 8 := by
  rw [eq_fields_of_physOf h hx, stackOffset_fields (by omega) (by omega)]

/-- Settles O21: each view has its inverse, `interleavedAddr` and `2 ^ 41 + ·`. -/
theorem addressViews : Obligations.AddressViews := by
  unfold Obligations.AddressViews
  refine ⟨?decode, ?interleavedDistinct, ?directDistinct, ?interleavedOnto, ?directOnto, ?reserved⟩
  case decode => exact fun _ _ h hx => ⟨physStack_of_interleaved h hx, stackOffset_of_interleaved h hx⟩
  case interleavedDistinct =>
    exact fun _ _ _ ha hb hax hbx => (interleavedAddr_of_physOf ha hax).symm.trans (interleavedAddr_of_physOf hb hbx)
  case directDistinct => exact fun _ _ _ ha hb hax hbx => (eq_direct_of_physOf ha hax).trans (eq_direct_of_physOf hb hbx).symm
  case interleavedOnto => exact fun x h => ⟨interleavedAddr x, interleavedAddr_lt h, physOf_interleavedAddr h⟩
  case directOnto => exact fun _ => physOf_direct
  case reserved => exact fun _ => physOf_reserved

end Sys2Proof.Machine

/-! ### Resets and faults of supply (R427, R428, R442, R471, R472, R475)

A cold reset keeps of the part what names it and of the package nothing. A warm reset first ends the rings, which moves neither the clock nor the
test port, and then starts hub firmware on a package whose `PKG_STATUS` reads its reset value, which the sequence leaves alone. A FATAL report of
the hub die sets `ERR_STATUS.FATAL` last, so its log keeps the package stopped and shows the registers of the fault that caused it. -/

namespace Sys2Proof.Machine

/-! #### The commands of this part, by what they do to part and package -/

theorem onBoth_eq {f : Part → Package → Part × Package} {s : State} {q : Part} {p : Package} (h : f s.part s.pkg = (q, p)) :
    onBoth f s = .next { s with part := q, pkg := p } := by
  rw [onBoth, h]

theorem onBoth_same {f : Part → Package → Part × Package} {s : State} (h : f s.part s.pkg = (s.part, s.pkg)) : onBoth f s = .next s :=
  onBoth_eq h

theorem onBoth_congr {f g : Part → Package → Part × Package} {s : State} (h : f s.part s.pkg = g s.part s.pkg) : onBoth f s = onBoth g s := by
  rw [onBoth, onBoth, h]

theorem exec_vinLoss (s : State) : exec .vinLoss s = onBoth coldReset s := rfl
theorem exec_rstNAssert (ns : Nat) (s : State) : exec (.rstNAssert ns) s = onBoth (rstN ns) s := rfl
theorem exec_refclkLoss (dt : Nat) (s : State) : exec (.refclkLoss dt) s = .next { s with pkg := refclkLoss dt s.pkg } := rfl
theorem exec_railFault (dt : Nat) (r : Rail) (s : State) : exec (.railFault dt r) s = .next { s with pkg := railFault dt r s.pkg } := rfl

theorem exec_pwrResetCold (v : Nat) (s : State) :
    exec (.pwrResetCold v) s = onBoth (fun q p => if resetKey v && bitAt v 0 then coldReset q p else (q, p)) s := rfl

/-- With nothing new in the flash. -/
theorem exec_pwrResetWarm (v : Nat) (s : State) :
    exec (.pwrResetWarm v []) s
      = onBoth (fun q p => (q, if resetKey v && bitAt v 1 && !bitAt v 0 then askWarm (bitAt v 2) q p else p)) s := rfl

/-- With nothing new in the flash. -/
theorem exec_warmResetStart (dt : Nat) (s : State) :
    exec (.warmResetStart dt []) s = onBoth (fun q p => (q, warmResetStart dt q p)) s := rfl

theorem resetKey_iff (v : Nat) : resetKey v = true ↔ bitsOf v 16 16 = 0x9A3C := decide_eq_true_iff

theorem resetKey_wrong {v : Nat} (h : bitsOf v 16 16 ≠ 0x9A3C) : resetKey v = false := decide_eq_false h

/-! #### The cold reset -/

/-- The ordering code and the serial are the same. -/
def Part.SameNames (q r : Part) : Prop := r.variant = q.variant ∧ r.serial = q.serial

theorem Part.SameNames.replaceCopy {q r : Part} {c : Option LedgerCopy} (h : q.SameNames r) : q.SameNames (r.replaceCopy c) := by
  unfold Part.replaceCopy
  split <;> exact h

theorem Part.SameNames.burnTo {q r : Part} {c n : Nat} (h : q.SameNames r) : q.SameNames (r.burnTo c n) := by
  unfold Part.burnTo
  split <;> exact h

/-- A ledger write, a burn and a wait of the life cycle that a cold reset ends leave what names the part. -/
theorem Part.coldReset_names (q : Part) (p : Package) : q.SameNames (q.coldReset p) := by
  unfold Part.coldReset
  extract_lets written burnt
  have hwritten : q.SameNames written := by
    unfold written
    split
    · exact Part.SameNames.replaceCopy ⟨rfl, rfl⟩
    · exact ⟨rfl, rfl⟩
  have hburnt : q.SameNames burnt := by
    unfold burnt
    split
    · exact hwritten
    · exact hwritten.burnTo
  split <;> exact hburnt

theorem coldReset_package (q : Part) (p : Package) :
    (coldReset q p).2 = { variant := q.variant, serial := q.serial, fresh := p.fresh + 1 } := by
  obtain ⟨hvariant, hserial⟩ := q.coldReset_names p
  rw [coldReset, Part.cold, hvariant, hserial]

/-- With no write and no burn under way the life cycle alone moves. -/
theorem coldReset_part_moves {q : Part} {p : Package} {c : Nat} (h : q.pendingLc = some c) (hw : p.pwr.writing = none) (hb : p.sec.burns = []) :
    (coldReset q p).1 = { q with lc := c, pendingLc := none } := by
  simp [coldReset, Part.coldReset, hw, hb, h]

theorem coldReset_part_same {q : Part} {p : Package} (h : q.pendingLc = none) (hw : p.pwr.writing = none) (hb : p.sec.burns = []) :
    (coldReset q p).1 = q := by
  simp [coldReset, Part.coldReset, hw, hb, h]

theorem rstN_long {ns : Nat} (q : Part) (p : Package) (h : 1000000 ≤ ns) : rstN ns q p = coldReset q p := by
  simp only [rstN, h, decide_true, Bool.true_or, if_true]

theorem rstN_short {ns : Nat} (q : Part) (p : Package) (h : ns < 800000) : rstN ns q p = (q, p) := by
  have hlong : ¬ 1000000 ≤ ns := by omega
  have hignored : ¬ 800000 ≤ ns := by omega
  simp [rstN, hlong, hignored, h]

/-! #### What the end of a ring and the start of hub firmware leave of the package -/

/-- The clock, the test port, the stages, the transaction and whether hub firmware runs are the same: what neither the end of a ring nor the start
of hub firmware moves. -/
structure Package.Steady (p q : Package) : Prop where
  clock : q.clock = p.clock := by rfl
  tap : q.tap = p.tap := by rfl
  stages : q.stages = p.stages := by rfl
  txn : q.txn = p.txn := by rfl
  fw : q.pwr.fw = p.pwr.fw := by rfl

theorem Package.Steady.refl (p : Package) : p.Steady p := {}

theorem Package.Steady.trans {p q r : Package} (h : p.Steady q) (k : q.Steady r) : p.Steady r where
  clock := k.clock.trans h.clock
  tap := k.tap.trans h.tap
  stages := k.stages.trans h.stages
  txn := k.txn.trans h.txn
  fw := k.fw.trans h.fw

theorem Package.Steady.each {p q : Package} {α : Type} {l : List α} {f : Package → α → Package} (h : p.Steady q)
    (hf : ∀ r e, Package.Steady r (f r e)) : p.Steady (q.each l f) :=
  Package.each_keeps p.Steady f (fun r e hr => hr.trans (hf r e)) q l h

theorem Package.Steady.wr {p q : Package} {a v : Nat} (h : p.Steady q) : p.Steady (q.wr a v) := h.trans {}
theorem Package.Steady.put {p q : Package} {f : Fld} {v : Nat} (h : p.Steady q) : p.Steady (q.put f v) := h.wr
theorem Package.Steady.bump64 {p q : Package} {a n : Nat} (h : p.Steady q) : p.Steady (q.bump64 a n) := h.wr
theorem Package.Steady.setRing {p q : Package} {d : Nat} {r : RingSt} (h : p.Steady q) : p.Steady (q.setRing d r) := h.trans {}
theorem Package.Steady.modRing {p q : Package} {d : Nat} {f : RingSt → RingSt} (h : p.Steady q) : p.Steady (q.modRing d f) := h.setRing.put.put

theorem Package.Steady.raise {p q : Package} {g : Page} {ev a0 a1 : Nat} (h : p.Steady q) : p.Steady (q.raise g ev a0 a1) := by
  obtain ⟨r, e, hshape⟩ := q.raise_shape g ev a0 a1
  rw [hshape]
  exact h.trans {}

theorem Package.Steady.store {p q : Package} {a : Nat} {bs : List Byte} (h : p.Steady q) : p.Steady (q.store a bs) :=
  .each (h.trans {}) fun r _ => (Package.Steady.refl r).bump64

theorem Package.Steady.storeBy {p q : Package} {die a : Nat} {bs : List Byte} (h : p.Steady q) : p.Steady (q.storeBy die a bs) := by
  refine .each h.store fun r e => ?_
  split
  · exact (Package.Steady.refl r).bump64
  · exact .refl r

theorem Package.Steady.writeRec {p q : Package} {d : Nat} {r : CqRec} (h : p.Steady q) : p.Steady (q.writeRec d r) := by
  unfold Package.writeRec
  dsimp only
  split
  · exact h
  split
  · exact h.storeBy.wr.bump64
  split
  · exact h.storeBy.wr.bump64.bump64.bump64
  · exact h.storeBy.wr.bump64.bump64

theorem Package.Steady.recordOut {p q : Package} {d : Nat} {r : CqRec} (h : p.Steady q) : p.Steady (q.recordOut d r) := by
  unfold Package.recordOut
  split
  · exact h
  · exact h.modRing

theorem Package.Steady.flushCq {p q : Package} {d fuel : Nat} (h : p.Steady q) : p.Steady (Package.flushCq d fuel q) := by
  induction fuel generalizing q with
  | zero => exact h
  | succ n ih =>
    unfold Package.flushCq
    split
    · exact h
    split
    · exact h
    · exact ih h.modRing.writeRec.recordOut

theorem Package.Steady.ringIdle {p q : Package} {d : Nat} (h : p.Steady q) : p.Steady (q.ringIdle d) := by
  unfold Package.ringIdle
  dsimp only
  split
  · exact h.modRing.put
  · exact h

theorem Package.Steady.settleRing {p q : Package} {d : Nat} (h : p.Steady q) : p.Steady (q.settleRing d) := h.flushCq.ringIdle

theorem Package.Steady.bistStop {p q : Package} {d : Nat} {b : BistRun} {outcome cause fails : Nat} (h : p.Steady q) :
    p.Steady (q.bistStop d b outcome cause fails) := by
  unfold Package.bistStop
  extract_lets c last r t
  have hr : p.Steady r := by
    unfold r
    split
    · exact h.bump64
    · exact h
  have hmapDel : p.Steady { r with bists := mapDel r.bists d } := hr.trans {}
  have ht : p.Steady t := hmapDel.put.put.wr
  split <;> exact ht.raise

theorem Package.Steady.stopWork {p q : Package} {d : Nat} {c : RingCmd} (h : p.Steady q) : p.Steady (q.stopWork d c) := by
  unfold Package.stopWork
  split
  · exact h.trans {}
  split
  · split
    · split
      · exact h.bistStop
      · exact h
    · exact h
  split
  · exact h.trans {}
  split
  · exact h.trans {}
  split
  · exact h.trans {}
  · exact h

/-- A ring that ends stops the work of its commands and writes their records. -/
theorem Package.Steady.endRing {p q : Package} {d status : Nat} (h : p.Steady q) : p.Steady (q.endRing d status).1 := by
  unfold Package.endRing
  extract_lets ring cmds before stopped answered total settled wrote
  have hstopped : p.Steady stopped := h.each fun r c => (Package.Steady.refl r).stopWork
  have hanswered : p.Steady answered := hstopped.each fun r _ => (Package.Steady.refl r).modRing
  have hsettled : p.Steady settled := hanswered.settleRing
  dsimp only
  exact hsettled.modRing

theorem Package.steady_endRings (p : Package) (l : List Nat) (status : Nat) :
    p.Steady (p.each l (fun p d => if p.ringFitted d then (p.endRing d status).1 else p)) := by
  have hone : ∀ (r : Package) (d : Nat), r.Steady (if r.ringFitted d then (r.endRing d status).1 else r) := by
    intro r d
    split
    · exact (Package.Steady.refl r).endRing
    · exact .refl r
  exact .each (.refl p) hone

/-! #### Hub firmware starts -/

/-- `Package.Steady`, and `PKG_STATUS` is the same. -/
structure Package.BootKeeps (p q : Package) : Prop extends Package.Steady p q where
  status : q.rd PKG_STATUS = p.rd PKG_STATUS := by rfl

theorem Package.BootKeeps.refl (p : Package) : p.BootKeeps p := {}

theorem Package.BootKeeps.trans {p q r : Package} (h : p.BootKeeps q) (k : q.BootKeeps r) : p.BootKeeps r :=
  { h.toSteady.trans k.toSteady with status := k.status.trans h.status }

theorem Package.BootKeeps.each {p q : Package} {α : Type} {l : List α} {f : Package → α → Package} (h : p.BootKeeps q)
    (hf : ∀ r e, Package.BootKeeps r (f r e)) : p.BootKeeps (q.each l f) :=
  Package.each_keeps p.BootKeeps f (fun r e hr => hr.trans (hf r e)) q l h

theorem Package.BootKeeps.wr {p q : Package} {a v : Nat} (h : p.BootKeeps q) (ha : a ≠ PKG_STATUS) : p.BootKeeps (q.wr a v) :=
  { h.toSteady.wr with status := (q.rd_wr_ne v ha).trans h.status }

theorem Package.BootKeeps.put {p q : Package} {f : Fld} {v : Nat} (h : p.BootKeeps q) (hf : f.addr ≠ PKG_STATUS) : p.BootKeeps (q.put f v) :=
  h.wr hf

theorem Package.BootKeeps.setBit {p q : Package} {a i : Nat} {b : Bool} (h : p.BootKeeps q) (ha : a ≠ PKG_STATUS) :
    p.BootKeeps (q.setBit a i b) := h.wr ha

theorem Package.BootKeeps.modPwr {p q : Package} {f : PwrUnit → PwrUnit} (h : p.BootKeeps q) (hf : (f q.pwr).fw = q.pwr.fw) :
    p.BootKeeps (q.modPwr f) := h.trans { fw := hf }

theorem Package.BootKeeps.modSec {p q : Package} {f : SecUnit → SecUnit} (h : p.BootKeeps q) : p.BootKeeps (q.modSec f) := h.trans {}

theorem Package.BootKeeps.setLnk {p q : Package} {l : LinkUnit} (h : p.BootKeeps q) : p.BootKeeps { q with lnk := l } := h.trans {}

theorem pkgStatus_ne_irqStatus (g : Page) : PKG_STATUS ≠ IRQ_STATUS g := by
  have := g.base_mod
  unfold PKG_STATUS IRQ_STATUS
  omega

theorem Package.BootKeeps.raise {p q : Package} {g : Page} {ev a0 a1 : Nat} (h : p.BootKeeps q) : p.BootKeeps (q.raise g ev a0 a1) :=
  { h.toSteady.raise with status := (q.raise_rd g ev a0 a1 (by decide) (pkgStatus_ne_irqStatus g)).trans h.status }

theorem secMr_ne_pkgStatus (n : Nat) : SEC_MR n ≠ PKG_STATUS := by
  unfold SEC_MR PKG_STATUS
  omega

theorem Package.BootKeeps.extendMr {p q : Package} {n : Nat} {d : List Byte} (h : p.BootKeeps q) : p.BootKeeps (q.extendMr n d) := by
  unfold Package.extendMr
  dsimp only
  exact (h.each fun r w => (Package.BootKeeps.refl r).wr (secMr_ne_pkgStatus (6 * n + w))).modSec

theorem Package.BootKeeps.verifyClass {p q : Package} {cls : Nat} {slots : ImageRead × ImageRead} (h : p.BootKeeps q) :
    p.BootKeeps (q.verifyClass cls slots).2 := by
  have himage : SEC_IMAGE_SLOTS ≠ PKG_STATUS := by decide
  unfold Package.verifyClass
  extract_lets good bFirst first other take fallen
  have htake : ∀ r i b c, p.BootKeeps r → p.BootKeeps (take r i b c).2 := by
    intro r i b c hr
    dsimp only [take]
    exact ((hr.setBit himage).setBit himage).modSec
  split
  · exact htake _ _ _ _ h
  split
  · exact htake _ _ _ _ h.raise
  · exact h.raise

theorem Package.BootKeeps.loadClass {p q : Package} {part : Part} {cls n : Nat} (h : p.BootKeeps q) :
    p.BootKeeps (q.loadClass part cls n).2 := by
  have hverify : p.BootKeeps (q.verifyClass cls (part.slots cls)).2 := h.verifyClass
  unfold Package.loadClass
  split
  · next hv =>
    rw [hv] at hverify
    exact hverify.extendMr
  · next hv =>
    rw [hv] at hverify
    exact hverify

theorem Package.BootKeeps.showLedger {p q : Package} {part : Part} (h : p.BootKeeps q) : p.BootKeeps (q.showLedger part) := by
  unfold Package.showLedger
  dsimp only
  split
  · exact ((h.put (by decide)).put (by decide)).put (by decide)
  · exact (h.put (by decide)).wr (by decide)

theorem Package.BootKeeps.readLedger {p q : Package} {part : Part} (h : p.BootKeeps q) : p.BootKeeps (q.readLedger part) := by
  unfold Package.readLedger
  dsimp only
  split
  · exact (h.showLedger.extendMr.wr (by decide)).modPwr rfl
  · exact (h.showLedger.extendMr.modPwr rfl).raise

theorem Package.BootKeeps.bootHub {p q : Package} {part : Part} (h : p.BootKeeps q) : p.BootKeeps (q.bootHub part) := by
  have hdie : FAB_DIE_STATE ≠ PKG_STATUS := by decide
  unfold Package.bootHub
  extract_lets shown ledger c3 c4 c2 loaded links noted site
  have hloaded : p.BootKeeps loaded := (h.put (by decide)).readLedger.loadClass.loadClass.loadClass.modPwr rfl
  have hnoted : p.BootKeeps noted := hloaded.setLnk
  have hsite : p.BootKeeps site := by
    unfold site
    split
    · exact hnoted.put (by decide)
    · exact hnoted
  split
  · exact hsite.put (by decide)
  · exact (hsite.put (by decide)).each fun r d => (Package.BootKeeps.refl r).put hdie

/-! #### The warm reset -/

theorem mapFind_filter_key {α : Type} (m : List (Nat × α)) {keep : Nat → Bool} {i : Nat} (h : keep i = false) :
    mapFind (m.filter (fun e => keep e.1)) i = none := by
  induction m with
  | nil => rfl
  | cons e r ih =>
    rw [List.filter_cons]
    split
    · next hk =>
      have hne : e.1 ≠ i := fun he => Bool.false_ne_true (h.symm.trans (he ▸ hk))
      rw [mapFind, if_neg hne, ih]
    · exact ih

/-- The registers that a warm reset does not keep read their reset values. -/
theorem Package.rd_of_not_warmKeeps {p q : Package} {a : Nat} (hregs : q.regs = p.regs.filter (fun e => warmKeeps e.1)) (h : warmKeeps a = false) :
    q.rd a = regReset a := by
  rw [Package.rd, hregs, mapFind_filter_key p.regs h]

theorem ready_clear_at_reset : bitsOf (regReset PKG_STATUS) 2 1 = 0 := by decide +kernel

/-- A warm reset starts hub firmware on a package that keeps the clock and the test port. -/
theorem warmReset_boots (q : Part) (p : Package) : ∃ r : Package, r.BootKeeps (warmReset q p)
    ∧ r.clock = p.clock ∧ r.tap = p.tap ∧ r.stages = [] ∧ r.txn = {} ∧ r.pwr.fw = true ∧ r.rd PKG_STATUS = regReset PKG_STATUS := by
  unfold warmReset
  extract_lets ended live r
  have hrings : p.Steady ended := p.steady_endRings (List.range 9) ST_ABORTED_BY_RESET
  -- from here on the rings' end is known by `hrings` alone: unfolding it would run it ring by ring
  clear_value ended
  exact ⟨r, (Package.BootKeeps.refl r).bootHub, hrings.clock, hrings.tap, rfl, rfl, rfl,
    Package.rd_of_not_warmKeeps (p := ended) rfl (by decide)⟩

theorem warmReset_facts (q : Part) (p : Package) : (warmReset q p).stages = [] ∧ (warmReset q p).txn = {} ∧ (warmReset q p).clock = p.clock
    ∧ (warmReset q p).pwr.fw = true ∧ (warmReset q p).tap = p.tap ∧ (warmReset q p).has PKG_STATUS_READY = false := by
  obtain ⟨r, hboot, hclock, htap, hstages, htxn, hfw, hstatus⟩ := warmReset_boots q p
  refine ⟨hboot.stages.trans hstages, hboot.txn.trans htxn, hboot.clock.trans hclock, hboot.fw.trans hfw, hboot.tap.trans htap, ?_⟩
  have hready : (warmReset q p).get PKG_STATUS_READY = 0 := by
    rw [Package.get, show PKG_STATUS_READY = ⟨PKG_STATUS, 2, 1⟩ from rfl, hboot.status, hstatus]
    exact ready_clear_at_reset
  rw [Package.has, hready]
  rfl

theorem Package.has_put_one (p : Package) {f : Fld} (hlen : f.len = 1) (h : f.lo + f.len ≤ 64) : (p.put f 1).has f = true := by
  rw [Package.has, Package.get_put_same p f 1 h, hlen]
  rfl

theorem warmReset_asked_atOnce {q : Part} {p : Package} {b : Bool} (hfw : p.pwr.fw = true) (hw : p.pwr.writing = none) :
    askWarm b q p = warmReset q p := by
  rw [askWarm, Package.hubRuns, hfw, hw]
  rfl

theorem warmReset_asked_held {q : Part} {p : Package} {b : Bool} (hfw : p.pwr.fw = true) (hw : p.pwr.writing ≠ none) :
    askWarm b q p = (p.modPwr (fun w => { w with warmHeld := some b })).put PWR_STATUS_WARM_HELD 1 := by
  rw [askWarm, Package.hubRuns, hfw, Option.isSome_iff_ne_none.mpr hw]
  rfl

theorem warmResetStart_held {q : Part} {p : Package} {dt : Nat} {b : Bool} (hh : p.pwr.warmHeld = some b) (hw : p.pwr.writing = none) :
    warmResetStart dt q p = warmReset q (p.pass dt) := by
  rw [warmResetStart, Package.pass_pwr, hh, hw]
  rfl

theorem exec_keyed_pwrResetWarm {s : State} {v : Nat} (hkey : bitsOf v 16 16 = 0x9A3C) (hcold : bitAt v 0 = false) (hwarm : bitAt v 1 = true) :
    exec (.pwrResetWarm v []) s = .next { s with pkg := askWarm (bitAt v 2) s.part s.pkg } := by
  rw [exec_pwrResetWarm]
  refine onBoth_eq ?_
  rw [(resetKey_iff v).mpr hkey, hcold, hwarm]
  rfl

/-! #### Faults of supply -/

/-- A FATAL report of the hub die stops the package (R397). -/
theorem Package.reportFatal_fatal (p : Package) (g : Page) (cause a0 a1 : Nat) : (p.reportFatal g 8 cause a0 a1).fatal = true := by
  rw [Package.reportFatal, if_pos rfl, Package.fatal, Package.raise_has _ _ _ _ _ (by decide) (by decide)]
  exact Package.has_put_one _ rfl (by decide)

/-- A FATAL report of the hub die writes the registers of its log, of the page's summary and of the event queue alone. -/
theorem Package.reportFatal_rd (p : Package) (g : Page) (cause a0 a1 : Nat) {a : Nat} (h : a ∉ reportRegs g 8) :
    (p.reportFatal g 8 cause a0 a1).rd a = p.rd a := by
  have hlog := h
  simp only [reportRegs, List.mem_append, not_or, List.mem_cons, List.not_mem_nil, or_false] at hlog
  obtain ⟨hevt, -, hirq, hstatus, -⟩ := hlog
  rw [Package.reportFatal, if_pos rfl, Package.raise_rd _ _ _ _ _ hevt hirq, Package.rd_put_ne _ _ _ (Ne.symm hstatus),
    Package.report_rd _ _ _ _ _ _ _ _ _ h]

theorem refclkLoss_fatal {p : Package} (dt : Nat) (h : p.pwr.goodAt ≠ none) : (refclkLoss dt p).fatal = true := by
  rw [refclkLoss, Package.pass_pwr, if_pos (Option.isSome_iff_ne_none.mpr h)]
  exact Package.reportFatal_fatal _ _ _ _ _

/-- A fault of the hub die's rail is counted, raised and then reported FATAL. -/
theorem railFault_hub {p : Package} (dt : Nat) (h : p.pwr.goodAt ≠ none) : ∃ last cause arg : Nat,
    railFault dt .hub p = ((((p.pass dt).bump64 PWR_RAIL_FAULTS 1).wr PWR_RAIL_LAST last).raise .pwr EV_PWR_RAIL_FAULT last arg).reportFatal
      .pwr 8 cause last arg := by
  have hpowered : ((p.pass dt).pwr.goodAt.isNone || !Rail.fitted (p.pass dt).variant.dies (p.pass dt).variant.guest .hub) = false := by
    rw [Package.pass_pwr, Option.isNone_eq_false_iff.mpr (Option.isSome_iff_ne_none.mpr h)]
    rfl
  unfold railFault
  dsimp only
  rw [if_neg (ne_true_of_eq_false hpowered)]
  exact ⟨_, _, _, rfl⟩

theorem railFault_hub_facts {p : Package} (dt : Nat) (h : p.pwr.goodAt ≠ none) :
    (railFault dt .hub p).fatal = true ∧ (railFault dt .hub p).rd PWR_RAIL_FAULTS = (p.rd PWR_RAIL_FAULTS + 1) % 2 ^ 64
      ∧ bitAt ((railFault dt .hub p).rd (IRQ_STATUS .pwr)) EV_PWR_RAIL_FAULT = true := by
  obtain ⟨last, cause, arg, hfault⟩ := railFault_hub dt h
  rw [hfault]
  refine ⟨Package.reportFatal_fatal _ _ _ _ _, ?counted, ?raised⟩
  case counted =>
    rw [Package.reportFatal_rd _ _ _ _ _ (by decide), Package.raise_rd _ _ _ _ _ (by decide) (by decide), Package.rd_wr_ne _ _ (by decide),
      Package.rd_bump64, Package.pass_rd]
  case raised =>
    rw [Package.reportFatal_rd _ _ _ _ _ (by decide)]
    exact Package.raise_status _ _ _ _ _ (by decide)

/-- Settles O50: a cold reset keeps what names the part, a warm reset ends in `Package.bootHub`, a fault of supply in `Package.reportFatal`. -/
theorem resetsAndSupplyFaults : Obligations.ResetsAndSupplyFaults := by
  unfold Obligations.ResetsAndSupplyFaults
  refine ⟨?vinLoss, coldReset_package, ?lcMoves, ?partSame, ?rstLong, ?rstShort, ?cold, ?wrongKey, ?warm, ?warmHeld,
    warmReset_facts, ?refclk, ?rail⟩
  case vinLoss => exact exec_vinLoss
  case lcMoves => exact fun _ _ _ => coldReset_part_moves
  case partSame => exact fun _ _ => coldReset_part_same
  case rstLong =>
    intro s ns h
    rw [exec_rstNAssert, exec_vinLoss]
    exact onBoth_congr (rstN_long s.part s.pkg h)
  case rstShort =>
    intro s ns h
    rw [exec_rstNAssert]
    exact onBoth_same (rstN_short s.part s.pkg h)
  case cold =>
    intro s v hkey hcold
    rw [exec_pwrResetCold, exec_vinLoss]
    refine onBoth_congr ?_
    rw [(resetKey_iff v).mpr hkey, hcold]
    rfl
  case wrongKey =>
    intro s v hkey
    rw [exec_pwrResetCold, exec_pwrResetWarm, resetKey_wrong hkey]
    exact ⟨onBoth_same rfl, onBoth_same rfl⟩
  case warm =>
    intro s v hkey hcold hwarm hfw
    refine ⟨_, exec_keyed_pwrResetWarm hkey hcold hwarm, rfl, fun hw => warmReset_asked_atOnce hfw hw, fun hw => ?_⟩
    rw [warmReset_asked_held hfw hw]
    exact ⟨rfl, Package.has_put_one _ rfl (by decide), Package.put_mem _ _ _⟩
  case warmHeld =>
    intro s dt b hh hw
    rw [exec_warmResetStart]
    exact onBoth_eq (by rw [warmResetStart_held hh hw])
  case refclk => exact fun s dt h => ⟨_, exec_refclkLoss dt s, refclkLoss_fatal dt h⟩
  case rail => exact fun s dt h => ⟨_, exec_railFault dt .hub s, railFault_hub_facts dt h⟩

end Sys2Proof.Machine

/-! ### Commands and the part (R440, R449, R458, R461)

Every command acts on part and package by one function. What that function can do to the part is one of four moves (`Part.Moves`): nothing in the
fuses, a burn of a counter, an accepted token, and a cold reset. That the fuses stay legal and only burn is shown once for each move. -/

namespace Sys2Proof.Machine

/-! #### The moves of the part -/

/-- The fuses that safety speaks of are the same; the flash and the ledger need not be. -/
structure Part.SameFuses (q r : Part) : Prop where
  variant : r.variant = q.variant := by rfl
  serial : r.serial = q.serial := by rfl
  lc : r.lc = q.lc := by rfl
  pendingLc : r.pendingLc = q.pendingLc := by rfl
  arb : r.arb = q.arb := by rfl
  revoked : r.revoked = q.revoked := by rfl

/-- What one command can do to the part. -/
inductive Part.Moves (q : Part) : Part → Prop where
  | same {r : Part} (h : q.SameFuses r) : q.Moves r
  | burn (c n : Nat) : q.Moves (q.burnTo c n)
  | token {p : Package} {t : List Byte} {o n : Bool} (h : tokenCause q p t o n = 0) : q.Moves (tokenPart q (tokenKind t) (fieldAt t 5 1))
  | cold {r : Part} (p : Package) (h : q.SameFuses r) : q.Moves (r.coldReset p)

theorem Part.Moves.refl (q : Part) : q.Moves q := .same {}

theorem Part.sameFuses_readFlash (q : Part) (l : List (Nat × (ImageRead × ImageRead))) : q.SameFuses (q.readFlash l) := {}

theorem Part.sameFuses_replaceCopy (q : Part) (c : Option LedgerCopy) : q.SameFuses (q.replaceCopy c) := by
  unfold Part.replaceCopy
  split <;> exact {}

theorem coldReset_moves {q r : Part} (p : Package) (h : q.SameFuses r) : q.Moves (coldReset r p).1 := .cold p h

theorem pwrReset_moves (v : Nat) (q : Part) (p : Package) : q.Moves (pwrReset v q p).1 := by
  unfold pwrReset
  split
  · exact .refl q
  split
  · exact coldReset_moves p {}
  split <;> exact .refl q

theorem submitToken_moves (o n : Bool) (q : Part) (p : Package) : q.Moves (submitToken o n q p).1 := by
  unfold submitToken
  split
  · exact .refl q
  dsimp only
  split
  · exact .refl q
  · next h => exact .token (Decidable.not_not.mp h)

theorem submitKind_moves (kind : Nat) (o n : Bool) (q : Part) (p : Package) : q.Moves (submitKind kind o n q p).1 := by
  unfold submitKind
  split
  · exact submitToken_moves o n q p
  · exact .refl q

theorem secCtrl_moves (w : Nat) (q : Part) (p : Package) : q.Moves (secCtrl w q p).1 := by
  unfold secCtrl
  dsimp only
  split
  · exact submitToken_moves _ _ q _
  · exact .refl q

theorem arbBurnDone_moves (dt : Nat) (q : Part) (p : Package) : q.Moves (arbBurnDone dt q p).1 := by
  unfold arbBurnDone
  dsimp only
  split
  · exact .refl q
  · exact .burn _ _

theorem ledgerWriteDone_moves (dt : Nat) (ok : Bool) (q : Part) (p : Package) : q.Moves (ledgerWriteDone dt ok q p).1 := by
  unfold ledgerWriteDone
  dsimp only
  split
  · exact .refl q
  split <;> exact .same (q.sameFuses_replaceCopy _)

theorem powerGood_part (dt : Nat) (ok : Bool) (cert : Option (List Byte)) (q : Part) (p : Package) :
    (powerGood dt ok cert q p).1 = if p.pwr.goodAt.isSome then q else q.coldReset p := by
  unfold powerGood
  split
  · rfl
  dsimp only
  split
  · rfl
  split <;> rfl

theorem rstN_moves (ns : Nat) (q : Part) (p : Package) : q.Moves (rstN ns q p).1 := by
  unfold rstN
  dsimp only
  split
  · exact coldReset_moves p {}
  · exact .refl q

theorem regWrite_moves (req a len v : Nat) (q : Part) (p : Package) : q.Moves (regWrite req a len v q p).2.1 := by
  unfold regWrite
  split
  · exact .refl q
  extract_lets r8 half
  split
  · exact .refl q
  split
  · exact .refl q
  split
  · exact .refl q
  split
  · exact .refl q
  split
  · exact .refl q
  split
  · exact .refl q
  split
  · exact .refl q
  split
  · exact pwrReset_moves _ q p
  split
  · exact secCtrl_moves _ q p
  split <;> exact .refl q

/-! #### Requests of the host and of the guest -/

/-- What serves a request either keeps the part or writes a register. -/
theorem serveRequest_part (op req : Nat) (r : HostReq) (found : List (Nat × LineCheck)) (q : Part) (p : Package) :
    (serveRequest op req r found q p).2.1 = q
      ∨ op = OP_REG_WR ∧ (serveRequest op req r found q p).2.1 = (regWrite req r.addr r.len (leNat r.data) q p).2.1 := by
  unfold serveRequest
  split
  · exact .inl rfl
  split
  · exact .inl rfl
  split
  · next hop =>
    split
    · exact .inl rfl
    · exact .inr ⟨hop, rfl⟩
  split <;> exact .inl rfl

theorem serveRequest_moves (op req : Nat) (r : HostReq) (found : List (Nat × LineCheck)) (q : Part) (p : Package) :
    q.Moves (serveRequest op req r found q p).2.1 := by
  obtain h | ⟨-, h⟩ := serveRequest_part op req r found q p
  · rw [h]
    exact .refl q
  · rw [h]
    exact regWrite_moves _ _ _ _ q p

theorem serveRequest_keeps {op : Nat} (hop : op ≠ OP_REG_WR) (req : Nat) (r : HostReq) (found : List (Nat × LineCheck)) (q : Part) (p : Package) :
    (serveRequest op req r found q p).2.1 = q := by
  obtain h | ⟨h, -⟩ := serveRequest_part op req r found q p
  · exact h
  · exact absurd h hop

/-- What a host or guest request does to the part is what its service does, or nothing. -/
def KeptOrServed (op : Nat) (q q' : Part) : Prop := q' = q ∨ ∃ req r found p, q' = (serveRequest op req r found q p).2.1

theorem KeptOrServed.moves {op : Nat} {q q' : Part} : KeptOrServed op q q' → q.Moves q'
  | .inl h => h ▸ .refl q
  | .inr ⟨_, _, _, _, h⟩ => h ▸ serveRequest_moves _ _ _ _ q _

theorem KeptOrServed.keeps {op : Nat} {q q' : Part} (hop : op ≠ OP_REG_WR) : KeptOrServed op q q' → q' = q
  | .inl h => h
  | .inr ⟨_, _, _, _, h⟩ => h.trans (serveRequest_keeps hop _ _ _ q _)

theorem serveHere_part (op src : Nat) (byPath fromHost : Bool) (r : HostReq) (found : List (Nat × LineCheck)) (q : Part) (p : Package) :
    (serveHere op src byPath fromHost r found q p).1 = (serveRequest op src r found q (p.bump64 LNK_HOST_REQS 1)).2.1 := by
  unfold serveHere
  dsimp only
  split <;> rfl

theorem serveHere_keptOrServed (op src : Nat) (byPath fromHost : Bool) (r : HostReq) (found : List (Nat × LineCheck)) (q : Part) (p : Package) :
    KeptOrServed op q (serveHere op src byPath fromHost r found q p).1 :=
  .inr ⟨_, _, _, _, serveHere_part op src byPath fromHost r found q p⟩

theorem hostRequest_keptOrServed (op dt k src : Nat) (dest : Option Nat) (r : HostReq) (found : List (Nat × LineCheck)) (q : Part) (p : Package) :
    KeptOrServed op q (hostRequest op dt k src dest r found q p).1 := by
  unfold hostRequest
  extract_lets p here back
  split
  · exact .inl rfl
  split
  · split
    · exact .inl rfl
    split
    · exact serveHere_keptOrServed _ _ _ _ _ _ q _
    · exact .inl rfl
  split
  · split
    · exact .inl rfl
    · exact serveHere_keptOrServed _ _ _ _ _ _ q _
  split <;> exact .inl rfl

theorem admitGuest_keptOrServed (p : Package) (op : Nat) (r : HostReq) (found : List (Nat × LineCheck)) (q : Part) :
    KeptOrServed op q (p.admitGuest op r found q).1 := by
  unfold Package.admitGuest
  extract_lets c paid counted n
  split
  · split
    · exact .inl rfl
    split <;> exact .inl rfl
  · exact .inr ⟨_, _, _, _, rfl⟩

theorem guestRequest_keptOrServed (op dt dest : Nat) (r : HostReq) (found : List (Nat × LineCheck)) (q : Part) (p : Package) :
    KeptOrServed op q (guestRequest op dt dest r found q p).1 := by
  unfold guestRequest
  dsimp only
  split
  · exact .inl rfl
  split
  · exact .inl rfl
  split
  · exact .inl rfl
  split
  · exact admitGuest_keptOrServed _ _ _ _ q
  · exact .inl rfl

theorem gateHeldRelease_moves (dt : Nat) (found : List (Nat × LineCheck)) (q : Part) (p : Package) : q.Moves (gateHeldRelease dt found q p).1 := by
  unfold gateHeldRelease
  dsimp only
  split
  · exact .refl q
  split
  · exact (admitGuest_keptOrServed _ _ _ _ q).moves
  · exact .refl q

/-! #### Tokens that move nothing -/

theorem submitDebug_keeps (o n : Bool) (q : Part) (p : Package) : (submitKind TK_DEBUG o n q p).1 = q := by
  unfold submitKind
  split
  · next hkind =>
    unfold submitToken
    split
    · rfl
    dsimp only
    split
    · rfl
    · rw [hkind]
      rfl
  · rfl

/-- A reserved KIND is a layout fault (Table 18-10). -/
theorem tokenCause_reserved {t : List Byte} (h : tokenKind t = 0 ∨ 5 < tokenKind t) (q : Part) (p : Package) (o n : Bool) : tokenCause q p t o n = 1 := by
  unfold tokenCause
  dsimp only
  rw [if_pos]
  rcases h with h | h <;> simp [h]

theorem submitReserved_keeps (q : Part) (p : Package) : (submitReserved q p).1 = q := by
  unfold submitReserved
  split
  · next hkind =>
    have hcause : tokenCause q p p.token false false = 1 := tokenCause_reserved (by simpa using hkind) q p _ _
    unfold submitToken
    split
    · rfl
    dsimp only
    rw [hcause]
    rfl
  · rfl

/-! #### Every command -/

/-- A command acts on part and package by one function, which keeps the part where `keepsPart` holds and else makes one of its moves. -/
def Acts (c : Instr) : Prop :=
  ∃ f : Part → Package → Part × Package,
    (∀ s, exec c s = onBoth f s) ∧ (keepsPart c = true → ∀ q p, (f q p).1 = q) ∧ ∀ (q : Part) p, q.Moves (f q p).1

theorem acts_of_onPkg {c : Instr} (f : Package → Package) (h : ∀ s, exec c s = onPkg f s) : Acts c :=
  ⟨fun q p => (q, f p), h, fun _ _ _ => rfl, fun q _ => .refl q⟩

theorem acts_of_keeps {c : Instr} (f : Part → Package → Part × Package) (h : ∀ s, exec c s = onBoth f s) (hf : ∀ q p, (f q p).1 = q) : Acts c :=
  ⟨f, h, fun _ => hf, fun q p => (hf q p).symm ▸ .refl q⟩

theorem acts_of_moves {c : Instr} (f : Part → Package → Part × Package) (h : ∀ s, exec c s = onBoth f s) (hc : keepsPart c = false)
    (hf : ∀ (q : Part) p, q.Moves (f q p).1) : Acts c :=
  ⟨f, h, fun hk => absurd hk (hc ▸ Bool.false_ne_true), hf⟩

theorem acts (c : Instr) : Acts c := by
  cases c
  case powerGood dt ok flash cert =>
    refine acts_of_moves _ (fun _ => by unfold exec; rfl) rfl fun q p => ?_
    rw [powerGood_part]
    split
    · exact .refl q
    · exact .cold p (q.sameFuses_readFlash flash)
  case diePowerUp flash => exact acts_of_moves _ (fun _ => by unfold exec; rfl) rfl fun q _ => .same (q.sameFuses_readFlash flash)
  case rstNAssert ns => exact acts_of_moves _ (fun _ => rfl) rfl (rstN_moves ns)
  case pwrResetCold v =>
    refine acts_of_moves _ (fun _ => by unfold exec; rfl) rfl fun q p => ?_
    split
    · exact coldReset_moves p {}
    · exact .refl q
  case pwrResetWarm flash => exact acts_of_moves _ (fun _ => by unfold exec; rfl) rfl fun q _ => .same (q.sameFuses_readFlash flash)
  case warmResetStart flash => exact acts_of_moves _ (fun _ => by unfold exec; rfl) rfl fun q _ => .same (q.sameFuses_readFlash flash)
  case vinLoss => exact acts_of_moves _ (fun _ => rfl) rfl fun _ p => coldReset_moves p {}
  case ledgerWriteDone dt ok => exact acts_of_moves _ (fun _ => rfl) rfl (ledgerWriteDone_moves dt ok)
  case arbBurnDone dt => exact acts_of_moves _ (fun _ => rfl) rfl (arbBurnDone_moves dt)
  case tokenReturn o n => exact acts_of_moves _ (fun _ => rfl) rfl (submitKind_moves _ o n)
  case tokenDebug o => exact acts_of_keeps _ (fun _ => rfl) (submitDebug_keeps o false)
  case tokenRevoke n => exact acts_of_moves _ (fun _ => rfl) rfl (submitKind_moves _ _ n)
  case tokenDeploy o => exact acts_of_moves _ (fun _ => rfl) rfl (submitKind_moves _ o _)
  case tokenEnd o n => exact acts_of_moves _ (fun _ => rfl) rfl (submitKind_moves _ o n)
  case tokenKindReserved => exact acts_of_keeps _ (fun _ => rfl) submitReserved_keeps
  case registerWrite req a len v => exact acts_of_moves _ (fun _ => rfl) rfl (regWrite_moves req a len v)
  case regRd => exact acts_of_keeps _ (fun _ => rfl) fun q _ => (hostRequest_keptOrServed _ _ _ _ _ _ _ q _).keeps (by decide)
  case memRd => exact acts_of_keeps _ (fun _ => rfl) fun q _ => (hostRequest_keptOrServed _ _ _ _ _ _ _ q _).keeps (by decide)
  case memWr => exact acts_of_keeps _ (fun _ => rfl) fun q _ => (hostRequest_keptOrServed _ _ _ _ _ _ _ q _).keeps (by decide)
  case regWr => exact acts_of_moves _ (fun _ => rfl) rfl fun q _ => (hostRequest_keptOrServed _ _ _ _ _ _ _ q _).moves
  case guestRegRd => exact acts_of_keeps _ (fun _ => rfl) fun q _ => (guestRequest_keptOrServed _ _ _ _ _ q _).keeps (by decide)
  case guestMemRd => exact acts_of_keeps _ (fun _ => rfl) fun q _ => (guestRequest_keptOrServed _ _ _ _ _ q _).keeps (by decide)
  case guestMemWr => exact acts_of_keeps _ (fun _ => rfl) fun q _ => (guestRequest_keptOrServed _ _ _ _ _ q _).keeps (by decide)
  case guestEvent => exact acts_of_keeps _ (fun _ => rfl) fun q _ => (guestRequest_keptOrServed _ _ _ _ _ q _).keeps (by decide)
  case guestRegWr => exact acts_of_moves _ (fun _ => rfl) rfl fun q _ => (guestRequest_keptOrServed _ _ _ _ _ q _).moves
  case gateHeldRelease dt found => exact acts_of_moves _ (fun _ => rfl) rfl (gateHeldRelease_moves dt found)
  case gatePolicyLoad => exact acts_of_keeps _ (fun _ => by unfold exec; rfl) fun _ _ => rfl
  case dieSelftestDone => exact acts_of_keeps _ (fun _ => by unfold exec; rfl) fun _ _ => rfl
  case bistRunDone => exact acts_of_keeps _ (fun _ => by unfold exec; rfl) fun _ _ => rfl
  case readmitStepDone => exact acts_of_keeps _ (fun _ => by unfold exec; rfl) fun _ _ => rfl
  all_goals exact acts_of_onPkg _ fun _ => by unfold exec; rfl

/-- Settles O56, from what every command acts by. -/
theorem commandFrames : Obligations.CommandFrames := by
  intro c s
  obtain ⟨f, hexec, hkeeps, -⟩ := acts c
  exact ⟨_, hexec s, rfl, fun hk => hkeeps hk s.part s.pkg⟩

/-- A step moves the part by one move, or does nothing. -/
theorem step_part_moves {s t : State} (h : step s = .next t) : s.part.Moves t.part := by
  unfold step at h
  split at h
  · cases h
    exact .refl _
  · next c rest hp =>
    obtain ⟨f, hexec, -, hmoves⟩ := acts c
    rw [hexec] at h
    cases h
    exact hmoves s.part s.pkg

/-! #### The fuses stay legal -/

theorem Part.wf_iff (q : Part) : q.wf = true ↔ q.lc ≤ 5 ∧ (∀ c, q.pendingLc = some c → c ≤ 5 ∧ q.lc < c) ∧ q.arb.length = 6
    ∧ (∀ n ∈ q.arb, n ≤ 64) ∧ q.revoked % 16 ≠ 15 := by
  unfold Part.wf lcLegal
  cases q.pendingLc <;> simp [and_assoc]

theorem Part.SameFuses.wf {q r : Part} (h : q.SameFuses r) (hq : q.wf = true) : r.wf = true := by
  rw [Part.wf_iff] at hq ⊢
  rw [h.lc, h.pendingLc, h.arb, h.revoked]
  exact hq

theorem length_listPut {α : Type} (d : α) {l : List α} {i : Nat} (v : α) (h : i < l.length) : (listPut d l i v).length = l.length := by
  induction l generalizing i with
  | nil => exact absurd h (Nat.not_lt_zero i)
  | cons x r ih => cases i with
    | zero => rfl
    | succ n => exact congrArg (· + 1) (ih (Nat.lt_of_succ_lt_succ h))

theorem mem_listPut {α : Type} {d : α} {l : List α} {i : Nat} {v x : α} (hi : i < l.length) (h : x ∈ listPut d l i v) : x = v ∨ x ∈ l := by
  induction l generalizing i with
  | nil => exact absurd hi (Nat.not_lt_zero i)
  | cons y r ih => cases i with
    | zero => exact (List.mem_cons.mp h).imp_right (List.mem_cons_of_mem y)
    | succ n =>
      obtain h | h := List.mem_cons.mp h
      · exact .inr (h ▸ List.mem_cons_self)
      · exact (ih (Nat.lt_of_succ_lt_succ hi) h).imp_right (List.mem_cons_of_mem y)

theorem listAt_le {l : List Nat} {b : Nat} (h : ∀ n ∈ l, n ≤ b) (i : Nat) : listAt 0 l i ≤ b := by
  unfold listAt
  split
  · next hx => exact h _ (List.mem_of_getElem? hx)
  · exact Nat.zero_le b

theorem Part.wf_burnTo {q : Part} (c n : Nat) (hq : q.wf = true) : (q.burnTo c n).wf = true := by
  unfold Part.burnTo
  split
  · next hc =>
    rw [Part.wf_iff] at hq ⊢
    obtain ⟨hlc, hpending, hlen, harb, hrevoked⟩ := hq
    have hin : c < q.arb.length := hlen ▸ hc
    refine ⟨hlc, hpending, (length_listPut 0 _ hin).trans hlen, fun x hx => ?_, hrevoked⟩
    obtain rfl | hx := mem_listPut hin hx
    · exact Nat.max_le.mpr ⟨listAt_le harb c, Nat.min_le_right n 64⟩
    · exact harb x hx
  · exact hq

/-- The parts of a cold reset before the life cycle moves: at most a ledger copy lost and a counter burned. -/
theorem Part.coldReset_eq (q : Part) (p : Package) : ∃ r, (q.SameFuses r ∨ ∃ m c n, q.SameFuses m ∧ r = m.burnTo c n)
    ∧ q.coldReset p = match r.pendingLc with
      | some lc => { r with lc := lc, pendingLc := none }
      | none => r := by
  have hwritten : q.SameFuses (if p.pwr.writing.isSome then q.replaceCopy none else q) := by
    split
    · exact q.sameFuses_replaceCopy none
    · exact {}
  unfold Part.coldReset
  extract_lets written burnt
  refine ⟨burnt, ?_, by cases burnt.pendingLc <;> rfl⟩
  unfold burnt
  split
  · exact .inl hwritten
  · exact .inr ⟨written, _, _, hwritten, rfl⟩

theorem Part.wf_coldReset {q : Part} (p : Package) (hq : q.wf = true) : (q.coldReset p).wf = true := by
  obtain ⟨r, hr, heq⟩ := q.coldReset_eq p
  have hwf : r.wf = true := by
    obtain h | ⟨m, c, n, h, rfl⟩ := hr
    · exact h.wf hq
    · exact Part.wf_burnTo c n (h.wf hq)
  rw [heq]
  split
  · next lc hlc =>
    rw [Part.wf_iff] at hwf ⊢
    obtain ⟨-, hpending, hrest⟩ := hwf
    exact ⟨(hpending lc hlc).1, (fun _ h => nomatch h), hrest⟩
  · exact hwf

/-- A token that moves the life cycle is accepted only in a state that lies before the one it moves to (Table 18-8). -/
theorem kindInState_of_accepted {q : Part} {p : Package} {t : List Byte} {o n : Bool} (h : tokenCause q p t o n = 0) :
    kindInState (tokenKind t) q.lc = true := by
  unfold tokenCause at h
  dsimp only at h
  repeat' split at h
  all_goals simp_all

/-- A revocation is accepted of a root key that is one of the four and not the last live one (Table 18-10). -/
theorem arg_of_revoke_accepted {q : Part} {p : Package} {t : List Byte} {o n : Bool} (hk : tokenKind t = TK_REVOKE) (h : tokenCause q p t o n = 0) :
    fieldAt t 5 1 ≤ 3 ∧ liveKeys q.revoked ≠ [fieldAt t 5 1] := by
  unfold tokenCause at h
  dsimp only at h
  repeat' split at h
  all_goals simp_all

theorem mod_sixteen_eq_fifteen_iff (r : Nat) : r % 16 = 15 ↔ ∀ k < 4, r.testBit k = true := by
  have hbits : ∀ k < 4, r.testBit k = (r % 16).testBit k := fun k hk => by
    rw [show 16 = 2 ^ 4 from rfl, Nat.testBit_mod_two_pow]
    simp [hk]
  have hall : ∀ m < 16, (m = 15 ↔ ∀ k < 4, m.testBit k = true) := by decide
  rw [hall _ (Nat.mod_lt r (by decide))]
  exact forall₂_congr fun k hk => by rw [hbits k hk]

/-- While another root key than `k` lives, revoking `k` leaves a live one. -/
theorem revoke_leaves_key {r k : Nat} (hr : r % 16 ≠ 15) (hk : liveKeys r ≠ [k]) : (r ||| 2 ^ k) % 16 ≠ 15 := by
  intro hall
  rw [mod_sixteen_eq_fifteen_iff] at hall
  have hothers : ∀ i < 4, i ≠ k → r.testBit i = true := fun i hi hne => by
    have h := hall i hi
    rw [Nat.testBit_or, Nat.testBit_two_pow_of_ne (Ne.symm hne), Bool.or_false] at h
    exact h
  obtain ⟨i, hi, hdead⟩ : ∃ i < 4, r.testBit i = false := by
    refine Classical.byContradiction fun hno => ?_
    exact hr ((mod_sixteen_eq_fifteen_iff r).mpr fun i hi => eq_true_of_ne_false fun hf => hno ⟨i, hi, hf⟩)
  have hik : i = k :=
    Decidable.byContradiction fun hne => Bool.false_ne_true (hdead.symm.trans (hothers i hi hne))
  subst hik
  apply hk
  have hlive : ∀ x ∈ List.range 4, (!bitAt r x) = decide (x = i) := fun x hx => by
    by_cases hx' : x = i
    · simp [hx', bitAt, hdead]
    · simp [hx', bitAt, hothers x (List.mem_range.mp hx) hx']
  rw [liveKeys, List.filter_congr hlive]
  have hsingle : ∀ i < 4, (List.range 4).filter (fun x => decide (x = i)) = [i] := by decide
  exact hsingle i hi

theorem Part.wf_token {q : Part} {p : Package} {t : List Byte} {o n : Bool} (hq : q.wf = true) (h : tokenCause q p t o n = 0) :
    (tokenPart q (tokenKind t) (fieldAt t 5 1)).wf = true := by
  have hstate := kindInState_of_accepted h
  have hwf := hq
  rw [Part.wf_iff] at hwf
  obtain ⟨hlc, hpending, hrest⟩ := hwf
  -- where a move to `c` waits, only that `c` is legal and lies ahead is new
  have hmove : ∀ c ≤ 5, q.lc < c → ({ q with pendingLc := some c } : Part).wf = true := fun c hc hlt =>
    (Part.wf_iff _).mpr ⟨hlc, fun _ he => Option.some.inj he ▸ ⟨hc, hlt⟩, hrest⟩
  unfold tokenPart
  unfold kindInState at hstate
  split
  · next hk =>
    rw [if_pos hk, decide_eq_true_eq] at hstate
    exact hmove LC_RETURNED (by decide) (hstate ▸ by decide)
  split
  · next hk =>
    rw [hk] at hstate
    have hat : q.lc = LC_PROVISIONED := by simpa [TK_RETURN, TK_DEBUG, TK_REVOKE, TK_DEPLOY] using hstate
    exact hmove LC_DEPLOYED (by decide) (hat ▸ by decide)
  split
  · next hk =>
    rw [hk] at hstate
    have hat : (q.lc = LC_PROVISIONED ∨ q.lc = LC_DEPLOYED) ∨ q.lc = LC_RETURNED := by
      simpa [TK_RETURN, TK_DEBUG, TK_REVOKE, TK_DEPLOY, TK_END] using hstate
    exact hmove LC_ENDED (by decide) (by rcases hat with (hat | hat) | hat <;> rw [hat] <;> decide)
  split
  · next hk =>
    obtain ⟨hlen, harb, hrevoked⟩ := hrest
    exact (Part.wf_iff _).mpr ⟨hlc, hpending, hlen, harb, revoke_leaves_key hrevoked (arg_of_revoke_accepted hk h).2⟩
  · exact hq

theorem Part.Moves.wf {q r : Part} (hq : q.wf = true) : q.Moves r → r.wf = true
  | .same h => h.wf hq
  | .burn c n => Part.wf_burnTo c n hq
  | .token h => Part.wf_token hq h
  | .cold p h => Part.wf_coldReset p (h.wf hq)

/-- Settles O59: every move of the part keeps the fuses legal. -/
theorem stepKeepsFusesLegal : Obligations.StepKeepsFusesLegal :=
  fun _ _ hs hstep => (step_part_moves hstep).wf hs

/-! #### Fuses only burn -/

theorem Part.SameFuses.burns {q r : Part} (h : q.SameFuses r) : q.Burns r :=
  ⟨fun _ => Nat.le_of_eq (by rw [h.arb]), fun _ hk => by rwa [h.revoked], .inl h.lc, h.variant, h.serial⟩

theorem listAt_listPut_ne {α : Type} (d : α) {l : List α} {i j : Nat} (v : α) (h : i ≠ j) : listAt d (listPut d l i v) j = listAt d l j := by
  induction l generalizing i j with
  | nil =>
    induction i generalizing j with
    | zero => cases j with
      | zero => exact absurd rfl h
      | succ j => rfl
    | succ i ih => cases j with
      | zero => rfl
      | succ j => exact ih (fun e => h (congrArg (· + 1) e))
  | cons x r ih => cases i with
    | zero => cases j with
      | zero => exact absurd rfl h
      | succ j => rfl
    | succ i => cases j with
      | zero => rfl
      | succ j => exact ih (fun e => h (congrArg (· + 1) e))

theorem Part.arb_le_burnTo (q : Part) (c n i : Nat) : listAt 0 q.arb i ≤ listAt 0 (q.burnTo c n).arb i := by
  unfold Part.burnTo
  split
  · by_cases hi : c = i
    · subst hi
      rw [listAt_listPut_same]
      exact Nat.le_max_left _ _
    · exact Nat.le_of_eq (listAt_listPut_ne 0 _ hi).symm
  · exact Nat.le_refl _

/-- A burn moves its counter alone. -/
theorem Part.burnTo_rest (q : Part) (c n : Nat) : (q.burnTo c n).variant = q.variant ∧ (q.burnTo c n).serial = q.serial ∧ (q.burnTo c n).lc = q.lc
    ∧ (q.burnTo c n).pendingLc = q.pendingLc ∧ (q.burnTo c n).revoked = q.revoked := by
  unfold Part.burnTo
  split <;> exact ⟨rfl, rfl, rfl, rfl, rfl⟩

theorem Part.burns_burnTo (q : Part) (c n : Nat) : q.Burns (q.burnTo c n) := by
  obtain ⟨hvariant, hserial, hlc, -, hrevoked⟩ := q.burnTo_rest c n
  exact ⟨q.arb_le_burnTo c n, fun _ hk => by rwa [hrevoked], .inl hlc, hvariant, hserial⟩

theorem Part.burns_token (q : Part) (kind arg : Nat) : q.Burns (tokenPart q kind arg) := by
  have hpending : ∀ c, q.Burns { q with pendingLc := c } := fun _ => ⟨fun _ => Nat.le_refl _, fun _ hk => hk, .inl rfl, rfl, rfl⟩
  unfold tokenPart
  split
  · exact hpending _
  split
  · exact hpending _
  split
  · exact hpending _
  split
  · exact ⟨fun _ => Nat.le_refl _, fun k hk => by rw [Nat.testBit_or, hk, Bool.true_or], .inl rfl, rfl, rfl⟩
  · exact hpending _

theorem Part.burns_coldReset (q : Part) (p : Package) : q.Burns (q.coldReset p) := by
  obtain ⟨r, hr, heq⟩ := q.coldReset_eq p
  have hburns : q.Burns r ∧ r.lc = q.lc ∧ r.pendingLc = q.pendingLc := by
    obtain h | ⟨m, c, n, h, rfl⟩ := hr
    · exact ⟨h.burns, h.lc, h.pendingLc⟩
    · obtain ⟨hvariant, hserial, hlc, hpending, hrevoked⟩ := m.burnTo_rest c n
      refine ⟨⟨fun i => ?_, fun k hk => ?_, .inl (hlc.trans h.lc), hvariant.trans h.variant, hserial.trans h.serial⟩, hlc.trans h.lc, hpending.trans h.pendingLc⟩
      · exact h.arb ▸ m.arb_le_burnTo c n i
      · rw [hrevoked, h.revoked]
        exact hk
  obtain ⟨⟨harb, hrevoked, -, hvariant, hserial⟩, hlc, hpending⟩ := hburns
  rw [heq]
  split
  · next lc hlc' => exact ⟨harb, hrevoked, .inr (hpending.symm.trans hlc'), hvariant, hserial⟩
  · exact ⟨harb, hrevoked, .inl hlc, hvariant, hserial⟩

theorem Part.Burns.of_same {q m r : Part} (h : q.SameFuses m) (hb : m.Burns r) : q.Burns r := by
  obtain ⟨harb, hrevoked, hlc, hvariant, hserial⟩ := hb
  rw [h.arb] at harb
  rw [h.revoked] at hrevoked
  rw [h.lc, h.pendingLc] at hlc
  exact ⟨harb, hrevoked, hlc, hvariant.trans h.variant, hserial.trans h.serial⟩

theorem Part.Moves.burns {q r : Part} : q.Moves r → q.Burns r
  | .same h => h.burns
  | .burn c n => q.burns_burnTo c n
  | .token _ => q.burns_token _ _
  | .cold p h => .of_same h (Part.burns_coldReset _ p)

/-- In a legal part what waits lies ahead, so the life cycle never goes back. -/
theorem Part.Burns.lc_le {q r : Part} (hq : q.wf = true) (h : q.Burns r) : q.lc ≤ r.lc := by
  obtain ⟨-, -, hlc | hlc, -, -⟩ := h
  · exact Nat.le_of_eq hlc.symm
  · exact Nat.le_of_lt (((Part.wf_iff q).mp hq).2.1 _ hlc).2

/-- Settles O60: every move of the part only burns. -/
theorem fusesOnlyBurn : Obligations.FusesOnlyBurn :=
  ⟨fun _ _ hstep => (step_part_moves hstep).burns, fun _ _ hs hstep => (step_part_moves hstep).burns.lc_le hs⟩

end Sys2Proof.Machine

/-! ### What stores nothing (R222, R226)

`Package.KeepsMem` says that stack memory and its poisoned lines are the same. An update of other fields keeps them by unfolding; a lemma stands
for each shared operation that branches, and one for each command of `storesNothing`. -/

namespace Sys2Proof.Machine

-- Each lemma below unfolds another function of the model. Elaborated side by side they would wait for one another in more threads than the limit of
-- memory leaves room for, so they are elaborated in turn.
set_option Elab.async false

/-- Stack memory and the list of poisoned lines are the same. -/
structure Package.KeepsMem (p q : Package) : Prop where
  mem : q.mem = p.mem := by rfl
  poison : q.poison = p.poison := by rfl

namespace Package.KeepsMem

variable {p q r : Package}

theorem refl (p : Package) : p.KeepsMem p := {}

theorem trans (h : p.KeepsMem q) (k : q.KeepsMem r) : p.KeepsMem r := ⟨k.mem.trans h.mem, k.poison.trans h.poison⟩

theorem ite {c : Prop} [Decidable c] (h : p.KeepsMem q) (k : p.KeepsMem r) : p.KeepsMem (if c then q else r) := by
  split
  · exact h
  · exact k

theorem each {α : Type} {l : List α} {f : Package → α → Package} (h : p.KeepsMem q) (hf : ∀ r e, Package.KeepsMem r (f r e)) :
    p.KeepsMem (q.each l f) :=
  Package.each_keeps p.KeepsMem f (fun r e hr => hr.trans (hf r e)) q l h

theorem wr {a v : Nat} (h : p.KeepsMem q) : p.KeepsMem (q.wr a v) := h.trans {}
theorem put {f : Fld} {v : Nat} (h : p.KeepsMem q) : p.KeepsMem (q.put f v) := h.trans {}
theorem bump64 {a n : Nat} (h : p.KeepsMem q) : p.KeepsMem (q.bump64 a n) := h.trans {}
theorem setBit {a i : Nat} {b : Bool} (h : p.KeepsMem q) : p.KeepsMem (q.setBit a i b) := h.trans {}
theorem modSec {f : SecUnit → SecUnit} (h : p.KeepsMem q) : p.KeepsMem (q.modSec f) := h.trans {}
theorem modPort {k : Nat} {f : Link → Link} (h : p.KeepsMem q) : p.KeepsMem (q.modPort k f) := h.trans {}
theorem enqueue {k : Nat} {m : Msg} (h : p.KeepsMem q) : p.KeepsMem (q.enqueue k m) := h.trans {}
theorem setRing {d : Nat} {r : RingSt} (h : p.KeepsMem q) : p.KeepsMem (q.setRing d r) := h.trans {}
theorem modRing {d : Nat} {f : RingSt → RingSt} (h : p.KeepsMem q) : p.KeepsMem (q.modRing d f) := h.setRing.put.put
theorem begun {d tag : Nat} {b : Bool} (h : p.KeepsMem q) : p.KeepsMem (q.begun d tag b) := by
  unfold Package.begun Package.modCmd
  exact h.modRing
theorem cmdDone {d tag status result : Nat} (h : p.KeepsMem q) : p.KeepsMem (q.cmdDone d tag status result) := by
  unfold Package.cmdDone Package.modCmd
  exact h.modRing
theorem modShroud {j : Nat} {f : Shroud → Shroud} (h : p.KeepsMem q) : p.KeepsMem (q.modShroud j f) := h.trans {}
theorem agree {j m : Nat} (h : p.KeepsMem q) : p.KeepsMem (q.agree j m) := h.put.put
theorem retrainShroud {j : Nat} (h : p.KeepsMem q) : p.KeepsMem (q.retrainShroud j) := h.put.bump64

theorem pass {dt : Nat} (h : p.KeepsMem q) : p.KeepsMem (q.pass dt) := h.trans ⟨q.pass_mem dt, q.pass_poison dt⟩

theorem event {g : Page} {ev : Nat} {b : Bool} {a0 a1 : Nat} (h : p.KeepsMem q) : p.KeepsMem (q.event g ev b a0 a1) := by
  obtain ⟨r, e, hshape⟩ := q.event_shape g ev b a0 a1
  rw [hshape]
  exact ⟨h.mem, h.poison⟩

theorem raise {g : Page} {ev a0 a1 : Nat} (h : p.KeepsMem q) : p.KeepsMem (q.raise g ev a0 a1) := h.event

theorem report {g : Page} {d cls cause a0 a1 : Nat} {b c : Bool} (h : p.KeepsMem q) : p.KeepsMem (q.report g d cls cause a0 a1 b c) :=
  h.trans ⟨q.report_mem .., q.report_poison ..⟩

theorem reportFatal {g : Page} {d cause a0 a1 : Nat} (h : p.KeepsMem q) : p.KeepsMem (q.reportFatal g d cause a0 a1) := by
  unfold Package.reportFatal
  exact .ite h.report.put.raise h.report

theorem noRoute {dest : Nat} (h : p.KeepsMem q) : p.KeepsMem (q.noRoute dest) := by
  refine h.trans ?_
  unfold Package.noRoute
  exact .ite {} (.raise {})

theorem sendRoute {dest cls len : Nat} {body : MsgBody} (h : p.KeepsMem q) : p.KeepsMem (q.sendRoute dest cls len body) := by
  unfold Package.sendRoute
  split
  · exact h.enqueue
  · exact h.noRoute

theorem sendBeat {k len : Nat} {body : MsgBody} (h : p.KeepsMem q) : p.KeepsMem (q.sendBeat k len body) := by
  unfold Package.sendBeat
  exact .ite h.enqueue h

theorem toHost {dest : Nat} {rsp : HostRsp} (h : p.KeepsMem q) : p.KeepsMem (q.toHost dest rsp) := by
  unfold Package.toHost
  split
  · exact h.enqueue
  · exact h

theorem eventToHost {m : Msg} (h : p.KeepsMem q) : p.KeepsMem (q.eventToHost m) := by
  unfold Package.eventToHost
  split
  · exact h.enqueue
  · exact h

theorem raiseLost (h : p.KeepsMem q) : p.KeepsMem q.raiseLost := by
  refine h.trans ?_
  unfold Package.raiseLost
  exact .ite (.raise {}) {}

theorem evtStatus (h : p.KeepsMem q) : p.KeepsMem q.evtStatus := h.put.put

theorem addCredit {s n c : Nat} (h : p.KeepsMem q) : p.KeepsMem (q.addCredit s n c) := by
  unfold Package.addCredit
  exact .ite h.put h

theorem degrade {j cause : Nat} (h : p.KeepsMem q) : p.KeepsMem (q.degrade j cause) := by
  have hset : p.KeepsMem (((q.setShroudState j SHROUD_DEGRADED).put (FAB_SHROUD_STATUS_DEG_CAUSE j) cause).setBit FAB_STATUS (16 + j) true) :=
    h.put.put.setBit
  unfold Package.degrade
  exact (KeepsMem.ite hset.raise hset).raise.report

theorem clearTxnBit {i : Nat} (h : p.KeepsMem q) : p.KeepsMem (q.clearTxnBit i) := h.each fun r _ => (refl r).setBit

theorem endTxn {result : Nat} (h : p.KeepsMem q) : p.KeepsMem (q.endTxn result) := by
  refine h.trans ?_
  unfold Package.endTxn
  extract_lets dropped links unrouted
  have hcleared : q.KeepsMem (unrouted.clearTxnBit 0) := clearTxnBit {}
  exact hcleared.put.put.put

theorem extendMr {n : Nat} {d : List Byte} (h : p.KeepsMem q) : p.KeepsMem (q.extendMr n d) := by
  unfold Package.extendMr
  exact (h.each fun r _ => (refl r).wr).modSec

theorem closeSite {cause : Nat} (h : p.KeepsMem q) : p.KeepsMem (q.closeSite cause) := by
  refine h.trans ?_
  unfold Package.closeSite
  exact .ite {} (.raise {})

theorem haltRing {d cause : Nat} (h : p.KeepsMem q) : p.KeepsMem (q.haltRing d cause) := h.put.put.raise

end Package.KeepsMem

open Package

/-! #### The beat and the links -/

theorem tickNotice_keepsMem (dt : Nat) (p : Package) : p.KeepsMem (tickNotice dt p) := by
  unfold tickNotice
  extract_lets q
  have hq : p.KeepsMem q := (KeepsMem.refl p).pass
  clear_value q
  exact hq.trans (.ite {} {})

theorem secondPulse_keepsMem (dt : Nat) (p : Package) : p.KeepsMem (secondPulse dt p) := by
  unfold secondPulse
  extract_lets q
  have hq : p.KeepsMem q := (KeepsMem.refl p).pass
  clear_value q
  exact hq.trans (.ite {} {})

theorem periodChange_keepsMem (p : Package) : p.KeepsMem (periodChange p) := by
  unfold periodChange
  split
  · exact .ite (.raise {}) {}
  · exact {}

theorem electionTimeout_keepsMem (dt : Nat) (p : Package) : p.KeepsMem (electionTimeout dt p) := by
  unfold electionTimeout
  extract_lets q
  have hq : p.KeepsMem q := (KeepsMem.refl p).pass
  clear_value q
  exact hq.trans (.ite (.raise {}) {})

theorem acquireTimeout_keepsMem (dt : Nat) (p : Package) : p.KeepsMem (acquireTimeout dt p) := by
  unfold acquireTimeout
  extract_lets q
  have hq : p.KeepsMem q := (KeepsMem.refl p).pass
  clear_value q
  exact hq.trans (.ite (.raise {}) {})

theorem delayRequestSend_keepsMem (dt : Nat) (p : Package) : p.KeepsMem (delayRequestSend dt p) := by
  unfold delayRequestSend
  extract_lets q k
  have hq : p.KeepsMem q := (KeepsMem.refl p).pass
  clear_value q
  exact hq.trans (.ite {} (.sendBeat {}))

theorem delayRequestReceive_keepsMem (dt link t3 : Nat) (p : Package) : p.KeepsMem (delayRequestReceive dt link t3 p) := by
  unfold delayRequestReceive
  extract_lets q
  have hq : p.KeepsMem q := (KeepsMem.refl p).pass
  clear_value q
  exact hq.trans (.ite (.sendBeat {}) {})

theorem creditReceive_keepsMem (dt s n c : Nat) (p : Package) : p.KeepsMem (creditReceive dt s n c p) := by
  have hpass : p.KeepsMem (p.pass dt) := (KeepsMem.refl p).pass
  unfold creditReceive
  exact hpass.trans (.addCredit {})

theorem dataFlitReceive_keepsMem (dt k : Nat) (f : WireFlit) (ok : Bool) (p : Package) : p.KeepsMem (dataFlitReceive dt k f ok p) := by
  unfold dataFlitReceive
  extract_lets q taken e
  have hq : p.KeepsMem q := (KeepsMem.refl p).pass
  have htaken : q.KeepsMem taken := {}
  exact hq.trans (.ite {} (.ite (.modPort (.bump64 {})) (.ite htaken.bump64.modPort (.ite htaken htaken.modPort))))

theorem idleFlitReceive_keepsMem (dt k : Nat) (f : WireFlit) (ok : Bool) (p : Package) : p.KeepsMem (idleFlitReceive dt k f ok p) := by
  unfold idleFlitReceive
  extract_lets q
  have hq : p.KeepsMem q := (KeepsMem.refl p).pass
  clear_value q
  exact hq.trans (.ite {} (.ite (.modPort (.bump64 {})) {}))

theorem alignReceive_keepsMem (dt k : Nat) (f : WireFlit) (ok : Bool) (p : Package) : p.KeepsMem (alignReceive dt k f ok p) := by
  have hidle := idleFlitReceive_keepsMem dt k f ok p
  exact hidle.modPort

theorem flitSend_keepsMem (dt k : Nat) (p : Package) : p.KeepsMem (flitSend dt k p) := by
  unfold flitSend
  extract_lets q l
  have hq : p.KeepsMem q := (KeepsMem.refl p).pass
  clear_value q
  refine hq.trans (.ite {} (.ite {} (.ite {} (.ite {} (.ite {} ?_)))))
  split <;> exact {}

theorem vcStuck_keepsMem (dt k v : Nat) (p : Package) : p.KeepsMem (vcStuck dt k v p) := by
  unfold vcStuck
  extract_lets q l c
  have hq : p.KeepsMem q := (KeepsMem.refl p).pass
  clear_value q
  exact hq.trans (.ite (.raise {}) {})

/-! #### The fabric, the Gate and the bridge -/

theorem heartbeatSend_keepsMem (dt d : Nat) (p : Package) : p.KeepsMem (heartbeatSend dt d p) := by
  unfold heartbeatSend
  extract_lets q bad live beaten
  have hq : p.KeepsMem q := (KeepsMem.refl p).pass
  clear_value q
  have hbeaten : q.KeepsMem beaten := {}
  exact hq.trans (.ite {} (hbeaten.each fun r _ => (KeepsMem.refl r).degrade))

theorem shroudTrainingDone_keepsMem (dt j a b : Nat) (p : Package) : p.KeepsMem (shroudTrainingDone dt j a b p) := by
  unfold shroudTrainingDone
  extract_lets q st x m sides
  have hq : p.KeepsMem q := (KeepsMem.refl p).pass
  clear_value q
  have hset : ∀ x, q.KeepsMem (q.setShroud j x) := fun _ => {}
  exact hq.trans (.ite {} (hset _).put)

theorem widthBeaconSend_keepsMem (dt j : Nat) (p : Package) : p.KeepsMem (widthBeaconSend dt j p) := by
  unfold widthBeaconSend
  extract_lets q
  have hq : p.KeepsMem q := (KeepsMem.refl p).pass
  clear_value q
  exact hq.trans (.ite {} {})

theorem widthBeaconReceive_keepsMem (dt j : Nat) (p : Package) : p.KeepsMem (widthBeaconReceive dt j p) := by
  unfold widthBeaconReceive
  extract_lets q x taken hist n
  have hq : p.KeepsMem q := (KeepsMem.refl p).pass
  clear_value q
  refine hq.trans ?_
  split
  · exact {}
  next a b _ =>
    refine .ite {} ?_
    extract_lets right agreed counted shown noted
    have htaken : q.KeepsMem taken := {}
    have hnoted : q.KeepsMem noted := htaken.bump64.agree.put.modShroud.report
    exact .ite htaken (.ite (.ite htaken.agree.degrade htaken.agree) (.ite hnoted.degrade (.ite hnoted.degrade hnoted.modShroud.retrainShroud)))

theorem shroudRetrain_keepsMem (j : Nat) (p : Package) : p.KeepsMem (shroudRetrain j p) := by
  unfold shroudRetrain
  exact .ite (KeepsMem.refl p).retrainShroud {}

theorem shroudRestore_keepsMem (j : Nat) (p : Package) : p.KeepsMem (shroudRestore j p) := by
  have hset : p.KeepsMem (p.setShroud j {}) := {}
  unfold shroudRestore
  exact .ite {} hset.agree.put.put.setBit.put

theorem guestTraining_keepsMem (dt vendor device : Nat) (m : List Byte) (p : Package) : p.KeepsMem (guestTraining dt vendor device m p) := by
  unfold guestTraining
  extract_lets q known b
  have hq : p.KeepsMem q := (KeepsMem.refl p).pass
  clear_value q
  have hknown : q.KeepsMem known := {}
  exact hq.trans (.ite {} (.ite hknown.put hknown.closeSite))

theorem hostTimeout_keepsMem (dt : Nat) (p : Package) : p.KeepsMem (hostTimeout dt p) := by
  unfold hostTimeout
  extract_lets q late left
  have hq : p.KeepsMem q := (KeepsMem.refl p).pass
  clear_value q
  have hleft : q.KeepsMem left := {}
  exact hq.trans (hleft.each fun r _ => (KeepsMem.refl r).toHost.bump64)

theorem eventRecordSend_keepsMem (dt : Nat) (p : Package) : p.KeepsMem (eventRecordSend dt p) := by
  unfold eventRecordSend
  extract_lets q
  have hq : p.KeepsMem q := (KeepsMem.refl p).pass
  clear_value q
  refine hq.trans ?_
  split
  · exact {}
  refine .ite {} ?_
  extract_lets r taken n m sent
  have htaken : q.KeepsMem taken := {}
  have hsent : q.KeepsMem sent := .ite htaken.eventToHost htaken.sendRoute
  exact hsent.raiseLost.evtStatus

/-! #### Transactions, error logs, security and the rings -/

theorem txnBegin_keepsMem (req v : Nat) (p : Package) : p.KeepsMem (txnBegin req v p) := by
  unfold txnBegin
  extract_lets opened
  have hopened : p.KeepsMem opened := {}
  exact .ite {} hopened.clearTxnBit.put.put.put

theorem txnRollback_keepsMem (p : Package) : p.KeepsMem (txnRollback p) := by
  unfold txnRollback
  exact .ite (.endTxn {}) (.ite {} {})

theorem txnTimeout_keepsMem (dt : Nat) (p : Package) : p.KeepsMem (txnTimeout dt p) := by
  unfold txnTimeout
  extract_lets q
  have hq : p.KeepsMem q := (KeepsMem.refl p).pass
  clear_value q
  exact hq.trans (.ite (.raise (.endTxn {})) {})

theorem irqForceWrite_keepsMem (page v : Nat) (p : Package) : p.KeepsMem (irqForceWrite page v p) := by
  unfold irqForceWrite
  split
  · exact .ite {} (.each {} fun r _ => (KeepsMem.refl r).event)
  · exact {}

theorem errInject_keepsMem (d v : Nat) (p : Package) : p.KeepsMem (errInject d v p) := by
  unfold errInject
  extract_lets cls cause
  exact .ite {} (.ite (.reportFatal {}) (.report {}))

theorem hubFatal_keepsMem (dt cause : Nat) (p : Package) : p.KeepsMem (hubFatal dt cause p) := by
  have hpass : p.KeepsMem (p.pass dt) := (KeepsMem.refl p).pass
  unfold hubFatal
  exact hpass.reportFatal

theorem newNonce_keepsMem (p : Package) : p.KeepsMem (newNonce p) := by
  have hdrawn : p.KeepsMem (p.each (List.range 4) (fun p w => let x := p.draw; x.2.wr (SEC_NONCE w) x.1.toNat)) := .each {} fun _ _ => {}
  unfold newNonce
  exact .ite {} hdrawn.modSec

theorem extendSoftware_keepsMem (p : Package) : p.KeepsMem (extendSoftware p) := by
  unfold extendSoftware
  exact .ite (.extendMr {}) {}

theorem arbAdvance_keepsMem (v : Nat) (p : Package) : p.KeepsMem (arbAdvance v p) := by
  unfold arbAdvance
  extract_lets c n
  exact .ite {} (.ite {} {})

theorem arbBurnDone_keepsMem (dt : Nat) (part : Part) (p : Package) : p.KeepsMem (arbBurnDone dt part p).2 := by
  unfold arbBurnDone
  extract_lets q
  have hq : p.KeepsMem q := (KeepsMem.refl p).pass
  clear_value q
  refine hq.trans ?_
  split
  · exact {}
  next c n rest _ =>
    have hshown : q.KeepsMem (q.showArb (part.burnTo c n)) := .each {} fun r _ => (KeepsMem.refl r).put
    exact hshown.put.modSec.raise

theorem testPortEdge_keepsMem (rising tms tdi trstN : Bool) (p : Package) : p.KeepsMem (testPortEdge rising tms tdi trstN p) := by
  unfold testPortEdge Package.tapRise Package.tapFall
  refine .ite {} (.ite ?rise ?fall)
  case rise =>
    dsimp only
    split <;> exact .ite {} {}
  case fall =>
    dsimp only
    split
    · exact {}
    · split <;> exact {}
    · exact {}
    · exact {}

theorem stackThermal_keepsMem (dt k temp : Nat) (p : Package) : p.KeepsMem (stackThermal dt k temp p) := by
  unfold stackThermal
  extract_lets q was cap shown
  have hq : p.KeepsMem q := (KeepsMem.refl p).pass
  clear_value q
  have hshown : q.KeepsMem shown := (KeepsMem.refl q).put.put.put
  clear_value shown
  exact hq.trans (.ite {} (.ite hshown.raise hshown))

theorem ringDoorbell_keepsMem (d v : Nat) (p : Package) : p.KeepsMem (ringDoorbell d v p) := by
  unfold ringDoorbell
  extract_lets moved
  have hmoved : p.KeepsMem moved := (KeepsMem.refl p).modRing
  clear_value moved
  exact .ite {} (.ite hmoved.haltRing hmoved)

theorem ringNop_keepsMem (dt d tag : Nat) (p : Package) : p.KeepsMem (ringNop dt d tag p) := by
  have hpass : p.KeepsMem (p.pass dt) := (KeepsMem.refl p).pass
  unfold ringNop startClass
  split
  · exact hpass
  · exact hpass.begun.cmdDone

theorem bridgeActivate_keepsMem (active : Bool) (p : Package) : p.KeepsMem (bridgeActivate active p) :=
  (KeepsMem.refl p).put.put.put.put

theorem errLogHead_keepsMem (d v : Nat) (p : Package) : p.KeepsMem (errLogHead d v p) := by
  have hstatus : ∀ l v, p.KeepsMem (((p.setErrLog d l).wr (ERR_LOG_HEAD d) v).errStatus d) := fun l _ =>
    have hset : p.KeepsMem (p.setErrLog d l) := {}
    hset.wr.put.put.put
  unfold errLogHead
  extract_lets head n gone l l'
  exact .ite {} (hstatus _ _)

theorem errFatalClear_keepsMem (d : Nat) (p : Package) : p.KeepsMem (errFatalClear d p) := by
  have hstatus : ∀ l, p.KeepsMem ((p.setErrLog d l).errStatus d) := fun l =>
    have hset : p.KeepsMem (p.setErrLog d l) := {}
    hset.put.put.put
  unfold errFatalClear
  exact .ite {} (hstatus _)

theorem ringResume_keepsMem (d : Nat) (p : Package) : p.KeepsMem (ringResume d p) := by
  unfold ringResume
  exact .ite {} (KeepsMem.refl p).put.put

theorem ringReset_keepsMem (d : Nat) (p : Package) : p.KeepsMem (ringReset d p) := by
  unfold ringReset
  exact .ite {} (KeepsMem.refl p).modRing.wr.wr.wr

theorem guestLinkLoss_keepsMem (dt : Nat) (p : Package) : p.KeepsMem ((p.pass dt).closeSite GC_LINK) := (KeepsMem.refl p).pass.closeSite

theorem txnCommit_keepsMem (req : Nat) (p : Package) : p.KeepsMem (txnCommit req p) := by
  unfold txnCommit
  exact .ite {} {}

theorem reportHoldExpiry_keepsMem (dt : Nat) (p : Package) : p.KeepsMem (reportHoldExpiry dt p) := by
  unfold reportHoldExpiry
  exact (KeepsMem.refl p).pass.modSec

/-- Settles O57, command by command. -/
theorem memoryFrame : Obligations.MemoryFrame := by
  intro c s t hc hstep
  suffices h : s.pkg.KeepsMem t.pkg from ⟨fun x => congrArg (memByte · x) h.mem, h.poison⟩
  cases c <;> first | exact absurd hc Bool.false_ne_true | cases hstep
  case tickNotice => exact tickNotice_keepsMem ..
  case rejoin => exact {}
  case secondPulse => exact secondPulse_keepsMem ..
  case periodChange => exact periodChange_keepsMem ..
  case electionTimeout => exact electionTimeout_keepsMem ..
  case acquireTimeout => exact acquireTimeout_keepsMem ..
  case delayRequestSend => exact delayRequestSend_keepsMem ..
  case delayRequestReceive => exact delayRequestReceive_keepsMem _ _ 0 _
  case creditReceive => exact creditReceive_keepsMem ..
  case dataFlitReceive => exact dataFlitReceive_keepsMem ..
  case idleFlitReceive => exact idleFlitReceive_keepsMem ..
  case alignReceive => exact alignReceive_keepsMem ..
  case flitSend => exact flitSend_keepsMem ..
  case vcStuck => exact vcStuck_keepsMem ..
  case heartbeatSend => exact heartbeatSend_keepsMem ..
  case shroudTrainingDone => exact shroudTrainingDone_keepsMem ..
  case widthBeaconSend => exact widthBeaconSend_keepsMem ..
  case widthBeaconReceive => exact widthBeaconReceive_keepsMem ..
  case shroudRetrain => exact shroudRetrain_keepsMem ..
  case shroudRestore => exact shroudRestore_keepsMem ..
  case guestTrainingDone => exact guestTraining_keepsMem ..
  case gateClose => exact (KeepsMem.refl _).closeSite
  case guestLinkLoss => exact guestLinkLoss_keepsMem ..
  case bridgeActivate => exact bridgeActivate_keepsMem ..
  case hostRequestTimeout => exact hostTimeout_keepsMem ..
  case eventRecordSend => exact eventRecordSend_keepsMem ..
  case txnBegin => exact txnBegin_keepsMem ..
  case txnCommit => exact txnCommit_keepsMem ..
  case txnRollback => exact txnRollback_keepsMem ..
  case txnTimeout => exact txnTimeout_keepsMem ..
  case irqForce => exact irqForceWrite_keepsMem ..
  case errLogHeadWrite => exact errLogHead_keepsMem ..
  case errFatalClear => exact errFatalClear_keepsMem ..
  case errInject => exact errInject_keepsMem ..
  case hubFatal => exact hubFatal_keepsMem ..
  case newNonce => exact newNonce_keepsMem ..
  case extend => exact extendSoftware_keepsMem ..
  case arbAdvance => exact arbAdvance_keepsMem ..
  case arbBurnDone => exact arbBurnDone_keepsMem ..
  case reportHoldExpiry => exact reportHoldExpiry_keepsMem ..
  case testPortTck => exact testPortEdge_keepsMem ..
  case snapCadEpoch => exact {}
  case snapFailNote => exact {}
  case stackThermal => exact stackThermal_keepsMem ..
  case ringDoorbell => exact ringDoorbell_keepsMem ..
  case ringNop => exact ringNop_keepsMem ..
  case ringResume => exact ringResume_keepsMem ..
  case ringReset => exact ringReset_keepsMem ..

end Sys2Proof.Machine

/-! ### Stores (R221, R222, R226, R251)

Addresses nearer than one stack's size name distinct bytes, so a range that is stored reads back. A store writes memory, poison and the counters of
bytes moved, and nothing else. -/

namespace Sys2Proof.Machine

theorem physOf_isSome_iff (a : Nat) : (physOf a).isSome = true ↔ a < 2 ^ 42 := by
  unfold physOf
  split
  · exact ⟨fun _ => by omega, fun _ => rfl⟩
  split
  · exact ⟨fun _ => by assumption, fun _ => rfl⟩
  · exact ⟨fun h => absurd h Bool.false_ne_true, fun h => absurd h (by assumption)⟩

/-- The last 2^36 addresses of the die-interleaved view lie in die 7, the first 2^36 of the stack-direct view in stack 0. -/
theorem physOf_views_apart {a b x : Nat} (ha : a < 2 ^ 41) (hb : 2 ^ 41 ≤ b) (hnear : b < a + 2 ^ 36) (hx : physOf a = some x) : physOf b ≠ some x := by
  intro hbx
  have hdirect : b = 2 ^ 41 + x := eq_direct_of_physOf hb hbx
  have hdie : x = (4 * (a / 2 ^ 38) + a / 2 ^ 8 % 4) * 2 ^ 36 + a / 2 ^ 10 % 2 ^ 28 * 2 ^ 8 + a % 2 ^ 8 := eq_fields_of_physOf ha hx
  omega

theorem physOf_inj_near {a b x : Nat} (hab : a ≤ b) (hnear : b < a + 2 ^ 36) (ha : physOf a = some x) (hb : physOf b = some x) : a = b := by
  by_cases ha' : a < 2 ^ 41
  · by_cases hb' : b < 2 ^ 41
    · exact (interleavedAddr_of_physOf ha' ha).symm.trans (interleavedAddr_of_physOf hb' hb)
    · exact absurd hb (physOf_views_apart ha' (Nat.le_of_not_lt hb') hnear ha)
  · have ha'' : 2 ^ 41 ≤ a := Nat.le_of_not_lt ha'
    exact (eq_direct_of_physOf ha'' ha).trans (eq_direct_of_physOf (Nat.le_trans ha'' hab) hb).symm

/-- A byte of the range reads back as the one stored. -/
theorem memByte_storeBytes_at {m : List Host.Cell} {a i x : Nat} {bs : List Byte} (hlen : bs.length ≤ 2 ^ 36) (hi : i < bs.length)
    (hx : physOf (a + i) = some x) : memByte (storeBytes m a bs) x = bs[i] := by
  induction bs generalizing m a i with
  | nil => exact absurd hi (Nat.not_lt_zero i)
  | cons b r ih =>
    rw [List.length_cons] at hlen hi
    unfold storeBytes
    cases i with
    | zero =>
      rw [Nat.add_zero] at hx
      have hlater : ∀ j, j < r.length → physOf (a + 1 + j) ≠ some x := fun j hj hjx => by
        have h := physOf_inj_near (by omega) (by omega) hx hjx
        omega
      rw [hx]
      exact (memByte_storeBytes_other _ _ _ hlater).trans (memByte_memPut_same m x b)
    | succ n =>
      have hx' : physOf (a + 1 + n) = some x := by rwa [Nat.add_right_comm, Nat.add_assoc]
      split <;> exact ih (by omega) (Nat.lt_of_succ_lt_succ hi) hx'

theorem Package.bytesAt_of_stored {q : Package} {m : List Host.Cell} {a : Nat} {bs : List Byte} (hmem : q.mem = storeBytes m a bs)
    (hlen : bs.length ≤ 2 ^ 36) (hreach : ∀ i, i < bs.length → (physOf (a + i)).isSome = true) : q.bytesAt a bs.length = bs := by
  refine List.ext_getElem (by simp [Package.bytesAt, addrs]) fun i hi hi' => ?_
  obtain ⟨x, hx⟩ := Option.isSome_iff_exists.mp (hreach i hi')
  simp only [Package.bytesAt, addrs, List.getElem_map, List.getElem_range, hx, hmem]
  exact memByte_storeBytes_at hlen hi' hx

/-- Where the last byte of a range is reachable, each byte has a physical place. -/
theorem Package.rangeOk_physOf {p : Package} {a n i : Nat} (h : p.rangeOk a n = true) (hi : i < n) : (physOf (a + i)).isSome = true := by
  have hn : ¬ n = 0 := by omega
  simp only [Package.rangeOk, hn, decide_false, Bool.false_or, Bool.and_eq_true] at h
  obtain ⟨⟨-, hlast⟩, -⟩ := h
  have hsome : (physOf (a + n - 1)).isSome = true := by
    unfold Package.memOk at hlast
    split at hlast
    · exact absurd hlast Bool.false_ne_true
    · next hx => exact hx ▸ rfl
  rw [physOf_isSome_iff] at hsome ⊢
  omega

/-- Reachability is a matter of the variant and of the fenced dies. -/
theorem Package.rangeOk_congr {p q : Package} (hv : q.variant = p.variant) (hs : q.rd FAB_STATUS = p.rd FAB_STATUS) (a n : Nat) :
    q.rangeOk a n = p.rangeOk a n := by
  have hmask : q.get FAB_STATUS_DIE_MASK = p.get FAB_STATUS_DIE_MASK := congrArg (bitsOf · _ _) hs
  have hmem : ∀ a, q.memOk a = p.memOk a := fun a => by
    simp only [Package.memOk, Package.stackFitted, Package.dieFenced, hv, hmask]
  simp only [Package.rangeOk, hmem]

@[simp] theorem Package.pass_rangeOk (p : Package) (dt a n : Nat) : (p.pass dt).rangeOk a n = p.rangeOk a n :=
  Package.rangeOk_congr (p.pass_variant dt) (p.pass_rd dt FAB_STATUS) a n

theorem Package.load_congr {p q : Package} (hm : q.mem = p.mem) (hp : q.poison = p.poison) (hv : q.variant = p.variant)
    (hs : q.rd FAB_STATUS = p.rd FAB_STATUS) (a n : Nat) : q.load a n = p.load a n := by
  simp only [Package.load, Package.rangeOk_congr hv hs, Package.rangePoisoned, Package.poisoned, Package.bytesAt, hm, hp] <;> rfl

@[simp] theorem Package.pass_load (p : Package) (dt a n : Nat) : (p.pass dt).load a n = p.load a n :=
  Package.load_congr (p.pass_mem dt) (p.pass_poison dt) (p.pass_variant dt) (p.pass_rd dt FAB_STATUS) a n

/-! #### What a store changes beside memory -/

/-- A package with other registers, memory and poison. -/
def Package.withStore (p : Package) (r : List (Nat × Word)) (m : List Host.Cell) (l : List Nat) : Package := { p with regs := r, mem := m, poison := l }

/-- Only registers differ. -/
def Package.RegsOnly (p q : Package) : Prop := ∃ r, q = { p with regs := r }

theorem Package.RegsOnly.refl (p : Package) : p.RegsOnly p := ⟨p.regs, rfl⟩

theorem Package.RegsOnly.trans {p q r : Package} (h : p.RegsOnly q) (k : q.RegsOnly r) : p.RegsOnly r := by
  obtain ⟨a, rfl⟩ := h
  obtain ⟨b, rfl⟩ := k
  exact ⟨b, rfl⟩

theorem Package.regsOnly_wr (p : Package) (a v : Nat) : p.RegsOnly (p.wr a v) := ⟨(p.wr a v).regs, rfl⟩

theorem Package.regsOnly_bump64 (p : Package) (a n : Nat) : p.RegsOnly (p.bump64 a n) := p.regsOnly_wr a _

theorem Package.regsOnly_each {α : Type} (p : Package) (l : List α) {f : Package → α → Package} (hf : ∀ (q : Package) e, q.RegsOnly (f q e)) :
    p.RegsOnly (p.each l f) :=
  Package.each_keeps p.RegsOnly f (fun q e h => h.trans (hf q e)) p l (.refl p)

theorem Package.regsOnly_countBytes (p : Package) (reg : Nat → Nat) (a n : Nat) : p.RegsOnly (p.countBytes reg a n) :=
  p.regsOnly_each _ fun q _ => q.regsOnly_bump64 _ _

theorem Package.regsOnly_countStays (p : Package) (die a n : Nat) : p.RegsOnly (p.countStays die a n) := by
  refine p.regsOnly_each _ fun q _ => ?_
  split
  · exact q.regsOnly_bump64 _ _
  · exact .refl q

theorem Package.regsOnly_countReadBy (p : Package) (die a n : Nat) : p.RegsOnly (p.countReadBy die a n) :=
  (p.regsOnly_countBytes _ a n).trans (Package.regsOnly_countStays _ die a n)

/-- The poisoned lines that a store leaves. -/
def Package.poisonAfter (p : Package) (a n : Nat) : List Nat :=
  if p.poison.isEmpty then [] else p.poison.filter (fun l => !(wholeLines a n).contains l)

theorem Package.store_shape (p : Package) (a : Nat) (bs : List Byte) :
    ∃ r, p.store a bs = p.withStore r (storeBytes p.mem a bs) (p.poisonAfter a bs.length) :=
  Package.regsOnly_countBytes _ MEM_WRITE_BYTES a bs.length

theorem Package.storeBy_shape (p : Package) (die a : Nat) (bs : List Byte) :
    ∃ r, p.storeBy die a bs = p.withStore r (storeBytes p.mem a bs) (p.poisonAfter a bs.length) := by
  obtain ⟨r, h⟩ := p.store_shape a bs
  obtain ⟨r', h'⟩ := (p.store a bs).regsOnly_countStays die a bs.length
  exact ⟨r', by rw [Package.storeBy, h', h]; rfl⟩

@[simp] theorem Package.store_poison (p : Package) (a : Nat) (bs : List Byte) : (p.store a bs).poison = p.poisonAfter a bs.length := by
  obtain ⟨r, h⟩ := p.store_shape a bs; rw [h]; rfl
@[simp] theorem Package.storeBy_mem (p : Package) (die a : Nat) (bs : List Byte) : (p.storeBy die a bs).mem = storeBytes p.mem a bs := by
  obtain ⟨r, h⟩ := p.storeBy_shape die a bs; rw [h]; rfl

theorem Package.countBytes_rd (p : Package) {reg : Nat → Nat} {b : Nat} (a n : Nat) (h : ∀ k, reg k ≠ b) : (p.countBytes reg a n).rd b = p.rd b :=
  Package.each_keeps (fun q => q.rd b = p.rd b) _ (fun q e hq => (q.rd_bump64_ne e.2 (h e.1)).trans hq) p _ rfl

theorem Package.countStays_rd (p : Package) {b : Nat} (die a n : Nat) (h : FAB_STAY_BYTES ≠ b) : (p.countStays die a n).rd b = p.rd b := by
  refine Package.each_keeps (fun q => q.rd b = p.rd b) _ (fun q e hq => ?_) p _ rfl
  split
  · exact (q.rd_bump64_ne e.2 h).trans hq
  · exact hq

/-- A store counts its bytes, and writes no other register. -/
theorem Package.storeBy_rd (p : Package) {b : Nat} (die a : Nat) (bs : List Byte) (h : ∀ k, MEM_WRITE_BYTES k ≠ b) (hstay : FAB_STAY_BYTES ≠ b) :
    (p.storeBy die a bs).rd b = p.rd b :=
  (Package.countStays_rd _ die a bs.length hstay).trans (Package.countBytes_rd _ a bs.length h)

theorem Package.mem_poisonAfter_iff (p : Package) (a n l : Nat) : l ∈ p.poisonAfter a n ↔ l ∈ p.poison ∧ l ∉ wholeLines a n := by
  unfold Package.poisonAfter
  split
  · next h => simp [List.isEmpty_iff.mp h]
  · simp

/-- Settles O20: what is stored reads back, whole lines lose their poison, and all else stays. -/
theorem storesReadBack : Obligations.StoresReadBack := by
  unfold Obligations.StoresReadBack
  refine ⟨?readBack, ?other, ?canonical, ?cleaned, ?kept, ?refused⟩
  case readBack => exact fun p a bs hlen hreach => Package.bytesAt_of_stored (p.store_mem a bs) hlen hreach
  case other =>
    intro p a bs y hy
    rw [Package.store_mem]
    exact memByte_storeBytes_other a bs y hy
  case canonical => exact fun p a bs h => p.memWf_store a bs h
  case cleaned =>
    intro p a l bs hl hp
    rw [Package.store_poison, Package.mem_poisonAfter_iff] at hp
    exact hp.2 hl
  case kept =>
    intro p a l bs hl
    rw [Package.store_poison, Package.mem_poisonAfter_iff]
    exact and_iff_left hl
  case refused =>
    intro p a bs h
    rw [Package.tryStore, h]
    rfl

end Sys2Proof.Machine

/-! ### A micro-batch lands (R54, R55, R57) -/

namespace Sys2Proof.Machine

theorem Desc.toBytes_length (d : Desc) : d.toBytes.length = 64 := by
  simp only [Desc.toBytes, List.length_append, leBytes_length]

theorem Package.queue_pass (p : Package) (dt s : Nat) (d : Dir) : (p.pass dt).queue s d = p.queue s d := by
  obtain ⟨q, ⟨-, hstg⟩, hq⟩ := p.pass_shape dt
  obtain ⟨a, i, o, hs⟩ := hstg s
  have hpass : (p.pass dt).stg s = (p.stg s).withAccts a i o := by
    obtain ⟨h, -⟩ | h := hq
    · rw [h, hs]
    · rw [h]
      exact hs
  cases d <;> rw [Package.queue, Package.queue, hpass] <;> rfl

@[simp] theorem Package.queue_setQueue (p : Package) (s : Nat) (d : Dir) (x : Queue) : (p.setQueue s d x).queue s d = x := by
  cases d <;> simp [Package.setQueue, Package.queue, Package.stg, Package.wr] <;>
    exact congrArg _ (Package.stg_setStg p s _)

@[simp] theorem Package.setQueue_mem (p : Package) (s : Nat) (d : Dir) (x : Queue) : (p.setQueue s d x).mem = p.mem := by cases d <;> rfl

/-- The settings of a queue are in the registers of its stage's page. -/
theorem Package.qDepth_congr {p q : Package} {s : Nat} (h : ∀ a, a / 0x1000 = 0x10 + s → q.rd a = p.rd a) (d : Dir) : q.qDepth s d = p.qDepth s d := by
  cases d
  · exact congrArg (bitsOf · 0 7) (h (STG_FQ_CFG s) (by unfold STG_FQ_CFG; omega))
  · exact congrArg (bitsOf · 0 7) (h (STG_BQ_CFG s) (by unfold STG_BQ_CFG; omega))

theorem Package.storeBy_qDepth (p : Package) (die a : Nat) (bs : List Byte) {s : Nat} (hs : s < 32) (d : Dir) :
    (p.storeBy die a bs).qDepth s d = p.qDepth s d :=
  Package.qDepth_congr (fun r hr => p.storeBy_rd die a bs (fun k => by unfold MEM_WRITE_BYTES; omega) (by unfold FAB_STAY_BYTES; omega)) d

theorem Package.qSlotAddr_congr {p q : Package} (h : ∀ a, q.rd a = p.rd a) (s : Nat) (d : Dir) (i : Nat) : q.qSlotAddr s d i = p.qSlotAddr s d i := by
  unfold Package.qSlotAddr
  cases d <;> simp only [Package.qPbase, Package.qUnits, Package.get, h]

theorem Package.qDescAddr_congr {p q : Package} (h : ∀ a, q.rd a = p.rd a) (s : Nat) (d : Dir) (i : Nat) : q.qDescAddr s d i = p.qDescAddr s d i := by
  unfold Package.qDescAddr
  cases d <;> simp only [Package.qBase, h]

/-- An output that its queue takes: what R55 asks of the sender, the room, the payload and the places it goes to. -/
structure Package.Takes (p : Package) (o : Output) : Prop where
  sender : (p.queue o.stage o.dir).sender = some o.src
  room : (p.queue o.stage o.dir).entries.length < p.qDepth o.stage o.dir
  payload : p.payloadOk o = true
  slot : p.rangeOk (p.qSlotAddr o.stage o.dir (p.queue o.stage o.dir).tail) o.bytes = true
  desc : p.rangeOk (p.qDescAddr o.stage o.dir (p.queue o.stage o.dir).tail) 64 = true

theorem Package.Takes.fits {p : Package} {o : Output} (h : p.Takes o) : o.bytes ≤ p.qUnits o.stage o.dir * 4096 ∧ o.data.length = o.bytes := by
  have hp := h.payload
  simp only [Package.payloadOk, Bool.and_eq_true, decide_eq_true_eq] at hp
  exact ⟨hp.1.1.2, hp.2⟩

theorem Package.Takes.congr {p q : Package} {o : Output} (h : p.Takes o) (hqueue : q.queue o.stage o.dir = p.queue o.stage o.dir)
    (hvariant : q.variant = p.variant) (hrd : ∀ a, q.rd a = p.rd a) : q.Takes o := by
  have hget : ∀ f, q.get f = p.get f := fun f => congrArg (bitsOf · f.lo f.len) (hrd f.addr)
  have hdepth : q.qDepth o.stage o.dir = p.qDepth o.stage o.dir := Package.qDepth_congr (fun a _ => hrd a) o.dir
  have hunits : q.qUnits o.stage o.dir = p.qUnits o.stage o.dir := by cases o.dir <;> simp only [Package.qUnits, hget]
  have hreach := Package.rangeOk_congr hvariant (hrd FAB_STATUS)
  exact
    { sender := by rw [hqueue]; exact h.sender
      room := by rw [hqueue, hdepth]; exact h.room
      payload := by rw [Package.payloadOk, hunits]; exact h.payload
      slot := by rw [hqueue, Package.qSlotAddr_congr hrd, hreach]; exact h.slot
      desc := by rw [hqueue, Package.qDescAddr_congr hrd, hreach]; exact h.desc }

/-- What landing does to an output that the queue takes: the payload and the descriptor are stored, and the tail entry is valid. -/
theorem Package.land_taken {p : Package} {o : Output} (h : p.Takes o) : ∃ (die : Nat) (d : Desc) (q : Package),
    q = (p.storeBy die (p.qSlotAddr o.stage o.dir (p.queue o.stage o.dir).tail) o.data).storeBy die
        (p.qDescAddr o.stage o.dir (p.queue o.stage o.dir).tail) d.toBytes
      ∧ p.land o = q.setQueue o.stage o.dir { p.queue o.stage o.dir with
          entries := (p.queue o.stage o.dir).entries ++ [((p.queue o.stage o.dir).tail, .valid)]
          tail := ((p.queue o.stage o.dir).tail + 1) % max 1 (q.qDepth o.stage o.dir) } := by
  obtain ⟨hroom, hdata⟩ := h.fits
  have hrefused : ¬ ((p.queue o.stage o.dir).sender ≠ some o.src || p.qDepth o.stage o.dir ≤ (p.queue o.stage o.dir).entries.length) = true := by
    have := h.room
    simp [h.sender, this]
  unfold Package.land
  dsimp only
  rw [if_neg hrefused, Nat.min_eq_left hroom, h.slot, h.desc, h.payload, List.take_of_length_le (Nat.le_trans (Nat.le_of_eq hdata) hroom)]
  exact ⟨_, _, _, rfl, rfl⟩

/-- Settles O5: a taken output stores its payload and its descriptor, and becomes the queue's last entry. -/
theorem microBatchLands : Obligations.MicroBatchLands := by
  intro s dt o hstage hsender hroom hpayload hslot hdesc
  have hbefore : s.pkg.Takes o := ⟨hsender, hroom, hpayload, hslot, hdesc⟩
  generalize hp : (s.pkg.pass dt).arrived (.output o) = p
  have hqueue : p.queue o.stage o.dir = s.pkg.queue o.stage o.dir := by
    rw [← hp]
    exact s.pkg.queue_pass dt o.stage o.dir
  have hrd : ∀ a, p.rd a = s.pkg.rd a := fun a => by
    rw [← hp]
    exact s.pkg.pass_rd dt a
  have hmem : p.mem = s.pkg.mem := by
    rw [← hp]
    exact s.pkg.pass_mem dt
  have htakes : p.Takes o := hbefore.congr hqueue (by rw [← hp]; exact s.pkg.pass_variant dt) hrd
  obtain ⟨die, d, q, hq, hland⟩ := Package.land_taken htakes
  have hdepth : q.qDepth o.stage o.dir = s.pkg.qDepth o.stage o.dir := by
    rw [hq, Package.storeBy_qDepth _ _ _ _ hstage, Package.storeBy_qDepth _ _ _ _ hstage]
    exact Package.qDepth_congr (fun a _ => hrd a) o.dir
  refine ⟨{ s with pkg := p.land o }, ?_, ?_⟩
  · rw [← hp]
    rfl
  dsimp only
  rw [hland, Package.queue_setQueue, hqueue, hdepth]
  refine ⟨rfl, rfl, fun y hy hy' => ?_⟩
  rw [Package.setQueue_mem, hq, hqueue, Package.qSlotAddr_congr hrd, Package.qDescAddr_congr hrd, Package.storeBy_mem, Package.storeBy_mem, hmem,
    memByte_storeBytes_other _ _ y (by rw [Desc.toBytes_length]; exact hy'), memByte_storeBytes_other _ _ y (by rw [htakes.fits.2]; exact hy)]

end Sys2Proof.Machine

/-! ### Element-wise vector commands (R107, R120) and the local memories

A local memory is a map of bytes, a slot's bytes are the fields of its elements: in each a write reads back and leaves the other bytes alone. -/

namespace Sys2Proof.Machine

/-! #### Operand and cluster SRAM -/

theorem mapGet_putCells_other {m : List Host.Cell} {a x : Nat} {bs : List Byte} (h : x < a ∨ a + bs.length ≤ x) :
    mapGet memDefault (putCells m a bs) x = mapGet memDefault m x := by
  induction bs generalizing m a with
  | nil => rfl
  | cons b r ih =>
    rw [List.length_cons] at h
    rw [putCells, ih (by omega), mapGet_mapSet_ne _ _ _ (by omega)]

theorem mapGet_putCells_at {m : List Host.Cell} {a i : Nat} {bs : List Byte} (h : i < bs.length) :
    mapGet memDefault (putCells m a bs) (a + i) = bs[i] := by
  induction bs generalizing m a i with
  | nil => exact absurd h (Nat.not_lt_zero i)
  | cons b r ih =>
    rw [putCells]
    cases i with
    | zero => exact (mapGet_putCells_other (.inl (Nat.lt_succ_self a))).trans (mapGet_mapSet_same _ _ _ _)
    | succ n =>
      rw [show a + (n + 1) = a + 1 + n by omega]
      exact ih (Nat.lt_of_succ_lt_succ h)

theorem cellsAt_putCells (m : List Host.Cell) (a : Nat) (bs : List Byte) : cellsAt (putCells m a bs) a bs.length = bs := by
  refine List.ext_getElem (by simp [cellsAt, addrs]) fun i hi hi' => ?_
  simp only [cellsAt, addrs, List.getElem_map, List.getElem_range]
  exact mapGet_putCells_at hi'

theorem cellsAt_putCells_other {m : List Host.Cell} {a x : Nat} {bs : List Byte} (h : x < a ∨ a + bs.length ≤ x) :
    cellsAt (putCells m a bs) x 1 = cellsAt m x 1 :=
  congrArg (fun b => [b]) (mapGet_putCells_other h)

@[simp] theorem Package.clu_setClu (p : Package) (c : Nat) (x : Cluster) : (p.setClu c x).clu c = x := mapGet_mapSet_same _ _ _ _

theorem Package.opRead_opWrite (p : Package) (c k a b n : Nat) (bs : List Byte) :
    (p.opWrite c k a bs).opRead c k b n = cellsAt (putCells (p.core c k).opMem a bs) b n := by
  rw [Package.opRead, Package.opWrite, Package.core_modCore]

theorem Package.cluRead_cluWrite (p : Package) (c a b n : Nat) (bs : List Byte) :
    (p.cluWrite c a bs).cluRead c b n = cellsAt (putCells (p.clu c).sram a bs) b n := by
  rw [Package.cluRead, Package.cluWrite, Package.modClu, Package.clu_setClu]

/-- What is written to local SRAM reads back. -/
theorem Package.locRead_locWrite (p : Package) (c k : Nat) (cl : Bool) (a : Nat) (bs : List Byte) :
    (p.locWrite c k cl a bs).locRead c k cl a bs.length = bs := by
  cases cl
  · exact (p.opRead_opWrite c k a a bs.length bs).trans (cellsAt_putCells _ a bs)
  · exact (p.cluRead_cluWrite c a a bs.length bs).trans (cellsAt_putCells _ a bs)

theorem Package.locRead_locWrite_other (p : Package) (c k : Nat) (cl : Bool) {a x : Nat} {bs : List Byte} (h : x < a ∨ a + bs.length ≤ x) :
    (p.locWrite c k cl a bs).locRead c k cl x 1 = p.locRead c k cl x 1 := by
  cases cl
  · exact (p.opRead_opWrite c k a x 1 bs).trans (cellsAt_putCells_other h)
  · exact (p.cluRead_cluWrite c a x 1 bs).trans (cellsAt_putCells_other h)

theorem Package.locWrite_mem (p : Package) (c k : Nat) (cl : Bool) (a : Nat) (bs : List Byte) : (p.locWrite c k cl a bs).mem = p.mem := by
  cases cl <;> rfl

/-! #### The accumulator slots as bytes -/

@[simp] theorem Core.slot_setSlot (co : Core) (j : Nat) (s : AccSlot) : (co.setSlot j s).slot j = s := mapGet_mapSet_same _ _ _ _

theorem Core.slot_setSlot_ne (co : Core) {i j : Nat} (s : AccSlot) (h : i ≠ j) : (co.setSlot i s).slot j = co.slot j := mapGet_mapSet_ne _ _ _ h

@[simp] theorem AccSlot.val_put (s : AccSlot) (i v : Nat) : (s.put i v).val i = v := mapGet_mapSet_same _ _ _ _

theorem AccSlot.val_put_ne (s : AccSlot) {i j : Nat} (v : Nat) (h : i ≠ j) : (s.put i v).val j = s.val j := mapGet_mapSet_ne _ _ _ h

/-- The byte of the accumulator slots at a place of their 64 KiB. -/
def Core.slotByte (co : Core) (x : Nat) : Byte := BitVec.ofNat 8 ((co.slot (x / 4096)).val (x % 4096 / 4) / 256 ^ (x % 4))

theorem Core.slotBytes_eq (co : Core) (a n : Nat) : co.slotBytes a n = (addrs a n).map co.slotByte := rfl

/-- A byte of an element is one of its fields. -/
theorem byteOfElem_eq (v j : Nat) : BitVec.ofNat 8 (v / 256 ^ j) = BitVec.ofNat 8 (bitsOf v (8 * j) 8) := by
  have hpow : 256 ^ j = 2 ^ (8 * j) := by rw [Nat.pow_mul]
  apply BitVec.eq_of_toNat_eq
  simp only [BitVec.toNat_ofNat, bitsOf, hpow, Nat.mod_mod]

/-- One byte put into the slots. -/
def Core.putSlotByte (co : Core) (a : Nat) (b : Byte) : Core :=
  co.setSlot (a / 4096) ((co.slot (a / 4096)).put (a % 4096 / 4) (putBits ((co.slot (a / 4096)).val (a % 4096 / 4)) (8 * (a % 4)) 8 b.toNat))

theorem Core.putSlotBytes_cons (co : Core) (a : Nat) (b : Byte) (r : List Byte) :
    co.putSlotBytes a (b :: r) = (co.putSlotByte a b).putSlotBytes (a + 1) r := rfl

theorem Core.slotByte_putSlotByte (co : Core) (a : Nat) (b : Byte) : (co.putSlotByte a b).slotByte a = b := by
  rw [Core.slotByte, byteOfElem_eq, Core.putSlotByte, Core.slot_setSlot, AccSlot.val_put, bitsOf_putBits_same]
  apply BitVec.eq_of_toNat_eq
  have hb : b.toNat < 2 ^ 8 := b.isLt
  rw [BitVec.toNat_ofNat, Nat.mod_mod, Nat.mod_eq_of_lt hb]

theorem Core.slotByte_putSlotByte_ne (co : Core) {a x : Nat} (b : Byte) (h : x ≠ a) : (co.putSlotByte a b).slotByte x = co.slotByte x := by
  unfold Core.slotByte Core.putSlotByte
  by_cases hslot : a / 4096 = x / 4096
  · rw [← hslot, Core.slot_setSlot]
    by_cases helem : a % 4096 / 4 = x % 4096 / 4
    · rw [← helem, AccSlot.val_put, byteOfElem_eq, byteOfElem_eq, bitsOf_putBits_disjoint _ _ _ _ _ _ (by omega)]
    · rw [AccSlot.val_put_ne _ _ helem]
  · rw [Core.slot_setSlot_ne _ _ hslot]

theorem Core.slotByte_putSlotBytes_other {co : Core} {a x : Nat} {bs : List Byte} (h : x < a ∨ a + bs.length ≤ x) :
    (co.putSlotBytes a bs).slotByte x = co.slotByte x := by
  induction bs generalizing co a with
  | nil => rfl
  | cons b r ih =>
    rw [List.length_cons] at h
    rw [Core.putSlotBytes_cons, ih (by omega), Core.slotByte_putSlotByte_ne _ _ (by omega)]

theorem Core.slotByte_putSlotBytes_at {co : Core} {a i : Nat} {bs : List Byte} (h : i < bs.length) : (co.putSlotBytes a bs).slotByte (a + i) = bs[i] := by
  induction bs generalizing co a i with
  | nil => exact absurd h (Nat.not_lt_zero i)
  | cons b r ih =>
    rw [Core.putSlotBytes_cons]
    cases i with
    | zero => exact (Core.slotByte_putSlotBytes_other (.inl (Nat.lt_succ_self a))).trans (co.slotByte_putSlotByte a b)
    | succ n =>
      rw [show a + (n + 1) = a + 1 + n by omega]
      exact ih (Nat.lt_of_succ_lt_succ h)

/-- What is written to the slots reads back. -/
theorem Core.slotBytes_putSlotBytes (co : Core) (a : Nat) (bs : List Byte) : (co.putSlotBytes a bs).slotBytes a bs.length = bs := by
  refine List.ext_getElem (by simp [Core.slotBytes, addrs]) fun i hi hi' => ?_
  simp only [Core.slotBytes_eq, addrs, List.getElem_map, List.getElem_range]
  exact Core.slotByte_putSlotBytes_at hi'

theorem Core.slotBytes_putSlotBytes_other {co : Core} {a x : Nat} {bs : List Byte} (h : x < a ∨ a + bs.length ≤ x) :
    (co.putSlotBytes a bs).slotBytes x 1 = co.slotBytes x 1 :=
  congrArg (fun b => [b]) (Core.slotByte_putSlotBytes_other h)

/-! #### A vector command's destination -/

theorem Package.vWrite_slots {p : Package} {c k i : Nat} {w : CmdWord} {bs : List Byte} (h : vSpace w i = 2) :
    p.vWrite c k w i bs = p.modCore c k (fun co => co.putSlotBytes (vAddr w i) bs) := if_pos h

theorem Package.vWrite_local {p : Package} {c k i : Nat} {w : CmdWord} {bs : List Byte} (h : vSpace w i ≠ 2) :
    p.vWrite c k w i bs = p.locWrite c k (decide (vSpace w i = 1)) (vAddr w i) bs := if_neg h

theorem Package.vRead_vWrite (p : Package) (c k i : Nat) (w : CmdWord) (bs : List Byte) : (p.vWrite c k w i bs).vRead c k w i bs.length = bs := by
  by_cases h : vSpace w i = 2
  · rw [Package.vRead, if_pos h, Package.vWrite_slots h, Package.core_modCore, Core.slotBytes_putSlotBytes]
  · rw [Package.vRead, if_neg h, Package.vWrite_local h, Package.locRead_locWrite]

theorem Package.vWrite_mem (p : Package) (c k i : Nat) (w : CmdWord) (bs : List Byte) : (p.vWrite c k w i bs).mem = p.mem := by
  by_cases h : vSpace w i = 2
  · rw [Package.vWrite_slots h]
    rfl
  · rw [Package.vWrite_local h, Package.locWrite_mem]

/-! #### The commands -/

theorem runCommand_vector {op : Nat} {h : Held} (hop : opcodeOf h.word = op) (hlo : 0x40 ≤ op) (hhi : op ≤ 0x5F) (p : Package) (c k : Nat) (x : Ctx) :
    runCommand p c k x h = vectorCommand op p c k x h := by
  have hne : ∀ n < 0x40, op ≠ n := fun n hn => by omega
  simp only [runCommand, hop, hne 0x00 (by decide), hne 0x01 (by decide), hne 0x10 (by decide), hne 0x20 (by decide), hne 0x21 (by decide),
    hne 0x22 (by decide), hne 0x23 (by decide), hne 0x24 (by decide), hne 0x25 (by decide), hne 0x26 (by decide), hne 0x27 (by decide),
    hne 0x28 (by decide), hlo, hhi, decide_true, Bool.and_self, if_true, if_false]

/-- A vector command whose one effect is to write its destination runs as stated. -/
theorem commandRuns_vWrite {op : Nat} {i : Nat → Nat → Nat → CmdWord → Instr} {ok : Package → Nat → Nat → Ctx → Held → Prop}
    {bs : Package → Nat → Nat → Ctx → Held → List Byte} (he : ∀ dt c k w s, exec (i dt c k w) s = onPkg (issue op dt c k w) s)
    (hlo : 0x40 ≤ op) (hhi : op ≤ 0x5F) (hd : opcodeDefined op = true)
    (hr : ∀ p c k x h, ok p c k x h → vectorCommand op p c k x h = .done (p.vWrite c k h.word 2 (bs p c k x h))) :
    CommandRuns op i ok (fun p c k x h => p.vWrite c k h.word 2 (bs p c k x h)) :=
  commandRuns_of he (by omega) hd (fun p c k x h hop hok => (runCommand_vector hop hlo hhi p c k x).trans (hr p c k x h hok))
    (fun p c k _ h _ => p.still_vWrite c k h.word 2 _)

theorem vBinary_done {f : Nat → Nat → Nat} {p : Package} {c k : Nat} {w : CmdWord}
    (h : p.vPasses c w [(1, 4 * vCount w), (3, 4 * vCount w)] [(2, 4 * vCount w)] []) :
    vBinary f p c k w = .done (p.vWrite c k w 2 (packCodes 32 (List.zipWith f (p.vWords c k w 1) (p.vWords c k w 3)))) := by
  rw [vBinary, vRun_done h]

theorem vFma_done {p : Package} {c k : Nat} {w : CmdWord}
    (h : p.vPasses c w [(1, 4 * vCount w), (3, 4 * vCount w), (2, 4 * vCount w)] [] []) :
    vFma p c k w = .done (p.vWrite c k w 2 (packCodes 32
      (List.zipWith (fun ab z => ffma ab.1 ab.2 z) ((p.vWords c k w 1).zip (p.vWords c k w 3)) (p.vWords c k w 2)))) := by
  rw [vFma, vRun_done h]

theorem vUnary_done {op : Nat} {p : Package} {c k : Nat} {w : CmdWord} (h : p.vPasses c w [(1, 4 * vCount w)] [(2, 4 * vCount w)] []) :
    vUnary op p c k w = .done (p.vWrite c k w 2 (packCodes 32 ((p.vWords c k w 1).map (vecFn op)))) := by
  rw [vUnary, vRun_done h]

theorem vBits_done {f : Nat → Bool} {p : Package} {c k : Nat} {w : CmdWord}
    (h : p.vPasses c w [(1, 4 * vCount w)] [(2, (vCount w + 7) / 8)] []) :
    vBits f p c k w = .done (p.vWrite c k w 2 (packCodes 1 ((p.vWords c k w 1).map (fun v => b2n (f v))))) := by
  rw [vBits, vRun_done h]

/-- Settles O11: each command is one write of its destination, which reads back and leaves the rest alone. -/
theorem vectorElementwise : Obligations.VectorElementwise := by
  unfold Obligations.VectorElementwise
  refine ⟨?binary, ?fma, ?unary, ?bits, ?destination⟩
  case binary =>
    simp only [List.forall_mem_cons]
    refine ⟨?_, ?_, ?_, ?_, by simp⟩
    all_goals exact commandRuns_vWrite (fun _ _ _ _ _ => rfl) (by decide) (by decide) (by decide) fun _ _ _ _ _ h => by simp only [vectorCommand, vBinary_done h]; rfl
  case fma => exact commandRuns_vWrite (fun _ _ _ _ _ => rfl) (by decide) (by decide) (by decide) fun _ _ _ _ _ h => by simp only [vectorCommand, vFma_done h]; rfl
  case unary =>
    simp only [List.forall_mem_cons]
    refine ⟨?_, ?_, ?_, ?_, ?_, ?_, ?_, ?_, by simp⟩
    all_goals exact commandRuns_vWrite (fun _ _ _ _ _ => rfl) (by decide) (by decide) (by decide) fun _ _ _ _ _ h => by simp only [vectorCommand, vUnary_done h]; rfl
  case bits =>
    simp only [List.forall_mem_cons]
    refine ⟨?_, ?_, by simp⟩
    all_goals exact commandRuns_vWrite (fun _ _ _ _ _ => rfl) (by decide) (by decide) (by decide) fun _ _ _ _ _ h => by simp only [vectorCommand, vBits_done h]; rfl
  case destination =>
    intro p c k w bs _
    refine ⟨p.vRead_vWrite c k 2 w bs, p.vWrite_mem c k 2 w bs, fun hspace a ha => ?_, fun hspace a ha => ?_⟩
    · rw [Package.vWrite_local hspace, Package.locRead_locWrite_other _ _ _ _ ha]
    · rw [Package.vWrite_slots hspace, Package.core_modCore, Core.slotBytes_putSlotBytes_other ha]

end Sys2Proof.Machine

/-! ### Register writes (R6 to R8, R343, R349)

`WriteTo` gathers what a write of a listed register on a page that is fitted and not fenced has passed; from there the access kind alone decides. -/

namespace Sys2Proof.Machine

/-! #### Events of a page in its status register -/

theorem Package.event_irq (p : Package) (g : Page) (ev : Nat) (f : Bool) (a0 a1 : Nat) :
    (p.event g ev f a0 a1).rd (IRQ_STATUS g) = putBits (p.rd (IRQ_STATUS g)) ev 1 1 % 2 ^ 64 := by
  have hset : (p.setBit (IRQ_STATUS g) ev true).rd (IRQ_STATUS g) = putBits (p.rd (IRQ_STATUS g)) ev 1 1 % 2 ^ 64 := p.rd_wr_same _ _
  unfold Package.event
  dsimp only
  split
  · rw [Package.record_rd _ _ _ _ _ _ (irqStatus_not_evt g), hset]
  · exact hset

/-- An event sets its bit of the page's status and clears none. -/
theorem Package.event_bit (p : Package) (g : Page) (ev n : Nat) (f : Bool) (a0 a1 : Nat) (hn : n < 64)
    (h : n = ev ∨ bitAt (p.rd (IRQ_STATUS g)) n = true) : bitAt ((p.event g ev f a0 a1).rd (IRQ_STATUS g)) n = true := by
  rw [Package.event_irq, bitAt, Nat.testBit_mod_two_pow, putBits_testBit, decide_eq_true hn, Bool.true_and]
  split
  · next hin =>
    have hzero : n - ev = 0 := by omega
    rw [hzero]
    rfl
  · next hout =>
    obtain rfl | h := h
    · exact absurd ⟨Nat.le_refl n, Nat.lt_succ_self n⟩ hout
    · exact h

theorem Page.events_le (g : Page) : g.events ≤ 10 := by cases g <;> simp [Page.events]

/-- A forced event shows in the page's status. -/
theorem Package.irqForce_bit (p : Package) {g : Page} {v n : Nat} (hn : n < g.events) (hv : bitAt v n = true) :
    bitAt ((p.irqForce g v).rd (IRQ_STATUS g)) n = true := by
  have h64 : n < 64 := by have := g.events_le; omega
  have hmem : n ∈ bitsSet g.events v := List.mem_filter.mpr ⟨List.mem_range.mpr hn, hv⟩
  obtain ⟨before, after, hsplit⟩ := List.append_of_mem hmem
  rw [Package.irqForce, Package.each, hsplit, List.foldl_append, List.foldl_cons]
  refine Package.each_keeps (fun q => bitAt (q.rd (IRQ_STATUS g)) n = true) _ (fun q m hq => ?_) _ after ?_
  · exact q.event_bit g m n true _ _ h64 (.inr hq)
  · exact Package.event_bit _ g n n true _ _ h64 (.inl rfl)

/-! #### A write of a whole register -/

/-- A 64-bit write of an address reaches the register that the page lists there. -/
structure WriteTo (p : Package) (a : Nat) (g : Page) (r : RegDef) : Prop where
  aligned : a % 8 = 0
  page : pageAt a = some g
  fitted : p.pageFitted g = true
  unfenced : p.pageFenced g = false
  guest : g = .gate → p.variant.guest = true
  listed : g.regs.find? (fun r => r.lists (a % 0x1000)) = some r
  writable : r.wmask ≠ 0

theorem execRegisterWrite_of {req a len v : Nat} {s : State} {x : Nat × (Part × Package)} (h : regWrite req a len v s.part s.pkg = x) :
    exec (.registerWrite req a len v) s = .next { s with part := x.2.1, pkg := x.2.2 } := by
  subst h
  rfl

/-- Past the checks of page and address, what remains of `regWrite`. -/
theorem WriteTo.answer {p : Package} {a : Nat} {g : Page} {r : RegDef} (h : WriteTo p a g r) (req v : Nat) (q : Part) :
    regWrite req a 8 v q p = if r.access = .rwt then
        (if (stageWrite req g r a none v p).1 then HS_REFUSED else HS_OK, q, (stageWrite req g r a none v p).2)
      else if r.wmask &&& halfMask none = 0 then (HS_OK, q, p)
      else if a = PWR_RESET then (HS_OK, pwrReset (halfValue none v &&& r.wmask) q p)
      else if a = SEC_CTRL then (HS_OK, secCtrl (halfValue none v &&& r.wmask) q p)
      else if a = GATE_CTRL then (HS_OK, q, gateCtrl (halfValue none v &&& r.wmask) q p)
      else (HS_OK, q, p.writeReg req g r a none v) := by
  have haddr : a / 8 * 8 = a := Nat.div_mul_cancel (Nat.dvd_of_mod_eq_zero h.aligned)
  have hgate : (!p.pageFitted g || (decide (g = .gate) && !p.variant.guest)) = false := by
    rw [h.fitted]
    by_cases hg : g = .gate
    · rw [h.guest hg, decide_eq_true hg]
      rfl
    · rw [decide_eq_false hg]
      rfl
  unfold regWrite
  dsimp only
  have hwhole : (if 8 = 8 then none else some (a / 4 % 2)) = none := rfl
  have hsound : (!(decide (8 = 4) || decide (8 = 8)) || decide (a % 8 ≠ 0)) = false := by rw [h.aligned]; rfl
  rw [if_neg (ne_true_of_eq_false hsound), haddr, hwhole, h.page]
  dsimp only
  rw [if_neg (by rw [hgate]; exact Bool.false_ne_true), if_neg (by rw [h.unfenced]; exact Bool.false_ne_true), h.listed]
  dsimp only
  rw [if_neg h.writable]

theorem mask_and_full {m : Nat} (h : m < 2 ^ 64) : m &&& halfMask none = m :=
  (Nat.and_two_pow_sub_one_eq_mod m 64).trans (Nat.mod_eq_of_lt h)

/-- A register that is not RWT, has no effect of its own and is none of the three control registers takes a plain write. -/
theorem WriteTo.exec_plain {s : State} {a : Nat} {g : Page} {r : RegDef} (h : WriteTo s.pkg a g r) {req v : Nat} {q : Package} (hkind : r.access ≠ .rwt)
    (hpwr : a ≠ PWR_RESET) (hsec : a ≠ SEC_CTRL) (hgate : a ≠ GATE_CTRL) (hmask : r.wmask < 2 ^ 64)
    (hw : s.pkg.writeReg req g r a none v = q) : exec (.registerWrite req a 8 v) s = .next { s with pkg := q } := by
  have hwrite : regWrite req a 8 v s.part s.pkg = (HS_OK, s.part, q) := by
    rw [h.answer, if_neg hkind, mask_and_full hmask, if_neg h.writable, if_neg hpwr, if_neg hsec, if_neg hgate, hw]
  exact execRegisterWrite_of hwrite

/-- With no effect of its own, a register takes its write by its access kind. -/
theorem Package.writeReg_plain {p : Package} {req a v : Nat} {g : Page} {r : RegDef}
    (h : p.writeEffect req g a none v (maskWrite (p.rd a) (v % 2 ^ 64) r.wmask) (v % 2 ^ 64 &&& r.wmask) = none) :
    p.writeReg req g r a none v = match r.access with
      | .w1c => p.wr a (p.rd a &&& (2 ^ 64 - 1 - (v % 2 ^ 64 &&& r.wmask)))
      | .w1s => p.wr a (p.rd a ||| (v % 2 ^ 64 &&& r.wmask))
      | .rw => (p.wr a (p.plainWrite a (p.rd a) (maskWrite (p.rd a) (v % 2 ^ 64) r.wmask))).afterWrite a
      | .wo => p.wr a (maskWrite (p.rd a) (v % 2 ^ 64) r.wmask)
      | _ => p := by
  unfold Package.writeReg
  simp only [halfValue, mergeWrite, h] <;> rfl

/-- An RWT register's write is the staging of it. -/
theorem WriteTo.exec_staged {s : State} {a : Nat} {g : Page} {r : RegDef} (h : WriteTo s.pkg a g r) (req v : Nat) (hkind : r.access = .rwt) :
    exec (.registerWrite req a 8 v) s = .next { s with pkg := (stageWrite req g r a none v s.pkg).2 } := by
  have hwrite : regWrite req a 8 v s.part s.pkg
      = (if (stageWrite req g r a none v s.pkg).1 then HS_REFUSED else HS_OK, s.part, (stageWrite req g r a none v s.pkg).2) := by
    rw [h.answer, if_pos hkind]
  exact execRegisterWrite_of hwrite

theorem stageWrite_refused {p : Package} {req : Nat} (h : p.owns req = false) (g : Page) (r : RegDef) (a v : Nat) :
    stageWrite req g r a none v p = (true, (p.put (TXN_STATE_OUTSIDE_WRITE g) 1).txnErr) := by
  rw [stageWrite, h]
  rfl

theorem stageWrite_first {p : Package} {req a : Nat} (h : p.owns req = true) (ha : p.txn.value a = none) (hroom : p.txn.staged.length < Config.stagedMax)
    (g : Page) (r : RegDef) (v : Nat) : ∃ q : Package, q = p.modTxn (fun t => { t with staged := t.staged ++ [(a, v % 2 ^ 64 &&& r.wmask)] })
      ∧ (stageWrite req g r a none v p).2 = (q.put PKG_TXN_STATUS_STAGED q.txn.staged.length).put (TXN_STATE_STAGED g) 1 := by
  refine ⟨_, rfl, ?_⟩
  rw [stageWrite, h, ha]
  rw [if_neg (Bool.not_eq_true _ ▸ rfl), if_neg (Nat.not_le.mpr hroom)]
  rfl

/-- Settles O40, by access kind. -/
theorem registerWrites : Obligations.RegisterWrites := by
  unfold Obligations.RegisterWrites
  refine ⟨?misaligned, ?kinds, ?forced⟩
  case misaligned =>
    intro s req a len v h
    have hbad : (!(decide (len = 4) || decide (len = 8)) || decide (a % len ≠ 0)) = true := by
      rcases h with ⟨h4, h8⟩ | h
      · simp [h4, h8]
      · simp [h]
    have hwrite : regWrite req a len v s.part s.pkg = (HS_BAD_REQUEST, s.part, s.pkg) := by rw [regWrite, if_pos hbad]
    exact execRegisterWrite_of hwrite
  case kinds =>
    intro s req a v g r halign hpage hfit hfence hguest hlist hmask
    have hto : WriteTo s.pkg a g r := ⟨halign, hpage, hfit, hfence, hguest, hlist, hmask⟩
    refine ⟨fun hkind heff hpwr hsec hgate hlt => ?w1c, fun hkind heff hpwr hsec hgate hlt => ?w1s, fun hkind heff hpwr hsec hgate hlt => ?rw,
      fun hkind howns => ?refused, fun hkind howns hfresh hroom => ?staged⟩
    case w1c =>
      refine hto.exec_plain (by rw [hkind]; decide) hpwr hsec hgate hlt ?_
      rw [Package.writeReg_plain heff, hkind]
    case w1s =>
      refine hto.exec_plain (by rw [hkind]; decide) hpwr hsec hgate hlt ?_
      rw [Package.writeReg_plain heff, hkind]
    case rw =>
      refine hto.exec_plain (by rw [hkind]; decide) hpwr hsec hgate hlt ?_
      rw [Package.writeReg_plain heff, hkind]
    case refused => rw [hto.exec_staged req v hkind, stageWrite_refused howns]
    case staged =>
      obtain ⟨q, hq, hstaged⟩ := stageWrite_first howns hfresh hroom g r v
      have hlen : q.txn.staged.length = s.pkg.txn.staged.length + 1 := by
        rw [hq]
        exact List.length_append
      have hother : (TXN_STATE_STAGED g).addr ≠ PKG_TXN_STATUS_STAGED.addr := by
        have := g.base_mod
        change g.base + 0x80 ≠ 0x158
        omega
      refine ⟨_, hto.exec_staged req v hkind, ?_⟩
      dsimp only
      rw [hstaged, hlen, Package.put_txn, Package.put_txn, Package.get_put_ne _ _ _ _ hother, Package.get_put_same _ _ _ (by decide), hq]
      refine ⟨rfl, Nat.mod_eq_of_lt ?_, rfl, rfl⟩
      have hmax : s.pkg.txn.staged.length < 1024 := hroom
      change s.pkg.txn.staged.length + 1 < 2 ^ 11
      omega
  case forced =>
    intro s page v n g hpage hfit hfence hguest hn hv
    have hopen : (!s.pkg.pageFitted g || s.pkg.pageFenced g || (decide (g = .gate) && !s.pkg.variant.guest)) = false := by
      rw [hfit, hfence]
      by_cases hg : g = .gate
      · rw [hguest hg, decide_eq_true hg]
        rfl
      · rw [decide_eq_false hg]
        rfl
    have hforce : irqForceWrite page v s.pkg = s.pkg.irqForce g v := by
      rw [irqForceWrite, hpage]
      dsimp only
      rw [if_neg (by rw [hopen]; exact Bool.false_ne_true)]
    exact ⟨{ s with pkg := irqForceWrite page v s.pkg }, rfl, by rw [hforce]; exact s.pkg.irqForce_bit hn hv, (irqForceWrite_keepsMem page v s.pkg).mem⟩

end Sys2Proof.Machine

/-! ### Register frames that several families use

A field is read from its register alone; time that passes writes none, nor do messages. -/

namespace Sys2Proof.Machine

theorem Package.get_of_rd {p q : Package} {f : Fld} (h : q.rd f.addr = p.rd f.addr) : q.get f = p.get f := congrArg (bitsOf · _ _) h

theorem Package.has_of_rd {p q : Package} {f : Fld} (h : q.rd f.addr = p.rd f.addr) : q.has f = p.has f :=
  congrArg (fun n => decide (n = 1)) (Package.get_of_rd h)

theorem Package.get_bump64_ne (p : Package) {a : Nat} {f : Fld} (n : Nat) (h : a ≠ f.addr) : (p.bump64 a n).get f = p.get f :=
  Package.get_of_rd (p.rd_bump64_ne n h)

theorem Package.has_bump64_ne (p : Package) {a : Nat} {f : Fld} (n : Nat) (h : a ≠ f.addr) : (p.bump64 a n).has f = p.has f :=
  Package.has_of_rd (p.rd_bump64_ne n h)

theorem Package.get_wr_ne (p : Package) {a : Nat} {f : Fld} (v : Nat) (h : a ≠ f.addr) : (p.wr a v).get f = p.get f :=
  Package.get_of_rd (p.rd_wr_ne v h)

theorem Package.has_wr_ne (p : Package) {a : Nat} {f : Fld} (v : Nat) (h : a ≠ f.addr) : (p.wr a v).has f = p.has f :=
  Package.has_of_rd (p.rd_wr_ne v h)

theorem Package.has_put_ne (p : Package) {f g : Fld} (v : Nat) (h : f.addr ≠ g.addr) : (p.put f v).has g = p.has g :=
  Package.has_of_rd (p.rd_put_ne f v h)

theorem Package.has_put_disjoint (p : Package) {f g : Fld} (v : Nat) (h : g.lo + g.len ≤ 64) (d : g.lo + g.len ≤ f.lo ∨ f.lo + f.len ≤ g.lo) :
    (p.put f v).has g = p.has g :=
  congrArg (fun n => decide (n = 1)) (p.get_put_disjoint f g v h d)

/-- A flag reads back as it was put. -/
theorem Package.has_put_b2n (p : Package) {f : Fld} (b : Bool) (hlen : f.len = 1) (h : f.lo + f.len ≤ 64) : (p.put f (b2n b)).has f = b := by
  rw [Package.has, Package.get_put_same p f _ h, hlen]
  cases b <;> rfl

@[simp] theorem Package.pass_linkState (p : Package) (dt k : Nat) : (p.pass dt).linkState k = p.linkState k := p.pass_get dt _
@[simp] theorem Package.pass_linkUp (p : Package) (dt k : Nat) : (p.pass dt).linkUp k = p.linkUp k := by
  unfold Package.linkUp
  rw [Package.pass_linkState]
@[simp] theorem Package.pass_hostMode (p : Package) (dt k : Nat) : (p.pass dt).hostMode k = p.hostMode k := p.pass_has dt _
@[simp] theorem Package.pass_node (p : Package) (dt : Nat) : (p.pass dt).node = p.node := by
  unfold Package.node
  rw [Package.pass_has, Package.pass_get]

end Sys2Proof.Machine

/-! ### Host requests served by the bridge (R308 to R311, R340) -/

namespace Sys2Proof.Machine

theorem hostRequest_busy {p : Package} {k : Nat} (hup : p.linkUp k = true) (hhost : p.hostMode k = true) (hready : p.has PKG_STATUS_READY = false)
    (op dt src : Nat) (dest : Option Nat) (r : HostReq) (found : List (Nat × LineCheck)) (q : Part) :
    hostRequest op dt k src dest r found q p = (q, (p.pass dt).toHost src (r.answer HS_BUSY [])) := by
  unfold hostRequest
  simp only [Package.pass_linkUp, Package.pass_hostMode, Package.pass_has, hup, hhost, hready, Bool.not_true, Bool.not_false, if_true, Bool.false_eq_true,
    if_false]

theorem hostRequest_here {p : Package} {k : Nat} (hup : p.linkUp k = true) (hhost : p.hostMode k = true) (hready : p.has PKG_STATUS_READY = true)
    (hnode : p.has LNK_NODE_VALID = true) (op dt src : Nat) (r : HostReq) (found : List (Nat × LineCheck)) (q : Part) :
    hostRequest op dt k src (some p.node) r found q p = serveHere op src false true r found q (p.pass dt) := by
  unfold hostRequest
  simp only [Package.pass_linkUp, Package.pass_hostMode, Package.pass_has, Package.pass_node, hup, hhost, hready, hnode, Bool.not_true, decide_true,
    Bool.and_true, if_true, Bool.false_eq_true, if_false]

/-- A request from a host is answered to it where the package is still READY once it has been served. -/
theorem serveHere_ready {op src : Nat} {r : HostReq} {found : List (Nat × LineCheck)} {q : Part} {p : Package} {x : HostRsp × (Part × Package)}
    (h : serveRequest op src r found q (p.bump64 LNK_HOST_REQS 1) = x) (hready : x.2.2.has PKG_STATUS_READY = true) :
    serveHere op src false true r found q p = (x.2.1, x.2.2.toHost src x.1) := by
  unfold serveHere
  simp only [h, hready, Bool.not_true, Bool.false_eq_true, if_false, if_true]

theorem countRequest_ready {p : Package} {dt : Nat} (h : p.has PKG_STATUS_READY = true) :
    ((p.pass dt).bump64 LNK_HOST_REQS 1).has PKG_STATUS_READY = true := by
  rw [Package.has_bump64_ne _ 1 (by decide), Package.pass_has, h]

theorem countRequest_fab (p : Package) (dt : Nat) : ((p.pass dt).bump64 LNK_HOST_REQS 1).rd FAB_STATUS = p.rd FAB_STATUS := by
  rw [Package.rd_bump64_ne _ 1 (by decide), Package.pass_rd]

theorem regRead_ok {p : Package} {a len : Nat} {g : Page} (hlen : len = 4 ∨ len = 8) (halign : a % len = 0) (hpage : pageAt a = some g)
    (hopen : (p.pageFitted g && p.pageFenced g) = false) : p.regRead a len = (HS_OK, leBytes len (p.readReg (a / 8 * 8) / 2 ^ (8 * (a % 8)))) := by
  have hsound : (!(decide (len = 4) || decide (len = 8)) || decide (a % len ≠ 0)) = false := by
    rw [halign]
    rcases hlen with rfl | rfl <;> rfl
  unfold Package.regRead
  rw [if_neg (ne_true_of_eq_false hsound), hpage]
  dsimp only
  rw [if_neg (ne_true_of_eq_false hopen)]

theorem pageOpen_congr {p q : Package} (hv : q.variant = p.variant) (hs : q.rd FAB_STATUS = p.rd FAB_STATUS) (g : Page) :
    (q.pageFitted g && q.pageFenced g) = (p.pageFitted g && p.pageFenced g) := by
  have hmask : q.get FAB_STATUS_DIE_MASK = p.get FAB_STATUS_DIE_MASK := Package.get_of_rd hs
  simp only [Package.pageFitted, Package.pageFenced, Package.dieFitted, Package.dieFenced, hv, hmask]

theorem serveRequest_regRead {p : Package} {r : HostReq} {b : List Byte} (hw : r.width32 = decide (r.len = 4)) (h : p.regRead r.addr r.len = (HS_OK, b))
    (src : Nat) (q : Part) : serveRequest OP_REG_RD src r [] q p = (r.answer HS_OK b, q, p) := by
  unfold serveRequest
  rw [if_neg (by simp [hw]), if_pos rfl, h]

theorem serveRequest_regWrite {p : Package} {q : Part} {r : HostReq} {src : Nat} {x : Nat × (Part × Package)} (hw : r.width32 = decide (r.len = 4))
    (hlen : r.data.length = r.len) (h : regWrite src r.addr r.len (leNat r.data) q p = x) :
    serveRequest OP_REG_WR src r [] q p = (r.answer x.1 [], x.2) := by
  unfold serveRequest
  rw [if_neg (by simp [hw]), if_neg (by decide), if_pos rfl, if_neg (not_not_intro hlen), h]

theorem serveRequest_memRead {p : Package} {r : HostReq} {b : List Byte} (hform : r.memForm = true) (h : p.load r.addr r.len = .ok b) (src : Nat) (q : Part) :
    serveRequest OP_MEM_RD src r [] q p = (r.answer HS_OK b, q, p.countReadBy 8 r.addr r.len) := by
  have hread : p.memRead r [] = ((HS_OK, b), p.countReadBy 8 r.addr r.len) := by
    unfold Package.memRead
    simp only [hform, Bool.not_true, Bool.false_eq_true, if_false, Package.readFinds, Package.each, List.foldl_nil, ite_self, h]
  unfold serveRequest
  rw [if_neg (by simp [OP_MEM_RD, OP_REG_RD, OP_REG_WR]), if_neg (by decide), if_neg (by decide), if_pos rfl, hread]

theorem serveRequest_memWrite {p : Package} {r : HostReq} (hform : r.memForm = true) (hlen : r.data.length = r.len) (hok : p.rangeOk r.addr r.len = true)
    (src : Nat) (q : Part) : serveRequest OP_MEM_WR src r [] q p = (r.answer HS_OK [], q, p.storeBy 8 r.addr r.data) := by
  have hwrite : p.memWrite r = (HS_OK, p.storeBy 8 r.addr r.data) := by
    unfold Package.memWrite
    simp [hform, hlen, hok]
  unfold serveRequest
  rw [if_neg (by simp [OP_MEM_WR, OP_REG_RD, OP_REG_WR]), if_neg (by decide), if_neg (by decide), if_neg (by decide), hwrite]

theorem Package.countReadBy_rd (p : Package) {b : Nat} (die a n : Nat) (h : ∀ k, MEM_READ_BYTES k ≠ b) (hstay : FAB_STAY_BYTES ≠ b) :
    (p.countReadBy die a n).rd b = p.rd b :=
  (Package.countStays_rd _ die a n hstay).trans (Package.countBytes_rd _ a n h)

theorem readBytes_ne_ready (k : Nat) : MEM_READ_BYTES k ≠ PKG_STATUS_READY.addr := by
  change 0x10000000 + 0x100000 * k + 0x118 ≠ 0x118
  omega

theorem writeBytes_ne_ready (k : Nat) : MEM_WRITE_BYTES k ≠ PKG_STATUS_READY.addr := by
  change 0x10000000 + 0x100000 * k + 0x120 ≠ 0x118
  omega

theorem memForm_len {r : HostReq} (h : r.memForm = true) : r.len ≤ 4096 := by
  simp only [HostReq.memForm, Bool.and_eq_true, decide_eq_true_eq] at h
  exact h.1.1.2

/-- Settles O33, by the kind of the request. -/
theorem hostRequestsServed : Obligations.HostRequestsServed := by
  unfold Obligations.HostRequestsServed
  refine ⟨?regRead, ?regWrite, ?memRead, ?memWrite, ?busy⟩
  case regRead =>
    intro s dt k src r g hup hhost hready hnode hlen halign hw hpage hopen
    have hread := regRead_ok hlen halign hpage ((pageOpen_congr (p := s.pkg) (by simp) (countRequest_fab s.pkg dt) g).trans hopen)
    exact onBoth_eq ((hostRequest_here hup hhost hready hnode _ dt src r [] s.part).trans
      (serveHere_ready (serveRequest_regRead hw hread src s.part) (countRequest_ready hready)))
  case regWrite =>
    intro s dt k src r x hup hhost hready hnode hw hlen hx hready'
    exact onBoth_eq ((hostRequest_here hup hhost hready hnode _ dt src r [] s.part).trans (serveHere_ready (serveRequest_regWrite hw hlen hx) hready'))
  case memRead =>
    intro s dt k src r b hup hhost hready hnode hform hload
    have hload' := (Package.load_congr (by simp) (by simp) (by simp) (countRequest_fab s.pkg dt) r.addr r.len).trans hload
    have hready' : (((s.pkg.pass dt).bump64 LNK_HOST_REQS 1).countReadBy 8 r.addr r.len).has PKG_STATUS_READY = true :=
      (Package.has_of_rd (Package.countReadBy_rd _ 8 r.addr r.len readBytes_ne_ready (by decide))).trans (countRequest_ready hready)
    obtain ⟨regs, hregs⟩ := ((s.pkg.pass dt).bump64 LNK_HOST_REQS 1).regsOnly_countReadBy 8 r.addr r.len
    have hkeep : s.pkg.KeepsMem ((((s.pkg.pass dt).bump64 LNK_HOST_REQS 1).countReadBy 8 r.addr r.len).toHost src (r.answer HS_OK b)) :=
      .toHost (hregs ▸ ⟨s.pkg.pass_mem dt, s.pkg.pass_poison dt⟩)
    refine ⟨_, onBoth_eq ((hostRequest_here hup hhost hready hnode _ dt src r [] s.part).trans
      (serveHere_ready (serveRequest_memRead hform hload' src s.part) hready')), hkeep.mem, hkeep.poison, rfl⟩
  case memWrite =>
    intro s dt k src r hup hhost hready hnode hform hlen hok
    have hok' := (Package.rangeOk_congr (by simp) (countRequest_fab s.pkg dt) r.addr r.len).trans hok
    have hready' : (((s.pkg.pass dt).bump64 LNK_HOST_REQS 1).storeBy 8 r.addr r.data).has PKG_STATUS_READY = true :=
      (Package.has_of_rd (Package.storeBy_rd _ 8 r.addr r.data writeBytes_ne_ready (by decide))).trans (countRequest_ready hready)
    have hmem : ((((s.pkg.pass dt).bump64 LNK_HOST_REQS 1).storeBy 8 r.addr r.data).toHost src (r.answer HS_OK [])).mem
        = storeBytes s.pkg.mem r.addr r.data := by
      rw [(Package.KeepsMem.toHost (.refl _)).mem, Package.storeBy_mem]
      exact congrArg (storeBytes · _ _) (s.pkg.pass_mem dt)
    refine ⟨_, onBoth_eq ((hostRequest_here hup hhost hready hnode _ dt src r [] s.part).trans
      (serveHere_ready (serveRequest_memWrite hform hlen hok' src s.part) hready')), ?_, ?_, rfl⟩
    · rw [← hlen]
      refine Package.bytesAt_of_stored hmem ?_ fun i hi => Package.rangeOk_physOf hok (by omega)
      have := memForm_len hform
      omega
    · intro y hy
      rw [hmem]
      exact memByte_storeBytes_other r.addr r.data y (by rwa [hlen])
  case busy =>
    intro s dt k src dest r found hup hhost hready
    exact ⟨onBoth_eq (hostRequest_busy hup hhost hready _ dt src dest r [] s.part), onBoth_eq (hostRequest_busy hup hhost hready _ dt src dest r [] s.part),
      onBoth_eq (hostRequest_busy hup hhost hready _ dt src dest r found s.part), onBoth_eq (hostRequest_busy hup hhost hready _ dt src dest r [] s.part)⟩

end Sys2Proof.Machine

/-! ### The block as a whole: its step and its first state -/

namespace Sys2Proof.Machine

/-- Settles O55: the step's two cases. -/
theorem stepTakesTheFront : Obligations.StepTakesTheFront := by
  unfold Obligations.StepTakesTheFront
  refine ⟨fun c s rest => rfl, fun s h => ?_⟩
  rw [step, h]

theorem State.reset_rd (a : Nat) : State.reset.pkg.rd a = regReset a := rfl

theorem arb_at_reset : regReset SEC_ARB = 0 := by decide +kernel

/-- Settles O58: nothing is written and nothing waits. -/
theorem resetState : Obligations.ResetState := by
  unfold Obligations.ResetState
  have harb : ∀ i, i < 6 → State.reset.pkg.arbCount i = 0 ∧ listAt 1 State.reset.part.arb i = 0 := fun i hi => by
    refine ⟨?_, ?_⟩
    · rw [Package.arbCount, State.reset_rd, arb_at_reset]
      exact (congrArg (· % 2 ^ 7) (Nat.zero_div _)).trans rfl
    · have : i ∈ List.range 6 := List.mem_range.mpr hi
      revert i
      decide
  exact ⟨rfl, rfl, rfl, harb, rfl, rfl, State.reset_rd, fun x => rfl, rfl, rfl, rfl, (by decide : State.reset.part.wf = true)⟩

end Sys2Proof.Machine

/-! ### Register transactions (R349 to R353) -/

namespace Sys2Proof.Machine

/-- A fold over packages keeps what each of its elements keeps. -/
theorem Package.each_keeps_of_mem {α : Type} (P : Package → Prop) {f : Package → α → Package} {l : List α} (hf : ∀ q e, e ∈ l → P q → P (f q e))
    {p : Package} (h : P p) : P (p.each l f) :=
  List.foldlRecOn l f h fun q hq e he => hf q e he hq

/-- Clearing a bit of the staging registers reaches no other register. -/
theorem Package.clearTxnBit_rd (p : Package) (i : Nat) {a : Nat} (h : a % 0x1000 ≠ 0x80) : (p.clearTxnBit i).rd a = p.rd a := by
  refine Package.each_keeps_of_mem (fun q => q.rd a = p.rd a) (fun q b hb hq => ?_) rfl
  have hb80 : b % 0x1000 = 0x80 := of_decide_eq_true (List.mem_filter.mp hb).2
  exact (q.rd_put_ne _ _ (by rintro rfl; exact h hb80)).trans hq

@[simp] theorem Package.clearTxnBit_txn (p : Package) (i : Nat) : (p.clearTxnBit i).txn = p.txn :=
  Package.each_keeps_of_mem (fun q => q.txn = p.txn) (f := fun p a => p.setBit a i false) (fun _ _ _ hq => hq) rfl

theorem Package.endTxn_rd (p : Package) (result : Nat) {a : Nat} (h : a % 0x1000 ≠ 0x80) (hs : PKG_TXN_STATUS ≠ a) :
    (p.endTxn result).rd a = p.rd a := by
  unfold Package.endTxn
  rw [Package.rd_put_ne _ _ _ hs, Package.rd_put_ne _ _ _ hs, Package.rd_put_ne _ _ _ hs, Package.clearTxnBit_rd _ _ h]
  rfl

theorem Package.endTxn_state (p : Package) (result : Nat) : (p.endTxn result).txnState = TXN_IDLE := by
  unfold Package.txnState Package.endTxn
  rw [Package.get_put_disjoint _ _ _ _ (by decide) (by decide), Package.get_put_same _ _ _ (by decide)]
  rfl

theorem Package.endTxn_result (p : Package) (result : Nat) : (p.endTxn result).get PKG_TXN_STATUS_RESULT = result % 2 ^ 3 :=
  Package.get_put_same _ _ _ (by decide)

@[simp] theorem Package.endTxn_staged (p : Package) (result : Nat) : (p.endTxn result).txn.staged = [] := by
  unfold Package.endTxn
  dsimp only
  rw [Package.put_txn, Package.put_txn, Package.put_txn, Package.clearTxnBit_txn]
  rfl

/-- A transaction that ends with an event is idle, shows its result and holds nothing; the event shows. -/
theorem Package.endTxn_raise (p : Package) (result : Nat) {ev : Nat} (hev : ev < 64) (a0 a1 : Nat) :
    ((p.endTxn result).raise .pkg ev a0 a1).txnState = TXN_IDLE ∧ ((p.endTxn result).raise .pkg ev a0 a1).get PKG_TXN_STATUS_RESULT = result % 2 ^ 3
      ∧ ((p.endTxn result).raise .pkg ev a0 a1).txn.staged = []
      ∧ bitAt (((p.endTxn result).raise .pkg ev a0 a1).rd (IRQ_STATUS .pkg)) ev = true := by
  refine ⟨?_, ?_, ?_, Package.raise_status _ _ _ _ _ hev⟩
  · exact (Package.raise_get _ _ _ _ _ (by decide) (by decide)).trans (p.endTxn_state result)
  · exact (Package.raise_get _ _ _ _ _ (by decide) (by decide)).trans (p.endTxn_result result)
  · rw [Package.raise_txn, Package.endTxn_staged]

/-- A failed validation leaves the address and the cause that it names. -/
theorem Package.txnFail_shown (p : Package) (a cause result : Nat) : (p.txnFail a cause result).get PKG_TXN_FAIL_ADDR = a % 2 ^ 32
    ∧ (p.txnFail a cause result).get PKG_TXN_FAIL_CAUSE = cause % 2 ^ 8 := by
  unfold Package.txnFail
  extract_lets q r u cookie
  have hkeep : ((u.endTxn result).raise .pkg EV_PKG_TXN_FAILED (u.rd PKG_TXN_FAIL) (arg1Of cookie cause)).rd PKG_TXN_FAIL = u.rd PKG_TXN_FAIL := by
    rw [Package.raise_rd _ _ _ _ _ (by decide) (by decide), Package.endTxn_rd _ _ (by decide) (by decide)]
  refine ⟨(Package.get_of_rd hkeep).trans ?_, (Package.get_of_rd hkeep).trans ?_⟩
  · exact (Package.get_put_disjoint _ _ _ _ (by decide) (by decide)).trans (Package.get_put_same _ _ _ (by decide))
  · exact Package.get_put_same _ _ _ (by decide)

theorem Package.txnFail_ended (p : Package) (a cause result : Nat) : (p.txnFail a cause result).txnState = TXN_IDLE
    ∧ (p.txnFail a cause result).get PKG_TXN_STATUS_RESULT = result % 2 ^ 3 ∧ (p.txnFail a cause result).txn.staged = []
    ∧ bitAt ((p.txnFail a cause result).rd (IRQ_STATUS .pkg)) EV_PKG_TXN_FAILED = true := by
  unfold Package.txnFail
  exact Package.endTxn_raise _ result (by decide) _ _

@[simp] theorem Package.pass_txnState (p : Package) (dt : Nat) : (p.pass dt).txnState = p.txnState := p.pass_get dt _

/-- Where ticks come, an accepted transaction waits for one. -/
theorem Package.acceptTxn_waits {p : Package} (h : p.ticking = true) : p.acceptTxn.txnState = TXN_PENDING ∧ p.acceptTxn.txn.staged = p.txn.staged := by
  unfold Package.acceptTxn
  extract_lets n routes l q r
  have hticks : r.ticking = true := h ▸ congrArg (fun x => decide (x ≠ BEAT_DISABLED) && p.beat.epochHeld) (Package.get_put_ne q _ _ _ (by decide))
  rw [if_pos hticks]
  exact ⟨Package.get_put_same _ _ _ (by decide), rfl⟩

/-- Settles O41, by the command. -/
theorem transactions : Obligations.Transactions := by
  unfold Obligations.Transactions
  refine ⟨?begin, ?beginBusy, ?commit, ?commitOther, ?failed, ?accepted, ?rollback, ?timeout⟩
  case begin =>
    intro s req v h
    refine ⟨{ s with pkg := txnBegin req v s.pkg }, rfl, ?_⟩
    unfold txnBegin
    rw [if_neg (not_not_intro h)]
    dsimp only
    refine ⟨?_, ?_, Package.get_put_same _ _ _ (by decide), ?_, ?_⟩
    · exact (Package.get_put_disjoint _ _ _ _ (by decide) (by decide)).trans ((Package.get_put_disjoint _ _ _ _ (by decide) (by decide)).trans
        (Package.get_put_same _ _ _ (by decide)))
    · exact (Package.get_put_disjoint _ _ _ _ (by decide) (by decide)).trans (Package.get_put_same _ _ _ (by decide))
    · rw [Package.put_txn, Package.put_txn, Package.put_txn, Package.clearTxnBit_txn]
      rfl
    · rw [Package.put_txn, Package.put_txn, Package.put_txn, Package.clearTxnBit_txn]
      rfl
  case beginBusy =>
    intro s req v h
    have : txnBegin req v s.pkg = s.pkg.txnErr := if_pos h
    exact congrArg (fun p => Host.Outcome.next { s with pkg := p }) this
  case commit =>
    intro s req h
    refine ⟨{ s with pkg := txnCommit req s.pkg }, rfl, ?_⟩
    rw [txnCommit, if_pos h]
    exact ⟨Package.get_put_same _ _ _ (by decide), rfl⟩
  case commitOther =>
    intro s req h
    have : txnCommit req s.pkg = s.pkg.txnErr := if_neg (ne_true_of_eq_false h)
    exact congrArg (fun p => Host.Outcome.next { s with pkg := p }) this
  case failed =>
    intro s dt a cause hstate hfault
    refine ⟨{ s with pkg := txnValidationDone dt s.pkg }, rfl, ?_⟩
    have hdone : txnValidationDone dt s.pkg = (s.pkg.pass dt).txnFail a cause TR_FAILED := by
      unfold txnValidationDone
      dsimp only
      rw [if_neg (not_not_intro ((s.pkg.pass_txnState dt).trans hstate)), hfault]
    rw [hdone]
    obtain ⟨hidle, hresult, hstaged, hirq⟩ := (s.pkg.pass dt).txnFail_ended a cause TR_FAILED
    obtain ⟨haddr, hcause⟩ := (s.pkg.pass dt).txnFail_shown a cause TR_FAILED
    exact ⟨hidle, hresult, haddr, hcause, hstaged, hirq⟩
  case accepted =>
    intro s dt hstate hfault hticking
    refine ⟨{ s with pkg := txnValidationDone dt s.pkg }, rfl, ?_⟩
    have hdone : txnValidationDone dt s.pkg = (s.pkg.pass dt).acceptTxn := by
      unfold txnValidationDone
      dsimp only
      rw [if_neg (not_not_intro ((s.pkg.pass_txnState dt).trans hstate)), hfault]
    rw [hdone, ← s.pkg.pass_txn dt]
    exact Package.acceptTxn_waits ((s.pkg.pass_ticking dt).trans hticking)
  case rollback =>
    intro s h
    refine ⟨{ s with pkg := txnRollback s.pkg }, rfl, ?_⟩
    rw [txnRollback, if_pos (by simpa using h)]
    exact ⟨s.pkg.endTxn_state _, s.pkg.endTxn_result _, s.pkg.endTxn_staged _⟩
  case timeout =>
    intro s dt hstate hlate
    refine ⟨{ s with pkg := txnTimeout dt s.pkg }, rfl, ?_⟩
    unfold txnTimeout
    dsimp only
    rw [if_pos (by simpa [hstate] using hlate)]
    exact Package.endTxn_raise _ TR_TIMED_OUT (by decide) _ _

end Sys2Proof.Machine

/-! ### The debug window and the test port (R441, R462) -/

namespace Sys2Proof.Machine

section
variable {p : Package}

theorem Package.debug_closed (h : p.has SEC_STATUS_DEBUG_OPEN = false) (f : Nat → Package → Package) : p.debug f = p.bump64 SEC_DBG_REFUSED 1 := by
  rw [Package.debug, h]
  rfl

theorem Package.debug_open {x : Nat} (h : p.has SEC_STATUS_DEBUG_OPEN = true) (hx : p.dbgCore = some x) (f : Nat → Package → Package) :
    p.debug f = f x p := by
  rw [Package.debug, h, hx]
  rfl

theorem dbgFind_dbgPut_same (l : List ((Nat × Nat) × Word)) (k : Nat × Nat) (v : Word) : dbgFind (dbgPut l k v) k = some v := by
  rw [dbgFind, dbgPut, List.find?_cons_of_pos (by simp)]
  rfl

theorem mem_addOnce (l : List Nat) (x : Nat) : x ∈ (if l.contains x then l else l ++ [x]) := by
  split
  · next h => exact List.contains_iff_mem.mp h
  · exact List.mem_append_right l (List.mem_singleton_self x)

/-- What a rising edge of TCK captures or shifts before the TAP moves. -/
def Package.tapShift (p : Package) (tdi : Bool) : Package × Tap := match p.tap.state with
  | .captureIr => (p.draw.2, { p.tap with irShift := 1 + 4 * (p.draw.1.toNat % 64) })
  | .shiftIr => (p, { p.tap with irShift := p.tap.irShift / 2 + 128 * b2n tdi })
  | .captureDr => (p, { p.tap with drShift := p.captured })
  | .shiftDr => (p, { p.tap with drShift := if p.tap.drShift.isEmpty then [] else p.tap.drShift.drop 1 ++ [tdi] })
  | _ => (p, p.tap)

theorem Package.tapShift_regs (p : Package) (tdi : Bool) : (p.tapShift tdi).1.regs = p.regs := by
  unfold Package.tapShift
  split <;> rfl

/-- The package after the move to another state of the TAP. -/
def Package.tapMoved (q : Package) (t : Tap) (s : TapState) : Package := { q with tap := { t with state := s } }

theorem Package.tapRise_eq (p : Package) (tms tdi : Bool) : p.tapRise tms tdi
    = if p.tap.state.next tms = .testLogicReset then ((p.tapShift tdi).1.tapMoved (p.tapShift tdi).2 (p.tap.state.next tms)).tapReset
      else (p.tapShift tdi).1.tapMoved (p.tapShift tdi).2 (p.tap.state.next tms) := by
  have hstate : (p.tapShift tdi).2.state = p.tap.state := by
    unfold Package.tapShift
    split <;> rfl
  rw [← hstate]
  rfl

theorem Package.tapRise_moves (p : Package) (tms tdi : Bool) : (p.tapRise tms tdi).tap.state = p.tap.state.next tms
    ∧ (p.tapRise tms tdi).regs = p.regs ∧ (p.tap.state.next tms = .testLogicReset → (p.tapRise tms tdi).tap.ir = TI_IDCODE) := by
  have hregs := p.tapShift_regs tdi
  rw [Package.tapRise_eq]
  split
  · next hreset => exact ⟨hreset.symm, hregs, fun _ => rfl⟩
  · next hmove => exact ⟨rfl, hregs, fun hreset => absurd hreset hmove⟩

theorem Package.tapFall_updateIr (h : p.tap.state = .updateIr) :
    p.tapFall = { p with tap := { p.tap with ir := p.tap.irShift % 256, tdo := none } } := by
  unfold Package.tapFall
  extract_lets t
  split <;> simp_all [t]

end

/-- Settles O54: the window's two states, the TAP's edges and its reset. -/
theorem debugWindowAndTestPort : Obligations.DebugWindowAndTestPort := by
  unfold Obligations.DebugWindowAndTestPort
  refine ⟨?closed, ?halt, ?write, ?read, ?rise, ?fall, ?reset⟩
  case closed =>
    intro s a h
    have hrefused (f : Nat → Package → Package) := congrArg (fun p => Host.Outcome.next (φ := Fault) (ρ := Refusal) { s with pkg := p })
      (Package.debug_closed h f)
    exact ⟨hrefused _, hrefused _, hrefused _, hrefused _, hrefused _, hrefused _⟩
  case halt =>
    intro s x h hx
    refine ⟨{ s with pkg := dbgHalt s.pkg }, { s with pkg := dbgResume s.pkg }, rfl, ?_, ?_, rfl, ?_⟩
    · rw [dbgHalt, Package.debug_open h hx]
      exact mem_addOnce _ x
    · rw [dbgHalt, Package.debug_open h hx]
      rfl
    rw [dbgResume, Package.debug_open h hx]
    exact ⟨fun hm => of_decide_eq_true (List.mem_filter.mp hm).2 rfl, rfl⟩
  case write =>
    intro s x a h hx hhalted
    refine ⟨{ s with pkg := dbgWriteReg a s.pkg }, { s with pkg := dbgWriteMem a s.pkg }, rfl, ?_, ?_, rfl, ?_⟩
    all_goals have hcontains : s.pkg.sec.halted.contains x = true := List.contains_iff_mem.mpr hhalted
    · rw [dbgWriteReg, Package.debug_open h hx, if_pos hcontains]
      exact dbgFind_dbgPut_same _ _ _
    · rw [dbgWriteReg, Package.debug_open h hx, if_pos hcontains]
      rfl
    · rw [dbgWriteMem, Package.debug_open h hx, if_pos hcontains]
      exact dbgFind_dbgPut_same _ _ _
  case read =>
    intro s x a v h hx
    refine ⟨fun hv => ⟨{ s with pkg := dbgReadReg a s.pkg }, rfl, ?_⟩, fun hv => ⟨{ s with pkg := dbgReadMem a s.pkg }, rfl, ?_⟩⟩
    · rw [dbgReadReg, Package.debug_open h hx, hv]
      exact ⟨(Package.rd_wr_same _ _ _).trans (Nat.mod_eq_of_lt v.isLt), rfl⟩
    · rw [dbgReadMem, Package.debug_open h hx, hv]
      exact ⟨(Package.rd_wr_same _ _ _).trans (Nat.mod_eq_of_lt v.isLt), rfl⟩
  case rise =>
    intro s tms tdi h
    refine ⟨{ s with pkg := testPortEdge true tms tdi true s.pkg }, rfl, ?_⟩
    rw [testPortEdge, h]
    exact s.pkg.tapRise_moves tms tdi
  case fall =>
    intro s tms tdi h hstate
    refine ⟨{ s with pkg := testPortEdge false tms tdi true s.pkg }, rfl, ?_⟩
    rw [testPortEdge, h]
    change s.pkg.tapFall.tap.ir = _ ∧ s.pkg.tapFall.tap.state = _
    rw [Package.tapFall_updateIr hstate]
    exact ⟨rfl, rfl⟩
  case reset =>
    intro s rising tms tdi trstN h
    have hclosed : (!s.pkg.tapAllowed || !trstN) = true := by
      rcases h with h | h
      · rw [h]
        rfl
      · rw [h, Bool.not_false, Bool.or_true]
    have hreset : testPortEdge rising tms tdi trstN s.pkg = s.pkg.tapReset := if_pos hclosed
    exact congrArg (fun p => Host.Outcome.next { s with pkg := p }) hreset

end Sys2Proof.Machine

/-! ### Error logs (R393 to R397) -/

namespace Sys2Proof.Machine

theorem Package.rd_setBit_bit (p : Package) {a i : Nat} (h : i < 64) : bitAt ((p.setBit a i true).rd a) i = true := by
  have hin : i ≤ i ∧ i < i + 1 := ⟨Nat.le_refl i, Nat.lt_succ_self i⟩
  unfold Package.setBit Package.put
  rw [Package.rd_wr_same, bitAt, Nat.testBit_mod_two_pow, decide_eq_true h, Bool.true_and, putBits_testBit, if_pos hin, Nat.sub_self]
  rfl

/-- A report marks its class in the page's summary. -/
theorem Package.report_summary (p : Package) {g : Page} {d cls : Nat} (cause a0 a1 : Nat) (b c : Bool) (hcls : cls < 64)
    (h : ERR_SUMMARY g ∉ evtRegs ++ [IRQ_STATUS (.err d), ERR_STATUS d, ERR_LOG_TAIL d, ERR_COALESCED d, ERR_LOST_CORR d, ERR_LOST_UNCORR d, ERR_LOST_FATAL d]) :
    bitAt ((p.report g d cls cause a0 a1 b c).rd (ERR_SUMMARY g)) cls = true := by
  simp only [List.mem_append, not_or, List.mem_cons, List.not_mem_nil, or_false] at h
  obtain ⟨he, hi, hst, ht, hc, hl0, hl1, hl2⟩ := h
  have lost : ERR_SUMMARY g ≠ lostCounter d cls := by
    unfold lostCounter
    split
    · exact hl0
    · split <;> assumption
  have hset := p.rd_setBit_bit (a := ERR_SUMMARY g) hcls
  have eb : ∀ (q : Package) (r n : Nat), ERR_SUMMARY g ≠ r → (q.bump64 r n).rd (ERR_SUMMARY g) = q.rd (ERR_SUMMARY g) :=
    fun q r n hn => q.rd_bump64_ne _ hn.symm
  unfold Package.report
  dsimp only
  split
  · rw [eb _ _ _ hc, Package.setErrLog_rd, hset]
  · split
    · split
      · rw [Package.errStatus_rd _ _ hst, Package.setErrLog_rd, hset]
      · rw [eb _ _ _ lost, Package.setErrLog_rd, hset]
    · split
      · split
        · rw [Package.raise_rd _ _ _ _ _ he hi, Package.errStatus_rd _ _ hst, Package.rd_wr_ne _ _ (Ne.symm ht), Package.setErrLog_rd, hset]
        · rw [Package.errStatus_rd _ _ hst, Package.rd_wr_ne _ _ (Ne.symm ht), Package.setErrLog_rd, hset]
      · rw [eb _ _ _ lost, Package.setErrLog_rd, hset]

theorem mapFind_mapDel_none {α : Type} {m : List (Nat × α)} {j : Nat} (h : mapFind m j = none) (i : Nat) : mapFind (mapDel m i) j = none := by
  by_cases hij : i = j
  · rw [hij]
    exact mapFind_mapDel_same m j
  · exact (mapFind_mapDel_ne m hij).trans h

theorem mapFind_dropped_none {α : Type} {j : Nat} (l : List Nat) {m : List (Nat × α)} (h : mapFind m j = none) : mapFind (l.foldl mapDel m) j = none :=
  List.foldlRecOn (motive := fun m => mapFind m j = none) l mapDel h fun _ hm i _ => mapFind_mapDel_none hm i

/-- No slot that was deleted is found. -/
theorem mapFind_foldl_mapDel {α : Type} {l : List Nat} {j : Nat} (h : j ∈ l) (m : List (Nat × α)) : mapFind (l.foldl mapDel m) j = none := by
  obtain ⟨before, after, rfl⟩ := List.append_of_mem h
  rw [List.foldl_append, List.foldl_cons]
  exact mapFind_dropped_none after (mapFind_mapDel_same _ j)

theorem errStatus_ne_head (d : Nat) : ERR_LOG_HEAD d ≠ ERR_STATUS d := by
  unfold ERR_LOG_HEAD ERR_STATUS
  omega

theorem errStatus_ne_tail (d : Nat) : ERR_LOG_TAIL d ≠ ERR_STATUS d := by
  unfold ERR_LOG_TAIL ERR_STATUS
  omega

theorem errHead_ne_tail (d : Nat) : ERR_LOG_HEAD d ≠ ERR_LOG_TAIL d := by
  unfold ERR_LOG_HEAD ERR_LOG_TAIL
  omega

theorem Package.errStatus_log (p : Package) (d i : Nat) : (p.errStatus d).errLog i = p.errLog i := by
  unfold Package.errStatus
  rw [Package.put_errLog, Package.put_errLog, Package.put_errLog]

theorem Package.errStatus_fatalUsed (p : Package) (d : Nat) : (p.errStatus d).get (ERR_STATUS_FATAL_USED d) = (p.errLog d).fatalUsed % 2 ^ 5 := by
  unfold Package.errStatus
  exact (Package.get_put_disjoint _ _ _ _ (show 16 + 5 ≤ 64 by decide) (.inl (show 16 + 5 ≤ 24 by decide))).trans
    (Package.get_put_same _ _ _ (show 16 + 5 ≤ 64 by decide))

theorem next_same_pkg {s : State} {p : Package} (h : p = s.pkg) : Host.Outcome.next (φ := Fault) (ρ := Refusal) { s with pkg := p } = .next s := by rw [h]

theorem next_pkg_congr {s : State} {p q : Package} (h : p = q) :
    Host.Outcome.next (φ := Fault) (ρ := Refusal) { s with pkg := p } = .next { s with pkg := q } := by rw [h]

/-- Settles O46, by the command. -/
theorem errorLogs : Obligations.ErrorLogs := by
  unfold Obligations.ErrorLogs
  refine ⟨?fatal, ?head, ?beyond, ?cleared, ?kept, ?inject, ?unlawful, ?injectFatal⟩
  case fatal =>
    intro s dt cause
    refine ⟨{ s with pkg := hubFatal dt cause s.pkg }, rfl, Package.reportFatal_fatal _ _ _ _ _, ?_, ?_, (hubFatal_keepsMem dt cause s.pkg).mem⟩
    all_goals unfold hubFatal Package.reportFatal; dsimp only; rw [if_pos rfl]
    · exact Package.raise_status _ _ _ _ _ (by decide)
    · rw [Package.raise_rd _ _ _ _ _ (by decide) (by decide), Package.rd_put_ne _ _ _ (by decide)]
      exact Package.report_summary _ _ _ _ _ _ (by decide) (by decide)
  case head =>
    intro s d v hd hreach hused
    refine ⟨{ s with pkg := errLogHead d v s.pkg }, rfl, ?_⟩
    unfold errLogHead
    dsimp only
    rw [if_neg (by simpa [hreach] using hused), Package.errStatus_rd _ _ (errStatus_ne_head d), Package.errStatus_rd _ _ (errStatus_ne_tail d),
      Package.rd_wr_same, Package.rd_wr_ne _ _ (errHead_ne_tail d)]
    refine ⟨by omega, rfl, fun i hi => ?_⟩
    rw [Package.errStatus_log, Package.wr_errLog, Package.errLog_setErrLog]
    exact mapFind_foldl_mapDel (List.mem_map.mpr ⟨i, List.mem_range.mpr hi, rfl⟩) _
  case beyond =>
    intro s d v h
    refine next_same_pkg (s := s) ?_
    unfold errLogHead
    dsimp only
    rw [if_pos (by simp only [h, decide_true, Bool.or_true])]
  case cleared =>
    intro s d hd hreach hfatal
    refine ⟨{ s with pkg := errFatalClear d s.pkg }, rfl, ?_⟩
    unfold errFatalClear
    dsimp only
    rw [if_neg (by simp [hreach, hfatal]), Package.errStatus_fatalUsed, Package.errStatus_log, Package.errLog_setErrLog]
    exact ⟨rfl, rfl, fun e he => of_decide_eq_true (List.mem_filter.mp he).2⟩
  case kept =>
    intro s d h
    refine next_same_pkg (s := s) ?_
    unfold errFatalClear
    rw [if_pos (by simp [h])]
  case inject =>
    intro s d v hreach hcls
    refine next_pkg_congr ?_
    unfold errInject
    dsimp only
    rw [if_neg (by simp [hreach]; omega), if_neg (by omega)]
  case unlawful =>
    intro s d v hcls htest
    refine next_same_pkg (s := s) ?_
    unfold errInject
    dsimp only
    rw [if_pos (by simp [hcls, htest])]
  case injectFatal =>
    intro s d v hreach hcls htest
    refine next_pkg_congr ?_
    unfold errInject
    dsimp only
    rw [if_neg (by simp [hreach, hcls, htest]), if_pos hcls]

end Sys2Proof.Machine

/-! ### Measurement registers (R454) -/

namespace Sys2Proof.Machine

/-- The bytes of the number that bytes spell are those bytes. -/
theorem leBytes_leNat (l : List Byte) : leBytes l.length (leNat l) = l := by
  induction l with
  | nil => rfl
  | cons b r ih =>
    have hb : b.toNat < 256 := b.isLt
    have hlow : BitVec.ofNat 8 (b.toNat + 256 * leNat r) = b := by
      apply BitVec.eq_of_toNat_eq
      rw [BitVec.toNat_ofNat]
      omega
    have hrest : (b.toNat + 256 * leNat r) / 256 = leNat r := by omega
    rw [List.length_cons, leNat, leBytes, hlow, hrest, ih]

theorem leNat_lt (l : List Byte) : leNat l < 256 ^ l.length := by
  induction l with
  | nil => exact Nat.one_pos
  | cons b r ih =>
    have hb : b.toNat < 256 := b.isLt
    rw [List.length_cons, leNat, Nat.pow_succ]
    omega

theorem shaRound_length {x : List Nat × List Nat} (h : x.1.length = 8) (k : Nat) : (shaRound x k).1.length = 8 := by
  unfold shaRound
  split
  · rfl
  · exact h

theorem shaRounds_length {x : List Nat × List Nat} (h : x.1.length = 8) (ks : List Nat) : (ks.foldl shaRound x).1.length = 8 :=
  List.foldlRecOn (motive := fun y => y.1.length = 8) ks shaRound h fun _ hy k _ => shaRound_length hy k

theorem shaBlock_length {h : List Nat} (hh : h.length = 8) (bs : List Byte) : (shaBlock h bs).length = 8 := by
  unfold shaBlock
  extract_lets w r
  have hr : r.1.length = 8 := shaRounds_length (shaRounds_length hh _) _
  rw [List.length_map, List.length_zip, hh, hr]
  rfl

theorem shaBlocks_length (n : Nat) {h : List Nat} (hh : h.length = 8) (bs : List Byte) : (shaBlocks n h bs).length = 8 := by
  induction n generalizing h bs with
  | zero => exact hh
  | succ n ih => exact ih (shaBlock_length hh _) _

theorem beBytes_length (n v : Nat) : (beBytes n v).length = n := by
  induction n with
  | zero => rfl
  | succ n ih => rw [beBytes, List.length_cons, ih]

theorem flatMap_length_const {α β : Type} {l : List α} {f : α → List β} {n : Nat} (h : ∀ x, (f x).length = n) : (l.flatMap f).length = l.length * n := by
  rw [List.length_flatMap, List.map_congr_left (fun x _ => h x), List.map_const', List.sum_replicate_nat]

@[simp] theorem sha384_length (bs : List Byte) : (sha384 bs).length = 48 := by
  unfold sha384
  rw [flatMap_length_const (beBytes_length 8), List.length_take, shaBlocks_length _ rfl]
  rfl

/-- A fold of writes reads back what it wrote where its addresses are distinct. -/
theorem Package.each_wr_same {f : Nat → Nat} (hf : ∀ i j, f i = f j → i = j) (g : Nat → Nat) (p : Package) {n w : Nat} (hw : w < n) :
    (p.each (List.range n) (fun q i => q.wr (f i) (g i))).rd (f w) = g w % 2 ^ 64 := by
  induction n with
  | zero => exact absurd hw (Nat.not_lt_zero w)
  | succ n ih =>
    unfold Package.each at ih ⊢
    rw [List.range_succ, List.foldl_append, List.foldl_cons, List.foldl_nil]
    by_cases hwn : w = n
    · rw [hwn]
      exact Package.rd_wr_same _ _ _
    · exact (Package.rd_wr_ne _ _ fun h => hwn (hf _ _ h).symm).trans (ih (by omega))

theorem Package.each_wr_other {f : Nat → Nat} {a : Nat} (hf : ∀ i, f i ≠ a) (g : Nat → Nat) (p : Package) (l : List Nat) :
    (p.each l (fun q i => q.wr (f i) (g i))).rd a = p.rd a :=
  Package.each_keeps (fun q => q.rd a = p.rd a) _ (fun q i hq => (q.rd_wr_ne _ (hf i)).trans hq) p l rfl

theorem secMr_inj {a b : Nat} (h : SEC_MR a = SEC_MR b) : a = b := by
  unfold SEC_MR at h
  omega

theorem words_of_list {α : Type} (v : List α) (n : Nat) : (List.range n).flatMap (fun w => (v.drop (8 * w)).take 8) = v.take (8 * n) := by
  induction n with
  | zero => rfl
  | succ n ih => rw [List.range_succ, List.flatMap_append, ih, Nat.mul_succ, List.take_add, List.flatMap_singleton]

/-- 48 bytes taken in six words are the bytes again. -/
theorem words_of_bytes {v : List Byte} (h : v.length = 48) : (List.range 6).flatMap (fun w => leBytes 8 (fieldAt v (8 * w) 8)) = v := by
  have hword : ∀ w, w < 6 → leBytes 8 (fieldAt v (8 * w) 8) = (v.drop (8 * w)).take 8 := fun w hw => by
    have hlen : ((v.drop (8 * w)).take 8).length = 8 := by
      rw [List.length_take, List.length_drop, h]
      omega
    have hback := leBytes_leNat ((v.drop (8 * w)).take 8)
    rwa [hlen] at hback
  have hwords : (List.range 6).map (fun w => leBytes 8 (fieldAt v (8 * w) 8)) = (List.range 6).map (fun w => (v.drop (8 * w)).take 8) :=
    List.map_congr_left fun w hw => hword w (List.mem_range.mp hw)
  rw [List.flatMap_def, hwords, ← List.flatMap_def, words_of_list, List.take_of_length_le (Nat.le_of_eq h)]

theorem word_lt (v : List Byte) (o : Nat) : fieldAt v o 8 < 2 ^ 64 := by
  have hlen : ((v.drop o).take 8).length ≤ 8 := List.length_take_le _ _
  calc fieldAt v o 8 < 256 ^ ((v.drop o).take 8).length := leNat_lt _
    _ ≤ 256 ^ 8 := Nat.pow_le_pow_right (by decide) hlen
    _ = 2 ^ 64 := by decide

@[simp] theorem Package.modSec_rd (p : Package) (f : SecUnit → SecUnit) (a : Nat) : (p.modSec f).rd a = p.rd a := rfl

/-- A measurement register takes the hash of what it held and the digest. -/
theorem Package.extendMr_mr (p : Package) (n : Nat) (d : List Byte) : (p.extendMr n d).mr n = sha384 (p.mr n ++ d) := by
  have hinj : ∀ i j, SEC_MR (6 * n + i) = SEC_MR (6 * n + j) → i = j := fun i j h => by
    have := secMr_inj h
    omega
  have hword : ∀ w, w < 6 → (p.extendMr n d).rd (SEC_MR (6 * n + w)) = fieldAt (sha384 (p.mr n ++ d)) (8 * w) 8 := fun w hw => by
    unfold Package.extendMr
    dsimp only
    rw [Package.modSec_rd]
    generalize sha384 (p.mr n ++ d) = v
    exact (Package.each_wr_same hinj (fun w => fieldAt v (8 * w) 8) p hw).trans (Nat.mod_eq_of_lt (word_lt v (8 * w)))
  have hwords : (List.range 6).map (fun w => leBytes 8 ((p.extendMr n d).rd (SEC_MR (6 * n + w))))
      = (List.range 6).map (fun w => leBytes 8 (fieldAt (sha384 (p.mr n ++ d)) (8 * w) 8)) :=
    List.map_congr_left fun w hw => by rw [hword w (List.mem_range.mp hw)]
  rw [Package.mr, List.flatMap_def, hwords, ← List.flatMap_def]
  exact words_of_bytes (sha384_length _)

theorem Package.extendMr_rd (p : Package) (n : Nat) (d : List Byte) {a : Nat} (h : ∀ i, SEC_MR i ≠ a) : (p.extendMr n d).rd a = p.rd a := by
  unfold Package.extendMr
  dsimp only
  rw [Package.modSec_rd]
  exact Package.each_wr_other (fun i => h (6 * n + i)) _ p _

theorem Package.mr_congr {p q : Package} (n : Nat) (h : ∀ i, q.rd (SEC_MR i) = p.rd (SEC_MR i)) : q.mr n = p.mr n := by
  unfold Package.mr
  simp only [h]

end Sys2Proof.Machine

/-! ### Tokens (R460, R461) -/

namespace Sys2Proof.Machine

section
variable {q : Part} {p : Package} {o n : Bool}

/-- The package once a submission has used the nonce up and shown its result. -/
def Package.spent (p : Package) (result : Nat) : Package := (p.modSec (fun s => { s with nonce := false })).wr SEC_TOKEN_RESULT result

theorem submitToken_accepted (hfw : p.hubRuns = true) (hc : tokenCause q p p.token o n = 0) (hkind : tokenKind p.token ≠ TK_DEBUG) :
    ∃ r : Package, r = (p.spent (tokenKind p.token % 8 + 8)).showFuses (tokenPart q (tokenKind p.token) (fieldAt p.token 5 1))
      ∧ submitToken o n q p = (tokenPart q (tokenKind p.token) (fieldAt p.token 5 1),
        r.raise .sec EV_SEC_TOKEN_ACCEPTED r.beatNo (arg1Of (tokenKind p.token) 0)) := by
  refine ⟨_, rfl, ?_⟩
  unfold submitToken
  simp only [hfw, hc, hkind, Bool.not_true, Bool.false_eq_true, if_false, ne_eq, not_true_eq_false, decide_true, Nat.mul_zero, Nat.add_zero]
  rfl

theorem submitToken_debug (hfw : p.hubRuns = true) (hc : tokenCause q p p.token o n = 0) (hkind : tokenKind p.token = TK_DEBUG) :
    ∃ r u : Package, r = (p.spent (tokenKind p.token % 8 + 8)).showFuses q
      ∧ u = ((r.extendMr 0 (sha384 (p.token.take 64))).put SEC_STATUS_DEBUG_OPEN 1).raise .sec EV_SEC_DEBUG_OPEN r.beatNo 0
      ∧ submitToken o n q p = (q, u.raise .sec EV_SEC_TOKEN_ACCEPTED u.beatNo (arg1Of (tokenKind p.token) 0)) := by
  have hpart : tokenPart q (tokenKind p.token) (fieldAt p.token 5 1) = q := by
    rw [hkind]
    rfl
  refine ⟨_, _, rfl, rfl, ?_⟩
  unfold submitToken
  simp only [hfw, hc, hpart, Bool.not_true, Bool.false_eq_true, if_false, ne_eq, not_true_eq_false, decide_true, Nat.mul_zero, Nat.add_zero]
  rw [if_pos hkind]
  rfl

theorem submitToken_rejected (hfw : p.hubRuns = true) (hc : tokenCause q p p.token o n ≠ 0) :
    ∃ r : Package, r = p.spent (tokenKind p.token % 8 + 16 * tokenCause q p p.token o n)
      ∧ submitToken o n q p = (q, r.raise .sec EV_SEC_TOKEN_REJECTED r.beatNo (arg1Of (tokenKind p.token) (tokenCause q p p.token o n))) := by
  refine ⟨_, rfl, ?_⟩
  unfold submitToken
  simp only [hfw, hc, Bool.not_true, Bool.false_eq_true, if_false, ne_eq, not_false_eq_true, if_true, decide_false]
  rfl

theorem tokenCause_le (q : Part) (p : Package) (t : List Byte) (o n : Bool) : tokenCause q p t o n ≤ 7 := by
  unfold tokenCause
  extract_lets
  repeat' split
  all_goals decide

theorem Package.spent_result (p : Package) {r : Nat} (h : r < 2 ^ 64) : (p.spent r).rd SEC_TOKEN_RESULT = r :=
  (Package.rd_wr_same _ _ _).trans (Nat.mod_eq_of_lt h)

/-- The fuses shown after a token. -/
theorem Package.showFuses_shown (p : Package) (q : Part) : (p.showFuses q).get SEC_STATUS_REVOKED = q.revoked % 16
    ∧ (p.showFuses q).get SEC_STATUS_PENDING_LC = q.pendingLc.getD 7 % 8 ∧ (p.showFuses q).rd SEC_TOKEN_RESULT = p.rd SEC_TOKEN_RESULT
    ∧ (p.showFuses q).sec = p.sec := by
  unfold Package.showFuses
  refine ⟨?_, Package.get_put_same _ _ _ (by decide), ?_, rfl⟩
  · rw [Package.get_put_disjoint _ _ _ _ (by decide) (by decide), Package.get_put_same _ _ _ (by decide)]
    exact Nat.mod_mod _ 16
  · rw [Package.rd_put_ne _ _ _ (by decide), Package.rd_put_ne _ _ _ (by decide)]

/-- What an accepted token leaves shown. -/
theorem submitToken_shows (hfw : p.hubRuns = true) (hc : tokenCause q p p.token o n = 0) (hkind : tokenKind p.token ≠ TK_DEBUG) :
    ∃ r : Package, submitToken o n q p = (tokenPart q (tokenKind p.token) (fieldAt p.token 5 1), r) ∧ r.sec.nonce = false
      ∧ r.rd SEC_TOKEN_RESULT = tokenKind p.token % 8 + 8
      ∧ r.get SEC_STATUS_REVOKED = (tokenPart q (tokenKind p.token) (fieldAt p.token 5 1)).revoked % 16
      ∧ r.get SEC_STATUS_PENDING_LC = (tokenPart q (tokenKind p.token) (fieldAt p.token 5 1)).pendingLc.getD 7 % 8 := by
  obtain ⟨r, hr, h⟩ := submitToken_accepted hfw hc hkind
  obtain ⟨hrev, hlc, hres, hsec⟩ := (p.spent (tokenKind p.token % 8 + 8)).showFuses_shown (tokenPart q (tokenKind p.token) (fieldAt p.token 5 1))
  rw [← hr] at hrev hlc hres hsec
  refine ⟨_, h, ?_, ?_, ?_, ?_⟩
  · rw [Package.raise_sec, hsec]
    rfl
  · rw [Package.raise_rd _ _ _ _ _ (by decide) (by decide), hres, Package.spent_result _ (by omega)]
  · rw [Package.raise_get _ _ _ _ _ (by decide) (by decide), hrev]
  · rw [Package.raise_get _ _ _ _ _ (by decide) (by decide), hlc]

/-- What a rejected token leaves shown. -/
theorem submitToken_refusal (hfw : p.hubRuns = true) (hc : tokenCause q p p.token o n ≠ 0) :
    ∃ r : Package, submitToken o n q p = (q, r) ∧ r.sec.nonce = false
      ∧ r.rd SEC_TOKEN_RESULT = tokenKind p.token % 8 + 16 * tokenCause q p p.token o n
      ∧ bitAt (r.rd (IRQ_STATUS .sec)) EV_SEC_TOKEN_REJECTED = true := by
  obtain ⟨r, hr, h⟩ := submitToken_rejected hfw hc
  have hle := tokenCause_le q p p.token o n
  refine ⟨_, h, ?_, ?_, Package.raise_status _ _ _ _ _ (by decide)⟩
  · rw [Package.raise_sec, hr]
    rfl
  · rw [Package.raise_rd _ _ _ _ _ (by decide) (by decide), hr, Package.spent_result _ (by omega)]

/-- A kind of token other than debug that moves the fuses. -/
theorem submitKind_shows {kind : Nat} (hkind : tokenKind p.token = kind) (hdbg : kind ≠ TK_DEBUG) (hfw : p.hubRuns = true)
    (hc : tokenCause q p p.token o n = 0) : ∃ r : Package, submitKind kind o n q p = (tokenPart q kind (fieldAt p.token 5 1), r) ∧ r.sec.nonce = false
      ∧ r.rd SEC_TOKEN_RESULT = kind % 8 + 8 ∧ r.get SEC_STATUS_REVOKED = (tokenPart q kind (fieldAt p.token 5 1)).revoked % 16
      ∧ r.get SEC_STATUS_PENDING_LC = (tokenPart q kind (fieldAt p.token 5 1)).pendingLc.getD 7 % 8 := by
  subst hkind
  rw [submitKind, if_pos rfl]
  exact submitToken_shows hfw hc hdbg

theorem Package.raise_mr (p : Package) (g : Page) (ev a0 a1 m : Nat) (hg : ∀ i, SEC_MR i ≠ IRQ_STATUS g) : (p.raise g ev a0 a1).mr m = p.mr m :=
  Package.mr_congr m fun i => p.raise_rd g ev a0 a1 (by unfold evtRegs PKG_EVT_SEQ PKG_EVT_STATUS PKG_EVT_LOST SEC_MR; simp; omega) (hg i)

theorem secMr_ne_irq (i : Nat) : SEC_MR i ≠ IRQ_STATUS .sec := by
  unfold SEC_MR
  change _ ≠ 0xF060
  omega

theorem secMr_ne_status (i : Nat) : SEC_STATUS ≠ SEC_MR i := by
  unfold SEC_MR SEC_STATUS
  omega

theorem secMr_ne_result (i : Nat) : SEC_TOKEN_RESULT ≠ SEC_MR i := by
  unfold SEC_MR SEC_TOKEN_RESULT
  omega

end

/-- One word of a nonce is drawn and shown. -/
def Package.nonceWord (p : Package) (w : Nat) : Package := p.draw.2.wr (SEC_NONCE w) p.draw.1.toNat

theorem Package.nonceWord_rd_ne (p : Package) {w v : Nat} (h : v ≠ w) : (p.nonceWord w).rd (SEC_NONCE v) = p.rd (SEC_NONCE v) :=
  Package.rd_wr_ne _ _ (by unfold SEC_NONCE; omega)

theorem Package.nonceWord_rd_same (p : Package) (w : Nat) : (p.nonceWord w).rd (SEC_NONCE w) = (Config.freeWord p.fresh).toNat :=
  (Package.rd_wr_same _ _ _).trans (Nat.mod_eq_of_lt (Config.freeWord p.fresh).isLt)

/-- The first words of a nonce are the free words from `fresh` on. -/
theorem Package.nonceWords_rd (p : Package) (n : Nat) : ((List.range n).foldl Package.nonceWord p).fresh = p.fresh + n
    ∧ ∀ w, w < n → ((List.range n).foldl Package.nonceWord p).rd (SEC_NONCE w) = (Config.freeWord (p.fresh + w)).toNat := by
  induction n with
  | zero => exact ⟨rfl, fun w hw => absurd hw (Nat.not_lt_zero w)⟩
  | succ n ih =>
    obtain ⟨hfresh, hwords⟩ := ih
    rw [List.range_succ, List.foldl_append, List.foldl_cons, List.foldl_nil]
    refine ⟨congrArg (· + 1) hfresh, fun w hw => ?_⟩
    by_cases hwn : w = n
    · rw [hwn, Package.nonceWord_rd_same, hfresh]
    · rw [Package.nonceWord_rd_ne _ hwn, hwords w (by omega)]

theorem newNonce_eq {p : Package} (h : p.hubRuns = true) :
    newNonce p = ((List.range 4).foldl Package.nonceWord p).modSec (fun s => { s with nonce := true }) := by
  unfold newNonce
  rw [h]
  rfl

/-- Settles O52, by the token's kind and its cause. -/
theorem tokensMoveTheLifeCycle : Obligations.TokensMoveTheLifeCycle := by
  unfold Obligations.TokensMoveTheLifeCycle
  refine ⟨?nonce, ?ret, ?debug, ?revoke, ?deploy, ?ended, ?rejected, ?other, ?reserved⟩
  case nonce =>
    intro s h
    refine ⟨{ s with pkg := newNonce s.pkg }, rfl, ?_⟩
    rw [newNonce_eq h]
    exact ⟨rfl, rfl, fun w hw => (Package.modSec_rd _ _ _).trans ((s.pkg.nonceWords_rd 4).2 w hw)⟩
  case ret =>
    intro s o n hfw hkind hc
    obtain ⟨r, h, hnonce, hres, hrev, hlc⟩ := submitKind_shows hkind (by decide) hfw hc
    exact ⟨_, onBoth_eq h, rfl, hnonce, hres, hlc⟩
  case debug =>
    intro s o hfw hkind hc
    obtain ⟨r, u, hr, hu, h⟩ := submitToken_debug hfw hc hkind
    refine ⟨_, onBoth_eq ((if_pos hkind).trans h), rfl, ?_, ?_, ?_, ?_⟩
    all_goals dsimp only
    · rw [Package.raise_has _ _ _ _ _ (by decide) (by decide), hu, Package.raise_has _ _ _ _ _ (by decide) (by decide)]
      exact Package.has_put_one _ rfl (by decide)
    · rw [Package.raise_sec, hu, Package.raise_sec, hr]
      rfl
    · rw [Package.raise_rd _ _ _ _ _ (by decide) (by decide), hu, Package.raise_rd _ _ _ _ _ (by decide) (by decide), Package.rd_put_ne _ _ _ (by decide),
        Package.extendMr_rd _ _ _ (fun i => (secMr_ne_result i).symm), hr, (Package.showFuses_shown _ _).2.2.1, Package.spent_result _ (by omega), hkind]
      rfl
    · rw [Package.raise_mr _ _ _ _ _ _ secMr_ne_irq, hu, Package.raise_mr _ _ _ _ _ _ secMr_ne_irq,
        Package.mr_congr 0 (fun i => Package.rd_put_ne _ _ _ (secMr_ne_status i)), Package.extendMr_mr]
      have hsame : r.mr 0 = s.pkg.mr 0 := by
        rw [hr]
        refine Package.mr_congr 0 fun i => ?_
        unfold Package.showFuses Package.spent
        rw [Package.rd_put_ne _ _ _ (secMr_ne_status i), Package.rd_put_ne _ _ _ (secMr_ne_status i), Package.rd_wr_ne _ _ (secMr_ne_result i)]
        rfl
      rw [hsame]
  case revoke =>
    intro s n hfw hkind hc
    obtain ⟨r, h, hnonce, hres, hrev, hlc⟩ := submitKind_shows hkind (by decide) hfw hc
    exact ⟨_, onBoth_eq h, rfl, hnonce, hres, hrev⟩
  case deploy =>
    intro s o hfw hkind hc
    obtain ⟨r, h, hnonce, hres, hrev, hlc⟩ := submitKind_shows hkind (by decide) hfw hc
    exact ⟨_, onBoth_eq h, rfl, hres⟩
  case ended =>
    intro s o n hfw hkind hc
    obtain ⟨r, h, hnonce, hres, hrev, hlc⟩ := submitKind_shows hkind (by decide) hfw hc
    exact ⟨_, onBoth_eq h, rfl, hres⟩
  case rejected =>
    intro s o n hfw hkind hc
    obtain ⟨r, h, hnonce, hres, hirq⟩ := submitToken_refusal hfw hc
    refine ⟨_, onBoth_eq ((if_pos hkind).trans h), rfl, hnonce, ?_, hirq⟩
    rw [hres, hkind]
    rfl
  case other =>
    intro s o n hkind
    exact onBoth_same (if_neg hkind)
  case reserved =>
    intro s hfw hkind
    have hc : tokenCause s.part s.pkg s.pkg.token false false = 1 := by
      unfold tokenCause
      exact if_pos (by rcases hkind with h | h <;> simp [h])
    obtain ⟨r, h, hnonce, hres, hirq⟩ := submitToken_refusal hfw (fun h0 => Nat.one_ne_zero (hc.symm.trans h0))
    refine ⟨_, onBoth_eq ((if_pos (by simpa using hkind)).trans h), rfl, hnonce, ?_, hirq⟩
    rw [hres, hc]

end Sys2Proof.Machine

/-! ### Stack temperature and scrub (R225, R226, R228) -/

namespace Sys2Proof.Machine

/-- The registers of a stack's page past its summary are none that a report writes. -/
theorem memReg_not_report {k o : Nat} (hk : k < 32) (ho : 0x78 < o) : 0x10000000 + 0x100000 * k + o ∉ reportRegs (.mem k) (k / 4) := by
  have hd : k / 4 ≠ 8 := by omega
  simp only [reportRegs, evtRegs, ERR_SUMMARY, IRQ_STATUS, Page.base, ERR_STATUS, ERR_LOG_TAIL, ERR_COALESCED, ERR_LOST_CORR, ERR_LOST_UNCORR,
    ERR_LOST_FATAL, pageERR, pageD, PKG_EVT_SEQ, PKG_EVT_STATUS, PKG_EVT_LOST, List.mem_append, List.mem_cons, List.not_mem_nil, or_false, not_or, hd,
    if_false]
  omega

theorem memIrq_not_report {k : Nat} (hk : k < 32) : IRQ_STATUS (.mem k) ∉ reportRegs (.mem k) (k / 4) := by
  have hd : k / 4 ≠ 8 := by omega
  simp only [reportRegs, evtRegs, ERR_SUMMARY, IRQ_STATUS, Page.base, ERR_STATUS, ERR_LOG_TAIL, ERR_COALESCED, ERR_LOST_CORR, ERR_LOST_UNCORR,
    ERR_LOST_FATAL, pageERR, pageD, PKG_EVT_SEQ, PKG_EVT_STATUS, PKG_EVT_LOST, List.mem_append, List.mem_cons, List.not_mem_nil, or_false, not_or, hd,
    if_false]
  omega

/-- Nor is one of them a register that an event of the page writes. -/
theorem memReg_not_event (k : Nat) {o : Nat} (ho : 0x60 < o) :
    0x10000000 + 0x100000 * k + o ∉ evtRegs ∧ 0x10000000 + 0x100000 * k + o ≠ IRQ_STATUS (.mem k) := by
  simp only [evtRegs, IRQ_STATUS, Page.base, PKG_EVT_SEQ, PKG_EVT_STATUS, PKG_EVT_LOST, List.mem_cons, List.not_mem_nil, or_false, not_or]
  omega

theorem mem_insertRising (x : Nat) (l : List Nat) : x ∈ insertRising x l := by
  induction l with
  | nil => exact List.mem_singleton_self x
  | cons y ys ih =>
    unfold insertRising
    split
    · next h => exact h ▸ List.mem_cons_self
    · split
      · exact List.mem_cons_self
      · exact List.mem_cons_of_mem y ih

@[simp] theorem Package.pass_stackFitted (p : Package) (dt k : Nat) : (p.pass dt).stackFitted k = p.stackFitted k := by
  unfold Package.stackFitted
  rw [Package.pass_variant]

@[simp] theorem Package.pass_poisoned (p : Package) (dt x : Nat) : (p.pass dt).poisoned x = p.poisoned x := by
  unfold Package.poisoned
  rw [Package.pass_poison]

/-- The package once a reading of a stack's temperature shows. -/
def Package.showThermal (p : Package) (k temp : Nat) (cap : Bool) : Package :=
  ((p.put (MEM_STATUS_TEMP k) temp).put (MEM_STATUS_REFRESH_2X k) (b2n (decide (85 < temp)))).put (MEM_STATUS_THERMAL_CAP k) (b2n cap)

theorem Package.showThermal_shown (p : Package) {temp : Nat} (k : Nat) (cap : Bool) (ht : temp < 256) :
    (p.showThermal k temp cap).get (MEM_STATUS_TEMP k) = temp ∧ (p.showThermal k temp cap).has (MEM_STATUS_REFRESH_2X k) = decide (85 < temp)
      ∧ (p.showThermal k temp cap).has (MEM_STATUS_THERMAL_CAP k) = cap := by
  have h64 : ∀ lo len, lo + len ≤ 16 → lo + len ≤ 64 := fun _ _ h => by omega
  refine ⟨?_, ?_, Package.has_put_b2n _ cap rfl (h64 2 1 (by decide))⟩
  · refine (Package.get_put_disjoint _ _ _ _ (h64 8 8 (by decide)) (.inr (show 2 + 1 ≤ 8 by decide))).trans ?_
    refine (Package.get_put_disjoint _ _ _ _ (h64 8 8 (by decide)) (.inr (show 1 + 1 ≤ 8 by decide))).trans ?_
    exact (Package.get_put_same _ _ _ (h64 8 8 (by decide))).trans (Nat.mod_eq_of_lt ht)
  · exact (Package.has_put_disjoint _ _ (h64 1 1 (by decide)) (.inl (show 1 + 1 ≤ 2 by decide))).trans (Package.has_put_b2n _ _ rfl (h64 1 1 (by decide)))

/-- Capping begins at 93 °C and ends below 90 °C. -/
def thermalCap (temp : Nat) (was : Bool) : Bool := if 93 ≤ temp then true else if temp < 90 then false else was

theorem thermalCap_eq (temp : Nat) (was : Bool) : thermalCap temp was = (decide (93 ≤ temp) || (decide (90 ≤ temp) && was)) := by
  unfold thermalCap
  split
  · next h => rw [decide_eq_true h, Bool.true_or]
  · next h =>
    rw [decide_eq_false h, Bool.false_or]
    split
    · next h' => rw [decide_eq_false (Nat.not_le.mpr h'), Bool.false_and]
    · next h' => rw [decide_eq_true (Nat.not_lt.mp h'), Bool.true_and]

theorem stackThermal_eq {p : Package} {k : Nat} (h : p.stackFitted k = true) (dt temp : Nat) :
    ∃ r : Package, r = (p.pass dt).showThermal k temp (thermalCap temp (p.has (MEM_STATUS_THERMAL_CAP k)))
      ∧ stackThermal dt k temp p = if thermalCap temp (p.has (MEM_STATUS_THERMAL_CAP k)) && !p.has (MEM_STATUS_THERMAL_CAP k)
        then r.raise (.mem k) EV_MEM_THERMAL_CAP r.beatNo (arg1Of k 0) else r := by
  refine ⟨_, rfl, ?_⟩
  unfold stackThermal
  simp only [Package.pass_stackFitted, h, Package.pass_has]
  rfl

theorem physStack_line {k ofs : Nat} (h : ofs < 2 ^ 36) : physStack (k * 2 ^ 36 + ofs) = k := by
  unfold physStack
  omega

/-- A scrub read of a reachable line before the stack's last one is that line's read. -/
theorem scrubRead_line {p : Package} {k ofs : Nat} (hfit : p.stackFitted k = true) (hfence : p.dieFenced (k / 4) = false) (hofs : ofs < 2 ^ 36)
    (dt : Nat) (found : LineCheck) : scrubRead dt k ofs found p = if ofs / 64 = 2 ^ 30 - 1
      then ((p.pass dt).lineRead (k * 2 ^ 36 + ofs) MEM_BY_SCRUB found).bump64 (MEM_SCRUB_PASSES k) 1
      else (p.pass dt).lineRead (k * 2 ^ 36 + ofs) MEM_BY_SCRUB found := by
  have hreach : (!p.stackFitted k || p.dieFenced (k / 4) || decide (2 ^ 36 ≤ ofs)) = false := by
    rw [hfit, hfence, decide_eq_false (Nat.not_le.mpr hofs)]
    rfl
  unfold scrubRead
  dsimp only
  rw [Package.pass_stackFitted, Package.pass_dieFenced, if_neg (ne_true_of_eq_false hreach)]

theorem Package.lineRead_corrected {p : Package} {x : Nat} (h : p.poisoned x = false) (cls : Nat) : p.lineRead x cls .corrected = p.lineCorrected x := by
  unfold Package.lineRead
  dsimp only
  rw [if_neg (ne_true_of_eq_false h)]

/-- A corrected error is counted. -/
theorem Package.lineCorrected_count (p : Package) {x k : Nat} (hx : physStack x = k) (hk : k < 32) :
    (p.lineCorrected x).rd (MEM_CE_COUNT k) = (p.rd (MEM_CE_COUNT k) + 1) % 2 ^ 64 := by
  unfold Package.lineCorrected
  rw [hx]
  exact (Package.report_rd _ _ _ _ _ _ _ _ _ (memReg_not_report hk (by decide))).trans (p.rd_bump64 _ 1)

/-- An uncorrectable line is poisoned, counted and named. -/
theorem Package.linePoisoned_shown {p : Package} {x k : Nat} (hx : physStack x = k) (hk : k < 32) {cls : Nat} (hcls : cls < 16) (h : p.poisoned x = false) :
    (p.linePoisoned x cls).mem = p.mem ∧ (p.linePoisoned x cls).poisoned x = true
      ∧ (p.linePoisoned x cls).rd (MEM_UE_COUNT k) = (p.rd (MEM_UE_COUNT k) + 1) % 2 ^ 64
      ∧ (p.linePoisoned x cls).rd (MEM_UE_LAST k) = x % 2 ^ 36 / 64 * 64 + 2 ^ 36 * cls
      ∧ bitAt ((p.linePoisoned x cls).rd (IRQ_STATUS (.mem k))) EV_MEM_UNCORRECTABLE = true := by
  have hne : MEM_UE_LAST k ≠ MEM_UE_COUNT k := by
    unfold MEM_UE_LAST MEM_UE_COUNT
    omega
  have hue := memReg_not_event k (o := 0x130) (by decide)
  have hlast := memReg_not_event k (o := 0x138) (by decide)
  unfold Package.linePoisoned
  rw [if_neg (ne_true_of_eq_false h), hx]
  dsimp only
  refine ⟨?_, ?_, ?_, ?_, ?_⟩
  · rw [Package.report_mem, Package.raise_mem]
    rfl
  · rw [Package.poisoned, Package.report_poison, Package.raise_poison]
    exact List.contains_iff_mem.mpr (mem_insertRising _ _)
  · rw [MEM_UE_COUNT, Package.report_rd _ _ _ _ _ _ _ _ _ (memReg_not_report hk (by decide)), Package.raise_rd _ _ _ _ _ hue.1 hue.2]
    exact (Package.rd_wr_ne _ _ hne).trans (Package.rd_bump64 _ _ 1)
  · rw [MEM_UE_LAST, Package.report_rd _ _ _ _ _ _ _ _ _ (memReg_not_report hk (by decide)), Package.raise_rd _ _ _ _ _ hlast.1 hlast.2]
    refine (Package.rd_wr_same _ _ _).trans (Nat.mod_eq_of_lt ?_)
    omega
  · rw [Package.report_rd _ _ _ _ _ _ _ _ _ (memIrq_not_report hk)]
    exact Package.raise_status _ _ _ _ _ (by decide)

/-- Settles O19, by the reading and by what a line's check found. -/
theorem stackUpkeep : Obligations.StackUpkeep := by
  unfold Obligations.StackUpkeep
  refine ⟨?thermal, ?capped, ?clean, ?corrected, ?uncorrectable⟩
  case thermal =>
    intro s dt k temp hk hfit ht
    obtain ⟨r, hr, h⟩ := stackThermal_eq hfit dt temp
    obtain ⟨htemp, hrefresh, hcap⟩ := (s.pkg.pass dt).showThermal_shown k (thermalCap temp (s.pkg.has (MEM_STATUS_THERMAL_CAP k))) ht
    have hevt := memReg_not_event k (o := 0x108) (by decide)
    refine ⟨{ s with pkg := stackThermal dt k temp s.pkg }, rfl, ?_⟩
    rw [← hr] at htemp hrefresh hcap
    rw [← thermalCap_eq, ← hcap]
    have hmem : r.mem = s.pkg.mem := by
      rw [hr]
      exact s.pkg.pass_mem dt
    dsimp only
    rw [h]
    split
    · exact ⟨(Package.raise_get _ _ _ _ _ hevt.1 hevt.2).trans htemp, (Package.raise_has _ _ _ _ _ hevt.1 hevt.2).trans hrefresh,
        Package.raise_has _ _ _ _ _ hevt.1 hevt.2, (Package.raise_mem _ _ _ _ _).trans hmem⟩
    · exact ⟨htemp, hrefresh, rfl, hmem⟩
  case capped =>
    intro s dt k temp hk hfit h93 ht hwas
    obtain ⟨r, hr, h⟩ := stackThermal_eq hfit dt temp
    have hrises : (thermalCap temp (s.pkg.has (MEM_STATUS_THERMAL_CAP k)) && !s.pkg.has (MEM_STATUS_THERMAL_CAP k)) = true := by
      rw [hwas, thermalCap, if_pos h93]
      rfl
    refine ⟨{ s with pkg := stackThermal dt k temp s.pkg }, rfl, ?_⟩
    dsimp only
    rw [h, if_pos hrises]
    exact Package.raise_status _ _ _ _ _ (by decide)
  case clean =>
    intro s dt k ofs hfit hfence hofs
    refine ⟨{ s with pkg := scrubRead dt k ofs .clean s.pkg }, rfl, ?_⟩
    dsimp only
    rw [scrubRead_line hfit hfence hofs]
    change (if _ then (s.pkg.pass dt).bump64 _ 1 else s.pkg.pass dt).mem = _ ∧ (if _ then (s.pkg.pass dt).bump64 _ 1 else s.pkg.pass dt).poison = _
      ∧ (if _ then (s.pkg.pass dt).bump64 _ 1 else s.pkg.pass dt).rd _ = _
    split
    · exact ⟨s.pkg.pass_mem dt, s.pkg.pass_poison dt, by rw [Package.rd_bump64, Package.pass_rd]⟩
    · exact ⟨s.pkg.pass_mem dt, s.pkg.pass_poison dt, s.pkg.pass_rd dt _⟩
  case corrected =>
    intro s dt k ofs hk hfit hfence hline hpoison
    have hofs : ofs < 2 ^ 36 := by omega
    refine ⟨{ s with pkg := scrubRead dt k ofs .corrected s.pkg }, rfl, ?_⟩
    dsimp only
    rw [scrubRead_line hfit hfence hofs, if_neg (by omega), Package.lineRead_corrected ((s.pkg.pass_poisoned dt _).trans hpoison),
      Package.lineCorrected_count _ (physStack_line hofs) hk, Package.pass_rd]
    refine ⟨?_, ?_, rfl⟩
    · rw [Package.lineCorrected, Package.report_mem]
      exact s.pkg.pass_mem dt
    · rw [Package.lineCorrected, Package.report_poison]
      exact s.pkg.pass_poison dt
  case uncorrectable =>
    intro s dt k ofs hk hfit hfence hline hpoison
    have hofs : ofs < 2 ^ 36 := by omega
    refine ⟨{ s with pkg := scrubRead dt k ofs .uncorrectable s.pkg }, rfl, ?_⟩
    obtain ⟨hmem, hpois, hcount, hlast, hirq⟩ := Package.linePoisoned_shown (physStack_line hofs) hk (cls := MEM_BY_SCRUB) (by decide)
      ((s.pkg.pass_poisoned dt _).trans hpoison)
    have hofs' : (k * 2 ^ 36 + ofs) % 2 ^ 36 = ofs := by omega
    rw [hofs'] at hlast
    rw [Package.pass_rd] at hcount
    rw [Package.pass_mem] at hmem
    dsimp only
    rw [scrubRead_line hfit hfence hofs, if_neg (by omega)]
    exact ⟨hmem, hpois, hcount, hlast, hirq⟩

end Sys2Proof.Machine

/-! ### Messages received and forwarded (R295, R297, R298) -/

namespace Sys2Proof.Machine

section
variable {p : Package} {m : Msg}

theorem messageReceive_lost (dt k : Nat) (m : Msg) (p : Package) : messageReceive dt k m false p = (p.pass dt).bump64 (LNK_MSGS_LOST k) 1 := rfl

theorem messageReceive_stays (dt k : Nat) (h : m.cls = CLS_BEAT ∨ bitAt m.dest 15 = true) (p : Package) : messageReceive dt k m true p = p.pass dt := by
  unfold messageReceive
  dsimp only
  rw [if_neg (by decide), if_pos (by simpa using h)]

/-- A message that is neither of the BEAT class nor on a path. -/
theorem messageReceive_routed (dt k : Nat) (hcls : m.cls ≠ CLS_BEAT) (hdest : bitAt m.dest 15 = false) (p : Package) :
    messageReceive dt k m true p = if p.has LNK_NODE_VALID && decide (m.dest = p.node)
      then (if m.cls = CLS_EVENT then (p.pass dt).eventToHost m else p.pass dt)
      else if m.hops = 0 then (p.pass dt).bump64 LNK_HOP_EXPIRED 1
      else match (p.pass dt).pickRoute m.dest m.cls with
        | some j => if m.cls = CLS_HOST_REQ
            then (((p.pass dt).enqueue j { m with hops := m.hops - 1 }).bump64 LNK_FWD_BYTES (32 + m.len)).bump64 LNK_HOST_REQS 1
            else ((p.pass dt).enqueue j { m with hops := m.hops - 1 }).bump64 LNK_FWD_BYTES (32 + m.len)
        | none => (p.pass dt).noRoute m.dest := by
  unfold messageReceive
  dsimp only
  rw [if_neg (by decide), if_neg (by simp [hcls, hdest]), Package.pass_has, Package.pass_node] <;> rfl

theorem notHere (h : p.has LNK_NODE_VALID = false ∨ m.dest ≠ p.node) : (p.has LNK_NODE_VALID && decide (m.dest = p.node)) = false := by
  rcases h with h | h
  · rw [h, Bool.false_and]
  · rw [decide_eq_false h, Bool.and_false]

end

/-- Settles O30, by the message's header, destination and hops. -/
theorem messagesReceived : Obligations.MessagesReceived := by
  unfold Obligations.MessagesReceived
  refine ⟨?lost, ?stays, ?here, ?expired, ?forwarded⟩
  case lost =>
    intro s dt k m
    refine ⟨{ s with pkg := messageReceive dt k m false s.pkg }, rfl, ?_⟩
    rw [messageReceive_lost]
    exact ⟨by rw [Package.rd_bump64, Package.pass_rd], s.pkg.pass_lnk dt⟩
  case stays => exact fun s dt k m h => next_pkg_congr (messageReceive_stays dt k h s.pkg)
  case here =>
    intro s dt k m hcls hvalid hnode
    refine next_pkg_congr ?_
    by_cases hstay : m.cls = CLS_BEAT ∨ bitAt m.dest 15 = true
    · exact messageReceive_stays dt k hstay s.pkg
    · obtain ⟨hbeat, hpath⟩ := not_or.mp hstay
      rw [messageReceive_routed dt k hbeat (eq_false_of_ne_true hpath), hvalid, decide_eq_true hnode, Bool.and_self, if_pos rfl, if_neg hcls]
  case expired =>
    intro s dt k m hbeat hpath hother hhops
    refine ⟨{ s with pkg := messageReceive dt k m true s.pkg }, rfl, ?_⟩
    dsimp only
    rw [messageReceive_routed dt k hbeat hpath, if_neg (ne_true_of_eq_false (notHere hother)), if_pos hhops]
    exact ⟨by rw [Package.rd_bump64, Package.pass_rd], s.pkg.pass_lnk dt⟩
  case forwarded =>
    intro s dt k j m hbeat hreq hpath hother hhops hroute
    refine next_pkg_congr ?_
    rw [messageReceive_routed dt k hbeat hpath, if_neg (ne_true_of_eq_false (notHere hother)), if_neg hhops, hroute]
    exact if_neg hreq

end Sys2Proof.Machine

/-! ### Flits (R289, R290, R293, R294) -/

namespace Sys2Proof.Machine

/-! #### The two fields that every flit carries -/

section
variable (l : Link) (f : WireFlit)

theorem Link.takeFields_shape : ∃ r n v, l.takeFields f = { l with replay := r, toResend := n, vcs := v } := by
  unfold Link.takeFields
  extract_lets r c l'
  split
  · exact ⟨r, min l.toResend r.length, _, rfl⟩
  · exact ⟨r, min l.toResend r.length, l.vcs, rfl⟩

@[simp] theorem Link.takeFields_accepted : (l.takeFields f).accepted = l.accepted := by
  obtain ⟨r, n, v, h⟩ := l.takeFields_shape f
  rw [h]
@[simp] theorem Link.takeFields_expected : (l.takeFields f).expected = l.expected := by
  unfold Link.expected
  rw [Link.takeFields_accepted]
@[simp] theorem Link.takeFields_nakOwed : (l.takeFields f).nakOwed = l.nakOwed := by
  obtain ⟨r, n, v, h⟩ := l.takeFields_shape f
  rw [h]
@[simp] theorem Link.takeFields_nakAfter : (l.takeFields f).nakAfter = l.nakAfter := by
  obtain ⟨r, n, v, h⟩ := l.takeFields_shape f
  rw [h]
@[simp] theorem Link.takeFields_freedHere : (l.takeFields f).freedHere = l.freedHere := by
  obtain ⟨r, n, v, h⟩ := l.takeFields_shape f
  rw [h]

end

/-- A failure owes a NAK unless one went out within 8 µs. -/
theorem Link.fail_owes {l : Link} {now : Nat} (h : l.nakAfter ≤ now) :
    l.fail now = { l with gap := true, nakOwed := true, nakAfter := now + 8 * Config.usUnits } := if_pos h

@[simp] theorem Package.port_modPort (p : Package) (k : Nat) (f : Link → Link) : (p.modPort k f).port k = f (p.port k) := p.port_setPort k _

@[simp] theorem Package.modPort_rd (p : Package) (k : Nat) (f : Link → Link) (a : Nat) : (p.modPort k f).rd a = p.rd a := rfl

@[simp] theorem Package.modPort_clock (p : Package) (k : Nat) (f : Link → Link) : (p.modPort k f).clock = p.clock := rfl

@[simp] theorem Package.modPort_get (p : Package) (k : Nat) (f : Link → Link) (g : Fld) : (p.modPort k f).get g = p.get g := rfl

@[simp] theorem Package.modPort_linkUp (p : Package) (k j : Nat) (f : Link → Link) : (p.modPort k f).linkUp j = p.linkUp j := rfl

@[simp] theorem Package.modPort_linkState (p : Package) (k j : Nat) (f : Link → Link) : (p.modPort k f).linkState j = p.linkState j := rfl

/-! #### Receiving -/

section
variable {p : Package} {k : Nat}

theorem dataFlit_failed (h : p.linkUp k = true) (dt : Nat) (f : WireFlit) :
    dataFlitReceive dt k f false p = ((p.pass dt).bump64 (LNK_CRC_FAIL k) 1).modPort k (fun l => l.fail (p.clock + dt)) := by
  unfold dataFlitReceive
  simp only [Package.pass_linkUp, h, Bool.not_true, Bool.not_false, Bool.false_eq_true, if_false, if_true, Package.pass_clock]

theorem idleFlit_failed (h : p.linkUp k = true) (dt : Nat) (f : WireFlit) :
    idleFlitReceive dt k f false p = ((p.pass dt).bump64 (LNK_CRC_FAIL k) 1).modPort k (fun l => l.fail (p.clock + dt)) := by
  unfold idleFlitReceive
  simp only [Package.pass_linkUp, h, Bool.not_true, Bool.not_false, Bool.false_eq_true, if_false, if_true, Package.pass_clock]

theorem idleFlit_good (h : p.linkUp k = true) (dt : Nat) (f : WireFlit) :
    idleFlitReceive dt k f true p = (p.pass dt).modPort k (fun l => l.takeFields f) := by
  unfold idleFlitReceive
  simp only [Package.pass_linkUp, h, Bool.not_true, Bool.false_eq_true, if_false]

/-- A DATA flit whose CRC is good. -/
theorem dataFlit_good (h : p.linkUp k = true) (dt : Nat) (f : WireFlit) : ∃ q : Package, q = (p.pass dt).modPort k (fun l => l.takeFields f)
    ∧ dataFlitReceive dt k f true p = if f.seq = (p.port k).expected then (q.bump64 (LNK_FLITS_RX k) 1).modPort k (fun l => l.accept f)
      else if ((p.port k).expected + 2 ^ 14 - f.seq) % 2 ^ 14 ≤ 2 ^ 13 then q else q.modPort k (fun l => l.fail (p.clock + dt)) := by
  refine ⟨_, rfl, ?_⟩
  unfold dataFlitReceive
  simp only [Package.pass_linkUp, h, Bool.not_true, Bool.false_eq_true, if_false, Package.port_modPort, Package.pass_port, Link.takeFields_expected,
    Package.modPort_clock, Package.pass_clock]

theorem nakReceive_eq (h : p.linkUp k = true) (dt : Nat) (f : WireFlit) : ∃ q : Package,
    q = ((p.pass dt).modPort k (fun l => l.takeFields f)).modPort k (fun l => { l with toResend := l.replay.length })
    ∧ nakReceive dt k f true p = if (q.port k).replay.any (fun t => decide (4 ≤ t.resends)) then q.startRetrain k else q := by
  refine ⟨_, rfl, ?_⟩
  unfold nakReceive
  simp only [idleFlit_good h, Package.modPort_linkUp, Package.pass_linkUp, h, Bool.not_true, Bool.or_self, Bool.false_eq_true, if_false]

theorem Package.setLinkState_linkState (p : Package) (k : Nat) {st : Nat} (h : st < 8) : (p.setLinkState k st).linkState k = st := by
  have hne : LNK_UP ≠ (LNK_STATUS_STATE k).addr := by
    change LNK_UP ≠ LNK_STATUS k
    unfold LNK_UP LNK_STATUS
    omega
  unfold Package.linkState Package.setLinkState Package.setBit
  exact (Package.get_put_ne _ _ _ _ hne).trans ((Package.get_put_same _ _ _ (show 0 + 3 ≤ 64 by decide)).trans (Nat.mod_eq_of_lt h))

theorem linkStatus_not_event (k : Nat) : LNK_STATUS k ∉ evtRegs ∧ LNK_STATUS k ≠ IRQ_STATUS (.lnk k) := by
  simp only [evtRegs, IRQ_STATUS, Page.base, PKG_EVT_SEQ, PKG_EVT_STATUS, PKG_EVT_LOST, LNK_STATUS, List.mem_cons, List.not_mem_nil, or_false, not_or]
  omega

theorem Package.raise_linkState (p : Package) (k ev a0 a1 : Nat) : (p.raise (.lnk k) ev a0 a1).linkState k = p.linkState k :=
  p.raise_get (.lnk k) ev a0 a1 (linkStatus_not_event k).1 (linkStatus_not_event k).2

/-- An UP link that retrains is in RETRAINING. -/
theorem Package.startRetrain_state (h : p.linkUp k = true) : (p.startRetrain k).linkState k = LINK_RETRAINING := by
  have hctrl : (LNK_CTRL_RETRAIN k).addr ≠ (LNK_STATUS_STATE k).addr := by
    change LNK_CTRL k ≠ LNK_STATUS k
    unfold LNK_CTRL LNK_STATUS
    omega
  have hcount : LNK_RETRAINS k ≠ (LNK_STATUS_STATE k).addr := by
    change LNK_RETRAINS k ≠ LNK_STATUS k
    unfold LNK_RETRAINS LNK_STATUS
    omega
  unfold Package.startRetrain
  rw [if_pos h]
  extract_lets q
  rw [Package.raise_linkState, Package.linkState, Package.get_bump64_ne _ 1 hcount]
  unfold q
  rw [Package.modPort_get, Package.get_put_ne _ _ _ _ hctrl]
  exact p.setLinkState_linkState k (by decide)

end

/-- Settles O28, by the flit's CRC and its place in the sequence. -/
theorem flitsReceived : Obligations.FlitsReceived := by
  unfold Obligations.FlitsReceived
  refine ⟨?accepted, ?duplicate, ?gap, ?failed, ?fields⟩
  case accepted =>
    intro s dt k f hup hseq
    obtain ⟨q, hq, h⟩ := dataFlit_good hup dt f
    refine ⟨{ s with pkg := dataFlitReceive dt k f true s.pkg }, rfl, ?_⟩
    dsimp only
    have hport : q.port k = (s.pkg.port k).takeFields f := by rw [hq, Package.port_modPort, Package.pass_port]
    rw [h, if_pos hseq, Package.port_modPort, Package.bump64_port, hport, Package.modPort_rd, Package.rd_bump64, hq, Package.modPort_rd, Package.pass_rd]
    refine ⟨rfl, rfl, ?_, rfl⟩
    rw [Link.accept]
    dsimp only
    rw [listAt_listPut_same, Link.takeFields_freedHere]
  case duplicate =>
    intro s dt k f hup hseq hold
    obtain ⟨q, hq, h⟩ := dataFlit_good hup dt f
    refine ⟨{ s with pkg := dataFlitReceive dt k f true s.pkg }, rfl, ?_⟩
    dsimp only
    rw [h, if_neg hseq, if_pos hold, hq, Package.port_modPort, Package.pass_port, Link.takeFields_accepted, Link.takeFields_nakOwed]
    exact ⟨s.pkg.pass_regs dt, rfl, rfl⟩
  case gap =>
    intro s dt k f hup hseq hnew hnak
    obtain ⟨q, hq, h⟩ := dataFlit_good hup dt f
    refine ⟨{ s with pkg := dataFlitReceive dt k f true s.pkg }, rfl, ?_⟩
    dsimp only
    rw [h, if_neg hseq, if_neg (Nat.not_le.mpr hnew), hq, Package.port_modPort, Package.port_modPort, Package.pass_port,
      Link.fail_owes (by rwa [Link.takeFields_nakAfter])]
    exact ⟨rfl, rfl, rfl, Link.takeFields_accepted _ f⟩
  case failed =>
    intro s dt k f hup hnak
    refine ⟨{ s with pkg := dataFlitReceive dt k f false s.pkg }, { s with pkg := idleFlitReceive dt k f false s.pkg }, rfl, rfl, ?_⟩
    dsimp only
    rw [dataFlit_failed hup, idleFlit_failed hup, Package.port_modPort, Package.bump64_port, Package.pass_port, Link.fail_owes hnak, Package.modPort_rd,
      Package.rd_bump64, Package.pass_rd]
    exact ⟨rfl, rfl, rfl, rfl⟩
  case fields =>
    intro s dt k f hup
    obtain ⟨q, hq, h⟩ := nakReceive_eq hup dt f
    have hport : q.port k = { (s.pkg.port k).takeFields f with toResend := ((s.pkg.port k).takeFields f).replay.length } := by
      rw [hq, Package.port_modPort, Package.port_modPort, Package.pass_port]
    have hqup : q.linkUp k = true := by rw [hq, Package.modPort_linkUp, Package.modPort_linkUp, Package.pass_linkUp, hup]
    refine ⟨{ s with pkg := idleFlitReceive dt k f true s.pkg }, { s with pkg := alignReceive dt k f true s.pkg },
      { s with pkg := nakReceive dt k f true s.pkg }, rfl, rfl, rfl, ?_⟩
    dsimp only
    rw [alignReceive, idleFlit_good hup, Package.port_modPort, Package.port_modPort, Package.port_modPort, Package.pass_port, h, hport, Bool.or_true]
    refine ⟨rfl, s.pkg.pass_regs dt, rfl, fun hfew => ?_, fun hmany hk => ?_⟩
    · rw [if_neg (by simpa using hfew)]
      exact ⟨hport, hqup⟩
    · rw [if_pos (by simpa using hmany)]
      exact Package.startRetrain_state hqup

end Sys2Proof.Machine

/-! ### Flits sent (R289, R290, R294) -/

namespace Sys2Proof.Machine

section
variable {p : Package} {k : Nat}

theorem flitSend_align (h : p.linkUp k = true) (halign : (p.port k).flitCount % 20480 = 0) (dt : Nat) :
    flitSend dt k p = (p.pass dt).setPort k ((p.port k).put ((p.port k).wire 3 0 0 false false 0)) := by
  unfold flitSend
  simp only [Package.pass_linkUp, Package.pass_port, h, Bool.not_true, Bool.false_eq_true, if_false, halign, if_true]

/-- Past the check for an ALIGN: an owed NAK, a resend, a DATA flit or an IDLE. -/
theorem flitSend_later (h : p.linkUp k = true) (halign : (p.port k).flitCount % 20480 ≠ 0) (dt : Nat) :
    flitSend dt k p = if (p.port k).nakOwed
        then (p.pass dt).setPort k ({ p.port k with nakOwed := false }.put ((p.port k).wire 2 0 0 false false 0))
      else if 0 < (p.port k).toResend then ((p.pass dt).setPort k (p.port k).resendNext).bump64 (LNK_REPLAYED k) 1
      else if Config.replayFlits ≤ (p.port k).replay.length then (p.pass dt).setPort k ((p.port k).put ((p.port k).wire 1 0 0 false false 0))
      else match (p.port k).pick (p.rd (LNK_VC_WEIGHT k)) with
        | some (v, rv, rl) => ((p.pass dt).setPort k ((p.port k).sendData v rv rl)).bump64 (LNK_FLITS_TX k) 1
        | none => (p.pass dt).setPort k ((p.port k).put ((p.port k).wire 1 0 0 false false 0)) := by
  unfold flitSend
  simp only [Package.pass_linkUp, Package.pass_port, Package.pass_rd, h, Bool.not_true, Bool.false_eq_true, if_false, halign] <;> rfl

/-- A resent flit keeps its sequence number. -/
theorem Link.resendNext_sends {l : Link} {e : TxFlit} (h : l.replay[l.replay.length - l.toResend]? = some e) :
    ∃ f, l.resendNext.lastFlit = some f ∧ f.typ = 0 ∧ f.seq = e.seq ∧ l.resendNext.toResend = l.toResend - 1 := by
  unfold Link.resendNext
  dsimp only
  rw [h]
  exact ⟨_, rfl, rfl, rfl, rfl⟩

/-- A DATA flit takes the next sequence number and is kept for replay. -/
theorem Link.sendData_sends {l : Link} {v : Nat} {m : Msg} {rest : List Msg} (h : (l.vc v).msgs = m :: rest) (rv rl : Nat) :
    ∃ f, (l.sendData v rv rl).lastFlit = some f ∧ f.typ = 0 ∧ f.seq = l.nextSeq ∧ f.vc = v ∧ (l.sendData v rv rl).nextSeq = (l.nextSeq + 1) % 2 ^ 14
      ∧ (l.sendData v rv rl).replay.length = l.replay.length + 1 := by
  unfold Link.sendData
  rw [h]
  exact ⟨_, rfl, rfl, rfl, rfl, rfl, List.length_append⟩

@[simp] theorem Link.vc_setVc (l : Link) (v : Nat) (c : VcTx) : (l.setVc v c).vc v = c := listAt_listPut_same _ _ _ _

theorem vcStuck_reports (hup : p.linkUp k = true) {v : Nat} (hmsgs : ((p.port k).vc v).msgs ≠ []) (hdry : vcCredit (p.port k) v = 0)
    (hnew : ((p.port k).vc v).dryReported = false) (dt : Nat) : ∃ r : Package,
      r = (p.pass dt).setPort k ((p.port k).setVc v { (p.port k).vc v with dryReported := true })
      ∧ vcStuck dt k v p = r.raise (.lnk k) EV_LNK_VC_STUCK (p.pass dt).beatNo (arg1Of k v) := by
  refine ⟨_, rfl, ?_⟩
  unfold vcStuck
  simp only [Package.pass_linkUp, Package.pass_port, hup, hdry, hnew, List.isEmpty_eq_false_iff.mpr hmsgs, Bool.not_false, decide_true, Bool.and_self, if_true]

end

/-- Settles O29, in the order in which the next flit is chosen. -/
theorem flitsSent : Obligations.FlitsSent := by
  unfold Obligations.FlitsSent
  refine ⟨?align, ?nak, ?resend, ?data, ?idle, ?stuck⟩
  case align =>
    intro s dt k hup halign
    refine ⟨{ s with pkg := flitSend dt k s.pkg }, (s.pkg.port k).wire 3 0 0 false false 0, rfl, ?_⟩
    rw [flitSend_align hup halign, Package.port_setPort]
    exact ⟨rfl, rfl, rfl⟩
  case nak =>
    intro s dt k hup halign hnak
    refine ⟨{ s with pkg := flitSend dt k s.pkg }, (s.pkg.port k).wire 2 0 0 false false 0, rfl, ?_⟩
    rw [flitSend_later hup halign, if_pos hnak, Package.port_setPort]
    exact ⟨rfl, rfl, rfl⟩
  case resend =>
    intro s dt k e hup halign hnak hresend he
    obtain ⟨f, hlast, htyp, hseq, hleft⟩ := Link.resendNext_sends he
    refine ⟨{ s with pkg := flitSend dt k s.pkg }, f, rfl, ?_⟩
    dsimp only
    rw [flitSend_later hup halign, if_neg (ne_true_of_eq_false hnak), if_pos hresend, Package.bump64_port, Package.port_setPort, Package.rd_bump64,
      Package.setPort_rd, Package.pass_rd]
    exact ⟨hlast, htyp, hseq, hleft, rfl⟩
  case data =>
    intro s dt k v rv rl m rest hup halign hnak hresend hroom hpick hmsgs
    obtain ⟨f, hlast, htyp, hseq, hvc, hnext, hlen⟩ := Link.sendData_sends hmsgs rv rl
    refine ⟨{ s with pkg := flitSend dt k s.pkg }, f, rfl, ?_⟩
    dsimp only
    rw [flitSend_later hup halign, if_neg (ne_true_of_eq_false hnak), hresend, if_neg (Nat.lt_irrefl 0), if_neg (Nat.not_le.mpr hroom), hpick]
    dsimp only
    rw [Package.bump64_port, Package.port_setPort, Package.rd_bump64, Package.setPort_rd, Package.pass_rd]
    exact ⟨hlast, htyp, hseq, hvc, hnext, hlen, rfl⟩
  case idle =>
    intro s dt k hup halign hnak hresend hnone
    have hidle : flitSend dt k s.pkg = (s.pkg.pass dt).setPort k ((s.pkg.port k).put ((s.pkg.port k).wire 1 0 0 false false 0)) := by
      rw [flitSend_later hup halign, if_neg (ne_true_of_eq_false hnak), hresend, if_neg (Nat.lt_irrefl 0)]
      split
      · rfl
      · next hroom =>
        rw [hnone.resolve_left hroom]
    refine ⟨{ s with pkg := flitSend dt k s.pkg }, (s.pkg.port k).wire 1 0 0 false false 0, rfl, ?_⟩
    rw [hidle, Package.port_setPort]
    exact ⟨rfl, rfl, rfl⟩
  case stuck =>
    intro s dt k v hk hup hmsgs hdry hnew
    obtain ⟨r, hr, h⟩ := vcStuck_reports hup hmsgs hdry hnew dt
    refine ⟨{ s with pkg := vcStuck dt k v s.pkg }, rfl, ?_⟩
    dsimp only
    rw [h, Package.raise_port, hr, Package.port_setPort, Link.vc_setVc]
    exact ⟨rfl, Package.raise_status _ _ _ _ _ (by decide)⟩

end Sys2Proof.Machine

/-! ### Shroud widths (R318 to R320) -/

namespace Sys2Proof.Machine

/-- A bit written in a register reads back in the field that holds it. -/
theorem Package.bit_setBit (p : Package) {a lo len i : Nat} (b : Bool) (hi : i < len) (h : lo + len ≤ 64) :
    bitAt ((p.setBit a (lo + i) b).get ⟨a, lo, len⟩) i = b := by
  have hin : lo + i ≤ lo + i ∧ lo + i < lo + i + 1 := ⟨Nat.le_refl _, Nat.lt_succ_self _⟩
  unfold Package.setBit Package.put Package.get
  rw [Package.rd_wr_same, bitAt, bitsOf_testBit, Nat.testBit_mod_two_pow, putBits_testBit, if_pos hin, Nat.sub_self, decide_eq_true hi,
    decide_eq_true (show lo + i < 64 by omega)]
  cases b <;> rfl

/-- Another field of the register that a put writes. -/
theorem Package.get_put_apart (p : Package) {a lo len l n : Nat} (v : Nat) (h : l + n ≤ 64) (d : l + n ≤ lo ∨ lo + len ≤ l) :
    (p.put ⟨a, lo, len⟩ v).get ⟨a, l, n⟩ = p.get ⟨a, l, n⟩ := p.get_put_disjoint ⟨a, lo, len⟩ ⟨a, l, n⟩ v h d

/-- The field that a put writes. -/
theorem Package.get_put_self (p : Package) {a lo len : Nat} (v : Nat) (h : lo + len ≤ 64) : (p.put ⟨a, lo, len⟩ v).get ⟨a, lo, len⟩ = v % 2 ^ len :=
  p.get_put_same ⟨a, lo, len⟩ v h

section
variable (p : Package) (j : Nat)

theorem shroudReg_not_report : FAB_SHROUD_STATUS j ∉ reportRegs .fab 8 := by
  simp only [reportRegs, evtRegs, ERR_SUMMARY, IRQ_STATUS, Page.base, ERR_STATUS, ERR_LOG_TAIL, ERR_COALESCED, ERR_LOST_CORR, ERR_LOST_UNCORR,
    ERR_LOST_FATAL, pageERR, pageD, PKG_EVT_SEQ, PKG_EVT_STATUS, PKG_EVT_LOST, FAB_SHROUD_STATUS, List.mem_append, List.mem_cons, List.not_mem_nil,
    or_false, not_or, if_true]
  omega

theorem shroudReg_not_event : FAB_SHROUD_STATUS j ∉ evtRegs ∧ FAB_SHROUD_STATUS j ≠ IRQ_STATUS .fab := by
  simp only [evtRegs, IRQ_STATUS, Page.base, PKG_EVT_SEQ, PKG_EVT_STATUS, PKG_EVT_LOST, FAB_SHROUD_STATUS, List.mem_cons, List.not_mem_nil, or_false,
    not_or]
  omega

theorem shroudReg_ne {a : Nat} (h : a < 0xB200) : a ≠ FAB_SHROUD_STATUS j := by
  unfold FAB_SHROUD_STATUS
  omega

@[simp] theorem Package.shroud_setShroud (x : Shroud) : (p.setShroud j x).shroud j = x := mapGet_mapSet_same _ _ _ _

@[simp] theorem Package.shroud_modShroud (f : Shroud → Shroud) : (p.modShroud j f).shroud j = f (p.shroud j) := p.shroud_setShroud j _

@[simp] theorem Package.setShroud_rd (x : Shroud) (a : Nat) : (p.setShroud j x).rd a = p.rd a := rfl

@[simp] theorem Package.modShroud_rd (f : Shroud → Shroud) (a : Nat) : (p.modShroud j f).rd a = p.rd a := rfl

@[simp] theorem Package.pass_shroud (dt : Nat) : (p.pass dt).shroud j = p.shroud j := by
  unfold Package.shroud
  rw [Package.pass_fab]

@[simp] theorem Package.pass_shroudState (dt : Nat) : (p.pass dt).shroudState j = p.shroudState j := p.pass_get dt _

@[simp] theorem Package.pass_shroudFenced (dt : Nat) : (p.pass dt).shroudFenced j = p.shroudFenced j := by
  unfold Package.shroudFenced Package.dieState
  rw [Package.pass_get, Package.pass_get]

@[simp] theorem Package.pass_hasShroud (dt : Nat) : (p.pass dt).hasShroud j = p.hasShroud j := by
  unfold Package.hasShroud
  rw [Package.pass_variant]

variable {p} {j}

/-- The package has at most twelve shrouds. -/
theorem lt_of_hasShroud (h : p.hasShroud j = true) : j < 12 := by
  unfold Package.hasShroud Variant.shrouds shroudDies at h
  refine Decidable.byContradiction fun hj => ?_
  have h8 : ¬ j < 8 := by omega
  rw [if_neg h8] at h
  cases hv : p.variant <;> simp only [hv] at h <;> simp at h <;> omega

theorem Package.setShroudState_state (p : Package) (j : Nat) {st : Nat} (h : st < 8) : (p.setShroudState j st).shroudState j = st :=
  (p.get_put_self st (by decide)).trans (Nat.mod_eq_of_lt h)

theorem Package.setShroudState_shroud (p : Package) (j i st : Nat) : (p.setShroudState j st).shroud i = p.shroud i := rfl

theorem Package.put_shroud (p : Package) (f : Fld) (v i : Nat) : (p.put f v).shroud i = p.shroud i := rfl

theorem Package.setBit_shroud (p : Package) (a n i : Nat) (b : Bool) : (p.setBit a n b).shroud i = p.shroud i := rfl

theorem Package.agree_shroud (p : Package) (j mask i : Nat) : (p.agree j mask).shroud i = p.shroud i := rfl

theorem Package.retrainShroud_shroud (p : Package) (j i : Nat) : (p.retrainShroud j).shroud i = p.shroud i := by
  rw [Package.shroud, Package.retrainShroud, Package.bump64_fab, Package.setShroudState, Package.put_fab, Package.shroud]

theorem Package.agree_state (p : Package) (j mask : Nat) : (p.agree j mask).shroudState j = p.shroudState j :=
  (Package.get_put_apart _ _ (by decide) (by decide)).trans (Package.get_put_apart _ _ (by decide) (by decide))

theorem Package.agree_mask (p : Package) (j mask : Nat) : (p.agree j mask).get (FAB_SHROUD_STATUS_MASK j) = mask % 2 ^ 12 :=
  (Package.get_put_apart _ _ (by decide) (by decide)).trans (Package.get_put_self _ _ (by decide))

theorem popcount_le (n v : Nat) : popcount n v ≤ n := Nat.le_trans (List.length_filter_le _ _) (Nat.le_of_eq List.length_range)

theorem Package.agree_width (p : Package) (j mask : Nat) : (p.agree j mask).get (FAB_SHROUD_STATUS_WIDTH j) = popcount 12 mask :=
  (Package.get_put_self _ _ (by decide)).trans (Nat.mod_eq_of_lt (Nat.lt_of_le_of_lt (popcount_le 12 mask) (by decide)))

theorem Package.agree_rd (p : Package) (j mask : Nat) {a : Nat} (h : a < 0xB200) : (p.agree j mask).rd a = p.rd a :=
  (Package.rd_put_ne _ _ _ (shroudReg_ne j h).symm).trans (Package.rd_put_ne _ _ _ (shroudReg_ne j h).symm)

/-- A retrain starts and is counted. -/
theorem Package.retrainShroud_shown (p : Package) (j : Nat) : (p.retrainShroud j).shroudState j = SHROUD_RETRAINING
    ∧ (p.retrainShroud j).rd FAB_RETRAINS = (p.rd FAB_RETRAINS + 1) % 2 ^ 64 := by
  unfold Package.retrainShroud
  refine ⟨?_, ?_⟩
  · exact (Package.get_bump64_ne _ 1 (shroudReg_ne j (by decide))).trans (p.setShroudState_state j (by decide))
  · rw [Package.rd_bump64, Package.setShroudState, Package.rd_put_ne _ _ _ (shroudReg_ne j (by decide)).symm]

/-- A shroud that degrades shows its cause. -/
theorem Package.degrade_shown (p : Package) {j cause : Nat} (hj : j < 12) (hc : cause < 8) : (p.degrade j cause).shroudState j = SHROUD_DEGRADED
    ∧ (p.degrade j cause).get (FAB_SHROUD_STATUS_DEG_CAUSE j) = cause ∧ bitAt ((p.degrade j cause).get FAB_STATUS_DEGRADED_SHROUDS) j = true
    ∧ bitAt ((p.degrade j cause).rd (IRQ_STATUS .fab)) EV_FAB_SHROUD_DEGRADED = true := by
  obtain ⟨hevt, hirq⟩ := shroudReg_not_event j
  unfold Package.degrade
  extract_lets q r u
  have hq : q.shroudState j = SHROUD_DEGRADED ∧ q.get (FAB_SHROUD_STATUS_DEG_CAUSE j) = cause ∧ bitAt (q.get FAB_STATUS_DEGRADED_SHROUDS) j = true := by
    refine ⟨?_, ?_, Package.bit_setBit _ true hj (by decide)⟩
    · refine (Package.get_put_ne _ _ _ _ (shroudReg_ne j (show 0xB108 < 0xB200 by decide))).trans ?_
      exact (Package.get_put_apart _ _ (by decide) (by decide)).trans (p.setShroudState_state j (by decide))
    · refine (Package.get_put_ne _ _ _ _ (shroudReg_ne j (show 0xB108 < 0xB200 by decide))).trans ?_
      exact (Package.get_put_self _ _ (by decide)).trans (Nat.mod_eq_of_lt hc)
  have hr : r.rd (FAB_SHROUD_STATUS j) = q.rd (FAB_SHROUD_STATUS j) ∧ r.rd FAB_STATUS = q.rd FAB_STATUS := by
    unfold r
    split
    · exact ⟨q.raise_rd _ _ _ _ hevt hirq, q.raise_rd _ _ _ _ (by decide) (by decide)⟩
    · exact ⟨rfl, rfl⟩
  have hu : u.rd (FAB_SHROUD_STATUS j) = q.rd (FAB_SHROUD_STATUS j) ∧ u.rd FAB_STATUS = q.rd FAB_STATUS :=
    ⟨(r.raise_rd _ _ _ _ hevt hirq).trans hr.1, (r.raise_rd _ _ _ _ (by decide) (by decide)).trans hr.2⟩
  have hshroud := (u.report_rd .fab 8 1 EV_FAB_SHROUD_DEGRADED u.beatNo (arg1Of j cause) false false (shroudReg_not_report j)).trans hu.1
  have hfab := (u.report_rd .fab 8 1 EV_FAB_SHROUD_DEGRADED u.beatNo (arg1Of j cause) false false (a := FAB_STATUS) (by decide)).trans hu.2
  refine ⟨(Package.get_of_rd hshroud).trans hq.1, (Package.get_of_rd hshroud).trans hq.2.1, ?_, ?_⟩
  · rw [Package.get_of_rd hfab]
    exact hq.2.2
  · rw [Package.report_rd _ _ _ _ _ _ _ _ _ (by decide)]
    exact Package.raise_status _ _ _ _ _ (by decide)

/-- What a mismatch of the two beacons leaves before the shroud narrows or degrades: the common lanes, the count and the history. -/
def Package.mismatched (p : Package) (j lanes n : Nat) (hist : List Nat) : Package :=
  let q := (((p.bump64 FAB_MISMATCH_COUNT 1).agree j lanes).put (FAB_SHROUD_STATUS_MISMATCHES j) (min 3 n)).modShroud j
    (fun y => { y with mismatches := hist, sides := (lanes, lanes) })
  q.report .fab 8 0 EV_FAB_WIDTH_MISMATCH q.beatNo (arg1Of j n) false false

theorem Package.modShroud_get (p : Package) (j : Nat) (f : Shroud → Shroud) (g : Fld) : (p.modShroud j f).get g = p.get g := rfl

theorem Package.mismatched_shown (p : Package) (j lanes n : Nat) (hist : List Nat) : (p.mismatched j lanes n hist).get (FAB_SHROUD_STATUS_MASK j) = lanes % 2 ^ 12
    ∧ (p.mismatched j lanes n hist).rd FAB_MISMATCH_COUNT = (p.rd FAB_MISMATCH_COUNT + 1) % 2 ^ 64
    ∧ ((p.mismatched j lanes n hist).shroud j).sides = (lanes, lanes) := by
  unfold Package.mismatched
  extract_lets q
  refine ⟨?_, ?_, ?_⟩
  · rw [Package.get_of_rd (q.report_rd .fab 8 0 EV_FAB_WIDTH_MISMATCH q.beatNo (arg1Of j n) false false (shroudReg_not_report j))]
    unfold q
    rw [Package.modShroud_get]
    exact (Package.get_put_apart _ _ (by decide) (by decide)).trans (Package.agree_mask _ _ _)
  · rw [Package.report_rd _ _ _ _ _ _ _ _ _ (by decide)]
    unfold q
    rw [Package.modShroud_rd, Package.rd_put_ne _ _ _ (shroudReg_ne j (by decide)).symm, Package.agree_rd _ _ _ (by decide), Package.rd_bump64]
  · rw [Package.shroud, Package.report_fab, ← Package.shroud]
    unfold q
    rw [Package.shroud_modShroud]

/-- A mismatch writes no other register below the shrouds'. -/
theorem Package.mismatched_rd (p : Package) (j lanes n : Nat) (hist : List Nat) {a : Nat} (h : a < 0xB200) (hcount : FAB_MISMATCH_COUNT ≠ a)
    (hrep : a ∉ reportRegs .fab 8) : (p.mismatched j lanes n hist).rd a = p.rd a := by
  unfold Package.mismatched
  dsimp only
  rw [Package.report_rd _ _ _ _ _ _ _ _ _ hrep, Package.modShroud_rd, Package.rd_put_ne _ _ _ (shroudReg_ne j h).symm, Package.agree_rd _ _ _ h,
    Package.rd_bump64_ne _ _ hcount]

/-- A beacon that reaches an UP shroud of dies not fenced. -/
theorem widthBeacon_checked {a b : Nat} (hup : p.shroudState j = SHROUD_UP) (hfence : p.shroudFenced j = false)
    (hbeacon : (p.shroud j).beacon = some (a, b)) (dt : Nat) : ∃ q u : Package, q = (p.pass dt).setShroud j { p.shroud j with beacon := none }
      ∧ u = q.mismatched j (a &&& b) (recentMismatches (p.clock + dt) (((p.clock + dt) :: (p.shroud j).mismatches).take 3))
        (((p.clock + dt) :: (p.shroud j).mismatches).take 3)
      ∧ widthBeaconReceive dt j p = if a = b
        then (if popcount 12 a < (q.agree j a).get FAB_CFG_MIN_WIDTH then (q.agree j a).degrade j 2 else q.agree j a)
        else if recentMismatches (p.clock + dt) (((p.clock + dt) :: (p.shroud j).mismatches).take 3) = 3 then u.degrade j 1
        else if popcount 12 (a &&& b) < u.get FAB_CFG_MIN_WIDTH then u.degrade j 2
        else (u.modShroud j (fun y => { y with narrowing := true })).retrainShroud j := by
  refine ⟨_, _, rfl, rfl, ?_⟩
  have hfenced : ((p.pass dt).setShroud j { p.shroud j with beacon := none }).shroudFenced j = false := (p.pass_shroudFenced j dt).trans hfence
  have hclock : ((p.pass dt).setShroud j { p.shroud j with beacon := none }).clock = p.clock + dt := p.pass_clock dt
  unfold widthBeaconReceive
  simp only [Package.pass_shroud, hbeacon, Package.pass_shroudState, hup]
  rw [if_neg (not_not_intro rfl), if_neg (ne_true_of_eq_false hfenced), hclock]
  rfl

/-- A shroud trained afresh: nothing agreed, no cause, not degraded. -/
def Package.restored (p : Package) (j : Nat) : Package :=
  (((((p.setShroud j {}).agree j 0).put (FAB_SHROUD_STATUS_DEG_CAUSE j) 0).put (FAB_SHROUD_STATUS_MISMATCHES j) 0).setBit FAB_STATUS (16 + j)
    false).setShroudState j SHROUD_TRAINING

theorem shroudRestore_eq (hs : p.hasShroud j = true) (hst : p.shroudState j = SHROUD_DEGRADED) : shroudRestore j p = p.restored j := by
  have hopen : (!p.hasShroud j || decide (p.shroudState j ≠ SHROUD_DEGRADED)) = false := by
    rw [hs, hst]
    rfl
  exact if_neg (ne_true_of_eq_false hopen)

theorem Package.restored_shown (p : Package) {j : Nat} (hj : j < 12) : (p.restored j).shroudState j = SHROUD_TRAINING ∧ (p.restored j).shroud j = {}
    ∧ (p.restored j).get (FAB_SHROUD_STATUS_MASK j) = 0 ∧ (p.restored j).get (FAB_SHROUD_STATUS_DEG_CAUSE j) = 0
    ∧ bitAt ((p.restored j).get FAB_STATUS_DEGRADED_SHROUDS) j = false := by
  have hfab : FAB_STATUS ≠ FAB_SHROUD_STATUS j := shroudReg_ne j (by decide)
  have hset : ∀ (q : Package) (lo len : Nat), (q.setBit FAB_STATUS (16 + j) false).get ⟨FAB_SHROUD_STATUS j, lo, len⟩ = q.get ⟨FAB_SHROUD_STATUS j, lo, len⟩ :=
    fun q lo len => q.get_put_ne _ _ _ hfab
  unfold Package.restored
  refine ⟨Package.setShroudState_state _ j (by decide), ?_, ?_, ?_, ?_⟩
  · rw [Package.setShroudState_shroud, Package.setBit_shroud, Package.put_shroud, Package.put_shroud, Package.agree_shroud, Package.shroud_setShroud]
  · refine (Package.get_put_apart _ _ (by decide) (by decide)).trans ((hset _ 0 12).trans ?_)
    refine (Package.get_put_apart _ _ (by decide) (by decide)).trans ((Package.get_put_apart _ _ (by decide) (by decide)).trans ?_)
    exact Package.agree_mask _ j 0
  · refine (Package.get_put_apart _ _ (by decide) (by decide)).trans ((hset _ 28 3).trans ?_)
    exact (Package.get_put_apart _ _ (by decide) (by decide)).trans (Package.get_put_self _ _ (by decide))
  · rw [Package.setShroudState, Package.get_put_ne _ _ _ _ hfab.symm]
    exact Package.bit_setBit _ false hj (by decide)

end

/-- Settles O36, by the command and what the beacons say. -/
theorem shroudWidths : Obligations.ShroudWidths := by
  unfold Obligations.ShroudWidths
  refine ⟨?trained, ?sent, ?agreed, ?narrow, ?mismatch, ?third, ?retrain, ?restore⟩
  case trained =>
    intro s dt j a b hs hst hnarrow
    refine ⟨{ s with pkg := shroudTrainingDone dt j a b s.pkg }, rfl, ?_⟩
    have hdone : shroudTrainingDone dt j a b s.pkg = ((s.pkg.pass dt).setShroud j { s.pkg.shroud j with
        sides := (a % 2 ^ 12, b % 2 ^ 12), beacon := some (a % 2 ^ 12, b % 2 ^ 12), narrowing := false }).setShroudState j SHROUD_UP := by
      unfold shroudTrainingDone
      simp only [Package.pass_hasShroud, Package.pass_shroudState, Package.pass_shroud, hs, hst, hnarrow]
      rfl
    rw [hdone]
    dsimp only
    rw [Package.setShroudState_state _ j (by decide), Package.setShroudState_shroud, Package.shroud_setShroud]
    exact ⟨rfl, rfl, rfl⟩
  case sent =>
    intro s dt j hs hst
    refine ⟨{ s with pkg := widthBeaconSend dt j s.pkg }, rfl, ?_⟩
    have hsend : widthBeaconSend dt j s.pkg = (s.pkg.pass dt).modShroud j (fun x => { x with beacon := some x.sides }) := by
      unfold widthBeaconSend
      simp only [Package.pass_hasShroud, Package.pass_shroudState, hs, hst]
      rfl
    rw [hsend]
    refine ⟨?_, s.pkg.pass_regs dt⟩
    rw [Package.shroud_modShroud, Package.pass_shroud]
  case agreed =>
    intro s dt j a hs hst hfence hbeacon ha hwide
    obtain ⟨q, u, hq, hu, h⟩ := widthBeacon_checked hst hfence hbeacon dt
    have hmin : (q.agree j a).get FAB_CFG_MIN_WIDTH = s.pkg.get FAB_CFG_MIN_WIDTH := by
      refine (Package.get_of_rd (q.agree_rd j a (by decide))).trans ?_
      rw [hq]
      exact s.pkg.pass_get dt _
    have hwide' : ¬ popcount 12 a < (q.agree j a).get FAB_CFG_MIN_WIDTH := by
      rw [hmin]
      exact Nat.not_lt.mpr hwide
    refine ⟨{ s with pkg := widthBeaconReceive dt j s.pkg }, rfl, ?_⟩
    dsimp only
    rw [h, if_pos rfl, if_neg hwide', Package.agree_state, Package.agree_mask, Package.agree_width,
      Package.agree_rd _ _ _ (by decide), hq]
    exact ⟨(s.pkg.pass_shroudState j dt).trans hst, Nat.mod_eq_of_lt ha, rfl, s.pkg.pass_rd dt _⟩
  case narrow =>
    intro s dt j a hs hst hfence hbeacon ha hfew
    obtain ⟨q, u, hq, hu, h⟩ := widthBeacon_checked hst hfence hbeacon dt
    have hmin : (q.agree j a).get FAB_CFG_MIN_WIDTH = s.pkg.get FAB_CFG_MIN_WIDTH := by
      refine (Package.get_of_rd (q.agree_rd j a (by decide))).trans ?_
      rw [hq]
      exact s.pkg.pass_get dt _
    have hfew' : popcount 12 a < (q.agree j a).get FAB_CFG_MIN_WIDTH := by
      rw [hmin]
      exact hfew
    refine ⟨{ s with pkg := widthBeaconReceive dt j s.pkg }, rfl, ?_⟩
    dsimp only
    rw [h, if_pos rfl, if_pos hfew']
    exact Package.degrade_shown _ (lt_of_hasShroud hs) (by decide)
  case mismatch =>
    intro s dt j a b hs hst hfence hbeacon hab ha hb hrecent hwide
    obtain ⟨q, u, hq, hu, h⟩ := widthBeacon_checked hst hfence hbeacon dt
    have hmin : u.get FAB_CFG_MIN_WIDTH = s.pkg.get FAB_CFG_MIN_WIDTH := by
      rw [hu, Package.get_of_rd (q.mismatched_rd j _ _ _ (by decide) (by decide) (by decide)), hq]
      exact s.pkg.pass_get dt _
    have hwide' : ¬ popcount 12 (a &&& b) < u.get FAB_CFG_MIN_WIDTH := by
      rw [hmin]
      exact Nat.not_lt.mpr hwide
    rw [if_neg hab, if_neg (Nat.ne_of_lt hrecent), if_neg hwide'] at h
    refine ⟨{ s with pkg := widthBeaconReceive dt j s.pkg }, rfl, ?_⟩
    obtain ⟨hmask, hcount, hsides⟩ := q.mismatched_shown j (a &&& b) (recentMismatches (s.pkg.clock + dt)
      (((s.pkg.clock + dt) :: (s.pkg.shroud j).mismatches).take 3)) (((s.pkg.clock + dt) :: (s.pkg.shroud j).mismatches).take 3)
    rw [← hu] at hmask hcount hsides
    obtain ⟨hstate, hretrains⟩ := (u.modShroud j (fun y => { y with narrowing := true })).retrainShroud_shown j
    dsimp only
    rw [h]
    have hnarrow : ((u.modShroud j (fun y => { y with narrowing := true })).retrainShroud j).shroud j = { u.shroud j with narrowing := true } := by
      rw [Package.retrainShroud_shroud, Package.shroud_modShroud]
    have hstatus : ((u.modShroud j (fun y => { y with narrowing := true })).retrainShroud j).get (FAB_SHROUD_STATUS_MASK j) = a &&& b := by
      rw [Package.retrainShroud, Package.get_bump64_ne _ 1 (shroudReg_ne j (by decide)), Package.setShroudState]
      refine (Package.get_put_apart _ _ (by decide) (by decide)).trans ?_
      exact hmask.trans (Nat.mod_eq_of_lt (Nat.and_lt_two_pow a hb))
    have hmismatches : ((u.modShroud j (fun y => { y with narrowing := true })).retrainShroud j).rd FAB_MISMATCH_COUNT = u.rd FAB_MISMATCH_COUNT := by
      rw [Package.retrainShroud, Package.rd_bump64_ne _ 1 (by decide), Package.setShroudState, Package.rd_put_ne _ _ _ (shroudReg_ne j (by decide)).symm,
        Package.modShroud_rd]
    have hfirst : q.rd FAB_MISMATCH_COUNT = s.pkg.rd FAB_MISMATCH_COUNT := by
      rw [hq, Package.setShroud_rd, Package.pass_rd]
    have hretrained : u.rd FAB_RETRAINS = s.pkg.rd FAB_RETRAINS := by
      rw [hu, q.mismatched_rd j _ _ _ (by decide) (by decide) (by decide), hq, Package.setShroud_rd, Package.pass_rd]
    rw [hnarrow, hstatus, hmismatches, hcount, hfirst, hretrains, Package.modShroud_rd, hretrained]
    exact ⟨hstate, rfl, rfl, hsides, rfl, rfl⟩
  case third =>
    intro s dt j a b hs hst hfence hbeacon hab hrecent
    obtain ⟨q, u, hq, hu, h⟩ := widthBeacon_checked hst hfence hbeacon dt
    rw [if_neg hab, if_pos hrecent] at h
    refine ⟨{ s with pkg := widthBeaconReceive dt j s.pkg }, rfl, ?_⟩
    obtain ⟨hstate, hcause, -, -⟩ := u.degrade_shown (lt_of_hasShroud hs) (show 1 < 8 by decide)
    dsimp only
    rw [h]
    exact ⟨hstate, hcause⟩
  case retrain =>
    intro s j hs hst
    refine ⟨{ s with pkg := shroudRetrain j s.pkg }, rfl, ?_⟩
    have hretrain : shroudRetrain j s.pkg = s.pkg.retrainShroud j := if_pos (by rw [hs, hst]; rfl)
    rw [hretrain]
    exact s.pkg.retrainShroud_shown j
  case restore =>
    intro s j hs hst
    have hj := lt_of_hasShroud hs
    refine ⟨{ s with pkg := shroudRestore j s.pkg }, rfl, ?_⟩
    rw [shroudRestore_eq hs hst]
    exact s.pkg.restored_shown hj

end Sys2Proof.Machine

/-! ### The beat unit: the uplink and the view (R24 to R31) -/

namespace Sys2Proof.Machine

@[simp] theorem Package.pass_linkTakes (p : Package) (dt k : Nat) : (p.pass dt).linkTakes k = p.linkTakes k := by
  unfold Package.linkTakes
  rw [Package.pass_linkUp, Package.pass_hostMode, Package.pass_port]

@[simp] theorem Package.modBeat_rd (p : Package) (f : BeatUnit → BeatUnit) (a : Nat) : (p.modBeat f).rd a = p.rd a := rfl
@[simp] theorem Package.modBeat_get (p : Package) (f : BeatUnit → BeatUnit) (g : Fld) : (p.modBeat f).get g = p.get g := rfl
@[simp] theorem Package.modBeat_has (p : Package) (f : BeatUnit → BeatUnit) (g : Fld) : (p.modBeat f).has g = p.has g := rfl
@[simp] theorem Package.modBeat_beat (p : Package) (f : BeatUnit → BeatUnit) : (p.modBeat f).beat = f p.beat := rfl

/-! #### What a new uplink may change -/

/-- The beat's state, the uplink and the events may change; the flags of the status past the state, the other registers and the beat unit stay. -/
structure Package.UplinkMoves (p q : Package) : Prop where
  flags : ∀ lo len, 3 ≤ lo → lo + len ≤ 64 → q.get ⟨BEAT_STATUS, lo, len⟩ = p.get ⟨BEAT_STATUS, lo, len⟩
  rd : ∀ a, a ∉ evtRegs → a ≠ IRQ_STATUS .beat → BEAT_STATUS ≠ a → BEAT_UPLINK ≠ a → q.rd a = p.rd a
  beat : q.beat = p.beat
  lnk : q.lnk = p.lnk

namespace Package.UplinkMoves

variable {p q r : Package}

theorem refl (p : Package) : p.UplinkMoves p := ⟨fun _ _ _ _ => rfl, fun _ _ _ _ _ => rfl, rfl, rfl⟩

theorem trans (h : p.UplinkMoves q) (k : q.UplinkMoves r) : p.UplinkMoves r :=
  ⟨fun lo len h1 h2 => (k.flags lo len h1 h2).trans (h.flags lo len h1 h2), fun a h1 h2 h3 h4 => (k.rd a h1 h2 h3 h4).trans (h.rd a h1 h2 h3 h4), k.beat.trans h.beat, k.lnk.trans h.lnk⟩

theorem setUplink (p : Package) (k : Option Nat) (hops : Nat) : p.UplinkMoves (p.setUplink k hops) := by
  have hrd : ∀ a, BEAT_UPLINK ≠ a → (p.setUplink k hops).rd a = p.rd a := fun a h =>
    (Package.rd_put_ne _ _ _ h).trans (Package.rd_put_ne _ _ _ h)
  exact ⟨fun lo len _ _ => Package.get_of_rd (hrd BEAT_STATUS (by decide)), fun a _ _ _ h => hrd a h, rfl, rfl⟩

theorem setBeatState (p : Package) (st : Nat) : p.UplinkMoves (p.setBeatState st) := by
  have hrd : ∀ a, BEAT_STATUS ≠ a → (p.setBeatState st).rd a = p.rd a := fun a h => Package.rd_put_ne _ _ _ h
  exact ⟨fun lo len h1 h2 => Package.get_put_apart _ _ h2 (.inr h1), fun a _ _ h _ => hrd a h, rfl, rfl⟩

theorem raise (p : Package) (ev a0 a1 : Nat) : p.UplinkMoves (p.raise .beat ev a0 a1) :=
  ⟨fun _ _ _ _ => Package.get_of_rd (p.raise_rd .beat ev a0 a1 (show BEAT_STATUS ∉ evtRegs by decide) (show BEAT_STATUS ≠ IRQ_STATUS .beat by decide)),
    fun a h1 h2 _ _ => p.raise_rd _ _ _ _ h1 h2, p.raise_beat _ _ _ _, p.raise_lnk _ _ _ _⟩

theorem takeUplink (p : Package) (k : Option Nat) (hops : Nat) : p.UplinkMoves (p.takeUplink k hops) := by
  unfold Package.takeUplink
  extract_lets q
  have hq : p.UplinkMoves q := setUplink p k hops
  split
  · exact hq.trans ((setBeatState q _).trans (raise _ _ _ _))
  · exact hq

theorem has (h : p.UplinkMoves q) {lo len : Nat} (h1 : 3 ≤ lo) (h2 : lo + len ≤ 64) : q.has ⟨BEAT_STATUS, lo, len⟩ = p.has ⟨BEAT_STATUS, lo, len⟩ :=
  congrArg (fun n => decide (n = 1)) (h.flags lo len h1 h2)

end Package.UplinkMoves

/-! #### The announces kept -/

theorem Package.startElection_heard (p : Package) : p.startElection.beat.heard = p.beat.heard := by
  unfold Package.startElection
  split <;> rfl

theorem Package.refreshView_heard (p : Package) : p.refreshView.beat.heard = p.beat.heard := by
  unfold Package.refreshView
  extract_lets v q
  have hq : q.beat.heard = p.beat.heard := rfl
  split
  · rfl
  · split
    · rw [(UplinkMoves.takeUplink q _ _).beat, hq]
    · rw [Package.startElection_heard, hq]

end Sys2Proof.Machine

/-! ### Announces and the end of an election (R26, R31) -/

namespace Sys2Proof.Machine

/-- The ELECTION flag is past the state's field. -/
theorem Package.UplinkMoves.election {p q : Package} (h : p.UplinkMoves q) : q.has BEAT_STATUS_ELECTION = p.has BEAT_STATUS_ELECTION :=
  h.has (by decide) (by decide)

theorem Package.UplinkMoves.master {p q : Package} (h : p.UplinkMoves q) : q.rd BEAT_MASTER_ID = p.rd BEAT_MASTER_ID :=
  h.rd _ (by decide) (by decide) (by decide) (by decide)

theorem Package.settleGroup_keeps (p : Package) (v : View) : (p.settleGroup v).has BEAT_STATUS_ELECTION = p.has BEAT_STATUS_ELECTION
    ∧ (p.settleGroup v).rd BEAT_MASTER_ID = p.rd BEAT_MASTER_ID ∧ (p.role = ROLE_DOMAIN → (p.settleGroup v).role = ROLE_DOMAIN)
    ∧ (p.settleGroup v).beat = p.beat := by
  unfold Package.settleGroup
  extract_lets g
  clear_value g
  cases g with
  | none => exact ⟨rfl, rfl, id, rfl⟩
  | some serial =>
    dsimp only
    have helection : (p.wr BEAT_GROUP_MASTER_ID serial).has BEAT_STATUS_ELECTION = p.has BEAT_STATUS_ELECTION := Package.has_wr_ne _ _ (by decide)
    have hmaster : (p.wr BEAT_GROUP_MASTER_ID serial).rd BEAT_MASTER_ID = p.rd BEAT_MASTER_ID := Package.rd_wr_ne _ _ (by decide)
    have hrole : (p.wr BEAT_GROUP_MASTER_ID serial).role = p.role := Package.get_wr_ne _ _ (by decide)
    split
    · next hgroup =>
      simp only [Bool.and_eq_true, decide_eq_true_eq] at hgroup
      refine ⟨?_, ?_, fun h => absurd (hrole.trans h) hgroup.2, rfl⟩
      · rw [Package.has_put_disjoint _ _ (by decide) (by decide), helection]
      · rw [Package.rd_put_ne _ _ _ (by decide), hmaster]
    · exact ⟨helection, hmaster, fun h => hrole.trans h, rfl⟩

theorem Package.followMaster_shown (p : Package) (m : Nat) (v : View) : (p.followMaster m v).has BEAT_STATUS_ELECTION = p.has BEAT_STATUS_ELECTION
    ∧ (p.followMaster m v).rd BEAT_MASTER_ID = m % 2 ^ 64 := by
  unfold Package.followMaster
  extract_lets q r
  have htake := Package.UplinkMoves.takeUplink (p.wr BEAT_MASTER_ID m) v.uplink v.hops
  have hq : q.has BEAT_STATUS_ELECTION = p.has BEAT_STATUS_ELECTION ∧ q.rd BEAT_MASTER_ID = m % 2 ^ 64 := by
    unfold q
    rw [Package.has_put_disjoint _ _ (by decide) (by decide), htake.election, Package.has_wr_ne _ _ (by decide), Package.rd_put_ne _ _ _ (by decide),
      htake.master, Package.rd_wr_same]
    exact ⟨rfl, rfl⟩
  split
  · exact hq
  · rw [Package.modBeat_has, Package.setBeatState, Package.has_put_disjoint _ _ (by decide) (by decide), Package.modBeat_rd,
      Package.rd_put_ne _ _ _ (by decide)]
    exact hq

/-- A package that becomes master names itself, takes the role and holds an epoch. -/
theorem Package.becomeMaster_shown (p : Package) : p.becomeMaster.has BEAT_STATUS_ELECTION = p.has BEAT_STATUS_ELECTION
    ∧ p.becomeMaster.rd BEAT_MASTER_ID = p.serial % 2 ^ 64 ∧ p.becomeMaster.role = ROLE_DOMAIN ∧ p.becomeMaster.beat.epochHeld = true := by
  unfold Package.becomeMaster
  extract_lets new q r u
  have hup := Package.UplinkMoves.setUplink (p.wr BEAT_MASTER_ID p.serial) none 0
  have hq : q.has BEAT_STATUS_ELECTION = p.has BEAT_STATUS_ELECTION ∧ q.rd BEAT_MASTER_ID = p.serial % 2 ^ 64 ∧ q.role = ROLE_DOMAIN := by
    unfold q
    rw [Package.has_put_disjoint _ _ (by decide) (by decide), hup.election, Package.has_wr_ne _ _ (by decide), Package.rd_put_ne _ _ _ (by decide),
      hup.master, Package.rd_wr_same, Package.role, Package.get_put_same _ _ _ (by decide)]
    exact ⟨rfl, rfl, rfl⟩
  have hr : r.has BEAT_STATUS_ELECTION = q.has BEAT_STATUS_ELECTION ∧ r.rd BEAT_MASTER_ID = q.rd BEAT_MASTER_ID ∧ r.role = q.role
      ∧ r.beat.epochHeld = true := by
    unfold r
    split
    · exact ⟨rfl, rfl, rfl, by assumption⟩
    · rw [Package.modBeat_has, Package.has_wr_ne _ _ (by decide), Package.has_wr_ne _ _ (by decide), Package.modBeat_rd, Package.rd_wr_ne _ _ (by decide),
        Package.rd_wr_ne _ _ (by decide), Package.role, Package.modBeat_get, Package.get_wr_ne _ _ (by decide), Package.get_wr_ne _ _ (by decide)]
      exact ⟨rfl, rfl, rfl, rfl⟩
  have hu : r.UplinkMoves u := Package.UplinkMoves.setBeatState r _
  have hend : u.UplinkMoves (u.when new (fun p => p.raise .beat EV_BEAT_MASTER_CHANGE p.beatNo 0)) := by
    unfold Package.when
    split
    · exact Package.UplinkMoves.raise u _ _ _
    · exact .refl u
  have hmoves := hu.trans hend
  refine ⟨hmoves.election.trans (hr.1.trans hq.1), hmoves.master.trans (hr.2.1.trans hq.2.1), ?_, ?_⟩
  · exact (hmoves.flags 4 2 (by decide) (by decide)).trans (hr.2.2.1.trans hq.2.2)
  · rw [hmoves.beat]
    exact hr.2.2.2

theorem announceReceive_kept {p : Package} {link : Nat} {a : Announce} (hen : p.has BEAT_CTRL_ENABLE = true) (hdom : a.domain = p.get BEAT_DOMAIN_ID)
    (hup : p.linkTakes link = true) (dt : Nat) :
    announceReceive dt link a p = ((p.pass dt).modBeat (fun b => { b with heard := mapPut b.heard link a })).refreshView := by
  unfold announceReceive
  dsimp only
  rw [if_neg (by simp [hen, hdom, hup])]

theorem electionEnd_decided {p : Package} {m : Nat} (hbest : p.beat.view.best = some m) (hel : p.has BEAT_STATUS_ELECTION = true) {dt : Nat}
    (hlate : p.beat.viewSince + 4 * p.periodUnits ≤ p.clock + dt) : ∃ (q r : Package) (v : View), q = (p.pass dt).put BEAT_STATUS_ELECTION 0
      ∧ r = (if m = p.serial then q.becomeMaster else q.followMaster m v) ∧ electionEnd dt p = r.settleGroup r.beat.view := by
  refine ⟨_, _, p.beat.view, rfl, rfl, ?_⟩
  have hlate' : ¬ p.clock + dt < p.beat.viewSince + 4 * p.periodUnits := Nat.not_lt.mpr hlate
  unfold electionEnd
  dsimp only
  rw [Package.pass_beat_view, hbest]
  dsimp only
  rw [if_neg (by simp [hel, hlate']), Package.put_serial, Package.pass_serial, Package.put_beat, Package.pass_beat_view]

/-- Settles O2, by the command. -/
theorem elections : Obligations.Elections := by
  unfold Obligations.Elections
  refine ⟨?announce, ?decided, ?lost, ?acquiring⟩
  case announce =>
    intro s dt link a hen hdom hup
    refine ⟨{ s with pkg := announceReceive dt link a s.pkg }, rfl, ?_⟩
    dsimp only
    rw [announceReceive_kept hen hdom hup, Package.refreshView_heard, Package.modBeat_beat]
    exact congrArg (mapPut · link a) (s.pkg.pass_beat_heard dt)
  case decided =>
    intro s dt m hbest hel hlate
    obtain ⟨q, r, v, hq, hr, h⟩ := electionEnd_decided hbest hel hlate
    have hended : q.has BEAT_STATUS_ELECTION = false := by
      rw [hq]
      exact Package.has_put_b2n _ false rfl (by decide)
    have hserial : q.serial = s.pkg.serial := by rw [hq, Package.put_serial, Package.pass_serial]
    refine ⟨{ s with pkg := electionEnd dt s.pkg }, rfl, ?_⟩
    dsimp only
    rw [h]
    split at hr
    · next hm =>
      subst hr
      obtain ⟨hel', hmaster, hrole, hepoch⟩ := q.becomeMaster_shown
      obtain ⟨gel, gmaster, grole, gbeat⟩ := q.becomeMaster.settleGroup_keeps _
      rw [gel, hel', gmaster, hmaster, gbeat, hserial, hm]
      exact ⟨hended, rfl, fun _ => ⟨grole hrole, hepoch⟩⟩
    · next hm =>
      subst hr
      obtain ⟨hel', hmaster⟩ := q.followMaster_shown m v
      obtain ⟨gel, gmaster, -, -⟩ := (q.followMaster m v).settleGroup_keeps _
      rw [gel, hel', gmaster, hmaster]
      exact ⟨hended, rfl, fun hs => absurd hs hm⟩
  case lost =>
    intro s dt hel hbest hraised hlate
    have hlost : electionTimeout dt s.pkg = ((s.pkg.pass dt).modBeat (fun b => { b with lostRaised := true })).raise .beat EV_BEAT_ALIGN_LOST
        (s.pkg.pass dt).beatNo 0 := by
      unfold electionTimeout
      dsimp only
      rw [if_pos (by simp [hel, hbest, hraised, hlate])]
    refine ⟨{ s with pkg := electionTimeout dt s.pkg }, rfl, ?_⟩
    dsimp only
    rw [hlost, Package.raise_beat, Package.modBeat_beat, Package.raise_has _ _ _ _ _ (by decide) (by decide), Package.modBeat_has, Package.pass_has]
    exact ⟨rfl, Package.raise_status _ _ _ _ _ (by decide), hel⟩
  case acquiring =>
    intro s dt hstate hraised hlate
    have hlost : acquireTimeout dt s.pkg = ((s.pkg.pass dt).modBeat (fun b => { b with acquireRaised := true })).raise .beat EV_BEAT_ALIGN_LOST
        (s.pkg.pass dt).beatNo 0 := by
      unfold acquireTimeout
      dsimp only
      rw [if_pos (by simp [hstate, hraised, hlate, BEAT_ACQUIRING])]
    refine ⟨{ s with pkg := acquireTimeout dt s.pkg }, rfl, ?_⟩
    dsimp only
    rw [hlost, Package.raise_beat, Package.modBeat_beat, Package.beatState, Package.raise_get _ _ _ _ _ (by decide) (by decide), Package.modBeat_get,
      Package.pass_get]
    exact ⟨rfl, Package.raise_status _ _ _ _ _ (by decide), hstate⟩

end Sys2Proof.Machine

/-! ### Losing and regaining time (R28, R45) -/

namespace Sys2Proof.Machine

/-- A candidate master whose beat runs, with a write of `BEAT_CTRL` staged that keeps ENABLE at 1, in a transaction that waits for a tick. -/
def enablePending : Package :=
  { regs := [(BEAT_CTRL, BitVec.ofNat 64 3), (PKG_TXN_STATUS, BitVec.ofNat 64 3)], txn := { staged := [(BEAT_CTRL, 3)] } }

theorem enablePending_enabled : enablePending.has BEAT_CTRL_ENABLE = true := by decide

/-- With no tick to wait for, the transaction is applied as the bit is cleared, and its staged write sets the bit again. -/
theorem beatSwitch_enablePending : (beatSwitch 0 false enablePending).has BEAT_CTRL_ENABLE = true := by decide

/-- Refutes O4: clearing ENABLE while a passed transaction waits for a tick applies that transaction at once, as no tick comes any more
(R351), and where it stages a write of `BEAT_CTRL` with ENABLE 1, the bit reads 1 after the command. -/
theorem not_timeLossAndReturn : ¬ Obligations.TimeLossAndReturn := by
  unfold Obligations.TimeLossAndReturn
  rintro ⟨-, -, -, -, hdisable, -⟩
  obtain ⟨t, ht, hoff, -⟩ := hdisable { State.reset with pkg := enablePending } 0 enablePending_enabled
  obtain rfl : { State.reset with pkg := beatSwitch 0 false enablePending } = t := Host.Outcome.next.inj ht
  exact absurd (beatSwitch_enablePending.symm.trans hoff) (by decide)

end Sys2Proof.Machine

/-! ### Links: what a link that goes DOWN or retrains keeps (R301 to R305) -/

namespace Sys2Proof.Machine

theorem linkPage_ne {k a b : Nat} (h : a ≠ b) : 0x50000 + 0x1000 * k + a ≠ 0x50000 + 0x1000 * k + b := fun e => h (Nat.add_left_cancel e)

theorem linkStatus_ne {k a : Nat} (h : a < 0x50000) : a ≠ LNK_STATUS k := by
  unfold LNK_STATUS
  omega

theorem linkStatus_not_report (k : Nat) : LNK_STATUS k ∉ reportRegs (.lnk k) 8 := by
  simp only [reportRegs, evtRegs, ERR_SUMMARY, IRQ_STATUS, Page.base, ERR_STATUS, ERR_LOG_TAIL, ERR_COALESCED, ERR_LOST_CORR, ERR_LOST_UNCORR,
    ERR_LOST_FATAL, pageERR, PKG_EVT_SEQ, PKG_EVT_STATUS, PKG_EVT_LOST, LNK_STATUS, List.mem_append, List.mem_cons, List.not_mem_nil, or_false, not_or,
    if_true]
  omega

theorem Package.port_of_lnk {p q : Package} (h : q.lnk = p.lnk) (k : Nat) : q.port k = p.port k := by
  unfold Package.port
  rw [h]

/-- The status register and the port of link k stay as they were. -/
structure Package.KeepsLink (k : Nat) (p q : Package) : Prop where
  status : q.rd (LNK_STATUS k) = p.rd (LNK_STATUS k)
  port : q.port k = p.port k

namespace Package.KeepsLink

variable {k : Nat} {p q r : Package}

theorem refl (p : Package) : p.KeepsLink k p := ⟨rfl, rfl⟩

theorem trans (h : p.KeepsLink k q) (g : q.KeepsLink k r) : p.KeepsLink k r := ⟨g.status.trans h.status, g.port.trans h.port⟩

theorem get (h : p.KeepsLink k q) (lo len : Nat) : q.get ⟨LNK_STATUS k, lo, len⟩ = p.get ⟨LNK_STATUS k, lo, len⟩ := Package.get_of_rd h.status

theorem put (p : Package) {f : Fld} (v : Nat) (h : f.addr ≠ LNK_STATUS k) : p.KeepsLink k (p.put f v) := ⟨p.rd_put_ne f v h, rfl⟩

theorem bump64 (p : Package) {a : Nat} (n : Nat) (h : a ≠ LNK_STATUS k) : p.KeepsLink k (p.bump64 a n) := ⟨p.rd_bump64_ne n h, rfl⟩

theorem raise (p : Package) {g : Page} (ev a0 a1 : Nat) (h : LNK_STATUS k ≠ IRQ_STATUS g) : p.KeepsLink k (p.raise g ev a0 a1) :=
  ⟨p.raise_rd g ev a0 a1 (linkStatus_not_event k).1 h, p.raise_port g ev a0 a1 k⟩

theorem of_uplink (h : p.UplinkMoves q) : p.KeepsLink k q :=
  ⟨h.rd _ (linkStatus_not_event k).1 (linkStatus_ne (by decide)).symm (linkStatus_ne (by decide)) (linkStatus_ne (by decide)),
    Package.port_of_lnk h.lnk k⟩

theorem each {α : Type} {f : Package → α → Package} {l : List α} (hf : ∀ (q : Package) (e : α), e ∈ l → q.KeepsLink k (f q e)) (p : Package) : p.KeepsLink k (p.each l f) :=
  Package.each_keeps_of_mem (fun q => p.KeepsLink k q) (fun q e he h => h.trans (hf q e he)) (refl p)

theorem report (p : Package) (cls cause a0 a1 : Nat) (b c : Bool) : p.KeepsLink k (p.report (.lnk k) 8 cls cause a0 a1 b c) :=
  ⟨p.report_rd _ _ _ _ _ _ _ _ (linkStatus_not_report k), Package.port_of_lnk (p.report_lnk _ _ _ _ _ _ _ _) k⟩

theorem chanDown (p : Package) (s n : Nat) : p.KeepsLink k (p.chanDown s n) := by
  have hreg : (STG_CH_STATE_STATE s n).addr ≠ LNK_STATUS k := by
    change STG_CH_STATE s n ≠ LNK_STATUS k
    unfold STG_CH_STATE LNK_STATUS
    omega
  have hirq : LNK_STATUS k ≠ IRQ_STATUS (.stg s) := by
    change 0x50000 + 0x1000 * k + 0x108 ≠ 0x10000 + 0x1000 * s + 0x60
    omega
  unfold Package.chanDown
  extract_lets st
  split
  · have hmod (q : Package) (f : Channel → Channel) : q.KeepsLink k (q.modChan s n f) := ⟨rfl, rfl⟩
    exact (put p CH_DOWN hreg).trans ((hmod _ _).trans (raise _ _ _ _ hirq))
  · exact refl p

theorem lose (p : Package) (m : Msg) : p.KeepsLink k (p.lose m) := by
  unfold Package.lose
  split
  · split
    · exact chanDown p _ _
    · exact refl p
  · split
    · exact ⟨rfl, rfl⟩
    · exact refl p

theorem refreshHb (p : Package) : p.KeepsLink k p.refreshHb :=
  (put _ _ (linkStatus_ne (by decide))).trans ((put _ _ (linkStatus_ne (by decide))).trans (put _ _ (linkStatus_ne (by decide))))

theorem startElection (p : Package) : p.KeepsLink k p.startElection := by
  unfold Package.startElection
  split
  · exact refl p
  · exact (put p 1 (linkStatus_ne (by decide))).trans ⟨rfl, rfl⟩

theorem refreshView (p : Package) : p.KeepsLink k p.refreshView := by
  unfold Package.refreshView
  extract_lets v q
  have hq : p.KeepsLink k q := ⟨rfl, rfl⟩
  split
  · exact refl p
  · split
    · exact hq.trans (of_uplink (UplinkMoves.takeUplink q _ _))
    · exact hq.trans (startElection q)

theorem loseUplink (p : Package) : p.KeepsLink k p.loseUplink := by
  unfold Package.loseUplink
  split
  · exact (of_uplink (UplinkMoves.takeUplink p _ _)).trans ⟨rfl, rfl⟩
  · split
    · extract_lets q
      have hq : p.KeepsLink k q := (of_uplink (UplinkMoves.setBeatState p _)).trans ⟨rfl, rfl⟩
      exact hq.trans ((of_uplink ((UplinkMoves.setUplink q _ _).trans (UplinkMoves.raise _ _ _ _))).trans ((startElection _).trans (refreshView _)))
    · exact (of_uplink (UplinkMoves.setUplink p _ _)).trans ((startElection _).trans (refreshView _))

end Package.KeepsLink

/-- The port of a link that has gone DOWN. -/
def Link.gone (l : Link) (now cause : Nat) : Link :=
  { l with replay := [], toResend := 0, vcs := [{}, {}, {}, {}, {}, {}, {}, {}], partials := [], gap := false, nakOwed := false, stopping := none, downAt := now,
           exchanged := false, lasersOn := l.lasersOn && decide (cause ≠ 1), codewordLock := false }

theorem Package.setLinkState_get (p : Package) (k st : Nat) {lo len : Nat} (h : lo + len ≤ 64) (d : 3 ≤ lo) :
    (p.setLinkState k st).get ⟨LNK_STATUS k, lo, len⟩ = p.get ⟨LNK_STATUS k, lo, len⟩ :=
  (Package.get_put_ne _ _ _ _ (linkStatus_ne (show LNK_UP < 0x50000 by decide))).trans (Package.get_put_apart p st h (.inr d))

/-- What a link that goes DOWN shows, and its port. -/
theorem Package.linkGoDown_shown (p : Package) (k : Nat) {cause : Nat} (hc : cause < 16) : (p.linkGoDown k cause).linkState k = LINK_DOWN
    ∧ (p.linkGoDown k cause).get (LNK_STATUS_DOWN_CAUSE k) = cause ∧ (p.linkGoDown k cause).port k = (p.port k).gone p.clock cause := by
  unfold Package.linkGoDown
  extract_lets l lost q r c e d m n h
  have hq : q.linkState k = LINK_DOWN ∧ q.get (LNK_STATUS_DOWN_CAUSE k) = cause := by
    refine ⟨?_, ?_⟩
    · exact (Package.get_put_apart _ _ (by decide) (by decide)).trans ((Package.get_put_apart _ _ (by decide) (by decide)).trans
        (p.setLinkState_linkState k (by decide)))
    · exact (Package.get_put_apart _ _ (by decide) (by decide)).trans ((Package.get_put_self _ _ (by decide)).trans (Nat.mod_eq_of_lt hc))
  have hr : ∀ f, r.get f = q.get f := fun f => q.setPort_get k _ f
  have hport : r.port k = l.gone q.clock cause := q.port_setPort k _
  have hclock : q.clock = p.clock := by simp only [q, Package.put_clock, Package.setLinkState, Package.setBit_clock]
  rw [hclock] at hport
  have hcount : r.KeepsLink k c := (KeepsLink.bump64 r 1 (linkPage_ne (by decide))).trans (KeepsLink.bump64 _ _ (linkPage_ne (by decide)))
  have hevent : c.KeepsLink k d := (KeepsLink.raise c _ _ _ (linkStatus_not_event k).2).trans (KeepsLink.report e _ _ _ _ _ _)
  have hlost : d.KeepsLink k m := KeepsLink.each (fun q m _ => KeepsLink.lose q m) d
  have hchans : m.KeepsLink k n := KeepsLink.each (fun q c _ => KeepsLink.chanDown q c.1 c.2) m
  have hkeep : r.KeepsLink k h := hcount.trans (hevent.trans (hlost.trans (hchans.trans (KeepsLink.refreshHb n))))
  have hend : r.KeepsLink k (if h.has BEAT_CTRL_ENABLE && h.role ≠ ROLE_DOMAIN && h.get BEAT_UPLINK_LINK = k then h.loseUplink else h) := by
    split
    · exact hkeep.trans (KeepsLink.loseUplink h)
    · exact hkeep
  exact ⟨(hend.get 0 3).trans ((hr _).trans hq.1), (hend.get 8 4).trans ((hr _).trans hq.2), hend.port.trans hport⟩

end Sys2Proof.Machine

/-! ### Link training (R302, R307) -/

namespace Sys2Proof.Machine

section
variable {p : Package} {k : Nat}

/-- Training starts where firmware runs, ENABLE is set and the port is DISABLED or DOWN. -/
theorem Package.startTraining_eq (hfw : p.pwr.fw = true) (hno : p.lnk.noFirmware = false) (hen : p.has (LNK_CTRL_ENABLE k) = true)
    (hst : p.linkState k = LINK_DISABLED ∨ p.linkState k = LINK_DOWN) : p.startTraining k = (p.setLinkState k LINK_TRAINING).modPort k (fun l =>
      { l with lasersOn := true, trainStart := p.clock, exchanged := false, stopping := none }) := by
  have hidle : (decide (p.linkState k = LINK_DISABLED) || decide (p.linkState k = LINK_DOWN)) = true := by simpa using hst
  unfold Package.startTraining
  rw [hfw, hno, hen, hidle]
  rfl

theorem Package.startTraining_state (hfw : p.pwr.fw = true) (hno : p.lnk.noFirmware = false) (hen : p.has (LNK_CTRL_ENABLE k) = true)
    (hst : p.linkState k = LINK_DISABLED ∨ p.linkState k = LINK_DOWN) : (p.startTraining k).linkState k = LINK_TRAINING := by
  rw [Package.startTraining_eq hfw hno hen hst, Package.modPort_linkState]
  exact p.setLinkState_linkState k (by decide)

@[simp] theorem Package.modPort_has (p : Package) (k : Nat) (f : Link → Link) (g : Fld) : (p.modPort k f).has g = p.has g := rfl

theorem partnerWord_lt (q : Partner) : partnerWord q < 2 ^ 64 := by
  have hb : ∀ b, b2n b ≤ 1 := by decide
  have := hb q.nodeValid
  have := hb q.adapter
  unfold partnerWord
  omega

/-- What the exchange has written when it judges the partner. -/
def Package.withPartner (p : Package) (k : Nat) (q : Partner) (d : Nat) : Package :=
  ((((p.wr (LNK_PARTNER k) (partnerWord q)).wr (LNK_PARTNER_SERIAL k) q.serial).put (LNK_DELAY_NS k) d).put (LNK_STATUS_HOST_MODE k)
    (b2n (q.adapter && decide (k < 2)))).modPort k (fun l => { l with partner := some q, peerShares := q.shares, exchanged := true })

theorem Package.withPartner_rd (p : Package) (k d : Nat) (q : Partner) {a : Nat} (h1 : LNK_PARTNER k ≠ a) (h2 : LNK_PARTNER_SERIAL k ≠ a)
    (h3 : LNK_DELAY k ≠ a) (h4 : LNK_STATUS k ≠ a) : (p.withPartner k q d).rd a = p.rd a := by
  unfold Package.withPartner
  rw [Package.modPort_rd, Package.rd_put_ne _ (LNK_STATUS_HOST_MODE k) _ h4, Package.rd_put_ne _ (LNK_DELAY_NS k) _ h3, Package.rd_wr_ne _ _ h2,
    Package.rd_wr_ne _ _ h1]

theorem Package.withPartner_partner (p : Package) (k d : Nat) (q : Partner) : (p.withPartner k q d).rd (LNK_PARTNER k) = partnerWord q := by
  have hstatus : LNK_STATUS k ≠ LNK_PARTNER k := linkPage_ne (by decide)
  have hdelay : LNK_DELAY k ≠ LNK_PARTNER k := linkPage_ne (by decide)
  have hserial : LNK_PARTNER_SERIAL k ≠ LNK_PARTNER k := linkPage_ne (by decide)
  unfold Package.withPartner
  rw [Package.modPort_rd, Package.rd_put_ne _ (LNK_STATUS_HOST_MODE k) _ hstatus, Package.rd_put_ne _ (LNK_DELAY_NS k) _ hdelay, Package.rd_wr_ne _ _ hserial,
    Package.rd_wr_same, Nat.mod_eq_of_lt (partnerWord_lt q)]

theorem Package.withPartner_state (p : Package) (k d : Nat) (q : Partner) : (p.withPartner k q d).linkState k = p.linkState k := by
  have hdelay : (LNK_DELAY_NS k).addr ≠ (LNK_STATUS_STATE k).addr := linkPage_ne (show 0x120 ≠ 0x108 by decide)
  have hserial : LNK_PARTNER_SERIAL k ≠ (LNK_STATUS_STATE k).addr := linkPage_ne (show 0x118 ≠ 0x108 by decide)
  have hword : LNK_PARTNER k ≠ (LNK_STATUS_STATE k).addr := linkPage_ne (show 0x110 ≠ 0x108 by decide)
  unfold Package.withPartner
  rw [Package.modPort_linkState, Package.linkState, LNK_STATUS_HOST_MODE, LNK_STATUS_STATE, Package.get_put_apart _ _ (by decide) (by decide), ← LNK_STATUS_STATE,
    Package.get_put_ne _ _ _ _ hdelay, Package.get_wr_ne _ _ hserial, Package.get_wr_ne _ _ hword, ← Package.linkState]

theorem Package.withPartner_hostMode (p : Package) (k d : Nat) (q : Partner) : (p.withPartner k q d).hostMode k = (q.adapter && decide (k < 2)) := by
  unfold Package.withPartner Package.hostMode
  rw [Package.modPort_has, Package.has_put_b2n _ _ rfl (show 6 + 1 ≤ 64 by decide)]

theorem Package.withPartner_hostMode_ne (p : Package) {k j : Nat} (d : Nat) (q : Partner) (h : k ≠ j) :
    (p.withPartner k q d).hostMode j = p.hostMode j := by
  refine Package.has_of_rd (p.withPartner_rd k d q ?_ ?_ ?_ ?_) <;>
  · change _ ≠ 0x50000 + 0x1000 * j + 0x108
    simp only [LNK_PARTNER, LNK_PARTNER_SERIAL, LNK_DELAY, LNK_STATUS]
    omega

/-- The exchange of a port in training: three refusals, each with its cause, and else a conflict of nodes and the pair of host adapters. -/
theorem partnerExchange_eq (h : p.linkState k = LINK_TRAINING) (dt d : Nat) (q : Partner) : ∃ r, r = (p.pass dt).withPartner k q d
    ∧ partnerExchange dt k q d p = if q.serial = p.serial then r.linkGoDown k 4 else if q.revision ≠ 1 then r.linkGoDown k 6
      else if 2750 < d then r.linkGoDown k 5
      else (if q.nodeValid && r.has LNK_NODE_VALID && q.node = r.node then r.raise .lnkPkg EV_LNK_NODE_CONFLICT r.beatNo (arg1Of k 0) else r).hostPair := by
  refine ⟨_, rfl, ?_⟩
  unfold partnerExchange
  extract_lets q0 host q1 q2
  have hserial : q2.serial = p.serial := p.pass_serial dt
  rw [if_neg (not_not_intro ((p.pass_linkState dt k).trans h)), hserial]
  rfl

/-- Without two host adapters there is no pair to compare. -/
theorem Package.hostPair_none (h : (p.hostMode 0 && p.hostMode 1) = false) : p.hostPair = p := by
  unfold Package.hostPair
  rw [h]
  rfl

/-- A refused partner takes the link DOWN with the cause of the first thing wrong with it. -/
theorem partnerExchange_refused (h : p.linkState k = LINK_TRAINING) (dt d : Nat) (q : Partner) (hbad : q.serial = p.serial ∨ q.revision ≠ 1 ∨ 2750 < d) :
    (partnerExchange dt k q d p).linkState k = LINK_DOWN
      ∧ (partnerExchange dt k q d p).get (LNK_STATUS_DOWN_CAUSE k) = if q.serial = p.serial then 4 else if q.revision ≠ 1 then 6 else 5 := by
  obtain ⟨r, -, heq⟩ := partnerExchange_eq h dt d q
  have hdown (cause : Nat) (hc : cause < 16) := r.linkGoDown_shown k hc
  rw [heq]
  split
  · exact ⟨(hdown 4 (by decide)).1, (hdown 4 (by decide)).2.1⟩
  · next hserial =>
    split
    · exact ⟨(hdown 6 (by decide)).1, (hdown 6 (by decide)).2.1⟩
    · next hrev =>
      rw [if_pos ((hbad.resolve_left hserial).resolve_left hrev)]
      exact ⟨(hdown 5 (by decide)).1, (hdown 5 (by decide)).2.1⟩

/-- A partner that passes is shown, and training goes on. -/
theorem partnerExchange_passed (h : p.linkState k = LINK_TRAINING) (dt : Nat) {d : Nat} {q : Partner} (hd : d ≤ 2750) (hserial : q.serial ≠ p.serial)
    (hrev : q.revision = 1) (had : q.adapter = false) (h0 : p.hostMode 0 = false) :
    (partnerExchange dt k q d p).linkState k = LINK_TRAINING ∧ ((partnerExchange dt k q d p).port k).exchanged = true
      ∧ (partnerExchange dt k q d p).rd (LNK_PARTNER k) = partnerWord q ∧ (partnerExchange dt k q d p).hostMode k = false := by
  obtain ⟨r, hr, heq⟩ := partnerExchange_eq h dt d q
  have hk : r.hostMode k = false := by rw [hr, Package.withPartner_hostMode, had, Bool.false_and]
  have hmode0 : r.hostMode 0 = false := by
    by_cases hk0 : k = 0
    · exact hk0 ▸ hk
    · rw [hr, Package.withPartner_hostMode_ne _ _ _ hk0, Package.pass_hostMode, h0]
  have hstate : r.linkState k = LINK_TRAINING := by rw [hr, Package.withPartner_state, Package.pass_linkState, h]
  have hport : (r.port k).exchanged = true := by rw [hr, Package.withPartner, Package.port_modPort]
  have hword : r.rd (LNK_PARTNER k) = partnerWord q := by rw [hr, Package.withPartner_partner]
  have hreg : ∀ o, LNK_STATUS k = o ∨ LNK_PARTNER k = o → o ∉ evtRegs ∧ o ≠ IRQ_STATUS .lnkPkg := by
    simp only [evtRegs, IRQ_STATUS, Page.base, PKG_EVT_SEQ, PKG_EVT_STATUS, PKG_EVT_LOST, LNK_STATUS, LNK_PARTNER, List.mem_cons, List.not_mem_nil, or_false,
      not_or]
    omega
  rw [heq, if_neg hserial, if_neg (not_not_intro hrev), if_neg (Nat.not_lt.mpr hd)]
  split
  · obtain ⟨hs1, hs2⟩ := hreg _ (.inl rfl)
    obtain ⟨hp1, hp2⟩ := hreg _ (.inr rfl)
    have hmode (j : Nat) : (r.raise .lnkPkg EV_LNK_NODE_CONFLICT r.beatNo (arg1Of k 0)).hostMode j = r.hostMode j := by
      refine r.raise_has _ _ _ _ ?_ ?_
      all_goals
        simp only [evtRegs, IRQ_STATUS, Page.base, PKG_EVT_SEQ, PKG_EVT_STATUS, PKG_EVT_LOST, LNK_STATUS_HOST_MODE, LNK_STATUS, List.mem_cons,
          List.not_mem_nil, or_false, not_or]
        omega
    rw [Package.hostPair_none (by rw [hmode, hmode0, Bool.false_and]), hmode, Package.raise_port, Package.raise_rd _ _ _ _ _ hp1 hp2, Package.linkState,
      Package.raise_get _ _ _ _ _ hs1 hs2]
    exact ⟨hstate, hport, hword, hk⟩
  · rw [Package.hostPair_none (by rw [hmode0, Bool.false_and])]
    exact ⟨hstate, hport, hword, hk⟩

/-- The port of a link that comes UP after training (R302). -/
def Link.fresh (l : Link) (shares : List Nat) : Link :=
  { l with nextSeq := 0, accepted := none, replay := [], toResend := 0, flitCount := 0, codewordLock := true, freedHere := [0, 0, 0, 0, 0, 0, 0, 0],
           shares := shares, vcs := l.vcs.map (fun c => { c with sent := 0, freed := 0, sentFlits := 0 }) }

/-- Link k shows that it is UP, with its lanes, its training time and the new port. -/
def Package.withLinkUp (p : Package) (k ms : Nat) (l : Link) : Package :=
  (((((p.setLinkState k LINK_UP).put (LNK_STATUS_LANES_LOCKED k) 0xFF).put (LNK_STATUS_DOWN_CAUSE k) 0).put (LNK_STATUS_HEALTH k) 0).put
    (LNK_STATUS_TRAIN_MS k) ms).setPort k l

theorem Package.withLinkUp_get (p : Package) (k ms : Nat) (l : Link) : (p.withLinkUp k ms l).linkState k = LINK_UP
    ∧ (p.withLinkUp k ms l).get (LNK_STATUS_LANES_LOCKED k) = 0xFF := by
  unfold Package.withLinkUp
  rw [Package.linkState, Package.setPort_get, Package.setPort_get]
  unfold LNK_STATUS_STATE LNK_STATUS_LANES_LOCKED LNK_STATUS_DOWN_CAUSE LNK_STATUS_HEALTH LNK_STATUS_TRAIN_MS
  refine ⟨?_, ?_⟩
  · rw [Package.get_put_apart _ _ (by decide) (by decide), Package.get_put_apart _ _ (by decide) (by decide),
      Package.get_put_apart _ _ (by decide) (by decide), Package.get_put_apart _ _ (by decide) (by decide)]
    exact Package.setLinkState_linkState p k (by decide)
  · rw [Package.get_put_apart _ _ (by decide) (by decide), Package.get_put_apart _ _ (by decide) (by decide),
      Package.get_put_apart _ _ (by decide) (by decide)]
    exact Package.get_put_self _ _ (by decide)

theorem linkUpDone_eq (h : p.linkState k = LINK_TRAINING) (hex : (p.port k).exchanged = true) (dt : Nat) : ∃ ms sh b r,
    r = ((p.pass dt).withLinkUp k ms ((p.port k).fresh sh)).refreshHb ∧ linkUpDone dt k p = r.raise (.lnk k) EV_LNK_UP b (arg1Of k 0) := by
  unfold linkUpDone
  extract_lets q l c d e
  have hl : l = p.port k := p.pass_port dt k
  refine ⟨(c.clock - l.trainStart) / Config.msUnits, sharesOf (d.rd (LNK_VC_CFG k)), e.beatNo, e.refreshHb, ?_, ?_⟩
  · rw [← hl]
    rfl
  · rw [if_neg (by simp [q, h, hl, hex])]

theorem linkUpDone_shown (h : p.linkState k = LINK_TRAINING) (hex : (p.port k).exchanged = true) (dt : Nat) : (linkUpDone dt k p).linkUp k = true
    ∧ (∃ sh, (linkUpDone dt k p).port k = (p.port k).fresh sh) ∧ (linkUpDone dt k p).get (LNK_STATUS_LANES_LOCKED k) = 0xFF
    ∧ bitAt ((linkUpDone dt k p).rd (IRQ_STATUS (.lnk k))) EV_LNK_UP = true := by
  obtain ⟨ms, sh, b, r, hr, heq⟩ := linkUpDone_eq h hex dt
  obtain ⟨hstate, hlanes⟩ := (p.pass dt).withLinkUp_get k ms ((p.port k).fresh sh)
  have hkeep : ((p.pass dt).withLinkUp k ms ((p.port k).fresh sh)).KeepsLink k (linkUpDone dt k p) := by
    rw [heq, hr]
    exact (Package.KeepsLink.refreshHb _).trans (Package.KeepsLink.raise _ _ _ _ (linkStatus_not_event k).2)
  refine ⟨decide_eq_true ((hkeep.get 0 3).trans hstate), ⟨sh, hkeep.port.trans ?_⟩, (hkeep.get 16 8).trans hlanes, ?_⟩
  · rw [Package.withLinkUp, Package.port_setPort]
  · rw [heq]
    exact Package.raise_status _ _ _ _ _ (by decide)

end

/-- Settles O31, by the command. -/
theorem linkTraining : Obligations.LinkTraining := by
  unfold Obligations.LinkTraining
  refine ⟨?start, ?passed, ?refused, ?up, ?limit, ?again⟩
  case start =>
    intro s dt k _ hfw hno hen hst
    have heq := Package.startTraining_eq (p := s.pkg.pass dt) (k := k) (by rwa [Package.pass_pwr]) (by rwa [Package.pass_lnk]) (by rwa [Package.pass_has])
      (by rwa [Package.pass_linkState])
    refine ⟨{ s with pkg := (s.pkg.pass dt).startTraining k }, rfl, ?_⟩
    dsimp only
    rw [heq, Package.modPort_linkState, Package.port_modPort]
    exact ⟨Package.setLinkState_linkState _ k (by decide), rfl, s.pkg.pass_clock dt, rfl⟩
  case passed =>
    intro s dt k d q _ hst hd hserial hrev had h0 _
    exact ⟨_, rfl, partnerExchange_passed hst dt hd hserial hrev had h0⟩
  case refused =>
    intro s dt k d q _ hst hbad
    exact ⟨_, rfl, partnerExchange_refused hst dt d q hbad⟩
  case up =>
    intro s dt k _ hst hex
    obtain ⟨hup, ⟨sh, hport⟩, hlanes, hirq⟩ := linkUpDone_shown hst hex dt
    refine ⟨{ s with pkg := linkUpDone dt k s.pkg }, rfl, ?_⟩
    dsimp only
    rw [hport]
    exact ⟨hup, rfl, rfl, rfl, hlanes, hirq⟩
  case limit =>
    intro s dt k _ hst
    obtain ⟨hdown, hcause, -⟩ := (s.pkg.pass dt).linkGoDown_shown k (show 3 < 16 by decide)
    have heq : trainingLimit dt k s.pkg = (s.pkg.pass dt).linkGoDown k 3 := if_pos ((s.pkg.pass_linkState dt k).trans hst)
    refine ⟨{ s with pkg := trainingLimit dt k s.pkg }, rfl, ?_⟩
    dsimp only
    rw [heq]
    exact ⟨hdown, hcause⟩
  case again =>
    intro s dt k _ hfw hno hen hst
    have htrain : ((s.pkg.pass dt).startTraining k).linkState k = LINK_TRAINING :=
      Package.startTraining_state (by rwa [Package.pass_pwr]) (by rwa [Package.pass_lnk]) (by rwa [Package.pass_has])
        (.inr (by rwa [Package.pass_linkState]))
    have hlight : lightDetected dt k s.pkg = (s.pkg.pass dt).startTraining k := if_pos ((s.pkg.pass_linkState dt k).trans hst)
    refine ⟨{ s with pkg := lightDetected dt k s.pkg }, rfl, by dsimp only; rw [hlight, htrain], fun hlate => ?_⟩
    have htimer : trainingRestartTimer dt k s.pkg = (s.pkg.pass dt).startTraining k := by
      unfold trainingRestartTimer
      dsimp only
      rw [if_pos (by simp [hst, hlate])]
    exact ⟨{ s with pkg := trainingRestartTimer dt k s.pkg }, rfl, by dsimp only; rw [htimer, htrain]⟩

end Sys2Proof.Machine

/-! ### Retrains, health and disabling of links (R303 to R306) -/

namespace Sys2Proof.Machine

section
variable {p : Package} {k : Nat}

theorem linkRegs_ne_up {a : Nat} (h : 0x50000 ≤ a) : LNK_UP ≠ a := by
  unfold LNK_UP
  omega

/-- What the start of a retrain shows besides the state. -/
theorem Package.startRetrain_shown (h : p.linkUp k = true) : (p.startRetrain k).rd (LNK_RETRAINS k) = (p.rd (LNK_RETRAINS k) + 1) % 2 ^ 64
    ∧ bitAt ((p.startRetrain k).rd (IRQ_STATUS (.lnk k))) EV_LNK_RETRAIN = true
    ∧ (p.startRetrain k).port k = { p.port k with retrainStart := p.clock }
    ∧ (p.startRetrain k).get (LNK_STATUS_HEALTH k) = p.get (LNK_STATUS_HEALTH k)
    ∧ ∀ n, n < 64 → bitAt (p.rd (IRQ_STATUS (.lnk k))) n = true → bitAt ((p.startRetrain k).rd (IRQ_STATUS (.lnk k))) n = true := by
  have hstart : ∃ q r b, q = (p.setLinkState k LINK_RETRAINING).put (LNK_CTRL_RETRAIN k) 0
      ∧ r = (q.modPort k (fun l => { l with retrainStart := p.clock })).bump64 (LNK_RETRAINS k) 1
      ∧ p.startRetrain k = r.raise (.lnk k) EV_LNK_RETRAIN b (arg1Of k 0) := by
    unfold Package.startRetrain
    rw [if_pos h]
    exact ⟨_, _, _, rfl, rfl, rfl⟩
  obtain ⟨q, r, b, hq, hr, heq⟩ := hstart
  have hq_rd (a : Nat) (h1 : 0x50000 ≤ a) (h2 : LNK_STATUS k ≠ a) (h3 : LNK_CTRL k ≠ a) : q.rd a = p.rd a := by
    rw [hq, Package.rd_put_ne _ (LNK_CTRL_RETRAIN k) _ h3, Package.setLinkState, Package.setBit, Package.rd_put_ne _ ⟨LNK_UP, k, 1⟩ _ (linkRegs_ne_up h1),
      Package.rd_put_ne _ (LNK_STATUS_STATE k) _ h2]
  have hr_rd (a : Nat) (h1 : LNK_RETRAINS k ≠ a) : r.rd a = q.rd a := by rw [hr, Package.rd_bump64_ne _ _ h1, Package.modPort_rd]
  have hbase (o : Nat) : 0x50000 ≤ 0x50000 + 0x1000 * k + o := by omega
  have hirq : r.rd (IRQ_STATUS (.lnk k)) = p.rd (IRQ_STATUS (.lnk k)) := by
    rw [hr_rd (IRQ_STATUS (.lnk k)) (linkPage_ne (show 0x170 ≠ 0x60 by decide)), hq_rd (IRQ_STATUS (.lnk k)) (hbase 0x60) (linkPage_ne (show 0x108 ≠ 0x60 by decide))
      (linkPage_ne (show 0x100 ≠ 0x60 by decide))]
  have hcount : LNK_RETRAINS k ∉ evtRegs ∧ LNK_RETRAINS k ≠ IRQ_STATUS (.lnk k) := by
    simp only [evtRegs, IRQ_STATUS, Page.base, PKG_EVT_SEQ, PKG_EVT_STATUS, PKG_EVT_LOST, LNK_RETRAINS, List.mem_cons, List.not_mem_nil, or_false, not_or]
    omega
  refine ⟨?_, ?_, ?_, ?_, fun n hn hb => ?_⟩
  · rw [heq, Package.raise_rd _ _ _ _ _ hcount.1 hcount.2, hr, Package.rd_bump64, Package.modPort_rd,
      hq_rd (LNK_RETRAINS k) (hbase 0x170) (linkPage_ne (by decide)) (linkPage_ne (by decide))]
  · rw [heq]
    exact Package.raise_status _ _ _ _ _ (by decide)
  · rw [heq, Package.raise_port, hr, Package.bump64_port, Package.port_modPort, hq]
    rfl
  · rw [heq, Package.raise_get _ _ _ _ _ (linkStatus_not_event k).1 (linkStatus_not_event k).2, Package.get_of_rd (hr_rd _ (linkPage_ne (by decide))), hq,
      Package.get_put_ne _ _ _ _ (linkPage_ne (show 0x100 ≠ 0x108 by decide))]
    exact p.setLinkState_get k _ (by decide) (by decide)
  · rw [heq]
    exact Package.event_bit _ _ _ _ _ _ _ hn (.inr (by rw [hirq, hb]))

theorem codewordLockLoss_eq (h : p.linkUp k = true) (dt lane : Nat) : ∃ q r, q = (p.pass dt).setBit (LNK_STATUS k) (16 + lane % 8) false
    ∧ r = q.modPort k (fun l => { l with codewordLock := false }) ∧ codewordLockLoss dt k lane p = r.startRetrain k := by
  refine ⟨_, _, rfl, rfl, ?_⟩
  unfold codewordLockLoss
  exact if_pos ((p.pass_linkUp dt k).trans h)

/-- A lost codeword lock starts a fast retrain. -/
theorem codewordLockLoss_shown (h : p.linkUp k = true) (dt lane : Nat) : (codewordLockLoss dt k lane p).linkState k = LINK_RETRAINING
    ∧ ((codewordLockLoss dt k lane p).port k).codewordLock = false
    ∧ (codewordLockLoss dt k lane p).rd (LNK_RETRAINS k) = (p.rd (LNK_RETRAINS k) + 1) % 2 ^ 64
    ∧ bitAt ((codewordLockLoss dt k lane p).rd (IRQ_STATUS (.lnk k))) EV_LNK_RETRAIN = true := by
  obtain ⟨q, r, hq, hr, heq⟩ := codewordLockLoss_eq h dt lane
  have hq_rd : q.rd (LNK_RETRAINS k) = p.rd (LNK_RETRAINS k) := by
    have hne : LNK_STATUS k ≠ LNK_RETRAINS k := linkPage_ne (by decide)
    rw [hq, Package.setBit, Package.rd_put_ne _ ⟨LNK_STATUS k, 16 + lane % 8, 1⟩ _ hne, Package.pass_rd]
  have hq_state : q.linkState k = LINK_UP := by
    rw [hq, Package.linkState, LNK_STATUS_STATE, Package.setBit, Package.get_put_apart _ _ (by decide) (by omega), Package.pass_get]
    exact of_decide_eq_true h
  have hup : r.linkUp k = true := by rw [hr, Package.modPort_linkUp, Package.linkUp, hq_state, decide_eq_true rfl]
  obtain ⟨hcount, hirq, hport, -, -⟩ := Package.startRetrain_shown hup
  rw [heq, hcount, hport, hr, Package.modPort_rd, hq_rd, Package.port_modPort]
  exact ⟨Package.startRetrain_state (hr ▸ hup), rfl, rfl, hr ▸ hirq⟩

theorem retrain_state (h : p.linkUp k = true) : (retrain k p).linkState k = LINK_RETRAINING := by
  refine Package.startRetrain_state ?_
  rw [Package.linkUp, Package.linkState, Package.get_put_ne _ _ _ _ (linkPage_ne (show 0x100 ≠ 0x108 by decide))]
  exact h

/-- The port whose fast retrain is over. -/
def Link.relocked (l : Link) (peer own : List Nat) : Link := { l with codewordLock := true, peerShares := peer, shares := own }

/-- After a fast retrain of the uplink, delays are measured anew. -/
def BeatUnit.remeasured (b : BeatUnit) (uplink : Bool) : BeatUnit := if uplink then { b with requestBeats := 16 } else b

theorem fastRetrainDone_eq (h : p.linkState k = LINK_RETRAINING) (dt : Nat) (shares : List Nat) : ∃ q own,
    q = (((p.pass dt).setLinkState k LINK_UP).put (LNK_STATUS_LANES_LOCKED k) 0xFF).modPort k (fun l => l.relocked shares own)
    ∧ fastRetrainDone dt k shares p = q.modBeat (fun b => b.remeasured (decide (k = q.get BEAT_UPLINK_LINK))) := by
  refine ⟨_, sharesOf ((p.pass dt).rd (LNK_VC_CFG k)), rfl, ?_⟩
  unfold fastRetrainDone BeatUnit.remeasured
  simp only [decide_eq_true_eq]
  exact if_pos ((p.pass_linkState dt k).trans h)

theorem fastRetrainDone_shown (h : p.linkState k = LINK_RETRAINING) (dt : Nat) (shares : List Nat) : (fastRetrainDone dt k shares p).linkUp k = true
    ∧ (fastRetrainDone dt k shares p).get (LNK_STATUS_LANES_LOCKED k) = 0xFF ∧ ((fastRetrainDone dt k shares p).port k).peerShares = shares
    ∧ (k = p.get BEAT_UPLINK_LINK → (fastRetrainDone dt k shares p).beat.requestBeats = 16) := by
  obtain ⟨q, own, hq, heq⟩ := fastRetrainDone_eq h dt shares
  have hstate : q.linkState k = LINK_UP := by
    rw [hq, Package.modPort_linkState, Package.linkState, LNK_STATUS_STATE, LNK_STATUS_LANES_LOCKED, Package.get_put_apart _ _ (by decide) (by decide)]
    exact Package.setLinkState_linkState _ k (by decide)
  have hlanes : q.get (LNK_STATUS_LANES_LOCKED k) = 0xFF := by
    rw [hq, Package.modPort_get, Package.get_put_same _ _ _ (show 16 + 8 ≤ 64 by decide)]
    rfl
  have hport : (q.port k).peerShares = shares := by rw [hq, Package.port_modPort, Link.relocked]
  have huplink : q.get BEAT_UPLINK_LINK = p.get BEAT_UPLINK_LINK := by
    have hne : LNK_STATUS k ≠ BEAT_UPLINK := (linkStatus_ne (by decide)).symm
    rw [hq, Package.modPort_get, Package.get_put_ne _ (LNK_STATUS_LANES_LOCKED k) BEAT_UPLINK_LINK _ hne, Package.setLinkState, Package.setBit,
      Package.get_put_ne _ ⟨LNK_UP, k, 1⟩ BEAT_UPLINK_LINK _ (show LNK_UP ≠ BEAT_UPLINK by decide), Package.get_put_ne _ (LNK_STATUS_STATE k) BEAT_UPLINK_LINK _ hne, Package.pass_get]
  rw [heq]
  refine ⟨decide_eq_true hstate, hlanes, hport, fun hk => ?_⟩
  rw [Package.modBeat_beat, huplink, decide_eq_true hk]
  rfl

/-- A register that no element of a fold writes. -/
theorem Package.each_rd {α : Type} {f : Package → α → Package} {l : List α} {a : Nat} (hf : ∀ q e, (f q e).rd a = q.rd a) (p : Package) :
    (p.each l f).rd a = p.rd a :=
  Package.each_keeps_of_mem (fun q => q.rd a = p.rd a) (fun q e _ hq => (hf q e).trans hq) rfl

/-- A port that no element of a fold touches. -/
theorem Package.each_port {α : Type} {f : Package → α → Package} {l : List α} {k : Nat} (hf : ∀ q e, (f q e).port k = q.port k) (p : Package) :
    (p.each l f).port k = p.port k :=
  Package.each_keeps_of_mem (fun q => q.port k = p.port k) (fun q e _ hq => (hf q e).trans hq) rfl

/-! #### The health window (R304) -/

/-- A window's counts, as link k shows them. -/
def Package.withWindow (p : Package) (k total uncorr h : Nat) (corr : List Nat) : Package :=
  (((p.bump64 (LNK_FEC_CORR k) total).bump64 (LNK_FEC_UNCORR k) uncorr).put (LNK_STATUS_HEALTH k) h).each (List.range 8) (fun p n =>
    p.put (LNK_OPT_CORR k n) (min (listAt 0 corr n / 8) 0xFFFF))

theorem Package.withWindow_rd (p : Package) (k total uncorr h : Nat) (corr : List Nat) {a : Nat} (ha : ∀ n, LNK_OPT k n ≠ a) :
    (p.withWindow k total uncorr h corr).rd a
      = (((p.bump64 (LNK_FEC_CORR k) total).bump64 (LNK_FEC_UNCORR k) uncorr).put (LNK_STATUS_HEALTH k) h).rd a :=
  Package.each_rd (fun q n => q.rd_put_ne (LNK_OPT_CORR k n) _ (ha n)) _

theorem Package.withWindow_port (p : Package) (k total uncorr h : Nat) (corr : List Nat) : (p.withWindow k total uncorr h corr).port k = p.port k :=
  Package.each_port (fun q n => q.put_port (LNK_OPT_CORR k n) _ k) _

theorem Package.withWindow_shown (p : Package) (k total uncorr : Nat) {h : Nat} (hh : h < 4) (corr : List Nat) :
    (p.withWindow k total uncorr h corr).linkState k = p.linkState k ∧ (p.withWindow k total uncorr h corr).get (LNK_STATUS_HEALTH k) = h
    ∧ (p.withWindow k total uncorr h corr).rd (LNK_FEC_UNCORR k) = (p.rd (LNK_FEC_UNCORR k) + uncorr) % 2 ^ 64 := by
  have hopt (n : Nat) : LNK_OPT k n ≠ LNK_STATUS k ∧ LNK_OPT k n ≠ LNK_FEC_UNCORR k := by
    unfold LNK_OPT LNK_STATUS LNK_FEC_UNCORR
    omega
  have hstatus := p.withWindow_rd k total uncorr h corr (fun n => (hopt n).1)
  have hcorr : LNK_FEC_CORR k ≠ LNK_STATUS k := linkPage_ne (by decide)
  have huncorr : LNK_FEC_UNCORR k ≠ LNK_STATUS k := linkPage_ne (by decide)
  have hcounts : LNK_FEC_CORR k ≠ LNK_FEC_UNCORR k := linkPage_ne (by decide)
  refine ⟨(Package.get_of_rd hstatus).trans ?_, (Package.get_of_rd hstatus).trans ?_, ?_⟩
  · rw [LNK_STATUS_STATE, LNK_STATUS_HEALTH, Package.get_put_apart _ _ (by decide) (by decide), ← LNK_STATUS_STATE, Package.get_bump64_ne _ _ huncorr,
      Package.get_bump64_ne _ _ hcorr, Package.linkState]
  · rw [Package.get_put_same _ _ _ (show 4 + 2 ≤ 64 by decide)]
    exact Nat.mod_eq_of_lt hh
  · rw [p.withWindow_rd k total uncorr h corr (fun n => (hopt n).2), Package.rd_put_ne _ (LNK_STATUS_HEALTH k) _ huncorr.symm, Package.rd_bump64,
      Package.rd_bump64_ne _ _ hcounts]

/-- A window in health GOOD without corrections shows its counts, and no more. -/
theorem healthWindow_good (hup : p.linkUp k = true) (dt : Nat) {corr : List Nat} {uncorr : Nat} (hnone : corr.foldl (· + ·) 0 = 0)
    (hgood : healthOf (p.rd (LNK_HEALTH_CFG k)) corr uncorr = HEALTH_GOOD) :
    healthWindow dt k corr uncorr p = (p.pass dt).withWindow k 0 uncorr HEALTH_GOOD corr := by
  have hstate : p.linkState k = LINK_UP := of_decide_eq_true hup
  unfold healthWindow
  dsimp only
  rw [if_neg (by rw [Package.pass_linkState, hstate]; decide), Package.pass_rd, hgood, hnone, if_neg (Nat.lt_irrefl 0), if_pos (by simp)]
  rfl

/-- A window that ends in FAILING for the first time: counts, the report of corrections, the event and a retrain. -/
theorem healthWindow_failing (hup : p.linkUp k = true) (dt : Nat) {corr : List Nat} {uncorr : Nat}
    (hfail : healthOf (p.rd (LNK_HEALTH_CFG k)) corr uncorr = HEALTH_FAILING) (hold : p.get (LNK_STATUS_HEALTH k) ≠ HEALTH_FAILING)
    (hfirst : (p.port k).failingRetrain = none) : ∃ q r u, q = (p.pass dt).withWindow k (corr.foldl (· + ·) 0) uncorr HEALTH_FAILING corr
      ∧ q.KeepsLink k r ∧ u = r.raise (.lnk k) EV_LNK_FAILING r.beatNo (arg1Of k 0)
      ∧ healthWindow dt k corr uncorr p = (u.modPort k (fun l => { l with failingRetrain := some u.clock })).startRetrain k := by
  have hstate : p.linkState k = LINK_UP := of_decide_eq_true hup
  have hport : ((p.pass dt).withWindow k (corr.foldl (· + ·) 0) uncorr HEALTH_FAILING corr).port k = p.port k := by
    rw [Package.withWindow_port, Package.pass_port]
  unfold healthWindow
  extract_lets q old h total a b c d e
  have hh : h = HEALTH_FAILING := (congrArg (fun cfg => healthOf cfg corr uncorr) (p.pass_rd dt _)).trans hfail
  have hb : b = (p.pass dt).withWindow k (corr.foldl (· + ·) 0) uncorr HEALTH_FAILING corr := by
    rw [← hh]
    rfl
  have hc : b.KeepsLink k c := by
    unfold c
    split
    · exact Package.KeepsLink.report b _ _ _ _ _ _
    · exact .refl b
  have he : e = false := by
    unfold e
    rw [show d.port k = p.port k from (c.raise_port _ _ _ _ k).trans (hc.port.trans (hb ▸ hport)), hfirst]
  have hnew : (decide (h = old) || decide (h = HEALTH_GOOD)) = false := by
    have hne : h ≠ old := by rw [hh]; exact fun e => hold (e.trans (p.pass_get dt _)).symm
    rw [decide_eq_false hne, hh]
    rfl
  rw [if_neg (by rw [show q.linkState k = LINK_UP from (p.pass_linkState dt k).trans hstate]; decide), hnew, if_neg Bool.false_ne_true,
    if_neg (by rw [hh]; decide), he, if_neg Bool.false_ne_true]
  exact ⟨b, c, d, hb, hc, rfl, rfl⟩

theorem healthWindow_failing_shown (hup : p.linkUp k = true) (dt : Nat) {corr : List Nat} {uncorr : Nat}
    (hfail : healthOf (p.rd (LNK_HEALTH_CFG k)) corr uncorr = HEALTH_FAILING) (hold : p.get (LNK_STATUS_HEALTH k) ≠ HEALTH_FAILING)
    (hfirst : (p.port k).failingRetrain = none) : (healthWindow dt k corr uncorr p).linkState k = LINK_RETRAINING
      ∧ (healthWindow dt k corr uncorr p).get (LNK_STATUS_HEALTH k) = HEALTH_FAILING
      ∧ bitAt ((healthWindow dt k corr uncorr p).rd (IRQ_STATUS (.lnk k))) EV_LNK_FAILING = true := by
  obtain ⟨q, r, u, hq, hr, hu, heq⟩ := healthWindow_failing hup dt hfail hold hfirst
  obtain ⟨hstate, hhealth, -⟩ := (p.pass dt).withWindow_shown k (corr.foldl (· + ·) 0) uncorr (show HEALTH_FAILING < 4 by decide) corr
  have hkeep : q.KeepsLink k u := hu ▸ hr.trans (Package.KeepsLink.raise r _ _ _ (linkStatus_not_event k).2)
  have hup' : (u.modPort k (fun l => { l with failingRetrain := some u.clock })).linkUp k = true := by
    rw [Package.modPort_linkUp]
    exact decide_eq_true ((hkeep.get 0 3).trans (((congrArg (Package.linkState · k) hq).trans (hstate.trans (p.pass_linkState dt k))).trans
      (of_decide_eq_true hup)))
  obtain ⟨-, -, -, hkept, hirq⟩ := Package.startRetrain_shown hup'
  have hshown : u.get (LNK_STATUS_HEALTH k) = HEALTH_FAILING := (hkeep.get 4 2).trans (hq ▸ hhealth)
  rw [heq]
  refine ⟨Package.startRetrain_state hup', hkept.trans hshown, hirq _ (by decide) ?_⟩
  rw [Package.modPort_rd, hu]
  exact Package.raise_status _ _ _ _ _ (by decide)

/-! #### Disabling (R305) -/

theorem Package.disabled_linkState (p : Package) (k v : Nat) : (p.put (LNK_CTRL_ENABLE k) v).linkState k = p.linkState k :=
  p.get_put_ne _ _ _ (linkPage_ne (show 0x100 ≠ 0x108 by decide))

/-- ENABLE 0 begins to stop a port that carries flits. -/
theorem linkDisable_stops (h : p.linkState k = LINK_UP ∨ p.linkState k = LINK_RETRAINING) (dt : Nat) : linkDisable dt k p
    = ((p.pass dt).put (LNK_CTRL_ENABLE k) 0).modPort k (fun l => { l with stopping := some (p.clock + dt) }) := by
  have hcarries : (decide (p.linkState k = LINK_UP) || decide (p.linkState k = LINK_RETRAINING)) = true := by simpa using h
  unfold linkDisable
  dsimp only
  rw [Package.disabled_linkState, Package.pass_linkState, if_pos hcarries, Package.put_clock, Package.pass_clock]

theorem linkDisable_training (h : p.linkState k = LINK_TRAINING) (dt : Nat) :
    linkDisable dt k p = ((p.pass dt).put (LNK_CTRL_ENABLE k) 0).linkGoDown k 1 := by
  unfold linkDisable
  dsimp only
  rw [Package.disabled_linkState, Package.pass_linkState, h, if_neg (by decide), if_pos rfl]

theorem linkDisableComplete_down {since : Nat} (h : (p.port k).stopping = some since) {dt : Nat}
    (hdone : (p.port k).replay = [] ∨ since + 100 * Config.usUnits ≤ p.clock + dt) : linkDisableComplete dt k p = (p.pass dt).linkGoDown k 1 := by
  unfold linkDisableComplete
  dsimp only
  rw [Package.pass_port, h]
  dsimp only
  rw [if_pos (by simpa [Package.pass_clock] using hdone)]

/-! #### Optical telemetry (R306) -/

/-- The registers of the lanes measured, and of the temperature. -/
def Package.withOptics (p : Package) (k temp : Nat) (lanes : List (Nat × LaneOptics)) : Package :=
  (p.each lanes (fun p e => ((p.put (LNK_OPT_TX_OMA k e.1) (ofSigned 16 e.2.tx)).put (LNK_OPT_RX_OMA k e.1) (ofSigned 16 e.2.rx)).put
    (LNK_OPT_BIAS k e.1) e.2.bias)).put (LNK_OPT_TEMP_TEMP k) temp

theorem Package.withOptics_linkState (p : Package) (k temp : Nat) (lanes : List (Nat × LaneOptics)) :
    (p.withOptics k temp lanes).linkState k = p.linkState k := by
  have hopt (n : Nat) : LNK_OPT k n ≠ LNK_STATUS k := by
    unfold LNK_OPT LNK_STATUS
    omega
  have htemp : LNK_OPT_TEMP k ≠ LNK_STATUS k := linkPage_ne (by decide)
  refine Package.get_of_rd ((Package.rd_put_ne _ (LNK_OPT_TEMP_TEMP k) _ htemp).trans (Package.each_rd (fun q e => ?_) p))
  rw [Package.rd_put_ne _ (LNK_OPT_BIAS k e.1) _ (hopt _), Package.rd_put_ne _ (LNK_OPT_RX_OMA k e.1) _ (hopt _),
    Package.rd_put_ne _ (LNK_OPT_TX_OMA k e.1) _ (hopt _)]

/-- Lanes without an alarm change no more than what is shown. -/
theorem opticalTelemetry_quiet {lanes : List LaneOptics} (hquiet : ∀ o ∈ lanes, laneAlarms o = []) (dt temp : Nat) : ∃ l8,
    opticalTelemetry dt k lanes temp p = ((p.pass dt).withOptics k temp l8).modPort k (fun l => { l with alarms := [] }) := by
  unfold opticalTelemetry
  extract_lets q l8 r t now fresh u v
  have hnow : now = [] := by
    refine List.flatMap_eq_nil_iff.mpr fun e he => ?_
    obtain ⟨n, -, hn⟩ := List.mem_filterMap.mp he
    obtain ⟨o, ho, rfl⟩ := Option.map_eq_some_iff.mp hn
    rw [hquiet o (List.mem_of_getElem? ho)]
    rfl
  have hfresh : fresh = [] := by
    unfold fresh
    rw [hnow]
    rfl
  refine ⟨l8, ?_⟩
  have hv : v = u := by
    unfold v
    rw [hfresh]
    rfl
  rw [hfresh, List.any_nil, List.any_nil, if_neg Bool.false_ne_true, if_neg Bool.false_ne_true, hv, ← hnow]
  rfl

end

/-- Settles O32, by the command. -/
theorem linkHealthAndDisable : Obligations.LinkHealthAndDisable := by
  unfold Obligations.LinkHealthAndDisable
  refine ⟨?lost, ?done, ?timeout, ?good, ?failing, ?stop, ?abort, ?stopped, ?optics⟩
  case lost =>
    intro s dt k lane _ hup
    obtain ⟨hstate, hlock, hcount, hirq⟩ := codewordLockLoss_shown hup dt lane
    exact ⟨_, _, rfl, rfl, hstate, retrain_state hup, hlock, hcount, hirq⟩
  case done =>
    intro s dt k shares _ h
    exact ⟨_, rfl, fastRetrainDone_shown h dt shares⟩
  case timeout =>
    intro s dt k _ h hlate
    have heq : fastRetrainTimeout dt k s.pkg = (s.pkg.pass dt).linkGoDown k 7 := by
      unfold fastRetrainTimeout
      dsimp only
      rw [if_pos (by simp [h, hlate])]
    obtain ⟨hdown, hcause, -⟩ := (s.pkg.pass dt).linkGoDown_shown k (show 7 < 16 by decide)
    refine ⟨{ s with pkg := fastRetrainTimeout dt k s.pkg }, rfl, ?_⟩
    dsimp only
    rw [heq]
    exact ⟨hdown, hcause⟩
  case good =>
    intro s dt k uncorr corr _ hup hnone hgood
    obtain ⟨hstate, hhealth, hcount⟩ := (s.pkg.pass dt).withWindow_shown k 0 uncorr (show HEALTH_GOOD < 4 by decide) corr
    refine ⟨{ s with pkg := healthWindow dt k corr uncorr s.pkg }, rfl, ?_⟩
    dsimp only
    rw [healthWindow_good hup dt hnone hgood, Package.linkUp, hstate, hcount, Package.pass_linkState, Package.pass_rd]
    exact ⟨hhealth, hup, rfl⟩
  case failing =>
    intro s dt k uncorr corr _ hup hfail hold hfirst
    exact ⟨_, rfl, healthWindow_failing_shown hup dt hfail hold hfirst⟩
  case stop =>
    intro s dt k _ h
    refine ⟨{ s with pkg := linkDisable dt k s.pkg }, rfl, ?_⟩
    dsimp only
    rw [linkDisable_stops h dt, Package.modPort_has, Package.port_modPort, Package.modPort_linkState, Package.disabled_linkState, Package.pass_linkState]
    exact ⟨Package.has_put_b2n _ false rfl (show 0 + 1 ≤ 64 by decide), rfl, rfl⟩
  case abort =>
    intro s dt k _ h
    obtain ⟨hdown, hcause, -⟩ := ((s.pkg.pass dt).put (LNK_CTRL_ENABLE k) 0).linkGoDown_shown k (show 1 < 16 by decide)
    refine ⟨{ s with pkg := linkDisable dt k s.pkg }, rfl, ?_⟩
    dsimp only
    rw [linkDisable_training h dt]
    exact ⟨hdown, hcause⟩
  case stopped =>
    intro s dt k since _ h hdone
    obtain ⟨hdown, hcause, hport⟩ := (s.pkg.pass dt).linkGoDown_shown k (show 1 < 16 by decide)
    refine ⟨{ s with pkg := linkDisableComplete dt k s.pkg }, rfl, ?_⟩
    dsimp only
    rw [linkDisableComplete_down h hdone, hport]
    exact ⟨hdown, hcause, Bool.and_false _, rfl⟩
  case optics =>
    intro s dt k temp lanes _ hquiet
    obtain ⟨l8, heq⟩ := opticalTelemetry_quiet (p := s.pkg) (k := k) hquiet dt temp
    refine ⟨{ s with pkg := opticalTelemetry dt k lanes temp s.pkg }, rfl, ?_⟩
    dsimp only
    rw [heq, Package.modPort_get, Package.port_modPort, Package.modPort_linkState, Package.withOptics_linkState, Package.pass_linkState]
    exact ⟨Package.get_put_same _ _ _ (show 0 + 8 ≤ 64 by decide), rfl, rfl⟩

end Sys2Proof.Machine

/-! ### The bridge and the event records it carries (R308 to R310, R369) -/

namespace Sys2Proof.Machine

/-- A list is made of what a test keeps and what it drops. -/
theorem length_filter_add_filter_not {α : Type} (l : List α) (f : α → Bool) : l.length = (l.filter f).length + (l.filter (fun x => !f x)).length := by
  induction l with
  | nil => rfl
  | cons x l ih =>
    cases h : f x with
    | true =>
      rw [List.filter_cons_of_pos h, List.filter_cons_of_neg (by rw [h]; decide), List.length_cons, List.length_cons, ih]
      omega
    | false =>
      rw [List.filter_cons_of_neg (by rw [h]; decide), List.filter_cons_of_pos (by rw [h]; rfl), List.length_cons, List.length_cons, ih]
      omega

/-- A register whose reset value is a word reads a word. -/
theorem Package.rd_lt (p : Package) {a : Nat} (h : regReset a < 2 ^ 64) : p.rd a < 2 ^ 64 := by
  unfold Package.rd
  split
  · exact BitVec.isLt _
  · exact h

theorem Package.pass_linkTakes_all (p : Package) (dt : Nat) : (p.pass dt).linkTakes = p.linkTakes := funext (p.pass_linkTakes dt)

@[simp] theorem Package.pass_pickRoute (p : Package) (dt dest cls : Nat) : (p.pass dt).pickRoute dest cls = p.pickRoute dest cls := by
  unfold Package.pickRoute Package.lowestLink Package.bestLink Package.route
  simp only [Package.pass_linkTakes_all, Package.pass_port, Package.pass_lnk]

@[simp] theorem Package.enqueue_bridge (p : Package) (k : Nat) (m : Msg) : (p.enqueue k m).bridge = p.bridge := rfl
@[simp] theorem Package.enqueue_evq (p : Package) (k : Nat) (m : Msg) : (p.enqueue k m).evq = p.evq := rfl
@[simp] theorem Package.enqueue_clock (p : Package) (k : Nat) (m : Msg) : (p.enqueue k m).clock = p.clock := rfl
@[simp] theorem Package.enqueue_mem (p : Package) (k : Nat) (m : Msg) : (p.enqueue k m).mem = p.mem := rfl

@[simp] theorem Package.toHost_rd (p : Package) (dest : Nat) (r : HostRsp) (a : Nat) : (p.toHost dest r).rd a = p.rd a := by
  unfold Package.toHost
  split <;> rfl

@[simp] theorem Package.toHost_bridge (p : Package) (dest : Nat) (r : HostRsp) : (p.toHost dest r).bridge = p.bridge := by
  unfold Package.toHost
  split <;> rfl

@[simp] theorem Package.setBridge_bridge (p : Package) (l : List Outstanding) : (p.setBridge l).bridge = l := rfl
@[simp] theorem Package.setBridge_mem (p : Package) (l : List Outstanding) : (p.setBridge l).mem = p.mem := by
  rw [Package.setBridge, Package.put_mem]
@[simp] theorem Package.setBridge_lnk (p : Package) (l : List Outstanding) : (p.setBridge l).lnk = p.lnk := by
  rw [Package.setBridge, Package.put_lnk]

theorem Package.setBridge_rd (p : Package) (l : List Outstanding) {a : Nat} (h : LNK_HB_STATUS ≠ a) : (p.setBridge l).rd a = p.rd a :=
  Package.rd_put_ne _ LNK_HB_STATUS_OUTSTANDING _ h

theorem Package.setBridge_outstanding (p : Package) (l : List Outstanding) :
    (p.setBridge l).get LNK_HB_STATUS_OUTSTANDING = l.length % 2 ^ LNK_HB_STATUS_OUTSTANDING.len :=
  Package.get_put_same _ _ _ (by decide)

/-! #### Requests that the bridge sends on -/

/-- A request sent on to node n by link j, kept with its TAG. -/
def Package.sendOn (p : Package) (op n j : Nat) (r : HostReq) : Package :=
  let q := p.enqueue j (p.message n CLS_HOST_REQ (reqBytes op r) (.hostReq { r with op := op }))
  (q.setBridge (q.bridge ++ [{ tag := r.tag, dest := n, issued := q.clock }])).bump64 LNK_HOST_REQS 1

theorem Package.sendOn_bridge (p : Package) (op n j : Nat) (r : HostReq) :
    (p.sendOn op n j r).bridge = p.bridge ++ [{ tag := r.tag, dest := n, issued := p.clock }] := by
  unfold Package.sendOn
  rw [Package.bump64_bridge, Package.setBridge_bridge, Package.enqueue_bridge, Package.enqueue_clock]

theorem Package.sendOn_mem (p : Package) (op n j : Nat) (r : HostReq) : (p.sendOn op n j r).mem = p.mem := by
  unfold Package.sendOn
  rw [Package.bump64_mem, Package.setBridge_mem, Package.enqueue_mem]

theorem Package.sendOn_lnk (p : Package) (op n j : Nat) (r : HostReq) :
    (p.sendOn op n j r).lnk = (p.enqueue j (p.message n CLS_HOST_REQ (reqBytes op r) (.hostReq { r with op := op }))).lnk := by
  unfold Package.sendOn
  rw [Package.bump64_lnk, Package.setBridge_lnk]

section
variable {p : Package} {k n : Nat}

/-- A request of the host for another node goes to the bridge. -/
theorem hostRequest_away (hup : p.linkUp k = true) (hhost : p.hostMode k = true) (hready : p.has PKG_STATUS_READY = true) (hn : n ≠ p.node)
    (op dt src : Nat) (r : HostReq) (found : List (Nat × LineCheck)) (q : Part) :
    hostRequest op dt k src (some n) r found q p = (q, (p.pass dt).bridgeForward op k src (some n) r) := by
  unfold hostRequest
  simp only [Package.pass_linkUp, Package.pass_hostMode, Package.pass_has, Package.pass_node, hup, hhost, hready, hn, Bool.not_true, decide_false,
    Bool.false_and, Bool.false_eq_true, if_false, if_true]

theorem Package.bridgeForward_sends (hact : p.has LNK_HB_CTRL_ACTIVE = true) (hroom : p.bridge.length < Config.bridgeOutstanding)
    (hvalid : p.has LNK_NODE_VALID = true) (hgroup : n / 16 = p.node / 16) {j : Nat} (hroute : p.pickRoute n CLS_HOST_REQ = some j) (op src : Nat)
    (r : HostReq) : p.bridgeForward op k src (some n) r = p.sendOn op n j r := by
  unfold Package.bridgeForward
  rw [hact, hvalid, if_neg (by decide), if_neg (Nat.not_le.mpr hroom)]
  dsimp only
  rw [if_neg (by simp [hgroup]), hroute]
  rfl

theorem Package.bridgeForward_outOfGroup (hact : p.has LNK_HB_CTRL_ACTIVE = true) (hroom : p.bridge.length < Config.bridgeOutstanding)
    (hgroup : n / 16 ≠ p.node / 16) (op src : Nat) (r : HostReq) :
    p.bridgeForward op k src (some n) r = p.toHost src (r.answer HS_OUT_OF_GROUP []) := by
  unfold Package.bridgeForward
  rw [hact, if_neg (by decide), if_neg (Nat.not_le.mpr hroom)]
  dsimp only
  rw [if_pos (by simp [hgroup])]

/-! #### Responses and timeouts -/

theorem hostResponse_known {r : HostRsp} (hback : r.back = []) (hknown : p.bridge.any (fun o => o.tag = r.tag) = true) (dt : Nat) :
    hostResponse dt r p = ((p.pass dt).setBridge (p.bridge.eraseP (fun o => o.tag = r.tag))).toHost 0xFFF r := by
  unfold hostResponse
  dsimp only
  rw [hback]
  dsimp only
  rw [Package.pass_bridge, hknown, if_pos rfl]

theorem hostResponse_late {r : HostRsp} (hback : r.back = []) (hlate : p.bridge.any (fun o => o.tag = r.tag) = false) (dt : Nat) :
    hostResponse dt r p = p.pass dt := by
  unfold hostResponse
  dsimp only
  rw [hback]
  dsimp only
  rw [Package.pass_bridge, hlate, if_neg Bool.false_ne_true]

/-- Answers the timeout of each of some requests, and counts them. -/
def Package.answerLate (p : Package) (late : List Outstanding) : Package :=
  p.each late (fun p o => (p.toHost 0xFFF { tag := o.tag, status := HS_TIMEOUT, data := [], back := [] }).bump64 LNK_HOST_TIMEOUTS 1)

theorem Package.answerLate_bridge (p : Package) (late : List Outstanding) : (p.answerLate late).bridge = p.bridge := by
  refine Package.each_keeps_of_mem (fun q => q.bridge = p.bridge) (fun q o _ hq => ?_) rfl
  rw [Package.bump64_bridge, Package.toHost_bridge, hq]

theorem Package.answerLate_count (p : Package) (late : List Outstanding) :
    (p.answerLate late).rd LNK_HOST_TIMEOUTS = (p.rd LNK_HOST_TIMEOUTS + late.length) % 2 ^ 64 := by
  induction late generalizing p with
  | nil => exact (Nat.mod_eq_of_lt (p.rd_lt (by decide))).symm
  | cons o late ih =>
    refine (ih _).trans ?_
    rw [Package.rd_bump64, Package.toHost_rd, Nat.mod_add_mod, List.length_cons, Nat.add_assoc, Nat.add_comm 1]

/-- The requests past the timeout at a time. -/
def Outstanding.isLate (now limit : Nat) (o : Outstanding) : Bool := decide (o.issued + limit ≤ now)

theorem hostTimeout_eq (dt : Nat) : ∃ late q, late = p.bridge.filter (Outstanding.isLate (p.clock + dt) (p.get LNK_HB_CTRL_TIMEOUT_US * Config.usUnits))
    ∧ q = (p.pass dt).setBridge (p.bridge.filter (fun o => !late.contains o)) ∧ hostTimeout dt p = q.answerLate late := by
  refine ⟨_, _, rfl, rfl, ?_⟩
  unfold hostTimeout
  dsimp only
  rw [Package.pass_bridge, Package.pass_clock, Package.pass_get]
  rfl

/-- What is no late request of a list is none of its late requests. -/
theorem Outstanding.kept_eq (now limit : Nat) (l : List Outstanding) : l.filter (fun o => !(l.filter (Outstanding.isLate now limit)).contains o)
    = l.filter (fun o => !Outstanding.isLate now limit o) := by
  refine List.filter_congr fun o ho => congrArg (fun b : Bool => !b) ?_
  rw [List.contains_eq_mem, Bool.eq_iff_iff, decide_eq_true_eq, List.mem_filter]
  exact and_iff_right ho

theorem Outstanding.isLate_false {now limit : Nat} {o : Outstanding} : (!Outstanding.isLate now limit o) = true ↔ now < o.issued + limit := by
  simp [Outstanding.isLate]

end

/-- The bridge's role follows ACTIVE where a host link is UP. -/
theorem bridgeActivate_shown {p : Package} (active : Bool) : (bridgeActivate active p).has LNK_HB_CTRL_ACTIVE = active
    ∧ (bridgeActivate active p).get LNK_HB_STATUS_ROLE
      = if (p.linkUp 0 && p.hostMode 0) || (p.linkUp 1 && p.hostMode 1) then (if active then 2 else 1) else 0 := by
  have hact : (p.put LNK_HB_CTRL_ACTIVE (b2n active)).has LNK_HB_CTRL_ACTIVE = active := Package.has_put_b2n _ _ rfl (by decide)
  have hmode (k : Nat) : (p.put LNK_HB_CTRL_ACTIVE (b2n active)).hostMode k = p.hostMode k := Package.has_put_ne _ _ (linkStatus_ne (by decide))
  have hstate (k : Nat) : (p.put LNK_HB_CTRL_ACTIVE (b2n active)).linkState k = p.linkState k := Package.get_put_ne _ _ _ _ (linkStatus_ne (by decide))
  have hup (k : Nat) : (p.put LNK_HB_CTRL_ACTIVE (b2n active)).linkUp k = p.linkUp k := by rw [Package.linkUp, hstate, Package.linkUp]
  unfold bridgeActivate Package.refreshHb
  rw [hmode, hmode, hup, hup, hact]
  refine ⟨?_, ?_⟩
  · rw [Package.has_put_ne _ _ (by decide), Package.has_put_ne _ _ (by decide), Package.has_put_ne _ _ (by decide), hact]
  · rw [Package.get_put_same _ _ _ (by decide)]
    refine Nat.mod_eq_of_lt ?_
    split
    · split <;> decide
    · decide

/-! #### Event records -/

section
variable {p : Package}

/-- A node in reach is this one with a host link, or has a route. -/
theorem Package.evtReach_sends (h : p.evtReach = true) : (p.get LNK_HB_NODE_NODE = p.node → ∃ k, p.hostLink 0 = some k)
    ∧ (p.get LNK_HB_NODE_NODE ≠ p.node → ∃ k, p.pickRoute (p.get LNK_HB_NODE_NODE) CLS_EVENT = some k) := by
  unfold Package.evtReach at h
  dsimp only at h
  refine ⟨fun hn => ?_, fun hn => ?_⟩
  · rw [if_pos hn, Bool.and_eq_true, Bool.or_eq_true] at h
    unfold Package.hostLink
    split
    · exact ⟨_, rfl⟩
    · split
      · exact ⟨_, rfl⟩
      · next h0 => exact ⟨1, if_pos (h.2.resolve_left h0)⟩
  · rw [if_neg hn, Bool.and_eq_true] at h
    exact Option.isSome_iff_exists.mp (List.find?_isSome.mpr (List.any_eq_true.mp h.2))

theorem Package.pass_evtReach (p : Package) (dt : Nat) : (p.pass dt).evtReach = p.evtReach := by
  unfold Package.evtReach Package.route
  simp only [Package.pass_get, Package.pass_has, Package.pass_node, Package.pass_linkUp, Package.pass_hostMode, Package.pass_lnk, Package.pass_linkTakes_all]

/-- The queue without the record that leaves. -/
def Package.recordTaken (p : Package) (rest : List EventRec) : Package := { p with evq := { p.evq with recs := rest, lossPending := false } }

theorem Package.recordTaken_evtReach (p : Package) (rest : List EventRec) : (p.recordTaken rest).evtReach = p.evtReach := rfl

/-- The record that leaves, marked with a loss before it. -/
def EventRec.marked (r : EventRec) (lost : Bool) : EventRec := { r with lossBefore := lost }

theorem eventRecordSend_eq {r : EventRec} {rest : List EventRec} (hrecs : p.evq.recs = r :: rest) (hreach : p.evtReach = true) (dt : Nat) :
    eventRecordSend dt p = (if ((p.pass dt).recordTaken rest).get LNK_HB_NODE_NODE = ((p.pass dt).recordTaken rest).node
      then ((p.pass dt).recordTaken rest).eventToHost (((p.pass dt).recordTaken rest).message (((p.pass dt).recordTaken rest).get LNK_HB_NODE_NODE) CLS_EVENT 32
        (.event (r.marked p.evq.lossPending)))
      else ((p.pass dt).recordTaken rest).sendRoute (((p.pass dt).recordTaken rest).get LNK_HB_NODE_NODE) CLS_EVENT 32
        (.event (r.marked p.evq.lossPending))).raiseLost.evtStatus := by
  unfold eventRecordSend
  dsimp only
  rw [Package.pass_evq, hrecs]
  dsimp only
  rw [Package.pass_evtReach, hreach, if_neg (by decide), Package.recordTaken, Package.pass_evq]
  rfl

/-- The record at the front of the queue is on its way. -/
theorem eventRecordSend_sent {r : EventRec} {rest : List EventRec} (hrecs : p.evq.recs = r :: rest) (hreach : p.evtReach = true)
    (hlost : p.evq.lostSince = 0) (dt : Nat) : ∃ k m q, q = ((p.pass dt).recordTaken rest).enqueue k m ∧ eventRecordSend dt p = q.evtStatus := by
  have hquiet (k : Nat) (m : Msg) : (((p.pass dt).recordTaken rest).enqueue k m).raiseLost = ((p.pass dt).recordTaken rest).enqueue k m := by
    unfold Package.raiseLost
    rw [Package.enqueue_evq, Package.recordTaken, Package.pass_evq, hlost]
    exact if_neg Bool.false_ne_true
  obtain ⟨hlocal, haway⟩ := Package.evtReach_sends (p := (p.pass dt).recordTaken rest) (by rw [Package.recordTaken_evtReach, Package.pass_evtReach, hreach])
  rw [eventRecordSend_eq hrecs hreach dt]
  split
  · next hn =>
    obtain ⟨k, hk⟩ := hlocal hn
    rw [Package.eventToHost, hk]
    dsimp only
    rw [hquiet]
    exact ⟨k, _, _, rfl, rfl⟩
  · next hn =>
    obtain ⟨k, hk⟩ := haway hn
    rw [Package.sendRoute, hk]
    dsimp only
    rw [hquiet]
    exact ⟨k, _, _, rfl, rfl⟩

theorem Package.evtStatus_queued (p : Package) : p.evtStatus.get PKG_EVT_STATUS_QUEUED = p.evq.recs.length % 2 ^ PKG_EVT_STATUS_QUEUED.len :=
  (Package.get_put_disjoint _ _ _ _ (by decide) (by decide)).trans (Package.get_put_same _ _ _ (by decide))

end

/-- Settles O34, by the command. -/
theorem bridgeForwards : Obligations.BridgeForwards := by
  unfold Obligations.BridgeForwards
  refine ⟨?sent, ?group, ?known, ?late, ?timeout, ?active, ?record, ?held⟩
  case sent =>
    intro s dt k src n j r found hup hhost hready hvalid hn hgroup hact hroom hroute
    have hsent (op : Nat) (found : List (Nat × LineCheck)) : hostRequest op dt k src (some n) r found s.part s.pkg = (s.part, (s.pkg.pass dt).sendOn op n j r) := by
      rw [hostRequest_away hup hhost hready hn, Package.bridgeForward_sends (by rwa [Package.pass_has]) (by rwa [Package.pass_bridge])
        (by rwa [Package.pass_has]) (by rwa [Package.pass_node]) (by rwa [Package.pass_pickRoute])]
    have hbridge (op : Nat) : ((s.pkg.pass dt).sendOn op n j r).bridge = s.pkg.bridge ++ [{ tag := r.tag, dest := n, issued := s.pkg.clock + dt }] := by
      rw [Package.sendOn_bridge, Package.pass_bridge, Package.pass_clock]
    have hmem (op : Nat) : ((s.pkg.pass dt).sendOn op n j r).mem = s.pkg.mem := by rw [Package.sendOn_mem, Package.pass_mem]
    refine ⟨_, _, _, _, onBoth_eq (hsent OP_REG_RD []), onBoth_eq (hsent OP_REG_WR []), onBoth_eq (hsent OP_MEM_RD found), onBoth_eq (hsent OP_MEM_WR []), ?_⟩
    dsimp only
    rw [hbridge, hbridge, hbridge, hbridge, hmem, hmem, Package.sendOn_lnk, Package.sendOn_lnk]
    exact ⟨rfl, rfl, rfl, rfl, rfl, rfl, rfl, rfl, rfl⟩
  case group =>
    intro s dt k src n r hup hhost hready hvalid hgroup hact hroom
    have hn : n ≠ s.pkg.node := fun e => hgroup (by rw [e])
    refine onBoth_eq ?_
    rw [hostRequest_away hup hhost hready hn, Package.bridgeForward_outOfGroup (by rwa [Package.pass_has]) (by rwa [Package.pass_bridge])
      (by rwa [Package.pass_node])]
  case known =>
    intro s dt r hback hknown
    refine ⟨{ s with pkg := hostResponse dt r s.pkg }, rfl, ?_⟩
    dsimp only
    rw [hostResponse_known hback hknown, Package.toHost_bridge, Package.get_of_rd (Package.toHost_rd _ _ _ _), Package.setBridge_bridge,
      Package.setBridge_outstanding, (Package.KeepsMem.toHost (.refl _)).mem, Package.setBridge_mem, Package.pass_mem]
    exact ⟨rfl, rfl, rfl⟩
  case late =>
    intro s dt r hback hlate
    exact next_pkg_congr (hostResponse_late hback hlate dt)
  case timeout =>
    intro s dt
    obtain ⟨late, q, hlate, hq, heq⟩ := hostTimeout_eq (p := s.pkg) dt
    have hbridge : q.bridge = s.pkg.bridge.filter (fun o => !Outstanding.isLate (s.pkg.clock + dt) (s.pkg.get LNK_HB_CTRL_TIMEOUT_US * Config.usUnits) o) := by
      rw [hq, Package.setBridge_bridge, hlate, Outstanding.kept_eq]
    have hlength := length_filter_add_filter_not s.pkg.bridge (Outstanding.isLate (s.pkg.clock + dt) (s.pkg.get LNK_HB_CTRL_TIMEOUT_US * Config.usUnits))
    refine ⟨{ s with pkg := hostTimeout dt s.pkg }, rfl, ?_⟩
    dsimp only
    rw [heq, Package.answerLate_bridge, Package.answerLate_count, hbridge]
    refine ⟨fun o ho => Outstanding.isLate_false.mp (List.mem_filter.mp ho).2, fun o ho hin => List.mem_filter.mpr ⟨ho, Outstanding.isLate_false.mpr hin⟩, ?_⟩
    rw [hq, Package.setBridge_rd _ _ (by decide), Package.pass_rd, hlate]
    congr 2
    omega
  case active =>
    intro s active
    obtain ⟨hactive, hrole⟩ := bridgeActivate_shown (p := s.pkg) active
    exact ⟨_, rfl, hactive, hrole⟩
  case record =>
    intro s dt r rest hrecs hreach hlost
    obtain ⟨k, m, q, hq, heq⟩ := eventRecordSend_sent hrecs hreach hlost dt
    have hevq : q.evq = { s.pkg.evq with recs := rest, lossPending := false } := by rw [hq, Package.enqueue_evq, Package.recordTaken, Package.pass_evq]
    refine ⟨{ s with pkg := eventRecordSend dt s.pkg }, rfl, ?_⟩
    dsimp only
    rw [heq, Package.evtStatus_queued, Package.evtStatus, Package.put_evq, Package.put_evq, hevq]
    exact ⟨rfl, rfl, rfl⟩
  case held =>
    intro s dt hreach
    refine next_pkg_congr ?_
    unfold eventRecordSend
    dsimp only
    split
    · rfl
    · rw [Package.pass_evtReach, hreach]
      rfl

end Sys2Proof.Machine

/-! ### Measurements, reports and anti-rollback (R454 to R458) -/

namespace Sys2Proof.Machine

section
variable {p : Package}

/-- Extending a register leaves those before it. -/
theorem Package.extendMr_mr_before (p : Package) {n m : Nat} (h : m < n) (d : List Byte) : (p.extendMr n d).mr m = p.mr m := by
  have hrd (w : Nat) (hw : w < 6) : (p.extendMr n d).rd (SEC_MR (6 * m + w)) = p.rd (SEC_MR (6 * m + w)) := by
    unfold Package.extendMr
    dsimp only
    rw [Package.modSec_rd]
    generalize sha384 (p.mr n ++ d) = v
    exact Package.each_wr_other (f := fun w => SEC_MR (6 * n + w)) (fun i => by unfold SEC_MR; omega) (fun w => fieldAt v (8 * w) 8) p (List.range 6)
  unfold Package.mr
  rw [List.flatMap_def, List.flatMap_def, List.map_congr_left fun w hw => by rw [hrd w (List.mem_range.mp hw)]]

theorem extendSoftware_eq (h : p.hubRuns = true) :
    extendSoftware p = p.extendMr 15 ((List.range 6).flatMap (fun w => leBytes 8 (p.rd (SEC_EXTEND w)))) := if_pos h

/-! #### Reports -/

/-- The job that a START value asks for. -/
def ReportJob.asked (v : Nat) (nonce : List Byte) : ReportJob := { addr := bitsOf v 6 42 * 64, digests := bitsOf v 1 4, guest := bitAt v 5, nonce := nonce }

/-- START takes up a report with the nonce that stands. -/
theorem hostReport_taken {v : Nat} (hstart : bitAt v 0 = true) (hrun : p.hubRuns = true) (hjob : p.sec.job = none)
    (hroom : p.sec.reports.length < reportsMax) : ∃ q, q = p.wr SEC_REPORT_ADDR (putBits v 0 1 0)
      ∧ hostReport v p = (q.wr SEC_REPORT_STATUS 1).modSec (fun x => { x with job := some (ReportJob.asked v p.hostNonce) }) := by
  refine ⟨_, rfl, ?_⟩
  have hbit : bitsOf v 0 1 ≠ 0 := by
    rw [bitAt, Nat.testBit_zero, decide_eq_true_eq] at hstart
    simp [bitsOf, hstart]
  have hnonce : (p.wr SEC_REPORT_ADDR (putBits v 0 1 0)).hostNonce = p.hostNonce := by
    have hne (w : Nat) (hw : w < 4) : SEC_REPORT_ADDR ≠ SEC_REQ_NONCE w := by
      unfold SEC_REPORT_ADDR SEC_REQ_NONCE
      omega
    unfold Package.hostNonce
    rw [List.flatMap_def, List.flatMap_def, List.map_congr_left fun w hw => by rw [Package.rd_wr_ne _ _ (hne w (List.mem_range.mp hw))]]
  have hstop : (decide (bitsOf v 0 1 = 0) || !(p.wr SEC_REPORT_ADDR (putBits v 0 1 0)).hubRuns) = false := by
    rw [decide_eq_false hbit]
    exact congrArg (fun b : Bool => !b) hrun
  have hbusy : ((p.wr SEC_REPORT_ADDR (putBits v 0 1 0)).sec.job.isSome || decide (reportsMax ≤ (p.wr SEC_REPORT_ADDR (putBits v 0 1 0)).sec.reports.length)) = false := by
    rw [Package.wr_sec, hjob, decide_eq_false (Nat.not_le.mpr hroom)]
    rfl
  unfold hostReport
  dsimp only
  rw [hstop, if_neg Bool.false_ne_true, hbusy, if_neg Bool.false_ne_true, hnonce]
  rfl

/-- The report kept for a job that is done. -/
def ReportJob.report (j : ReportJob) (b : List Byte) (now : Nat) : Report := { requester := REQ_HOST, object := 0, nonce := j.nonce, bytes := b, usedAt := now }

/-- The state in which a report is stored: signed, its job done. -/
def Package.reported (p : Package) (j : ReportJob) (b : List Byte) : Package :=
  (({ p with fresh := p.fresh + 1 } : Package).bump64 SEC_REPORTS 1).modSec (fun s => { s with job := none, reports := s.reports ++ [j.report b p.clock] })

theorem reportDone_eq {j : ReportJob} (hjob : p.sec.job = some j) {dt : Nat} {b : List Byte}
    (hb : b = ((p.pass dt).signedReport j.nonce j.digests j.guest).1) (hok : p.rangeOk j.addr b.length = true) : ∃ q, q = (p.pass dt).reported j b
      ∧ reportDone dt p = ((q.storeBy 8 j.addr b).wr SEC_REPORT_STATUS (2 + 2 ^ 16 * b.length)).raise .sec EV_SEC_REPORT_DONE q.beatNo 0 := by
  refine ⟨_, rfl, ?_⟩
  have hok' : ((p.pass dt).reported j b).rangeOk j.addr b.length = true := by
    rw [Package.rangeOk_congr (p := p) ?_ ?_, hok]
    · exact p.pass_variant dt
    · exact (Package.rd_bump64_ne _ _ (by decide)).trans (p.pass_rd dt _)
  unfold reportDone
  dsimp only
  rw [Package.pass_sec, hjob]
  dsimp only
  rw [← hb]
  exact if_pos hok'

/-- The reports used within the last second stay. -/
def SecUnit.held (s : SecUnit) (now : Nat) : SecUnit := { s with reports := s.reports.filter (fun r => now < r.usedAt + Config.secUnits) }

theorem reportHoldExpiry_eq (p : Package) (dt : Nat) : reportHoldExpiry dt p = (p.pass dt).modSec (fun s => s.held (p.clock + dt)) := by
  unfold reportHoldExpiry SecUnit.held
  dsimp only
  rw [Package.pass_clock]

/-! #### Anti-rollback counters -/

theorem arbAdvance_burns {v : Nat} (hkey : bitsOf v 16 16 = 0x5EC0) (hrun : p.hubRuns = true) (hc : bitsOf v 0 3 ≤ 5) (hn : bitsOf v 8 7 ≤ 64)
    (hup : p.arbCount (bitsOf v 0 3) < bitsOf v 8 7) (hlim : bitsOf v 8 7 ≤ p.arbLimit (bitsOf v 0 3)) (hlc : p.lcState ≠ LC_ENDED) :
    arbAdvance v p = (p.put SEC_STATUS_BURNING 1).modSec (fun s => { s with burns := s.burns ++ [(bitsOf v 0 3, bitsOf v 8 7)] }) := by
  unfold arbAdvance
  rw [if_neg (by simp [hkey, hrun]), if_neg (by simp [Nat.not_lt.mpr hc, Nat.not_lt.mpr hn, Nat.not_le.mpr hup, Nat.not_lt.mpr hlim, hlc])]

theorem arbAdvance_refused {v : Nat} (hkey : bitsOf v 16 16 = 0x5EC0) (hrun : p.hubRuns = true)
    (hbad : 5 < bitsOf v 0 3 ∨ bitsOf v 8 7 ≤ p.arbCount (bitsOf v 0 3) ∨ p.arbLimit (bitsOf v 0 3) < bitsOf v 8 7) :
    arbAdvance v p = p.bump64 SEC_ARB_REFUSED 1 := by
  unfold arbAdvance
  rw [if_neg (by simp [hkey, hrun]), if_pos]
  rcases hbad with h | h | h <;> simp [h]

/-- A register whose 7-bit fields a fold puts, one per byte: each reads what was put. -/
theorem Package.each_put_byte (a : Nat) (f : Nat → Nat) (l : List Nat) (p : Package) {c : Nat} (hc : c ≤ 5) (hin : c ∈ l) :
    (p.each l (fun p c => p.put ⟨a, 8 * c, 7⟩ (f c))).get ⟨a, 8 * c, 7⟩ = f c % 2 ^ 7 := by
  induction l generalizing p with
  | nil => exact absurd hin List.not_mem_nil
  | cons e l ih =>
    by_cases hl : c ∈ l
    · exact ih _ hl
    · have he : c = e := (List.mem_cons.mp hin).resolve_right hl
      change ((p.put ⟨a, 8 * e, 7⟩ (f e)).each l (fun p c => p.put ⟨a, 8 * c, 7⟩ (f c))).get ⟨a, 8 * c, 7⟩ = f c % 2 ^ 7
      refine Package.each_keeps_of_mem (fun q => q.get ⟨a, 8 * c, 7⟩ = f c % 2 ^ 7) (fun q d hd hq => ?_) ?_
      · have hne : c ≠ d := fun h => hl (h.symm ▸ hd)
        rw [Package.get_put_apart _ _ (by omega) (by omega), hq]
      · rw [he]
        exact p.get_put_self (f e) (by omega)

theorem Package.showArb_arbCount (p : Package) (q : Part) {c : Nat} (hc : c ≤ 5) : (p.showArb q).arbCount c = listAt 0 q.arb c % 2 ^ 7 :=
  Package.each_put_byte SEC_ARB (fun c => listAt 0 q.arb c) (List.range 6) p hc (List.mem_range.mpr (Nat.lt_succ_of_le hc))

/-- The unit once its first burn is done. -/
def SecUnit.burned (s : SecUnit) (rest : List (Nat × Nat)) : SecUnit := { s with burns := rest }

theorem arbBurnDone_eq {c n : Nat} {rest : List (Nat × Nat)} (h : p.sec.burns = (c, n) :: rest) (dt : Nat) (q : Part) : ∃ r,
    r = (((p.pass dt).showArb (q.burnTo c n)).put SEC_STATUS_BURNING (b2n !rest.isEmpty)).modSec (fun s => s.burned rest)
    ∧ arbBurnDone dt q p = (q.burnTo c n, r.raise .sec EV_SEC_ARB_ADVANCED r.beatNo (arg1Of c n)) := by
  refine ⟨_, rfl, ?_⟩
  unfold arbBurnDone
  dsimp only
  rw [Package.pass_sec, h]
  rfl

theorem Part.arb_burnTo {q : Part} (hq : q.wf = true) {c n : Nat} (hc : c ≤ 5) (hn : n ≤ 64) :
    listAt 0 (q.burnTo c n).arb c = max (listAt 0 q.arb c) n ∧ listAt 0 (q.burnTo c n).arb c ≤ 64 := by
  refine ⟨?_, listAt_le ((Part.wf_iff _).mp (Part.wf_burnTo c n hq)).2.2.2.1 c⟩
  unfold Part.burnTo
  rw [if_pos (Nat.lt_succ_of_le hc), listAt_listPut_same, Nat.min_eq_left hn]

end

/-- Settles O53, by the command. -/
theorem measurementsAndReports : Obligations.MeasurementsAndReports := by
  unfold Obligations.MeasurementsAndReports
  refine ⟨?extend, ?request, ?done, ?expiry, ?burns, ?refused, ?burned⟩
  case extend =>
    intro s hrun
    refine ⟨{ s with pkg := extendSoftware s.pkg }, rfl, ?_⟩
    dsimp only
    rw [extendSoftware_eq hrun]
    exact ⟨Package.extendMr_mr _ _ _, fun n hn => Package.extendMr_mr_before _ hn _⟩
  case request =>
    intro s v hstart hrun hjob hroom
    obtain ⟨q, -, heq⟩ := hostReport_taken hstart hrun hjob hroom
    refine ⟨{ s with pkg := hostReport v s.pkg }, rfl, ?_⟩
    dsimp only
    rw [heq, Package.modSec_rd, Package.rd_wr_same]
    exact ⟨rfl, rfl⟩
  case done =>
    intro s dt j b hjob hb hok
    obtain ⟨q, hq, heq⟩ := reportDone_eq hjob hb hok
    have hstatus : SEC_REPORT_STATUS ∉ evtRegs ∧ SEC_REPORT_STATUS ≠ IRQ_STATUS .sec := by decide
    refine ⟨{ s with pkg := reportDone dt s.pkg }, rfl, ?_⟩
    dsimp only
    rw [heq, Package.raise_sec, Package.raise_mem, Package.wr_mem, Package.storeBy_mem, Package.raise_rd _ _ _ _ _ hstatus.1 hstatus.2, Package.rd_wr_same]
    refine ⟨?_, ?_, rfl, Package.raise_status _ _ _ _ _ (by decide)⟩
    · obtain ⟨m, hm⟩ := q.storeBy_shape 8 j.addr b
      rw [Package.wr_sec, hm, hq]
      rfl
    · rw [hq]
      exact congrArg (storeBytes · _ _) (s.pkg.pass_mem dt)
  case expiry =>
    intro s dt
    refine ⟨{ s with pkg := reportHoldExpiry dt s.pkg }, rfl, ?_⟩
    dsimp only
    rw [reportHoldExpiry_eq]
    exact ⟨congrArg (fun x : SecUnit => (x.held _).reports) (s.pkg.pass_sec dt), s.pkg.pass_regs dt⟩
  case burns =>
    intro s v hkey hrun hc hn hup hlim hlc
    refine ⟨{ s with pkg := arbAdvance v s.pkg }, rfl, ?_⟩
    dsimp only
    rw [arbAdvance_burns hkey hrun hc hn hup hlim hlc]
    exact ⟨rfl, (Package.has_of_rd (Package.modSec_rd _ _ _)).trans (Package.has_put_one _ rfl (by decide)), rfl⟩
  case refused =>
    intro s v hkey hrun hbad
    exact next_pkg_congr (arbAdvance_refused hkey hrun hbad)
  case burned =>
    intro s dt c n rest hburns hc hn hwf
    obtain ⟨r, hr, heq⟩ := arbBurnDone_eq hburns dt s.part
    obtain ⟨hmax, h64⟩ := Part.arb_burnTo hwf hc hn
    have hcount : r.arbCount c = listAt 0 (s.part.burnTo c n).arb c := by
      refine (congrArg (bitsOf · _ _) ?_).trans ((((s.pkg.pass dt).showArb_arbCount (s.part.burnTo c n) hc)).trans (Nat.mod_eq_of_lt (by omega)))
      rw [hr, Package.modSec_rd, Package.rd_put_ne _ _ _ (by decide)]
    refine ⟨_, onBoth_eq heq, hmax, ?_, ?_, Package.raise_status _ _ _ _ _ (by decide)⟩
    · dsimp only
      rw [Package.raise_sec, hr]
      rfl
    · dsimp only
      exact (congrArg (bitsOf · _ _) (r.raise_rd _ _ _ _ (by decide) (by decide))).trans hcount

end Sys2Proof.Machine

/-! ### Bucket deadlines and results (R267, R270, R272) -/

namespace Sys2Proof.Machine

section
variable (p : Package) (dt : Nat)

@[simp] theorem Package.pass_bctx (i : Nat) : (p.pass dt).bctx i = p.bctx i := by
  unfold Package.bctx
  rw [Package.pass_cru]

@[simp] theorem Package.pass_bucket (i : Nat) : (p.pass dt).bucket i = p.bucket i := by
  unfold Package.bucket
  simp only [Package.pass_rd, Package.pass_load]

@[simp] theorem Package.pass_region (i : Nat) : (p.pass dt).region i = p.region i := by
  unfold Package.region Package.regionAddr
  simp only [Package.pass_rd, Package.pass_load]

@[simp] theorem Package.pass_missingMembers (b : Bucket) (x : BktCtx) : (p.pass dt).missingMembers b x = p.missingMembers b x := by
  unfold Package.missingMembers Package.members'
  rw [Package.pass_get]

@[simp] theorem Package.pass_bucketScale (b : Bucket) (step : Nat) : (p.pass dt).bucketScale b step = p.bucketScale b step := by
  unfold Package.bucketScale Package.bucketSlot Package.tieBytes Package.layer Package.layerAddr Package.histBytes Package.decision Package.staleMax
  simp only [Package.pass_rd, Package.pass_load, Package.pass_get]

@[simp] theorem Package.pass_arrayFree (r : Region) (step : Nat) : (p.pass dt).arrayFree r step = p.arrayFree r step := by
  unfold Package.arrayFree Package.stepResolved
  rw [Package.pass_cru, Package.pass_pours]

@[simp] theorem Package.pass_fatal : (p.pass dt).fatal = p.fatal := p.pass_has dt _

end

/-- A fold whose every element leaves the package leaves it. -/
theorem Package.each_eq_self {α : Type} {p : Package} {l : List α} {f : Package → α → Package} (h : ∀ e, e ∈ l → f p e = p) : p.each l f = p :=
  Package.each_keeps_of_mem (fun q => q = p) (fun q e he hq => by rw [hq, h e he]) rfl

section
variable {p : Package} {i n : Nat} {b : Bucket} {x : BktCtx}

@[simp] theorem Package.setBctx_bctx (p : Package) (x : BktCtx) {i : Nat} (h : x.bucket % 64 = i % 64) : (p.setBctx x).bctx i = some x := by
  change mapFind (mapPut p.cru.ctxs (x.bucket % 64) x) (i % 64) = some x
  rw [h, mapFind_mapPut_same]

theorem Package.setBctx_rd (p : Package) (x : BktCtx) {a : Nat} (h : CRU_STATUS ≠ a) : (p.setBctx x).rd a = p.rd a :=
  (Package.rd_put_ne _ CRU_STATUS_STEP _ h).trans (Package.rd_put_ne _ CRU_STATUS_OPEN _ h)

theorem Package.setBctx_mem (p : Package) (x : BktCtx) : (p.setBctx x).mem = p.mem := by
  rw [Package.setBctx, Package.showCru, Package.put_mem, Package.put_mem, Package.modCru]

theorem Package.bctx_of_cru {p q : Package} (h : q.cru = p.cru) (i : Nat) : q.bctx i = p.bctx i := by
  unfold Package.bctx
  rw [h]

theorem Package.acct_modAcct (p : Package) (step : Nat) (f : StepAcct → StepAcct) : (p.modAcct step f).acct step = f (p.acct step) := by
  unfold Package.acct Package.modAcct
  exact mapGet_mapSet_same ({} : StepAcct) _ _ _

theorem Package.bctxOf_eq_some {p : Package} {b step : Nat} {y : BktCtx} (h : p.bctxOf b step = some y) : p.bctx b = some y := by
  unfold Package.bctxOf at h
  split at h
  · next x hx =>
    split at h
    · rw [hx, h]
    · exact absurd h.symm (Option.some_ne_none _)
  · exact absurd h.symm (Option.some_ne_none _)

/-- Without copies held back, the soft deadline marks the context and no more. -/
theorem softDeadline_marks (hx : p.bctx i = some x) (hopen : x.openBeat = some n) (hb : p.bucket x.bucket = some b) (hsoft : x.soft = false)
    (hlate : n + p.get CRU_CFG_SOFT_BEATS ≤ p.beatNo) (hheld : x.held = []) (dt : Nat) :
    softDeadline dt i p = (p.pass dt).setBctx { x with soft := true } := by
  unfold softDeadline
  dsimp only
  rw [Package.pass_bctx, hx]
  dsimp only
  rw [hopen, Package.pass_bucket, hb]
  dsimp only
  rw [if_neg (by simp [hsoft, hlate]), ← hopen]
  refine Package.each_eq_self fun m _ => ?_
  split
  · rfl
  · next y hy =>
    have hxy : some { x with soft := true } = some y := (Package.setBctx_bctx _ _ rfl).symm.trans (Package.bctxOf_eq_some hy)
    have hnone : y.held = [] := by rw [← Option.some.inj hxy, hheld]
    rw [hnone, List.find?_nil]

/-- The package once the hard limit has stalled the step. -/
def Package.stalled (p : Package) (x : BktCtx) (m : Nat) : Package :=
  ((p.modAcct x.step (fun a => { a with stall := true })).bump64 CRU_STALL_COUNT 1).raise .cru EV_CRU_STEP_STALL x.step (arg1Of x.bucket m)

theorem hardLimit_stalls (hx : p.bctx i = some x) (hopen : x.openBeat = some n) (hb : p.bucket x.bucket = some b) (hmiss : p.missingMembers b x ≠ [])
    (hlate : n + p.get CRU_CFG_HARD_BEATS ≤ p.beatNo) (dt : Nat) : ∃ m, hardLimit dt i p = ((p.pass dt).stalled x m).closeCtx x.bucket x.step := by
  refine ⟨listAt 0 (p.missingMembers b x) 0, ?_⟩
  unfold hardLimit
  dsimp only
  rw [Package.pass_bctx, hx]
  dsimp only
  rw [hopen, Package.pass_bucket, hb]
  dsimp only
  rw [Package.pass_missingMembers, if_neg (by simp [hmiss, hlate])]
  rfl

/-- The context that closes, and the bucket that counts as closed. -/
def CruUnit.closing (c : CruUnit) (b step : Nat) : CruUnit := { c with ctxs := mapDel c.ctxs (b % 64), closed := (b, step) :: c.closed }

theorem Package.showCru_cru (p : Package) : p.showCru.cru = p.cru := by
  unfold Package.showCru
  rw [Package.put_cru, Package.put_cru]

theorem Package.showCru_rd (p : Package) {a : Nat} (h : CRU_STATUS ≠ a) : p.showCru.rd a = p.rd a :=
  (Package.rd_put_ne _ CRU_STATUS_STEP _ h).trans (Package.rd_put_ne _ CRU_STATUS_OPEN _ h)

theorem Package.wakeAll_quiet (hwait : p.cru.waiting = []) (hown : p.cru.own = []) : p.wakeAll = p := by
  unfold Package.wakeAll
  dsimp only
  rw [hown, List.mergeSort_nil, Package.each_eq_self fun e he => absurd he List.not_mem_nil, hwait, List.mergeSort_nil,
    Package.each_eq_self fun e he => absurd he List.not_mem_nil]

/-- With nothing that waits, closing a context is all that happens. -/
theorem Package.closeCtx_quiet (hwait : p.cru.waiting = []) (hown : p.cru.own = []) (b step : Nat) :
    p.closeCtx b step = (p.modCru (fun c => c.closing b step)).showCru := by
  refine Package.wakeAll_quiet ?_ ?_
  · rw [Package.showCru_cru]
    exact hwait
  · rw [Package.showCru_cru]
    exact hown

theorem Package.stalled_cru (p : Package) (x : BktCtx) (m : Nat) :
    (p.stalled x m).cru = (p.modAcct x.step (fun a => { a with stall := true })).cru := by
  unfold Package.stalled
  rw [Package.raise_cru, Package.bump64_cru]

/-- What the hard limit leaves behind where nothing else waits. -/
theorem Package.stalled_closed (hwait : p.cru.waiting = []) (hown : p.cru.own = []) (x : BktCtx) (m : Nat) :
    ((p.stalled x m).closeCtx x.bucket x.step).bucketClosed x.bucket x.step = true
    ∧ ((p.stalled x m).closeCtx x.bucket x.step).bctx x.bucket = none ∧ (((p.stalled x m).closeCtx x.bucket x.step).acct x.step).stall = true
    ∧ ((p.stalled x m).closeCtx x.bucket x.step).rd CRU_STALL_COUNT = (p.rd CRU_STALL_COUNT + 1) % 2 ^ 64
    ∧ bitAt (((p.stalled x m).closeCtx x.bucket x.step).rd (IRQ_STATUS .cru)) EV_CRU_STEP_STALL = true := by
  have hcru := p.stalled_cru x m
  rw [Package.closeCtx_quiet (by rw [hcru]; exact hwait) (by rw [hcru]; exact hown)]
  refine ⟨?_, ?_, ?_, ?_, ?_⟩
  · rw [Package.bucketClosed, Package.showCru_cru]
    exact List.contains_cons.trans (by simp)
  · rw [Package.bctx, Package.showCru_cru]
    exact mapFind_mapDel_same _ _
  · rw [Package.acct, Package.showCru_cru]
    refine congrArg StepAcct.stall (?_ : mapGet {} (p.stalled x m).cru.steps x.step = { p.acct x.step with stall := true })
    rw [hcru]
    exact p.acct_modAcct x.step _
  · rw [Package.showCru_rd _ (by decide)]
    exact (Package.raise_rd _ _ _ _ _ (by decide) (by decide)).trans (Package.rd_bump64 _ _ _)
  · rw [Package.showCru_rd _ (by decide)]
    exact Package.raise_status _ _ _ _ _ (by decide)

/-- A complete sum: written where its array is free, and else counted once as waiting. -/
theorem resultWrite_eq {r : Region} {e : Int} {code : Nat} (hx : p.bctx i = some x) (hb : p.bucket x.bucket = some b) (hr : p.region b.region = some r)
    (hscale : p.bucketScale b x.step = some (e, code)) (hfatal : p.fatal = false) (hmiss : p.missingMembers b x = []) (dt : Nat) :
    resultWrite dt i p = if p.arrayFree r x.step then (p.pass dt).writeResult b r x e
      else if x.gradWait then p.pass dt else ((p.pass dt).setBctx { x with gradWait := true }).bump64 CRU_GRADBUF_WAITS 1 := by
  unfold resultWrite
  dsimp only
  rw [Package.pass_bctx, hx]
  dsimp only
  rw [Package.pass_bucket, hb]
  dsimp only
  rw [Package.pass_region, hr, Package.pass_bucketScale, hscale]
  dsimp only
  rw [Package.pass_fatal, hfatal, Package.pass_missingMembers, hmiss, Package.pass_arrayFree, if_neg (by decide)]
  cases p.arrayFree r x.step <;> rfl

end

/-- Settles O26, by the command. -/
theorem bucketDeadlinesAndResults : Obligations.BucketDeadlinesAndResults := by
  unfold Obligations.BucketDeadlinesAndResults
  refine ⟨?soft, ?hard, ?written, ?waits⟩
  case soft =>
    intro s dt i n b x hx hi hopen hb hsoft hlate hheld
    refine ⟨{ s with pkg := softDeadline dt i s.pkg }, rfl, ?_⟩
    dsimp only
    rw [softDeadline_marks hx hopen hb hsoft hlate hheld]
    exact Package.setBctx_bctx _ { x with soft := true } hi
  case hard =>
    intro s dt i n b x hx hopen hb hmiss hlate hwait hown
    obtain ⟨m, heq⟩ := hardLimit_stalls hx hopen hb hmiss hlate dt
    have hcru := s.pkg.pass_cru dt
    have hclosed := Package.stalled_closed (p := s.pkg.pass dt) (by rw [hcru, hwait]) (by rw [hcru, hown]) x m
    refine ⟨{ s with pkg := hardLimit dt i s.pkg }, rfl, ?_⟩
    dsimp only
    rw [heq]
    rwa [Package.pass_rd] at hclosed
  case written =>
    intro s dt i b x r e code hx hb hr hscale hfatal hmiss hfree
    refine next_pkg_congr ?_
    rw [resultWrite_eq hx hb hr hscale hfatal hmiss, if_pos hfree]
  case waits =>
    intro s dt i b x r e code hx hb hr hscale hfatal hmiss hfree hwait
    refine ⟨{ s with pkg := resultWrite dt i s.pkg }, rfl, ?_⟩
    dsimp only
    rw [resultWrite_eq hx hb hr hscale hfatal hmiss, if_neg (by simp [hfree]), if_neg (by simp [hwait]), Package.bump64_mem, Package.setBctx_mem,
      Package.pass_mem, Package.rd_bump64, Package.setBctx_rd _ _ (by decide), Package.pass_rd, Package.bctx_of_cru (Package.bump64_cru _ _ _)]
    exact ⟨Package.setBctx_bctx _ { x with gradWait := true } rfl, rfl, rfl⟩

end Sys2Proof.Machine

/-! ### The step tree (R273 to R278) -/

namespace Sys2Proof.Machine

section
variable (p : Package) (dt : Nat)

@[simp] theorem Package.pass_acct (step : Nat) : (p.pass dt).acct step = p.acct step := by
  unfold Package.acct
  rw [Package.pass_cru]

@[simp] theorem Package.pass_children : (p.pass dt).children = p.children := by
  unfold Package.children
  rw [Package.pass_get]

@[simp] theorem Package.pass_missingChildren (a : StepAcct) (beat : Nat) : (p.pass dt).missingChildren a beat = p.missingChildren a beat := by
  unfold Package.missingChildren Package.isBackupChild Package.childReport Package.treeEntry
  simp only [Package.pass_children, Package.pass_get, Package.pass_rd, Package.pass_load, Package.pass_beatNo]

@[simp] theorem Package.pass_ownReport (step : Nat) : (p.pass dt).ownReport step = p.ownReport step := by
  unfold Package.ownReport Package.ownStats Package.slotKey Package.histBytes
  simp only [Package.pass_acct, Package.pass_num, Package.pass_rd, Package.pass_load]

end

/-! #### Time that passes adds no stage -/

/-- The keys of a map after an entry is put. -/
theorem mem_keys_mapPut {α : Type} {m : List (Nat × α)} {i k : Nat} {v : α} (h : k ∈ (mapPut m i v).map Prod.fst) : k = i ∨ k ∈ m.map Prod.fst := by
  induction m with
  | nil => exact .inl (List.mem_singleton.mp h)
  | cons e m ih =>
    obtain ⟨j, w⟩ := e
    unfold mapPut at h
    split at h
    · exact .inr h
    · split at h
      · exact List.mem_cons.mp h
      · rcases List.mem_cons.mp h with h | h
        · exact .inr (List.mem_cons.mpr (.inl h))
        · exact (ih h).imp id (List.mem_cons_of_mem _)

theorem mem_keys_mapSet {α : Type} [DecidableEq α] {d : α} {m : List (Nat × α)} {i k : Nat} {v : α} (h : k ∈ (mapSet d m i v).map Prod.fst) :
    k = i ∨ k ∈ m.map Prod.fst := by
  unfold mapSet at h
  split at h
  · obtain ⟨e, he, rfl⟩ := List.mem_map.mp h
    exact .inr (List.mem_map_of_mem (List.mem_filter.mp he).1)
  · exact mem_keys_mapPut h

theorem Package.pass_stages_subset (p : Package) (dt : Nat) {k : Nat} (h : k ∈ (p.pass dt).stages.map Prod.fst) : k ∈ p.stages.map Prod.fst := by
  unfold Package.pass at h
  split at h
  · exact h
  · revert h
    dsimp only
    rw [Package.elapse_stages]
    refine List.foldlRecOn (motive := fun q : Package => k ∈ q.stages.map Prod.fst → k ∈ p.stages.map Prod.fst) _ _ ?_ fun q hq c _ => hq
    refine List.foldlRecOn (motive := fun q : Package => k ∈ q.stages.map Prod.fst → k ∈ p.stages.map Prod.fst) _ _ id fun q hq s hs h => ?_
    obtain rfl | h := mem_keys_mapSet h
    · exact (List.mem_filter.mp hs).1
    · exact hq h

/-- A step whose buckets and stages were ready stays ready as time passes. -/
theorem Package.pass_ownReady {p : Package} {step : Nat} (h : p.ownReady step = true) (dt : Nat) : (p.pass dt).ownReady step = true := by
  unfold Package.ownReady Package.countingStages Package.bucketClosed at h ⊢
  rw [Bool.and_eq_true] at h ⊢
  rw [Package.pass_rd, Package.pass_cru]
  refine ⟨h.1, List.all_eq_true.mpr fun s hs => ?_⟩
  rw [List.mem_filter, Package.pass_stgState] at hs
  rw [Package.pass_stg_lastBackward]
  exact List.all_eq_true.mp h.2 s (List.mem_filter.mpr ⟨p.pass_stages_subset dt hs.1, hs.2⟩)

/-! #### Reports -/

section
variable {p : Package}

/-- A report cannot go up before the own one is ready. -/
theorem Package.tryUp_waits {step : Nat} (h : (p.acct step).ready = none) : p.tryUp step = p := by
  unfold Package.tryUp
  dsimp only
  rw [h]

theorem ownReportReady_eq {step : Nat} (hfatal : p.fatal = false) (hnone : (p.acct step).ready = none) (hopen : p.cru.decided ≤ step)
    (hready : p.ownReady step = true) (dt : Nat) : ownReportReady dt step p
      = ((p.pass dt).modAcct step (fun a => { a with ready := some (p.beatNo, p.ownReport step) })).tryUp step := by
  unfold ownReportReady
  dsimp only
  rw [Package.pass_fatal, hfatal, Package.pass_acct, hnone, Package.pass_cru, decide_eq_false (Nat.not_lt.mpr hopen), Package.pass_ownReady hready,
    if_neg (by decide), Package.pass_beatNo, Package.pass_ownReport]

theorem childReportReceive_eq {child : Nat} {r : StepReport} (hopen : p.cru.decided ≤ r.step) (hchild : child ∈ p.children)
    (hnew : ∀ c ∈ (p.acct r.step).children, c.1 ≠ child) (dt : Nat) : childReportReceive dt child r p
      = ((p.pass dt).modAcct r.step (fun a => { a with children := a.children ++ [(child, (p.beatNo, r))] })).tryUp r.step := by
  have hfirst : (p.acct r.step).children.any (fun c => decide (c.1 = child)) = false :=
    List.any_eq_false.mpr fun c hc => by rw [decide_eq_false (hnew c hc)]; exact Bool.false_ne_true
  unfold childReportReceive
  dsimp only
  rw [Package.pass_cru, decide_eq_false (Nat.not_lt.mpr hopen), Package.pass_children, List.contains_iff_mem.mpr hchild, Package.pass_acct, hfirst,
    if_neg (by decide), Package.pass_beatNo]

/-- What a message to the tree may change. -/
theorem Package.sendMask_keeps (p : Package) (mask dest cls len : Nat) (body : MsgBody) : (p.sendMask mask dest cls len body).cru = p.cru
    ∧ (p.sendMask mask dest cls len body).rd (IRQ_STATUS .cru) = p.rd (IRQ_STATUS .cru) := by
  unfold Package.sendMask
  split
  · exact ⟨rfl, rfl⟩
  · unfold Package.noRoute
    extract_lets l q quiet
    have hq : q.cru = p.cru ∧ q.rd (IRQ_STATUS .cru) = p.rd (IRQ_STATUS .cru) := ⟨rfl, Package.rd_bump64_ne _ _ (by decide)⟩
    split
    · exact hq
    · rw [Package.raise_cru, Package.raise_rd _ _ _ _ _ (by decide) (by decide)]
      exact hq

/-- A report that goes up is kept as sent. -/
theorem Package.sendUp_keeps (p : Package) (step : Nat) (r : StepReport) : ((p.sendUp step r).acct step).sentUp = some r
    ∧ (p.sendUp step r).rd (IRQ_STATUS .cru) = p.rd (IRQ_STATUS .cru) := by
  unfold Package.sendUp
  extract_lets q
  have hq : (q.acct step).sentUp = some r := congrArg StepAcct.sentUp (Package.acct_modAcct _ step _)
  have hrd : q.rd (IRQ_STATUS .cru) = p.rd (IRQ_STATUS .cru) := rfl
  split
  · exact ⟨hq, hrd⟩
  · split
    · exact ⟨hq, hrd⟩
    · next e _ =>
      obtain ⟨hcru, hirq⟩ := q.sendMask_keeps e.mask e.node CLS_TREE (64 + 48 * r.stats.length) (reportMsg r)
      refine ⟨?_, hirq.trans hrd⟩
      unfold Package.acct
      rw [hcru]
      exact hq

theorem treeLimitExpiry_eq {step beat : Nat} {own : StepReport} (hfatal : p.fatal = false) (hready : (p.acct step).ready = some (beat, own))
    (hsent : (p.acct step).sentUp = none) (hmiss : p.missingChildren (p.acct step) beat ≠ []) (hlate : beat + p.get CRU_TREE_CFG_LIMIT ≤ p.beatNo)
    (dt : Nat) : ∃ q m r, q = (p.pass dt).raise .cru EV_CRU_STEP_STALL step m ∧ r.missing = true ∧ treeLimitExpiry dt step p = q.sendUp step r := by
  unfold treeLimitExpiry
  dsimp only
  rw [Package.pass_acct, hready]
  dsimp only
  rw [Package.pass_missingChildren, if_neg (by simp [hfatal, hsent, hmiss, hlate])]
  exact ⟨_, _, _, rfl, rfl, rfl⟩

/-! #### Decisions and outcomes -/

theorem stepDecision_eq {step : Nat} {r : StepReport} {dt : Nat} (h : (p.pass dt).decidable step = some r) : stepDecision dt step p
      = (((p.pass dt).lateCapture ((p.pass dt).outcomeOf r)).takeOutcome ((p.pass dt).outcomeOf r)).cadence ((p.pass dt).outcomeOf r) := by
  unfold stepDecision
  dsimp only
  rw [h]

theorem stepOutcomeReceive_taken {o : Outcome} (h : p.cru.decided ≤ o.step) (dt : Nat) :
    stepOutcomeReceive dt o p = (((p.pass dt).lateCapture o).takeOutcome o).cadence o := by
  unfold stepOutcomeReceive
  dsimp only
  rw [Package.pass_cru, if_neg (Nat.not_lt.mpr h)]

theorem stepOutcomeReceive_late {o : Outcome} (h : o.step < p.cru.decided) (dt : Nat) : stepOutcomeReceive dt o p = p.pass dt := by
  unfold stepOutcomeReceive
  dsimp only
  rw [Package.pass_cru, if_pos h]

/-- The five causes of Table 11-4 that reject a step. -/
theorem decideCause_eq_zero (r : StepReport) (per : Bool) : decideCause r per = 0
    ↔ r.stall = false ∧ r.missing = false ∧ r.nonfinite = false ∧ (per = true ∨ (f64 r.n2).isFinite = true) ∧ r.cksum = false := by
  have hcauses : ∀ stall missing nonfinite finite cksum per : Bool, (if stall = true then 1 else if missing = true then 2 else if nonfinite = true then 3
      else if (!per && !finite) = true then 4 else if cksum = true then 5 else 0) = 0
      ↔ stall = false ∧ missing = false ∧ nonfinite = false ∧ (per = true ∨ finite = true) ∧ cksum = false := by decide
  exact hcauses r.stall r.missing r.nonfinite (f64 r.n2).isFinite r.cksum per

end

/-- Settles O27, by the command. -/
theorem stepTree : Obligations.StepTree := by
  unfold Obligations.StepTree
  refine ⟨?own, ?child, ?limit, ?decide, ?taken, ?late, ?commit, ?combine⟩
  case own =>
    intro s dt step hfatal hnone hopen hready
    exact next_pkg_congr (ownReportReady_eq hfatal hnone hopen hready dt)
  case child =>
    intro s dt child r hopen hchild hnew hnone
    refine ⟨{ s with pkg := childReportReceive dt child r s.pkg }, rfl, ?_⟩
    dsimp only
    rw [childReportReceive_eq hopen hchild hnew, Package.tryUp_waits]
    · exact (congrArg StepAcct.children (Package.acct_modAcct _ r.step _)).trans (by rw [Package.pass_acct])
    · exact (congrArg StepAcct.ready (Package.acct_modAcct _ r.step _)).trans (by rw [Package.pass_acct, hnone])
  case limit =>
    intro s dt step beat own hfatal hready hsent hmiss hlate
    obtain ⟨q, m, r, hq, hr, heq⟩ := treeLimitExpiry_eq hfatal hready hsent hmiss hlate dt
    obtain ⟨hup, hirq⟩ := q.sendUp_keeps step r
    refine ⟨{ s with pkg := treeLimitExpiry dt step s.pkg }, r, rfl, ?_⟩
    dsimp only
    rw [heq, hirq, hq]
    exact ⟨hq ▸ hup, hr, Package.raise_status _ _ _ _ _ (by decide)⟩
  case decide =>
    intro s dt step r h
    exact next_pkg_congr (stepDecision_eq h)
  case taken =>
    intro s dt o h
    exact next_pkg_congr (stepOutcomeReceive_taken h dt)
  case late =>
    intro s dt o h
    exact next_pkg_congr (stepOutcomeReceive_late h dt)
  case commit =>
    intro p r
    exact decide_eq_true_iff.trans (decideCause_eq_zero r (p.has CRU_CFG_CLIP_MODE))
  case combine =>
    intro a b
    exact ⟨rfl, rfl, rfl, rfl⟩

end Sys2Proof.Machine

/-! ### What keeps the stages and the groups

Most operations write registers, memory or links alone: the stages' and groups' own state stays. -/

namespace Sys2Proof.Machine

/-- The state of the stages and of the groups' windows stays as it was. -/
structure Package.KeepsSched (p q : Package) : Prop where
  stages : q.stages = p.stages
  groups : q.groups = p.groups

namespace Package.KeepsSched

variable {p q r : Package}

theorem refl (p : Package) : p.KeepsSched p := ⟨rfl, rfl⟩

theorem trans (h : p.KeepsSched q) (k : q.KeepsSched r) : p.KeepsSched r := ⟨k.stages.trans h.stages, k.groups.trans h.groups⟩

theorem stg (h : p.KeepsSched q) (s : Nat) : q.stg s = p.stg s := by
  unfold Package.stg
  rw [h.stages]

theorem grp (h : p.KeepsSched q) (g : Nat) : q.grp g = p.grp g := by
  unfold Package.grp
  rw [h.groups]

theorem wr (p : Package) (a v : Nat) : p.KeepsSched (p.wr a v) := ⟨rfl, rfl⟩

theorem put (p : Package) (f : Fld) (v : Nat) : p.KeepsSched (p.put f v) := ⟨rfl, rfl⟩

theorem raise (p : Package) (g : Page) (ev a0 a1 : Nat) : p.KeepsSched (p.raise g ev a0 a1) := ⟨p.raise_stages _ _ _ _, p.raise_groups _ _ _ _⟩

theorem report (p : Package) (g : Page) (d cls cause a0 a1 : Nat) (b c : Bool) : p.KeepsSched (p.report g d cls cause a0 a1 b c) :=
  ⟨p.report_stages _ _ _ _ _ _ _ _, p.report_groups _ _ _ _ _ _ _ _⟩

theorem each {α : Type} {f : Package → α → Package} (hf : ∀ (q : Package) (e : α), q.KeepsSched (f q e)) (p : Package) (l : List α) :
    p.KeepsSched (p.each l f) :=
  Package.each_keeps p.KeepsSched f (fun q e h => h.trans (hf q e)) p l (refl p)

theorem store (p : Package) (a : Nat) (bs : List Byte) : p.KeepsSched (p.store a bs) := by
  obtain ⟨r, h⟩ := p.store_shape a bs
  rw [h]
  exact ⟨rfl, rfl⟩

theorem tryStore (p : Package) (a : Nat) (bs : List Byte) : p.KeepsSched (p.tryStore a bs) := by
  unfold Package.tryStore
  split
  · exact store p a bs
  · exact refl p

theorem addCredit (p : Package) (s n c : Nat) : p.KeepsSched (p.addCredit s n c) := by
  unfold Package.addCredit
  split
  · exact put p _ _
  · exact refl p

theorem putGroup (p : Package) (g : Nat) (f : Nat → Fld) (v : Nat) : p.KeepsSched (p.putGroup g f v) := each (fun q _ => put q _ _) p _

theorem showGroup (p : Package) (g : Nat) : p.KeepsSched (p.showGroup g) := by
  have hcur (q : Package) (l : List Nat) (a b : Nat) : q.KeepsSched (q.each l (fun p s => (p.wr (HAL_WIN_CUR_A s) a).wr (HAL_WIN_CUR_B s) b)) :=
    each (fun q _ => (wr q _ _).trans (wr _ _ _)) q l
  unfold Package.showGroup
  extract_lets x q
  have hq : p.KeepsSched q := putGroup p _ _ _
  split
  · exact hq.trans ((putGroup q _ _ _).trans ((putGroup _ _ _ _).trans ((putGroup _ _ _ _).trans (hcur _ _ _ _))))
  · exact hq.trans ((putGroup q _ _ _).trans ((putGroup _ _ _ _).trans ((putGroup _ _ _ _).trans (hcur _ _ _ _))))

theorem showStash (p : Package) (s : Nat) : p.KeepsSched (p.showStash s) := by
  unfold Package.showStash
  dsimp only
  have hput : p.KeepsSched ((p.put (HAL_STASH_USED_BYTES s) ((p.stg s).stash.map (fun r => r.bytes)).sum).put (HAL_STASH_USED_RECORDS s)
    ((p.stg s).stash.filter (fun r => !r.freed)).length) := (put p _ _).trans (put _ _ _)
  split
  · exact hput.trans (wr _ _ _)
  · exact hput

theorem sendRoute (p : Package) (dest cls len : Nat) (body : MsgBody) : p.KeepsSched (p.sendRoute dest cls len body) := by
  unfold Package.sendRoute
  split
  · exact ⟨rfl, rfl⟩
  · unfold Package.noRoute
    extract_lets l q quiet
    have hq : p.KeepsSched q := ⟨rfl, rfl⟩
    split
    · exact hq
    · exact hq.trans ⟨Package.raise_stages _ _ _ _ _, Package.raise_groups _ _ _ _ _⟩

end Package.KeepsSched

@[simp] theorem Package.modGrp_stg (p : Package) (g s : Nat) (f : Group → Group) : (p.modGrp g f).stg s = p.stg s := rfl
@[simp] theorem Package.modStg_grp (p : Package) (s g : Nat) (f : Stage → Stage) : (p.modStg s f).grp g = p.grp g := rfl
@[simp] theorem Package.modStg_rd (p : Package) (s : Nat) (f : Stage → Stage) (a : Nat) : (p.modStg s f).rd a = p.rd a := rfl
@[simp] theorem Package.stg_modStg_same (p : Package) (s : Nat) (f : Stage → Stage) : (p.modStg s f).stg s = f (p.stg s) := p.stg_setStg s _
@[simp] theorem Package.grp_modGrp_same (p : Package) (g : Nat) (f : Group → Group) : (p.modGrp g f).grp g = f (p.grp g) := p.grp_setGrp g _

/-! #### A phase that is abandoned -/

theorem Package.setQueue_phase (p : Package) (s : Nat) (d : Dir) (q : Queue) : ((p.setQueue s d q).stg s).phase = (p.stg s).phase := by
  cases d <;> rw [Package.setQueue, Package.wr_stg, Package.stg_modStg_same]

theorem Package.freeRecord_phase (p : Package) (s step mb : Nat) : ((p.freeRecord s step mb).stg s).phase = (p.stg s).phase := by
  unfold Package.freeRecord
  split
  · rfl
  · rw [(KeepsSched.showStash _ s).stg, Package.stg_modStg_same, Package.clearDir, (KeepsSched.tryStore p _ _).stg s]

theorem Package.unstart_stg (p : Package) (s t : Nat) : (p.unstart s).stg t = p.stg t := by
  unfold Package.unstart
  dsimp only
  split
  · rfl
  · split
    · rfl
    · rw [(KeepsSched.showGroup _ _).stg]
      split
      · rfl
      · exact (KeepsSched.putGroup _ _ _ _).stg t

/-- A stage whose phase is abandoned has none. -/
theorem Package.abandon_phase (p : Package) (s : Nat) : ((p.abandon s).stg s).phase = none := by
  unfold Package.abandon
  split
  · assumption
  · next ph _ =>
    extract_lets q c x r u
    have hq : (q.stg s).phase = none := congrArg Stage.phase (p.stg_modStg_same s _)
    have hc : (c.stg s).phase = none := by
      rw [(KeepsSched.each (fun q n => KeepsSched.addCredit q s n 1) q _).stg s]
      exact hq
    have hr : (r.stg s).phase = none := (c.setQueue_phase s ph.dir _).trans hc
    rw [Package.unstart_stg]
    unfold u
    split
    · exact (r.freeRecord_phase s ph.step ph.microBatch).trans hr
    · exact hr

end Sys2Proof.Machine

/-! ### Disabling a stage, and issue windows (R51, R76, R78, R79, R86, R87, R366) -/

namespace Sys2Proof.Machine

/-- The state that stage s shows, its stash, and the groups' windows stay as they were. -/
structure Package.KeepsDisabled (s : Nat) (p q : Package) : Prop where
  state : q.stgState s = p.stgState s
  stash : (q.stg s).stash = (p.stg s).stash
  reopen : (q.stg s).reopen = (p.stg s).reopen
  groups : q.groups = p.groups

theorem stgStatus_ne {s a : Nat} (h : a < 0x10000) : a ≠ STG_STATUS s := by
  unfold STG_STATUS
  omega

namespace Package.KeepsDisabled

variable {s : Nat} {p q r : Package}

theorem refl (p : Package) : p.KeepsDisabled s p := ⟨rfl, rfl, rfl, rfl⟩

theorem trans (h : p.KeepsDisabled s q) (k : q.KeepsDisabled s r) : p.KeepsDisabled s r :=
  ⟨k.state.trans h.state, k.stash.trans h.stash, k.reopen.trans h.reopen, k.groups.trans h.groups⟩

theorem of_sched (h : p.KeepsSched q) (hrd : q.rd (STG_STATUS s) = p.rd (STG_STATUS s)) : p.KeepsDisabled s q :=
  ⟨Package.get_of_rd hrd, congrArg Stage.stash (h.stg s), congrArg Stage.reopen (h.stg s), h.groups⟩

theorem put (p : Package) {f : Fld} (v : Nat) (h : f.addr ≠ STG_STATUS s) : p.KeepsDisabled s (p.put f v) :=
  of_sched (KeepsSched.put p f v) (p.rd_put_ne f v h)

theorem putStatus (p : Package) {lo len : Nat} (v : Nat) (h : 3 ≤ lo) : p.KeepsDisabled s (p.put ⟨STG_STATUS s, lo, len⟩ v) :=
  ⟨p.get_put_apart v (by decide) (.inl h), rfl, rfl, rfl⟩

theorem wr (p : Package) {a : Nat} (v : Nat) (h : a ≠ STG_STATUS s) : p.KeepsDisabled s (p.wr a v) :=
  of_sched (KeepsSched.wr p a v) (p.rd_wr_ne v h)

theorem modStg (p : Package) (t : Nat) {f : Stage → Stage} (h : ∀ x, (f x).stash = x.stash ∧ (f x).reopen = x.reopen) :
    p.KeepsDisabled s (p.modStg t f) := by
  have hstg : ((p.modStg t f).stg s).stash = (p.stg s).stash ∧ ((p.modStg t f).stg s).reopen = (p.stg s).reopen := by
    rw [Package.stg_modStg]
    split
    · exact h _
    · exact ⟨rfl, rfl⟩
  exact ⟨rfl, hstg.1, hstg.2, rfl⟩

theorem each {α : Type} {f : Package → α → Package} (hf : ∀ (q : Package) (e : α), q.KeepsDisabled s (f q e)) (p : Package) (l : List α) :
    p.KeepsDisabled s (p.each l f) :=
  Package.each_keeps (p.KeepsDisabled s) f (fun q e h => h.trans (hf q e)) p l (refl p)

theorem raise (p : Package) {g : Page} (ev a0 a1 : Nat) (h : STG_STATUS s ≠ IRQ_STATUS g) : p.KeepsDisabled s (p.raise g ev a0 a1) := by
  refine of_sched (KeepsSched.raise p g ev a0 a1) (p.raise_rd g ev a0 a1 ?_ h)
  simp only [evtRegs, PKG_EVT_SEQ, PKG_EVT_STATUS, PKG_EVT_LOST, STG_STATUS, List.mem_cons, List.not_mem_nil, or_false, not_or]
  omega

theorem chanState_ne (t n : Nat) : STG_CH_STATE t n ≠ STG_STATUS s := by
  unfold STG_CH_STATE STG_STATUS
  omega

theorem chanDown (p : Package) (t n : Nat) : p.KeepsDisabled s (p.chanDown t n) := by
  have hirq : STG_STATUS s ≠ IRQ_STATUS (.stg t) := by
    change 0x10000 + 0x1000 * s + 0x108 ≠ 0x10000 + 0x1000 * t + 0x60
    omega
  unfold Package.chanDown
  extract_lets st
  split
  · have hmod (q : Package) (f : Channel → Channel) : q.KeepsDisabled s (q.modChan t n f) := modStg q t fun _ => ⟨rfl, rfl⟩
    exact (put p CH_DOWN (chanState_ne t n)).trans ((hmod _ _).trans (raise _ _ _ _ hirq))
  · exact refl p

theorem noRoute (p : Package) (dest : Nat) : p.KeepsDisabled s (p.noRoute dest) := by
  have hirq : STG_STATUS s ≠ IRQ_STATUS .lnkPkg := (stgStatus_ne (by decide)).symm
  unfold Package.noRoute
  extract_lets l q quiet
  have hq : p.KeepsDisabled s q := of_sched ⟨rfl, rfl⟩ (Package.rd_bump64_ne _ 1 (stgStatus_ne (by decide)))
  have hmarked (u : LinkUnit) : p.KeepsDisabled s { q with lnk := u } := hq.trans ⟨rfl, rfl, rfl, rfl⟩
  split
  · exact hq
  · exact (hmarked _).trans (raise _ _ _ _ hirq)

theorem setQueue (p : Package) (t : Nat) (d : Dir) (q : Queue) : p.KeepsDisabled s (p.setQueue t d q) := by
  have hf : STG_FQ_PTR t ≠ STG_STATUS s := by
    unfold STG_FQ_PTR STG_STATUS
    omega
  have hb : STG_BQ_PTR t ≠ STG_STATUS s := by
    unfold STG_BQ_PTR STG_STATUS
    omega
  cases d
  · exact (modStg p t (f := fun x => { x with fq := q }) fun _ => ⟨rfl, rfl⟩).trans (wr _ _ hf)
  · exact (modStg p t (f := fun x => { x with bq := q }) fun _ => ⟨rfl, rfl⟩).trans (wr _ _ hb)

theorem dropSender (p : Package) (t : Nat) (d : Dir) : p.KeepsDisabled s (p.dropSender t d) := by
  unfold Package.dropSender
  extract_lets x q
  have hq : p.KeepsDisabled s q := setQueue p t d _
  split
  · exact hq
  · split
    · exact hq
    · split
      · exact hq.trans (chanDown q _ _)
      · unfold Package.sendRoute
        split
        · exact hq.trans ⟨rfl, rfl, rfl, rfl⟩
        · exact hq.trans (noRoute q _)

theorem bind (p : Package) : p.KeepsDisabled s (p.bind s) := by
  unfold Package.bind Package.setHome
  have hset (l : List Nat) : p.KeepsDisabled s (p.modStg s (fun x => { x with clusters := l, bindPending := false })) := modStg p s fun _ => ⟨rfl, rfl⟩
  exact (hset _).trans ((putStatus _ _ (show 3 ≤ 3 by decide)).trans (putStatus _ _ (show 3 ≤ 4 by decide)))

end Package.KeepsDisabled

section
variable {p : Package} {s : Nat}

theorem stageDrainDeadline_abandons (h : p.stgState s = STG_DRAINING) (hlate : (p.stg s).drainBeat ≤ p.beatNo) (dt : Nat) :
    stageDrainDeadline dt s p = (p.pass dt).abandon s := by
  unfold stageDrainDeadline
  dsimp only
  rw [if_pos (by simp [h, hlate])]

theorem stageDisabled_eq (h : p.stgState s = STG_DRAINING) (hphase : (p.stg s).phase = none) (dt : Nat) :
    stageDisabled dt s p = (p.pass dt).disableStage s := by
  unfold stageDisabled
  dsimp only
  rw [if_pos (by simp [h, hphase])]

/-- A group without a current window keeps its waiting windows. -/
theorem Package.idleGroup_keeps (p : Package) (g : Nat) : (p.idleGroup g).stages = p.stages ∧ ((p.idleGroup g).grp g).fifo = (p.grp g).fifo := by
  unfold Package.idleGroup Package.setWinState
  have hkeep (q : Package) : q.KeepsSched (((q.putGroup g HAL_WIN_STATUS_STATE WIN_IDLE).putGroup g HAL_WIN_STATUS_STOP_CAUSE 0).showGroup g) :=
    (KeepsSched.putGroup q _ _ _).trans ((KeepsSched.putGroup _ _ _ _).trans (KeepsSched.showGroup _ g))
  refine ⟨(hkeep _).stages, ?_⟩
  rw [(hkeep _).grp, Package.grp_modGrp_same]

/-- A cleared stash is empty. -/
theorem Package.clearStash_keeps (p : Package) (s : Nat) : ((p.clearStash s).stg s).stash = [] ∧ ((p.clearStash s).stg s).reopen = (p.stg s).reopen
    ∧ (p.clearStash s).groups = p.groups := by
  unfold Package.clearStash
  extract_lets q
  have hq : p.KeepsSched q := KeepsSched.each (fun r e => KeepsSched.tryStore r _ _) p _
  rw [(KeepsSched.showStash _ s).stg, (KeepsSched.showStash _ s).groups, Package.stg_modStg_same, hq.stg]
  exact ⟨rfl, rfl, hq.groups⟩

theorem Package.grp_of_groups {p q : Package} (h : q.groups = p.groups) (g : Nat) : q.grp g = p.grp g := by
  unfold Package.grp
  rw [h]

theorem Package.stg_of_stages {p q : Package} (h : q.stages = p.stages) (s : Nat) : q.stg s = p.stg s := by
  unfold Package.stg
  rw [h]

/-- What a stage that becomes DISABLED, with no enable that waits, leaves behind. -/
theorem Package.disableStage_shown (hopen : (p.stg s).reopen = false) : (p.disableStage s).stgState s = STG_DISABLED
    ∧ ((p.disableStage s).stg s).stash = [] ∧ ((p.disableStage s).grp (p.leader s)).fifo = (p.grp (p.leader s)).fifo.filter (fun w => w.owner ≠ s)
    ∧ bitAt ((p.disableStage s).rd (IRQ_STATUS (.hal s))) EV_HAL_WIN_DISCARDED = true := by
  unfold Package.disableStage
  extract_lets g x removed ended tag a b c d e f h i j k
  have hb : b.stages = p.stages ∧ (b.grp g).fifo = (a.grp g).fifo := by
    unfold b
    split
    · exact a.idleGroup_keeps g
    · exact ⟨(KeepsSched.showGroup a g).stages, congrArg Group.fifo ((KeepsSched.showGroup a g).grp g)⟩
  have ha : (a.grp g).fifo = (p.grp g).fifo.filter (fun w => w.owner ≠ s) := congrArg Group.fifo (p.grp_modGrp_same g _)
  obtain ⟨hstash, hreopen, hgroups⟩ := b.clearStash_keeps s
  have hstate : d.stgState s = STG_DISABLED := by
    unfold d
    rw [Package.stgState, STG_STATUS_HOLD_CAUSE, STG_STATUS_STATE, Package.get_put_apart _ _ (by decide) (by decide),
      Package.get_put_self _ _ (by decide)]
    rfl
  have hd : c.KeepsSched d := (KeepsSched.put c _ _).trans (KeepsSched.put _ _ _)
  have he : d.KeepsDisabled s e := by
    have hmod (q : Package) (n : Nat) (f : Channel → Channel) : q.KeepsDisabled s (q.modChan s n f) := KeepsDisabled.modStg q s fun _ => ⟨rfl, rfl⟩
    exact KeepsDisabled.each (fun q n => (KeepsDisabled.put q _ (KeepsDisabled.chanState_ne s n)).trans
      ((KeepsDisabled.put _ _ (KeepsDisabled.chanState_ne s n)).trans (hmod _ n _))) d _
  have hf : d.KeepsDisabled s f := he.trans ((KeepsDisabled.dropSender e s .fwd).trans (KeepsDisabled.dropSender _ s .bwd))
  have hh : d.KeepsDisabled s h := by
    unfold h
    split
    · exact hf.trans (KeepsDisabled.bind f)
    · exact hf
  have hirq : STG_STATUS s ≠ IRQ_STATUS (.hal s) := by
    change 0x10000 + 0x1000 * s + 0x108 ≠ 0x30000 + 0x1000 * s + 0x60
    omega
  have hi : d.KeepsDisabled s i := hh.trans (KeepsDisabled.raise h _ _ _ hirq)
  have hk : d.KeepsDisabled s k := hi.trans (KeepsDisabled.modStg i s fun _ => ⟨rfl, rfl⟩)
  have hj : j = false := hi.reopen.trans ((congrArg Stage.reopen (hd.stg s)).trans (hreopen.trans ((congrArg Stage.reopen (Package.stg_of_stages hb.1 s)).trans hopen)))
  have hrd : k.rd (IRQ_STATUS (.hal s)) = i.rd (IRQ_STATUS (.hal s)) := i.modStg_rd s _ _
  have hbit : bitAt (i.rd (IRQ_STATUS (.hal s))) EV_HAL_WIN_DISCARDED = true := h.raise_status _ _ _ _ (by decide)
  rw [hj, if_neg Bool.false_ne_true, hrd]
  refine ⟨hk.state.trans hstate, hk.stash.trans ((congrArg Stage.stash (hd.stg s)).trans hstash), ?_, hbit⟩
  rw [Package.grp_of_groups (hk.groups.trans (hd.groups.trans hgroups)), hb.2, ha]

/-! #### Issue windows -/

/-- The staged halves, cleared. -/
def Package.clearIssue (p : Package) (s : Nat) : Package := p.modStg s (fun x => { x with issueA := 0, issueB := 0 })

/-- A push that fits and passes every check. -/
theorem winPush_joins {v : Nat} {half : Option Nat} (hroom : (p.grp (p.leader s)).fifo.length < 16)
    (hok : p.windowCheck s (p.stg s).issueA (mergeHalf (p.stg s).issueB half v) = 0) : ∃ q, q = (p.clearIssue s).modGrp (p.leader s) (fun x =>
      { x with fifo := x.fifo ++ [windowOf s (p.stg s).issueA (mergeHalf (p.stg s).issueB half v)] })
    ∧ winPush s half v p = q.showGroup (p.leader s) := by
  refine ⟨_, rfl, ?_⟩
  have hroom' : ¬ Config.windowFifo ≤ ((p.clearIssue s).grp (p.leader s)).fifo.length := Nat.not_le.mpr hroom
  have hok' : (p.clearIssue s).windowCheck s (p.stg s).issueA (mergeHalf (p.stg s).issueB half v) = 0 := hok
  exact (if_neg hroom').trans (if_neg (not_not_intro hok'))

theorem winFlush_flushes (h : p.stgState s = 0 ∨ p.winState (p.leader s) = 4) : winFlush s p
    = (p.modGrp (p.leader s) (fun x => { x with fifo := x.fifo.filter (fun w => w.owner ≠ s) })).showGroup (p.leader s) := by
  unfold winFlush
  dsimp only
  rw [if_pos]
  rw [Bool.or_eq_true, decide_eq_true_iff, decide_eq_true_iff]
  exact h

end

/-- Settles O7, by the command. -/
theorem windowsAndDisabling : Obligations.WindowsAndDisabling := by
  unfold Obligations.WindowsAndDisabling
  refine ⟨?deadline, ?disabled, ?hold, ?clear, ?issueA, ?issueB, ?push, ?flush⟩
  case deadline =>
    intro s dt stage ph _ hst _ hlate
    refine ⟨{ s with pkg := stageDrainDeadline dt stage s.pkg }, rfl, ?_⟩
    dsimp only
    rw [stageDrainDeadline_abandons hst hlate]
    exact Package.abandon_phase _ stage
  case disabled =>
    intro s dt stage _ hst hphase hopen _
    obtain ⟨hstate, hstash, hfifo, hirq⟩ := Package.disableStage_shown (p := s.pkg.pass dt) (s := stage) (by rwa [Package.pass_stg_reopen])
    rw [Package.pass_leader] at hfifo
    refine ⟨{ s with pkg := stageDisabled dt stage s.pkg }, rfl, ?_⟩
    dsimp only
    rw [stageDisabled_eq hst hphase, hfifo]
    exact ⟨hstate, hstash, fun w hw => of_decide_eq_true (List.mem_filter.mp hw).2, hirq⟩
  case hold =>
    intro s dt stage b
    exact ⟨_, rfl, Package.has_put_b2n _ b rfl (show 0 + 1 ≤ 64 by decide), s.pkg.pass_mem dt⟩
  case clear =>
    intro s stage
    refine ⟨{ s with pkg := halClear stage s.pkg }, rfl, ?_⟩
    dsimp only
    rw [halClear, Package.has_of_rd (Package.modStg_rd _ _ _ _), Package.stg_modStg_same]
    exact ⟨Package.has_put_one _ rfl (show 1 + 1 ≤ 64 by decide), rfl⟩
  case issueA =>
    intro s stage v half
    refine ⟨{ s with pkg := winStage stage false half v s.pkg }, rfl, ?_⟩
    dsimp only
    rw [winStage, Package.stg_modStg_same]
    exact ⟨rfl, rfl, rfl⟩
  case issueB =>
    intro s stage v half
    refine ⟨{ s with pkg := winStage stage true half v s.pkg }, rfl, ?_⟩
    dsimp only
    rw [winStage, Package.stg_modStg_same]
    exact ⟨rfl, rfl, rfl⟩
  case push =>
    intro s stage v half hroom hok
    obtain ⟨q, hq, heq⟩ := winPush_joins hroom hok
    have hkeep := Package.KeepsSched.showGroup q (s.pkg.leader stage)
    refine ⟨{ s with pkg := winPush stage half v s.pkg }, rfl, ?_⟩
    dsimp only
    rw [heq, hkeep.grp, hkeep.stg, hq, Package.grp_modGrp_same, Package.modGrp_stg, Package.clearIssue, Package.stg_modStg_same, Package.modStg_grp]
    exact ⟨rfl, rfl, rfl⟩
  case flush =>
    intro s stage h
    refine ⟨{ s with pkg := winFlush stage s.pkg }, rfl, ?_⟩
    dsimp only
    rw [winFlush_flushes h, (Package.KeepsSched.showGroup _ _).grp, Package.grp_modGrp_same]

end Sys2Proof.Machine

/-! ### The Gate and the guest's requests (R331, R333, R334) -/

namespace Sys2Proof.Machine

/-! #### Reading changes no byte -/

theorem Package.linePoisoned_mem (p : Package) (x cls : Nat) : (p.linePoisoned x cls).mem = p.mem := by
  unfold Package.linePoisoned
  split
  · rfl
  · dsimp only
    rw [Package.report_mem, Package.raise_mem, Package.wr_mem, Package.bump64_mem]

theorem Package.lineCorrected_mem (p : Package) (x : Nat) : (p.lineCorrected x).mem = p.mem := by
  unfold Package.lineCorrected
  dsimp only
  rw [Package.report_mem, Package.bump64_mem]

theorem Package.lineRead_mem (p : Package) (x cls : Nat) (c : LineCheck) : (p.lineRead x cls c).mem = p.mem := by
  cases c with
  | clean => rfl
  | corrected =>
    change (if p.poisoned x then p else p.lineCorrected x).mem = p.mem
    split
    · rfl
    · exact p.lineCorrected_mem x
  | uncorrectable => exact p.linePoisoned_mem x cls

theorem Package.readFinds_mem (p : Package) (found : List (Nat × LineCheck)) (a n cls : Nat) : (p.readFinds found a n cls).mem = p.mem := by
  unfold Package.readFinds
  refine Package.each_keeps_of_mem (fun q => q.mem = p.mem) (fun q f _ hq => ?_) rfl
  split
  · split
    · rw [Package.lineRead_mem, hq]
    · exact hq
  · exact hq

theorem Package.countReadBy_mem (p : Package) (die a n : Nat) : (p.countReadBy die a n).mem = p.mem := by
  obtain ⟨r, h⟩ := p.regsOnly_countReadBy die a n
  rw [h]

theorem Package.memRead_mem (p : Package) (r : HostReq) (found : List (Nat × LineCheck)) : (p.memRead r found).2.mem = p.mem := by
  unfold Package.memRead
  split
  · rfl
  · dsimp only
    have hq : (if p.rangeOk r.addr r.len = true then p.readFinds found r.addr r.len MEM_BY_LINK else p).mem = p.mem := by
      split
      · exact p.readFinds_mem _ _ _ _
      · rfl
    generalize (if p.rangeOk r.addr r.len = true then p.readFinds found r.addr r.len MEM_BY_LINK else p) = q at hq ⊢
    split
    · exact hq
    · exact (q.countReadBy_mem _ _ _).trans hq
    · exact (q.countReadBy_mem _ _ _).trans hq

/-- A register read has no effect on the package. -/
theorem serveRequest_regRead_state (src : Nat) (r : HostReq) (found : List (Nat × LineCheck)) (q : Part) (p : Package) :
    (serveRequest OP_REG_RD src r found q p).2.2 = p := by
  unfold serveRequest
  split
  · rfl
  · rfl

theorem serveRequest_memRead_mem (src : Nat) (r : HostReq) (found : List (Nat × LineCheck)) (q : Part) (p : Package) :
    (serveRequest OP_MEM_RD src r found q p).2.2.mem = p.mem := p.memRead_mem r found

@[simp] theorem Package.pass_site (p : Package) (dt : Nat) : (p.pass dt).site = p.site := p.pass_get dt _

/-! #### Requests that are admitted -/

section
variable {p : Package} {op : Nat} {r : HostReq} {found : List (Nat × LineCheck)} {q : Part}

/-- The package once the buckets have paid for a request. -/
def Package.guestPays (p : Package) (op : Nat) (r : HostReq) : Package :=
  (p.modGate (fun g => { g with tokRd := g.tokRd - (guestCost op r).1, tokWr := g.tokWr - (guestCost op r).2, tokReq := g.tokReq - 256000 })).bump64 GATE_REQS 1

theorem Package.guestPays_mem (p : Package) (op : Nat) (r : HostReq) : (p.guestPays op r).mem = p.mem := by
  rw [Package.guestPays, Package.bump64_mem, Package.modGate]

/-- The bytes that a served request moved are counted. -/
def Package.countGuest (p : Package) (op status len : Nat) : Package :=
  if decide (status = HS_OK) && (op = OP_REG_RD || op = OP_MEM_RD) then p.bump64 GATE_BYTES_RD len
  else if decide (status = HS_OK) && opWrites op then p.bump64 GATE_BYTES_WR len else p

theorem Package.countGuest_mem (p : Package) (op status len : Nat) : (p.countGuest op status len).mem = p.mem := by
  unfold Package.countGuest
  split
  · rfl
  · split <;> rfl

/-- A request that is no event is served and answered while the site stays open. -/
theorem Package.admitGuest_served (hop : op ≠ OP_EVENT) : ∃ x u, x = serveRequest op GUEST_NODE r found q (p.guestPays op r)
    ∧ u = x.2.2.countGuest op x.1.status r.len ∧ p.admitGuest op r found q = (x.2.1, if u.site = SITE_OPEN then u.toGuest x.1 else u) := by
  refine ⟨_, _, rfl, rfl, ?_⟩
  unfold Package.admitGuest
  dsimp only
  rw [if_neg hop]
  rfl

theorem Package.admitGuest_mem_served (hop : op ≠ OP_EVENT) : (p.admitGuest op r found q).2.mem = (serveRequest op GUEST_NODE r found q (p.guestPays op r)).2.2.mem := by
  obtain ⟨x, u, hx, hu, h⟩ := Package.admitGuest_served (p := p) (r := r) (found := found) (q := q) hop
  rw [h, ← hx]
  have hmem : u.mem = x.2.2.mem := by rw [hu, Package.countGuest_mem]
  dsimp only
  split
  · exact hmem
  · exact hmem

theorem Package.guestPays_keepsMem (p : Package) (op : Nat) (r : HostReq) : p.KeepsMem (p.guestPays op r) := by
  have hgate (f : GateUnit → GateUnit) : p.KeepsMem (p.modGate f) := ⟨rfl, rfl⟩
  exact (hgate _).bump64

/-- An event of the guest changes no byte. -/
theorem Package.admitGuest_event_mem : (p.admitGuest OP_EVENT r found q).2.mem = p.mem := by
  have hpays : p.KeepsMem (p.guestPays OP_EVENT r) := p.guestPays_keepsMem _ r
  have hanswer (u : Package) (rsp : HostRsp) (hu : p.KeepsMem u) : (u.toGuest rsp).mem = p.mem := hu.mem
  unfold Package.admitGuest
  dsimp only
  rw [if_pos rfl]
  split
  · exact hanswer _ _ hpays
  · split
    · exact hanswer _ _ hpays
    · refine hanswer _ _ ?_
      split
      · exact hpays.eventToHost
      · split
        · exact hpays.enqueue
        · exact hpays.noRoute

/-! #### Requests as they come -/

theorem Package.refillGate_held (p : Package) : p.refillGate.gate.held = p.gate.held := rfl

theorem Package.refillGate_clock (p : Package) : p.refillGate.clock = p.clock := rfl

theorem Package.refillGate_site (p : Package) : p.refillGate.site = p.site := rfl

/-- A request whose class the policy grants goes on to the buckets. -/
theorem guestRequest_granted (hopen : p.site = SITE_OPEN) (hgrant : refusalReasons p.gate.policy op r = []) (dt : Nat) :
    guestRequest op dt 0xFFF r found q p = if p.gate.held.isEmpty && ((p.pass dt).refillGate).covers op r then ((p.pass dt).refillGate).admitGuest op r found q
      else (q, ((p.pass dt).refillGate).modGate (fun g => { g with held := g.held ++ [{ req := { r with op := op }, since := p.clock + dt }] })) := by
  unfold guestRequest
  dsimp only
  rw [if_neg (not_not_intro ((p.pass_site dt).trans hopen)), if_neg (by simp), Package.pass_gate, hgrant, if_neg (by simp)]
  rw [Package.refillGate_held, Package.refillGate_clock, Package.pass_gate, Package.pass_clock]

theorem guestRequest_refused (hopen : p.site = SITE_OPEN) (hbad : refusalReasons p.gate.policy op r ≠ []) (dt : Nat) :
    guestRequest op dt 0xFFF r found q p = (q, (p.pass dt).refuseGuest op r (refusalReasons p.gate.policy op r)) := by
  unfold guestRequest
  dsimp only
  rw [if_neg (not_not_intro ((p.pass_site dt).trans hopen)), if_neg (by simp), Package.pass_gate, if_pos (by simpa using hbad)]

/-- The request held longest. -/
theorem gateHeldRelease_eq {h : GuestHeld} {rest : List GuestHeld} (hheld : p.gate.held = h :: rest) (dt : Nat) : gateHeldRelease dt found q p
    = if p.site = SITE_OPEN && ((p.pass dt).refillGate).covers h.req.op h.req then
        ((((p.pass dt).refillGate).modGate (fun g => { g with held := rest })).bump64 GATE_HELD_NS ((p.clock + dt - h.since) / Config.nsUnits)).admitGuest
          h.req.op h.req found q
      else (q, (p.pass dt).refillGate) := by
  unfold gateHeldRelease
  dsimp only
  rw [Package.refillGate_held, Package.refillGate_clock, Package.refillGate_site, Package.pass_gate, Package.pass_clock, Package.pass_site, hheld]

end

/-! #### Refusals -/

/-- The first reason of R333 is one of four. -/
theorem refusalReasons_lt {b : List Byte} {op reason : Nat} {r : HostReq} (h : reason ∈ refusalReasons b op r) : reason < 4 := by
  simp only [refusalReasons, List.mem_append] at h
  have hone (c : Bool) (n : Nat) (hn : reason ∈ (if c then [n] else [] : List Nat)) : reason = n := by
    cases c <;> simp at hn
    exact hn
  have hnone (c : Bool) (n : Nat) (hn : reason ∈ (if c then [] else [n] : List Nat)) : reason = n := by
    cases c <;> simp at hn
    exact hn
  obtain ((h | h) | h) | h := h
  · rw [hnone _ _ h]; decide
  · rw [hone _ _ h]; decide
  · rw [hone _ _ h]; decide
  · rw [hone _ _ h]; decide

theorem Package.rd_of_regs {p q : Package} (h : q.regs = p.regs) (a : Nat) : q.rd a = p.rd a := by
  unfold Package.rd
  rw [h]

theorem Package.closeSite_open {p : Package} {cause : Nat} (h : p.site = SITE_OPEN) : ∃ (u : Package) (b : Nat), u.regs = p.regs
    ∧ p.closeSite cause = (((u.put GATE_STATUS_STATE SITE_CLOSED).put GATE_STATUS_CAUSE cause).wr GATE_POLICY_SERIAL 0).raise .gate EV_GATE_CLOSED b
      (arg1Of 0 cause) := by
  unfold Package.closeSite
  rw [if_neg (by rw [h]; decide)]
  exact ⟨{ p with gate := { raisedAt := p.gate.raisedAt, out := p.gate.out } }, _, rfl, rfl⟩

/-- An open site closes with its cause shown. -/
theorem Package.closeSite_closed {p : Package} {cause : Nat} (h : p.site = SITE_OPEN) :
    (p.closeSite cause).site = SITE_CLOSED ∧ (p.closeSite cause).get GATE_STATUS_CAUSE = cause % 16 := by
  obtain ⟨u, b, -, hu⟩ := Package.closeSite_open (cause := cause) h
  rw [hu, Package.site, Package.raise_get _ _ _ _ _ (by decide) (by decide), Package.raise_get _ _ _ _ _ (by decide) (by decide),
    Package.get_wr_ne _ _ (by decide), Package.get_wr_ne _ _ (by decide)]
  exact ⟨(Package.get_put_disjoint _ _ _ _ (by decide) (by decide)).trans (Package.get_put_same _ _ _ (by decide)), Package.get_put_same _ _ _ (by decide)⟩

theorem Package.closeSite_rd {p : Package} {cause a : Nat} (h : p.site = SITE_OPEN) (hs : GATE_STATUS ≠ a) (hp : GATE_POLICY_SERIAL ≠ a) (he : a ∉ evtRegs)
    (hi : a ≠ IRQ_STATUS .gate) : (p.closeSite cause).rd a = p.rd a := by
  obtain ⟨u, b, hregs, hu⟩ := Package.closeSite_open (cause := cause) h
  rw [hu, Package.raise_rd _ _ _ _ _ he hi, Package.rd_wr_ne _ _ hp, Package.rd_put_ne _ GATE_STATUS_CAUSE _ hs, Package.rd_put_ne _ GATE_STATUS_STATE _ hs]
  exact Package.rd_of_regs hregs a

/-- What a refusal shows in GATE_REFUSED_LAST (R333). -/
def refusalShown (op reason : Nat) (r : HostReq) : Nat := r.addr % 2 ^ 48 + 2 ^ 48 * op + 2 ^ 52 * reason

/-- A refusal for one reason: it is counted and shown, and the policy's limit on refusals then closes the site. -/
theorem refuseGuest_eq (p : Package) (op reason : Nat) (r : HostReq) : ∃ u : Package, p.refuseGuest op r [reason]
      = (if fieldAt p.gate.policy 34 2 ≠ 0 && fieldAt p.gate.policy 34 2 ≤ u.gate.refusals then u.closeSite GC_REFUSALS else u)
    ∧ u.site = p.site ∧ u.rd GATE_REFUSED_COUNT = (p.rd GATE_REFUSED_COUNT + 1) % 2 ^ 64 ∧ u.rd GATE_REFUSED_LAST = refusalShown op reason r % 2 ^ 64
    ∧ 1 ≤ u.gate.refusals := by
  unfold Package.refuseGuest
  extract_lets x q last counted quiet raised fresh u limit
  have hcount : counted.rd GATE_REFUSED_COUNT = (p.rd GATE_REFUSED_COUNT + 1) % 2 ^ 64 :=
    (Package.rd_wr_ne _ _ (by decide)).trans (Package.rd_bump64 _ _ _)
  have hlast : counted.rd GATE_REFUSED_LAST = last % 2 ^ 64 := Package.rd_wr_same _ _ _
  have hsite : counted.site = p.site := (Package.get_wr_ne _ _ (by decide)).trans (Package.get_bump64_ne _ _ (by decide))
  have hpolicy : counted.gate.policy = p.gate.policy := rfl
  have hrd (a : Nat) (he : a ∉ evtRegs) (hi : a ≠ IRQ_STATUS .gate) : raised.rd a = counted.rd a := by
    simp only [raised]
    split
    · rfl
    · exact Package.raise_rd _ _ _ _ _ he hi
  have hraised : raised.gate.policy = counted.gate.policy := by
    simp only [raised]
    split
    · rfl
    · rw [Package.raise_gate]
      rfl
  have hlimit : limit = fieldAt p.gate.policy 34 2 := by
    have hu : u.gate.policy = raised.gate.policy := by
      simp only [u, Package.modGate]
      split <;> rfl
    simp only [limit]
    rw [hu, hraised, hpolicy]
  rw [hlimit]
  refine ⟨u, rfl, (Package.get_of_rd (hrd GATE_STATUS (by decide) (by decide))).trans hsite, (hrd _ (by decide) (by decide)).trans hcount,
    (hrd _ (by decide) (by decide)).trans hlast, ?_⟩
  simp only [u, Package.modGate]
  split
  · exact Nat.le_refl 1
  · exact Nat.succ_pos _

theorem get_of_rd_mod {p : Package} {f : Fld} {v : Nat} (h : p.rd f.addr = v % 2 ^ 64) (hf : f.lo + f.len ≤ 64) : p.get f = bitsOf v f.lo f.len := by
  unfold Package.get
  rw [h, bitsOf_mod _ _ _ _ hf]

theorem refusalShown_addr (op reason : Nat) (r : HostReq) : bitsOf (refusalShown op reason r) 0 48 = r.addr % 2 ^ 48 := by
  unfold bitsOf refusalShown
  omega

theorem refusalShown_op {op : Nat} (hop : op < 16) (reason : Nat) (r : HostReq) : bitsOf (refusalShown op reason r) 48 4 = op := by
  unfold bitsOf refusalShown
  omega

theorem refusalShown_reason {op reason : Nat} (hop : op < 16) (hreason : reason < 16) (r : HostReq) : bitsOf (refusalShown op reason r) 52 4 = reason := by
  unfold bitsOf refusalShown
  omega

theorem Package.guestPays_fab (p : Package) (op : Nat) (r : HostReq) : (p.guestPays op r).rd FAB_STATUS = p.rd FAB_STATUS :=
  Package.rd_bump64_ne _ 1 (by decide)

/-- A refusal for one reason of the four: what it shows, and the site it leaves (R333). -/
theorem refuseGuest_shows {p : Package} {op reason : Nat} (hop : op < 16) (hreason : reason < 16) (hopen : p.site = SITE_OPEN) (r : HostReq) :
    let t := p.refuseGuest op r [reason]
    t.rd GATE_REFUSED_COUNT = (p.rd GATE_REFUSED_COUNT + 1) % 2 ^ 64 ∧ t.get GATE_REFUSED_LAST_ADDR = r.addr % 2 ^ 48 ∧ t.get GATE_REFUSED_LAST_OP = op
      ∧ t.get GATE_REFUSED_LAST_REASON = reason ∧ (fieldAt p.gate.policy 34 2 = 0 → t.site = SITE_OPEN)
      ∧ (fieldAt p.gate.policy 34 2 = 1 → t.site = SITE_CLOSED ∧ t.get GATE_STATUS_CAUSE = GC_REFUSALS) := by
  intro t
  obtain ⟨u, hu, hsite, hcount, hlast, hmany⟩ := refuseGuest_eq p op reason r
  have hshown (a : Nat) (hs : GATE_STATUS ≠ a) (hp : GATE_POLICY_SERIAL ≠ a) (he : a ∉ evtRegs) (hi : a ≠ IRQ_STATUS .gate) : t.rd a = u.rd a := by
    simp only [t]
    rw [hu]
    split
    · exact Package.closeSite_rd (hsite.trans hopen) hs hp he hi
    · rfl
  have hlast' : t.rd GATE_REFUSED_LAST = refusalShown op reason r % 2 ^ 64 := (hshown _ (by decide) (by decide) (by decide) (by decide)).trans hlast
  refine ⟨(hshown _ (by decide) (by decide) (by decide) (by decide)).trans hcount, ?_, ?_, ?_, ?_, ?_⟩
  · exact (get_of_rd_mod (f := GATE_REFUSED_LAST_ADDR) hlast' (by decide)).trans (refusalShown_addr _ _ r)
  · exact (get_of_rd_mod (f := GATE_REFUSED_LAST_OP) hlast' (by decide)).trans (refusalShown_op hop _ r)
  · exact (get_of_rd_mod (f := GATE_REFUSED_LAST_REASON) hlast' (by decide)).trans (refusalShown_reason hop hreason r)
  · intro hnone
    simp only [t]
    rw [hu, hnone, if_neg (by simp)]
    exact hsite.trans hopen
  · intro hone
    simp only [t]
    rw [hu, hone, if_pos (by simpa using hmany)]
    exact Package.closeSite_closed (hsite.trans hopen)

/-! #### Memory writes -/

theorem Package.guestPays_rangeOk (p : Package) (op : Nat) (r : HostReq) (dt a n : Nat) :
    ((p.pass dt).refillGate.guestPays op r).rangeOk a n = p.rangeOk a n := by
  have hpays (q : Package) : (q.guestPays op r).rangeOk a n = q.rangeOk a n :=
    Package.rangeOk_congr (p := q) (q := q.guestPays op r) rfl (Package.guestPays_fab q op r) a n
  have hrefill (q : Package) : q.refillGate.rangeOk a n = q.rangeOk a n := Package.rangeOk_congr rfl rfl a n
  rw [hpays, hrefill, Package.pass_rangeOk]

theorem admitGuest_memWr_mem {p : Package} {r : HostReq} (hform : r.memForm = true) (hlen : r.data.length = r.len)
    (hok : (p.guestPays OP_MEM_WR r).rangeOk r.addr r.len = true) (q : Part) : (p.admitGuest OP_MEM_WR r [] q).2.mem = storeBytes p.mem r.addr r.data := by
  rw [Package.admitGuest_mem_served (by decide), serveRequest_memWrite hform hlen hok, Package.storeBy_mem, Package.guestPays_mem]

theorem onBoth_of {f : Part → Package → Part × Package} {s : State} {x : Part × Package} (h : f s.part s.pkg = x) :
    onBoth f s = .next { s with part := x.1, pkg := x.2 } := onBoth_eq h

/-- Settles O38, by the operation of the request. -/
theorem guestRequestsGated : Obligations.GuestRequestsGated := by
  unfold Obligations.GuestRequestsGated
  have hpaid {s : State} {dt op : Nat} (r : HostReq) : (((s.pkg.pass dt).refillGate).guestPays op r).mem = s.pkg.mem :=
    (Package.guestPays_mem _ op r).trans (s.pkg.pass_mem dt)
  refine ⟨fun s dt r found hopen hheld => ⟨?regRead, ?regWrite, ?memRead, ?memWrite, ?event⟩, ?held, ?refused, ?released, ?waits⟩
  case regRead =>
    intro hgrant hcover
    have h := (guestRequest_granted (found := []) (q := s.part) hopen hgrant dt).trans (if_pos (by rw [hheld, hcover]; rfl))
    refine ⟨_, onBoth_of h, rfl, ?_, ?_⟩
    · exact (congrArg Prod.fst h).symm.trans ((guestRequest_keptOrServed _ _ _ _ _ _ _).keeps (by decide))
    · exact (Package.admitGuest_mem_served (by decide)).trans ((congrArg Package.mem (serveRequest_regRead_state ..)).trans (hpaid _))
  case regWrite =>
    intro hgrant hcover
    exact ⟨_, onBoth_of ((guestRequest_granted (found := []) (q := s.part) hopen hgrant dt).trans (if_pos (by rw [hheld, hcover]; rfl))), rfl⟩
  case memRead =>
    intro hgrant hcover
    have h := (guestRequest_granted (found := found) (q := s.part) hopen hgrant dt).trans (if_pos (by rw [hheld, hcover]; rfl))
    refine ⟨_, onBoth_of h, rfl, ?_, ?_⟩
    · exact (congrArg Prod.fst h).symm.trans ((guestRequest_keptOrServed _ _ _ _ _ _ _).keeps (by decide))
    · exact (Package.admitGuest_mem_served (by decide)).trans ((serveRequest_memRead_mem ..).trans (hpaid _))
  case memWrite =>
    intro hgrant hcover hform hlen hok
    have h := (guestRequest_granted (found := []) (q := s.part) hopen hgrant dt).trans (if_pos (by rw [hheld, hcover]; rfl))
    have hmem : (((s.pkg.pass dt).refillGate).admitGuest OP_MEM_WR r [] s.part).2.mem = storeBytes s.pkg.mem r.addr r.data :=
      (admitGuest_memWr_mem hform hlen ((Package.guestPays_rangeOk ..).trans hok) s.part).trans (congrArg (storeBytes · _ _) (s.pkg.pass_mem dt))
    refine ⟨_, onBoth_of h, ?_, ?_, ?_⟩
    · rw [← hlen]
      refine Package.bytesAt_of_stored hmem ?_ fun i hi => Package.rangeOk_physOf hok (by omega)
      have := memForm_len hform
      omega
    · exact (congrArg Prod.fst h).symm.trans ((guestRequest_keptOrServed _ _ _ _ _ _ _).keeps (by decide))
    · intro y hy
      exact (congrArg (memByte · y) hmem).trans (memByte_storeBytes_other r.addr r.data y (by rwa [hlen]))
  case event =>
    intro hgrant hcover
    have h := (guestRequest_granted (found := []) (q := s.part) hopen hgrant dt).trans (if_pos (by rw [hheld, hcover]; rfl))
    refine ⟨_, onBoth_of h, rfl, ?_, ?_⟩
    · exact (congrArg Prod.fst h).symm.trans ((guestRequest_keptOrServed _ _ _ _ _ _ _).keeps (by decide))
    · exact Package.admitGuest_event_mem.trans (s.pkg.pass_mem dt)
  case held =>
    intro s dt r hopen hgrant hwait
    have h := (guestRequest_granted (found := []) (q := s.part) hopen hgrant dt).trans (if_neg (by
      obtain hheld | hcover := hwait
      · simp [hheld]
      · simp [hcover]))
    exact ⟨_, onBoth_of h, s.pkg.pass_regs dt, by dsimp only [Package.modGate]; rw [Package.refillGate_held, Package.pass_gate]⟩
  case refused =>
    intro s dt reason r hopen hreasons
    have hlt : reason < 4 := refusalReasons_lt (b := s.pkg.gate.policy) (op := OP_REG_WR) (r := r) (by rw [hreasons]; exact List.mem_singleton_self _)
    have h := guestRequest_refused (found := []) (q := s.part) hopen (by rw [hreasons]; exact List.cons_ne_nil _ _) dt
    have hshows := refuseGuest_shows (op := OP_REG_WR) (by decide) (by omega : reason < 16) ((s.pkg.pass_site dt).trans hopen) r
    rw [hreasons] at h
    rw [Package.pass_rd, Package.pass_gate] at hshows
    exact ⟨_, onBoth_of h, rfl, hshows⟩
  case released =>
    intro s dt h rest found hheld hopen hcover
    exact ⟨_, onBoth_of ((gateHeldRelease_eq (found := found) (q := s.part) hheld dt).trans (if_pos (by simp [hopen, hcover]))), rfl⟩
  case waits =>
    intro s dt h rest found hheld hcover
    exact onBoth_of ((gateHeldRelease_eq (found := found) (q := s.part) hheld dt).trans (if_neg (by simp [hcover])))

end Sys2Proof.Machine

/-! ### Power and temperature (R16 to R18, R334, R431, R483, R485) -/

namespace Sys2Proof.Machine

/-! #### The interval of the power manager -/

theorem Package.dieRoom_le (v : Variant) : v.dieWatts + v.dieRoom = 360 := by cases v <;> rfl

/-- A die is lent no more than the room it has. -/
theorem Package.lend_spec (room : Nat) (ds : List Nat) (pool : Nat) (p : Package) :
    (Package.lend room ds pool p).1.map Prod.fst = ds ∧ (∀ e ∈ (Package.lend room ds pool p).1, e.2 ≤ room)
      ∧ ∃ n, (Package.lend room ds pool p).2 = { p with fresh := n } := by
  induction ds generalizing pool p with
  | nil => exact ⟨rfl, fun _ h => absurd h List.not_mem_nil, p.fresh, rfl⟩
  | cons d ds ih =>
    unfold Package.lend
    extract_lets hi lo r x n r'
    split
    · obtain ⟨hkeys, hroom, hsame⟩ := ih (pool - hi) p
      refine ⟨congrArg (d :: ·) hkeys, fun e he => ?_, hsame⟩
      obtain rfl | he := List.mem_cons.mp he
      · exact Nat.min_le_left _ _
      · exact hroom e he
    · next hlt =>
      obtain ⟨hkeys, hroom, m, hsame⟩ := ih (pool - n) x.2
      refine ⟨congrArg (d :: ·) hkeys, fun e he => ?_, m, hsame⟩
      obtain rfl | he := List.mem_cons.mp he
      · have hmod : x.1.toNat % (hi - lo + 1) < hi - lo + 1 := Nat.mod_lt _ (Nat.succ_pos _)
        have hhi : hi ≤ room := Nat.min_le_left _ _
        change lo + x.1.toNat % (hi - lo + 1) ≤ room
        omega
      · exact hroom e he

/-- Two allotment fields are the same or apart. -/
theorem get_put_allot (p : Package) (e d v : Nat) : (p.put (PWR_ALLOT_OF e) v).get (PWR_ALLOT_OF d) = v % 2 ^ 16
    ∨ e ≠ d ∧ (p.put (PWR_ALLOT_OF e) v).get (PWR_ALLOT_OF d) = p.get (PWR_ALLOT_OF d) := by
  have hfit (i : Nat) : (PWR_ALLOT_OF i).lo + (PWR_ALLOT_OF i).len ≤ 64 := by
    change 16 * (i % 4) + 16 ≤ 64
    omega
  by_cases hplace : e % 4 = d % 4
  · by_cases haddr : (PWR_ALLOT_OF e).addr = (PWR_ALLOT_OF d).addr
    · have hsame : PWR_ALLOT_OF e = PWR_ALLOT_OF d := by
        unfold PWR_ALLOT_OF at haddr ⊢
        rw [hplace]
        exact congrArg (Fld.mk · _ _) haddr
      rw [hsame]
      exact .inl (p.get_put_same _ _ (hfit d))
    · exact .inr ⟨fun h => haddr (h ▸ rfl), p.get_put_ne _ _ _ haddr⟩
  · refine .inr ⟨fun h => hplace (h ▸ rfl), p.get_put_disjoint _ _ _ (hfit d) ?_⟩
    change 16 * (d % 4) + 16 ≤ 16 * (e % 4) ∨ 16 * (e % 4) + 16 ≤ 16 * (d % 4)
    omega

/-- The allotments of a list are given one after the other. -/
def Package.allot (p : Package) (l : List (Nat × Nat)) : Package := p.each l (fun p e => p.put (PWR_ALLOT_OF e.1) (p.variant.dieWatts + e.2))

theorem Package.allot_bounds {d : Nat} {l : List (Nat × Nat)} (p : Package) (hin : d ∈ l.map Prod.fst ∨ (p.variant.dieWatts ≤ p.get (PWR_ALLOT_OF d)
      ∧ p.get (PWR_ALLOT_OF d) ≤ 360)) (hroom : ∀ e ∈ l, e.2 ≤ p.variant.dieRoom) :
    p.variant.dieWatts ≤ (p.allot l).get (PWR_ALLOT_OF d) ∧ (p.allot l).get (PWR_ALLOT_OF d) ≤ 360 := by
  induction l generalizing p with
  | nil => exact hin.resolve_left List.not_mem_nil
  | cons e l ih =>
    have hfits : p.variant.dieWatts + e.2 ≤ 360 := by
      have := hroom e List.mem_cons_self
      have := Package.dieRoom_le p.variant
      omega
    refine ih (p.put (PWR_ALLOT_OF e.1) (p.variant.dieWatts + e.2)) ?_ fun x hx => hroom x (List.mem_cons_of_mem e hx)
    change _ ∨ (p.variant.dieWatts ≤ _ ∧ _)
    obtain hput | ⟨hne, hput⟩ := get_put_allot p e.1 d (p.variant.dieWatts + e.2)
    · rw [hput]
      exact .inr (by omega)
    · rw [hput]
      obtain hmem | hbound := hin
      · exact .inl ((List.mem_cons.mp hmem).resolve_left (Ne.symm hne))
      · exact .inr hbound

/-- An allotment writes no other register. -/
theorem Package.allot_rd (p : Package) (l : List (Nat × Nat)) {a : Nat} (h0 : PWR_ALLOT_0 ≠ a) (h1 : PWR_ALLOT_1 ≠ a) : (p.allot l).rd a = p.rd a := by
  have haddr (d : Nat) : (PWR_ALLOT_OF d).addr ≠ a := by
    unfold PWR_ALLOT_OF
    dsimp only
    split
    · exact h0
    · exact h1
  have hput (q : Package) (e : Nat × Nat) : (q.put (PWR_ALLOT_OF e.1) (q.variant.dieWatts + e.2)).rd a = q.rd a := q.rd_put_ne _ _ (haddr e.1)
  unfold Package.allot
  exact Package.each_rd hput p

theorem Package.allot_pwr (p : Package) (l : List (Nat × Nat)) : (p.allot l).pwr = p.pwr := by
  have hput (q : Package) (e : Nat × Nat) (h : q.pwr = p.pwr) : (q.put (PWR_ALLOT_OF e.1) (q.variant.dieWatts + e.2)).pwr = p.pwr := h
  unfold Package.allot
  exact Package.each_keeps (fun q => q.pwr = p.pwr) _ hput p l rfl

theorem guestSample_closed {p : Package} (htrain : p.site ≠ SITE_TRAINING) (hopen : p.site ≠ SITE_OPEN) (watts : Nat) : p.guestSample watts = p := by
  unfold Package.guestSample
  rw [if_pos (by simp [htrain, hopen])]

/-- The tenth sample in a row above the policy's watts closes the site. -/
theorem guestSample_hot {p : Package} {watts : Nat} (hopen : p.site = SITE_OPEN) (hhot : fieldAt p.gate.policy 32 1 < watts) (hmany : 9 ≤ p.gate.hotSamples) :
    (p.guestSample watts).site = SITE_CLOSED ∧ (p.guestSample watts).get GATE_STATUS_CAUSE = GC_POWER := by
  unfold Package.guestSample
  rw [if_neg (by rw [hopen]; decide)]
  extract_lets q u
  have hsamples : u.gate.hotSamples = p.gate.hotSamples + 1 := if_pos hhot
  have hsite : u.site = SITE_OPEN := (Package.get_wr_ne _ _ (by decide)).trans hopen
  rw [if_pos (by omega)]
  exact Package.closeSite_closed ((Package.raise_get _ _ _ _ _ (by decide) (by decide)).trans hsite)

/-- The input's measurements, as the registers show them. -/
def Package.withInput (p : Package) (watts mv da : Nat) : Package :=
  ((p.put PWR_INPUT_WATTS watts).put PWR_INPUT_MILLIVOLTS mv).put PWR_INPUT_DECIAMPS da

/-- The energy of the interval is counted, in joules and what remains of one. -/
def Package.addEnergy (p : Package) (watts : Nat) : Package :=
  (p.bump64 PWR_ENERGY ((p.pwr.energyRest + watts) / 10)).modPwr (fun w => { w with energyRest := (p.pwr.energyRest + watts) % 10 })

/-- What an interval measured. -/
def Package.measured (p : Package) (watts mv da : Nat) : Package :=
  ((p.withInput watts mv da).addEnergy watts).bump64 PWR_THROTTLE_NS (100000 * ((p.withInput watts mv da).addEnergy watts).powerDies.length)

theorem Package.withInput_pwr (p : Package) (watts mv da : Nat) : (p.withInput watts mv da).pwr = p.pwr := by
  rw [Package.withInput, Package.put_pwr, Package.put_pwr, Package.put_pwr]

theorem Package.withInput_variant (p : Package) (watts mv da : Nat) : (p.withInput watts mv da).variant = p.variant := by
  rw [Package.withInput, Package.put_variant, Package.put_variant, Package.put_variant]

theorem Package.addEnergy_variant (p : Package) (watts : Nat) : (p.addEnergy watts).variant = p.variant := rfl

theorem Package.measured_variant (p : Package) (watts mv da : Nat) : (p.measured watts mv da).variant = p.variant := by
  rw [Package.measured, Package.bump64_variant, Package.addEnergy_variant, Package.withInput_variant]

theorem Package.withInput_rd (p : Package) (watts mv da : Nat) {a : Nat} (h : PWR_INPUT ≠ a) : (p.withInput watts mv da).rd a = p.rd a := by
  rw [Package.withInput, Package.rd_put_ne _ PWR_INPUT_DECIAMPS _ h, Package.rd_put_ne _ PWR_INPUT_MILLIVOLTS _ h, Package.rd_put_ne _ PWR_INPUT_WATTS _ h]

theorem Package.addEnergy_rd (p : Package) (watts : Nat) {a : Nat} (h : PWR_ENERGY ≠ a) : (p.addEnergy watts).rd a = p.rd a := p.rd_bump64_ne _ h

theorem Package.addEnergy_energy (p : Package) (watts : Nat) : (p.addEnergy watts).rd PWR_ENERGY = (p.rd PWR_ENERGY + (p.pwr.energyRest + watts) / 10) % 2 ^ 64 :=
  p.rd_bump64 _ _

theorem Package.addEnergy_pwr (p : Package) (watts : Nat) : (p.addEnergy watts).pwr = { p.pwr with energyRest := (p.pwr.energyRest + watts) % 10 } := rfl

theorem Package.measured_rd (p : Package) (watts mv da : Nat) {a : Nat} (hi : PWR_INPUT ≠ a) (he : PWR_ENERGY ≠ a) (ht : PWR_THROTTLE_NS ≠ a) :
    (p.measured watts mv da).rd a = p.rd a := by
  rw [Package.measured, Package.rd_bump64_ne _ _ ht, Package.addEnergy_rd _ _ he, Package.withInput_rd _ _ _ _ hi]

theorem Package.measured_input (p : Package) (watts mv da : Nat) : (p.measured watts mv da).rd PWR_INPUT = (p.withInput watts mv da).rd PWR_INPUT := by
  rw [Package.measured, Package.rd_bump64_ne _ _ (by decide), Package.addEnergy_rd _ _ (by decide)]

theorem Package.measured_energy (p : Package) (watts mv da : Nat) :
    (p.measured watts mv da).rd PWR_ENERGY = (p.rd PWR_ENERGY + (p.pwr.energyRest + watts) / 10) % 2 ^ 64 := by
  rw [Package.measured, Package.rd_bump64_ne _ _ (by decide), Package.addEnergy_energy, Package.withInput_rd _ _ _ _ (by decide), Package.withInput_pwr]

theorem Package.measured_rest (p : Package) (watts mv da : Nat) : (p.measured watts mv da).pwr.energyRest = (p.pwr.energyRest + watts) % 10 := by
  rw [Package.measured, Package.bump64_pwr, Package.addEnergy_pwr, Package.withInput_pwr]

theorem Package.dieOn_congr {p q : Package} (hv : q.variant = p.variant) (hs : q.rd FAB_STATUS = p.rd FAB_STATUS) : q.dieOn = p.dieOn := by
  have hmask : q.get FAB_STATUS_DIE_MASK = p.get FAB_STATUS_DIE_MASK := Package.get_of_rd hs
  funext d
  unfold Package.dieOn Package.dieFitted Package.dieFenced
  rw [hv, hmask]

theorem Package.each_nil {α : Type} (p : Package) (f : Package → α → Package) : p.each [] f = p := rfl

theorem Package.isNone_good {p : Package} (h : p.pwr.goodAt ≠ none) (dt : Nat) : (p.pass dt).pwr.goodAt.isNone = false := by
  rw [Package.pass_pwr]
  exact Option.isNone_eq_false_iff.mpr (Option.isSome_iff_ne_none.mpr h)

/-- The interval with the dies that are on and the pool to lend. -/
theorem powerInterval_eq {p : Package} {dt watts mv da hub optics : Nat} (hgood : p.pwr.goodAt ≠ none) : ∃ pool u, u = (p.pass dt).measured watts mv da ∧
    powerInterval dt watts mv da hub optics 0 [] p
      = ((Package.lend u.variant.dieRoom (u.dies.filter u.dieOn) pool u).2.allot (Package.lend u.variant.dieRoom (u.dies.filter u.dieOn) pool u).1).guestSample 0 := by
  unfold powerInterval Package.measured Package.addEnergy Package.withInput Package.allot
  dsimp only
  rw [if_neg (ne_true_of_eq_false (Package.isNone_good hgood dt)), List.filter_nil, Package.each_nil]
  exact ⟨_, _, rfl, rfl⟩

/-- What an interval shows: the measurements, the energy, and an allotment within the limits for each die that is on. -/
theorem powerInterval_shows {p : Package} {dt watts mv da hub optics : Nat} (hgood : p.pwr.goodAt ≠ none) (htrain : p.site ≠ SITE_TRAINING)
    (hopen : p.site ≠ SITE_OPEN) :
    let t := powerInterval dt watts mv da hub optics 0 [] p
    t.get PWR_INPUT_WATTS = watts % 2 ^ PWR_INPUT_WATTS.len ∧ t.get PWR_INPUT_MILLIVOLTS = mv % 2 ^ PWR_INPUT_MILLIVOLTS.len
      ∧ t.rd PWR_ENERGY = (p.rd PWR_ENERGY + (p.pwr.energyRest + watts) / 10) % 2 ^ 64 ∧ t.pwr.energyRest = (p.pwr.energyRest + watts) % 10
      ∧ ∀ d, p.dieFitted d = true → p.dieFenced d = false →
          p.variant.dieWatts ≤ t.get (PWR_ALLOT_OF d) ∧ t.get (PWR_ALLOT_OF d) ≤ 360 := by
  intro t
  obtain ⟨pool, u, hu, ht⟩ := powerInterval_eq (dt := dt) (watts := watts) (mv := mv) (da := da) (hub := hub) (optics := optics) hgood
  obtain ⟨hkeys, hroom, n, hsame⟩ := Package.lend_spec u.variant.dieRoom (u.dies.filter u.dieOn) pool u
  generalize Package.lend u.variant.dieRoom (u.dies.filter u.dieOn) pool u = x at hkeys hroom hsame ht
  obtain ⟨l, x⟩ := x
  dsimp only at hkeys hroom hsame ht
  have hxrd (a : Nat) : x.rd a = u.rd a := by rw [hsame]; rfl
  have hrd {a : Nat} (h0 : PWR_ALLOT_0 ≠ a) (h1 : PWR_ALLOT_1 ≠ a) : (x.allot l).rd a = u.rd a := (x.allot_rd l h0 h1).trans (hxrd a)
  have hvariant : u.variant = p.variant := by
    rw [hu, Package.measured_variant, Package.pass_variant]
  have hon : u.dieOn = p.dieOn := Package.dieOn_congr hvariant (by rw [hu, Package.measured_rd _ _ _ _ (by decide) (by decide) (by decide), Package.pass_rd])
  have hsite : (x.allot l).site = p.site := by
    refine (Package.get_of_rd (f := GATE_STATUS_STATE) ?_ : _ = (p.pass dt).site).trans (p.pass_site dt)
    rw [hrd (by decide) (by decide), hu, Package.measured_rd _ _ _ _ (by decide) (by decide) (by decide)]
  rw [guestSample_closed (hsite ▸ htrain) (hsite ▸ hopen)] at ht
  have hinput : t.rd PWR_INPUT = ((p.pass dt).withInput watts mv da).rd PWR_INPUT := by
    simp only [t]
    rw [ht, hrd (by decide) (by decide), hu, Package.measured_input]
  have henergy : u.rd PWR_ENERGY = (p.rd PWR_ENERGY + (p.pwr.energyRest + watts) / 10) % 2 ^ 64 := by
    rw [hu, Package.measured_energy, Package.pass_rd, Package.pass_pwr]
  refine ⟨?_, ?_, ?_, ?_, fun d hfitted hfenced => ?_⟩
  · rw [Package.get_of_rd (f := PWR_INPUT_WATTS) hinput, Package.withInput, Package.get_put_disjoint _ _ _ _ (by decide) (by decide),
      Package.get_put_disjoint _ _ _ _ (by decide) (by decide), Package.get_put_same _ _ _ (by decide)]
  · rw [Package.get_of_rd (f := PWR_INPUT_MILLIVOLTS) hinput, Package.withInput, Package.get_put_disjoint _ _ _ _ (by decide) (by decide),
      Package.get_put_same _ _ _ (by decide)]
  · exact (congrArg (Package.rd · PWR_ENERGY) ht).trans ((hrd (by decide) (by decide)).trans henergy)
  · have hrest : u.pwr.energyRest = (p.pwr.energyRest + watts) % 10 := by
      rw [hu, Package.measured_rest, Package.pass_pwr]
    simp only [t]
    rw [ht, Package.allot_pwr, hsame]
    exact hrest
  · have hmem : d ∈ l.map Prod.fst := by
      rw [hkeys, List.mem_filter, hon]
      refine ⟨List.mem_range.mpr ?_, by rw [Package.dieOn, hfitted, hfenced]; rfl⟩
      rw [hvariant]
      exact of_decide_eq_true hfitted
    have hxv : x.variant = p.variant := by rw [hsame]; exact hvariant
    have hbounds := Package.allot_bounds x (d := d) (l := l) (.inl hmem) (by rw [hxv, ← hvariant]; exact hroom)
    simp only [t]
    rw [ht]
    rwa [hxv] at hbounds

/-! #### Temperature -/

/-- The clocks, the power unit and the runs of field BIST stay as they were. -/
structure Package.KeepsHeat (p q : Package) : Prop where
  pwr : q.pwr = p.pwr
  bists : q.bists = p.bists

theorem Package.KeepsHeat.closeGap (p : Package) (c k : Nat) : p.KeepsHeat (p.closeGap c k) := by
  unfold Package.closeGap
  dsimp only
  split
  · exact ⟨rfl, rfl⟩
  · split
    · exact ⟨rfl, rfl⟩
    · exact ⟨rfl, rfl⟩

theorem Package.KeepsHeat.setClock (p : Package) (d mhz : Nat) : p.KeepsHeat (p.setClock d mhz) := by
  unfold Package.setClock
  split
  · exact ⟨rfl, rfl⟩
  · have hgaps (l : List Nat) : p.KeepsHeat (p.each l fun p i => p.closeGap (i / 32) (i % 32)) :=
      Package.each_keeps p.KeepsHeat _ (fun q i h => ⟨(KeepsHeat.closeGap q _ _).pwr.trans h.pwr, (KeepsHeat.closeGap q _ _).bists.trans h.bists⟩) p l ⟨rfl, rfl⟩
    exact ⟨(hgaps _).pwr, (hgaps _).bists⟩

theorem Package.setClock_mhz (p : Package) (d mhz : Nat) : (p.setClock d mhz).mhz d = mhz := by
  unfold Package.setClock
  split
  · next h => exact h
  · exact mapGet_mapSet_same _ _ _ _

/-- Caps write the cores' duty registers alone. -/
theorem Package.setCaps_eq (p : Package) (d : Nat) : ∃ r, p.setCaps d = { p with regs := r } := by
  unfold Package.setCaps
  extract_lets cap
  refine Package.each_keeps (fun q => ∃ r, q = { p with regs := r }) _ (fun q i h => ?_) p _ ⟨p.regs, rfl⟩
  obtain ⟨r, rfl⟩ := h
  dsimp only
  split
  · exact ⟨r, rfl⟩
  · exact ⟨_, rfl⟩

theorem dutyCap_addr_inj {d i j : Nat} (hi : i < 72) (hj : j < 72) (h : (XE_DUTY_CAP_CAP (72 * d + i)).addr = (XE_DUTY_CAP_CAP (72 * d + j)).addr) : i = j := by
  have hdie (k : Nat) (hk : k < 72) : (72 * d + k) / 72 = d ∧ (72 * d + k) % 72 = k := by omega
  change pageD ((72 * d + i) / 72) + 0x400000 + 0x1000 * ((72 * d + i) % 72) + 0x110
    = pageD ((72 * d + j) / 72) + 0x400000 + 0x1000 * ((72 * d + j) % 72) + 0x110 at h
  rw [(hdie i hi).1, (hdie i hi).2, (hdie j hj).1, (hdie j hj).2] at h
  omega

/-- A core's cap is put where it is not in force already. -/
def Package.capTo (p : Package) (d cap i : Nat) : Package := if p.dutyCap (72 * d + i) = cap then p else p.put (XE_DUTY_CAP_CAP (72 * d + i)) cap

theorem Package.capTo_same (p : Package) (d i : Nat) : (p.capTo d 0 i).dutyCap (72 * d + i) = 0 := by
  unfold Package.capTo
  split
  · next h => exact h
  · exact p.get_put_same _ 0 (show 0 + 6 ≤ 64 by decide)

theorem Package.capTo_other (p : Package) {d i j : Nat} (hi : i < 72) (hj : j < 72) (h : i ≠ j) (cap : Nat) :
    (p.capTo d cap i).dutyCap (72 * d + j) = p.dutyCap (72 * d + j) := by
  unfold Package.capTo
  split
  · rfl
  · exact p.get_put_ne _ _ _ fun he => h (dutyCap_addr_inj hi hj he)

theorem Package.each_capTo {d j : Nat} (hj : j < 72) {l : List Nat} (hl : ∀ i ∈ l, i < 72) (p : Package) (h : j ∈ l ∨ p.dutyCap (72 * d + j) = 0) :
    (p.each l fun q i => q.capTo d 0 i).dutyCap (72 * d + j) = 0 := by
  induction l generalizing p with
  | nil => exact h.resolve_left List.not_mem_nil
  | cons i l ih =>
    refine ih (fun x hx => hl x (List.mem_cons_of_mem i hx)) (p.capTo d 0 i) ?_
    by_cases hij : i = j
    · exact .inr (hij ▸ p.capTo_same d i)
    · rw [p.capTo_other (hl i List.mem_cons_self) hj hij]
      exact h.imp_left fun hm => (List.mem_cons.mp hm).resolve_left (Ne.symm hij)

/-- A die capped for temperature has every core's cap at 0. -/
theorem Package.setCaps_capped {p : Package} {d i : Nat} (h : d ∈ p.pwr.capped) (hi : i < 72) : (p.setCaps d).dutyCap (72 * d + i) = 0 := by
  have hcap : (if p.pwr.capped.contains d then 0 else mapGet 32 p.pwr.caps d) = 0 := if_pos (List.contains_iff_mem.mpr h)
  unfold Package.setCaps
  rw [hcap]
  exact p.each_capTo hi (fun x hx => List.mem_range.mp hx) (.inl (List.mem_range.mpr hi))

/-- The dies capped for temperature after a reading (R483). -/
def nextCapped (d temp : Nat) (capped : List Nat) : List Nat :=
  if 105 ≤ temp then insertRising d capped else if temp < 100 then capped.filter (· ≠ d) else capped

theorem mem_nextCapped {d temp : Nat} (h : 105 ≤ temp) (l : List Nat) : d ∈ nextCapped d temp l := by
  rw [nextCapped, if_pos h]
  exact mem_insertRising d l

theorem not_mem_nextCapped {d temp : Nat} (h : temp < 100) (l : List Nat) : d ∉ nextCapped d temp l := by
  rw [nextCapped, if_neg (by omega), if_pos h]
  simp

theorem bistHeat_none {p : Package} {d : Nat} (h : mapFind p.bists d = none) (t : Nat) (ok : Bool) : p.bistHeat d t ok = p := by
  unfold Package.bistHeat
  rw [h]

/-- A reading of a die that is on and not under test: the die before its slowness is noted. -/
theorem dieThermal_eq {p : Package} {d temp : Nat} (hon : p.dieOn d = true) (hbist : mapFind p.bists d = none) (ok : Bool) :
    ∃ u : Package, u.mhz d = nextClock (p.mhz d) temp ∧ mapGet 0 u.pwr.junction d = temp ∧ u.pwr.capped = nextCapped d temp p.pwr.capped
      ∧ (105 ≤ temp → ∀ i, i < 72 → u.dutyCap (72 * d + i) = 0)
      ∧ p.dieThermal d temp ok = { u with thermalDies := if decide (u.mhz d < 1500) || u.pwr.capped.contains d then insertRising d u.thermalDies
                                     else u.thermalDies.filter (· ≠ d) } := by
  unfold Package.dieThermal
  rw [if_neg (by simp [hon])]
  extract_lets q clk capped u slow shown
  have hclk : q.KeepsHeat clk := .setClock q d _
  have hcapped : capped = nextCapped d temp p.pwr.capped := by
    simp only [capped]
    rw [hclk.pwr]
    rfl
  obtain ⟨r, hr⟩ := (clk.modPwr fun w => { w with capped := capped }).setCaps_eq d
  have hu : u = { clk.modPwr (fun w => { w with capped := capped }) with regs := r } := hr
  have hpwr : u.pwr = { clk.pwr with capped := capped } := by rw [hu]; rfl
  refine ⟨u, ?_, ?_, ?_, ?_, ?_⟩
  · rw [hu]
    exact q.setClock_mhz d _
  · rw [hpwr, hclk.pwr]
    exact mapGet_mapSet_same _ _ _ _
  · rw [hpwr]
    exact hcapped
  · intro hhot i hi
    exact Package.setCaps_capped (hcapped ▸ mem_nextCapped hhot _) hi
  · refine bistHeat_none ?_ _ _
    have : u.bists = p.bists := by
      rw [hu]
      exact hclk.bists
    exact (congrArg (mapFind · d) this).trans hbist

theorem dieThermal_shows {p : Package} {d temp : Nat} (hon : p.dieOn d = true) (hbist : mapFind p.bists d = none) (ok : Bool) :
    let t := p.dieThermal d temp ok
    t.mhz d = nextClock (p.mhz d) temp ∧ mapGet 0 t.pwr.junction d = temp
      ∧ (105 ≤ temp → d ∈ t.pwr.capped ∧ d ∈ t.thermalDies ∧ ∀ i, i < 72 → t.dutyCap (72 * d + i) = 0)
      ∧ (temp < 100 → d ∉ t.pwr.capped) ∧ (temp < 92 → p.mhz d = 1500 → d ∉ t.thermalDies) := by
  obtain ⟨u, hmhz, hjunction, hcapped, hduty, ht⟩ := dieThermal_eq (temp := temp) hon hbist ok
  intro t
  simp only [t]
  rw [ht]
  refine ⟨hmhz, hjunction, fun hhot => ?_, fun hcool => ?_, fun hcold hfull => ?_⟩
  · have hmem : d ∈ u.pwr.capped := hcapped ▸ mem_nextCapped hhot _
    refine ⟨hmem, ?_, hduty hhot⟩
    change d ∈ ite _ _ _
    rw [if_pos (by simp [hmem])]
    exact mem_insertRising d _
  · change d ∉ u.pwr.capped
    rw [hcapped]
    exact not_mem_nextCapped hcool _
  · have hnot : d ∉ u.pwr.capped := hcapped ▸ not_mem_nextCapped (by omega) _
    have hclock : ¬ u.mhz d < 1500 := by
      rw [hmhz, hfull, nextClock, if_neg (by omega), if_pos hcold]
      decide
    change d ∉ ite _ _ _
    rw [if_neg (by simp [hnot, hclock])]
    simp

/-! #### Trips -/

theorem Package.dieOn_of {p : Package} {d : Nat} (hfitted : p.dieFitted d = true) (hfenced : p.dieFenced d = false) : p.dieOn d = true := by
  rw [Package.dieOn, hfitted, hfenced]
  rfl

theorem Package.pass_dieOn (p : Package) (dt d : Nat) : (p.pass dt).dieOn d = p.dieOn d :=
  congrFun (Package.dieOn_congr (p.pass_variant dt) (p.pass_rd dt _)) d

theorem Package.dieFitted_lt {p : Package} {d : Nat} (h : p.dieFitted d = true) : d < 8 := by
  have hlt : d < p.variant.dies := of_decide_eq_true h
  have hmost : p.variant.dies ≤ 8 := by cases p.variant <;> decide
  omega

/-- The hub die's limit stops the package (R485). -/
theorem thermalTrip_hub {p : Package} (dt : Nat) (h : p.pwr.goodAt ≠ none) :
    (thermalTrip dt 8 p).fatal = true ∧ bitAt ((thermalTrip dt 8 p).rd (IRQ_STATUS (.err 8))) EV_ERR_FATAL = true := by
  have hgood : (p.pass dt).pwr.goodAt.isSome = true := by
    rw [Package.pass_pwr]
    exact Option.isSome_iff_ne_none.mpr h
  unfold thermalTrip
  rw [if_pos rfl]
  dsimp only
  rw [if_pos hgood]
  refine ⟨Package.reportFatal_fatal _ _ _ _ _, ?_⟩
  unfold Package.reportFatal
  dsimp only
  rw [if_pos rfl]
  exact Package.raise_status _ _ _ _ _ (by decide)

theorem thermalTrip_die {p : Package} (dt : Nat) {d : Nat} (h : p.pwr.goodAt ≠ none) (hfitted : p.dieFitted d = true) (hfenced : p.dieFenced d = false) :
    thermalTrip dt d p = railFault 0 (.die d 0) ((p.pass dt).report .pwr 8 1 (Config.openCode 39) p.beatNo (arg1Of d 0) false false) := by
  have hd : d ≠ 8 := Nat.ne_of_lt (Package.dieFitted_lt hfitted)
  unfold thermalTrip
  rw [if_neg hd]
  dsimp only
  rw [if_neg (by rw [Package.isNone_good h, Package.pass_dieOn, Package.dieOn_of hfitted hfenced]; decide)]
  rw [Package.beatNo, Package.pass_rd, Package.beatNo]

theorem stackOvertemp_eq {p : Package} (dt : Nat) {k temp : Nat} (h : p.pwr.goodAt ≠ none) (hfitted : p.stackFitted k = true)
    (hfenced : p.dieFenced (k / 4) = false) :
    stackOvertemp dt k temp p = railFault 0 (.stack k) ((p.pass dt).modPwr (fun w => { w with stackTemp := mapSet 0 w.stackTemp k temp })) := by
  have hfenced' : (p.pass dt).dieFenced (k / 4) = false := by
    unfold Package.dieFenced
    rw [Package.pass_get]
    exact hfenced
  unfold stackOvertemp
  dsimp only
  rw [if_neg (by rw [Package.isNone_good h, Package.pass_stackFitted, hfitted, hfenced']; decide)]

/-- Settles O39, by the command. -/
theorem powerAndTemperature : Obligations.PowerAndTemperature := by
  unfold Obligations.PowerAndTemperature
  refine ⟨?interval, ?guest, ?thermal, ?hub, ?die, ?stack⟩
  case interval =>
    intro s dt watts mv da hub optics hgood htrain hopen
    exact ⟨{ s with pkg := powerInterval dt watts mv da hub optics 0 [] s.pkg }, rfl, powerInterval_shows hgood htrain hopen⟩
  case guest => exact fun s watts hopen hhot hmany => guestSample_hot hopen hhot hmany
  case thermal =>
    intro s dt d temp hfitted hfenced hbist
    have hon : (s.pkg.pass dt).dieOn d = true := (s.pkg.pass_dieOn dt d).trans (Package.dieOn_of hfitted hfenced)
    have hshows := dieThermal_shows (temp := temp) hon (show mapFind (s.pkg.pass dt).bists d = none by rw [Package.pass_bists]; exact hbist) true
    have hmhz : (s.pkg.pass dt).mhz d = s.pkg.mhz d := by rw [Package.mhz, Package.pass_aclk, Package.mhz]
    rw [hmhz] at hshows
    exact ⟨{ s with pkg := (s.pkg.pass dt).dieThermal d temp true }, rfl, hshows⟩
  case hub => exact fun s dt h => ⟨{ s with pkg := thermalTrip dt 8 s.pkg }, rfl, thermalTrip_hub dt h⟩
  case die =>
    intro s dt d h hfitted hfenced
    exact next_pkg_congr (thermalTrip_die dt h hfitted hfenced)
  case stack =>
    intro s dt k temp h hfitted hfenced
    exact next_pkg_congr (stackOvertemp_eq dt h hfitted hfenced)

end Sys2Proof.Machine

/-! ### The telemetry ring and the MCTP endpoint (R371, R373, R396, R425, R440) -/

namespace Sys2Proof.Machine

/-! #### Telemetry -/

theorem addTotals_length (a b : List Nat) : (addTotals a b).length = 22 := by
  rw [addTotals, List.length_map, List.length_range]

theorem foldl_addTotals_length (f : Nat → List Nat) (l : List Nat) {t : List Nat} (h : t.length = 22) :
    (l.foldl (fun t d => addTotals t (f d)) t).length = 22 := by
  induction l generalizing t with
  | nil => exact h
  | cons d l ih => exact ih (addTotals_length t (f d))

theorem flatMap_leBytes_length (n : Nat) (l : List Nat) : (l.flatMap (leBytes n)).length = l.length * n := by
  induction l with
  | nil => exact (Nat.zero_mul n).symm
  | cons v l ih =>
    rw [List.flatMap_cons, List.length_append, ih, leBytes_length, List.length_cons, Nat.add_one_mul, Nat.add_comm]

/-- A record fills its slot (Table 14-15). -/
theorem Package.telRecord_length (p : Package) : p.telRecord.length = 256 := by
  unfold Package.telRecord
  extract_lets t temps
  have ht : t.length = 22 := foldl_addTotals_length p.dieTotals p.dies (addTotals_length p.telBase [])
  simp only [List.length_append, leBytes_length, flatMap_leBytes_length, ht, List.length_replicate]

@[simp] theorem Package.pass_telDue (p : Package) (dt : Nat) : (p.pass dt).telDue = p.telDue := by
  unfold Package.telDue Package.beatNo
  rw [Package.pass_ticking, Package.pass_get, Package.pass_rd, Package.pass_mctp]

/-- The slot of the next record. -/
def Package.telSlot (p : Package) : Nat :=
  bitsOf (p.rd PKG_TEL_BASE) 12 36 * 4096 + 256 * (p.rd PKG_TEL_SEQ % 2 ^ p.get PKG_TEL_CFG_DEPTH_LOG2)

@[simp] theorem Package.pass_telSlot (p : Package) (dt : Nat) : (p.pass dt).telSlot = p.telSlot := by
  unfold Package.telSlot
  rw [Package.pass_rd, Package.pass_rd, Package.pass_get]

/-- A record kept for the endpoint. -/
def Package.withTelemetry (p : Package) (b : List Byte) : Package := { p with mctp := { p.mctp with telemetry := b } }

theorem telemetryRecord_due {p : Package} (dt : Nat) (h : p.telDue = true) : telemetryRecord dt p
    = (((p.pass dt).withTelemetry (p.pass dt).telRecord).tryStore p.telSlot (p.pass dt).telRecord).bump64 PKG_TEL_SEQ 1 := by
  unfold telemetryRecord
  dsimp only
  rw [if_neg (by simp [h]), ← p.pass_telSlot dt]
  rfl

theorem telemetryRecord_notDue {p : Package} (dt : Nat) (h : p.telDue = false) : telemetryRecord dt p = p.pass dt := by
  unfold telemetryRecord
  dsimp only
  rw [if_pos (by simp [h])]

theorem Package.tryStore_rd (p : Package) (x : Nat) (bs : List Byte) {a : Nat} (h : ∀ k, MEM_WRITE_BYTES k ≠ a) : (p.tryStore x bs).rd a = p.rd a := by
  unfold Package.tryStore
  split
  · exact Package.countBytes_rd _ x bs.length h
  · rfl

theorem Package.tryStore_mctp (p : Package) (x : Nat) (bs : List Byte) : (p.tryStore x bs).mctp = p.mctp := by
  unfold Package.tryStore
  split
  · obtain ⟨r, h⟩ := p.store_shape x bs
    rw [h]
    rfl
  · rfl

/-- A record that is due: kept, counted, and in memory where its slot is reachable (R373). -/
theorem telemetryRecord_shows {p : Package} (dt : Nat) (h : p.telDue = true) :
    let t := telemetryRecord dt p
    t.mctp.telemetry = (p.pass dt).telRecord ∧ t.rd PKG_TEL_SEQ = (p.rd PKG_TEL_SEQ + 1) % 2 ^ 64
      ∧ (p.rangeOk p.telSlot 256 = true → t.mem = storeBytes p.mem p.telSlot (p.pass dt).telRecord) := by
  intro t
  have hseq (k : Nat) : MEM_WRITE_BYTES k ≠ PKG_TEL_SEQ := by
    change 0x10000000 + 0x100000 * k + 0x120 ≠ 0x1A8
    omega
  have hkeep (q : Package) (b : List Byte) : (q.withTelemetry b).rd PKG_TEL_SEQ = q.rd PKG_TEL_SEQ := rfl
  simp only [t]
  rw [telemetryRecord_due dt h]
  refine ⟨?_, ?_, fun hok => ?_⟩
  · rw [Package.bump64_mctp, Package.tryStore_mctp]
    rfl
  · rw [Package.rd_bump64, Package.tryStore_rd _ _ _ hseq, hkeep, Package.pass_rd]
  · have hok' : ((p.pass dt).withTelemetry (p.pass dt).telRecord).rangeOk p.telSlot (p.pass dt).telRecord.length = true := by
      rw [Package.telRecord_length]
      exact (Package.rangeOk_congr (p := p.pass dt) (q := (p.pass dt).withTelemetry _) rfl rfl p.telSlot 256).trans ((p.pass_rangeOk dt _ _).trans hok)
    rw [Package.bump64_mem, Package.tryStore, if_pos hok', Package.store_mem]
    exact congrArg (storeBytes · _ _) (p.pass_mem dt)

/-! #### What a read of the package page shows -/

theorem readReg_listed {p : Package} {a : Nat} {g : Page} {r : RegDef} (hpage : pageAt a = some g) (hfitted : p.pageFitted g = true)
    (hlisted : g.regs.find? (fun r => r.lists (a % 0x1000)) = some r) : p.readReg a = p.shown g r a := by
  unfold Package.readReg
  rw [hpage]
  dsimp only
  rw [if_neg (by simp [hfitted]), hlisted]

theorem readReg_serial (p : Package) : p.readReg PKG_SERIAL = p.serial :=
  readReg_listed (g := .pkg) (r := ⟨0x100, 1, 8, .ro, 0, 0⟩) (by decide) rfl (by decide)

theorem readReg_variant (p : Package) : p.readReg PKG_VARIANT = p.variantWord :=
  readReg_listed (g := .pkg) (r := ⟨0x108, 1, 8, .ro, 0, 0⟩) (by decide) rfl (by decide)

theorem readReg_fitted (p : Package) : p.readReg PKG_FITTED = p.fittedWord :=
  readReg_listed (g := .pkg) (r := ⟨0x110, 1, 8, .ro, 0, 0⟩) (by decide) rfl (by decide)

/-- The enterprise number that PKG_MCTP_STATUS shows while hub firmware runs. -/
theorem readReg_iana {p : Package} (h : p.hubRuns = true) : bitsOf (p.readReg PKG_MCTP_STATUS) 32 32 = Config.iana.toNat := by
  have hread : p.readReg PKG_MCTP_STATUS = if p.hubRuns then putBits (p.rd PKG_MCTP_STATUS) 32 32 Config.iana.toNat else p.rd PKG_MCTP_STATUS :=
    readReg_listed (g := .pkg) (r := ⟨0x1B0, 1, 8, .ro, 0, 0⟩) (by decide) rfl (by decide)
  rw [hread, if_pos h, bitsOf_putBits_same]
  exact Nat.mod_eq_of_lt Config.iana.isLt

/-! #### The endpoint -/

section
variable {p : Package} (dt : Nat)

@[simp] theorem Package.pass_mctpUp (p : Package) (dt : Nat) : (p.pass dt).mctpUp = p.mctpUp := by
  unfold Package.mctpUp Package.hubRuns
  rw [Package.pass_pwr]

@[simp] theorem Package.pass_mctpFull (p : Package) (dt : Nat) : (p.pass dt).mctpFull = p.mctpFull := by
  unfold Package.mctpFull Package.lcState
  rw [Package.pass_mctpUp, Package.pass_get]

@[simp] theorem Package.pass_readable (p : Package) (dt a : Nat) : (p.pass dt).readable a = p.readable a := by
  unfold Package.readable Package.pageFitted Package.pageFenced Package.dieFitted Package.dieFenced
  simp only [Package.pass_variant, Package.pass_get]

theorem setEndpoint_taken {eid : Nat} (hup : p.mctpUp = true) (h0 : 0 < eid) (h255 : eid < 255) : setEndpoint dt eid p
    = (((p.pass dt).put PKG_MCTP_STATUS_EID eid).put PKG_MCTP_STATUS_ASSIGNED 1).control MC_SET_EID (leBytes 1 0 ++ leBytes 1 eid ++ leBytes 1 0) := by
  have hok : (decide (0 < eid) && decide (eid < 255)) = true := by simp [h0, h255]
  have hread : (((p.pass dt).put PKG_MCTP_STATUS_EID eid).put PKG_MCTP_STATUS_ASSIGNED 1).get PKG_MCTP_STATUS_EID = eid := by
    rw [Package.get_put_disjoint _ _ _ _ (by decide) (by decide), Package.get_put_same _ _ _ (by decide)]
    exact Nat.mod_eq_of_lt (by change eid < 256; omega)
  unfold setEndpoint
  dsimp only
  rw [if_neg (by simp [hup]), hok, if_pos rfl, if_pos rfl, hread]

theorem Package.control_get (p : Package) (c : Nat) (b : List Byte) (f : Fld) : (p.control c b).get f = p.get f := rfl

theorem Package.control_has (p : Package) (c : Nat) (b : List Byte) (f : Fld) : (p.control c b).has f = p.has f := rfl

theorem Package.control_responses (p : Package) (c : Nat) (b : List Byte) :
    (p.control c b).mctp.responses = p.mctp.responses ++ [mctpMsg MCTP_CONTROL c (leBytes 1 0 ++ b)] := rfl

theorem setEndpoint_shows {eid : Nat} (hup : p.mctpUp = true) (h0 : 0 < eid) (h255 : eid < 255) :
    (setEndpoint dt eid p).get PKG_MCTP_STATUS_EID = eid ∧ (setEndpoint dt eid p).has PKG_MCTP_STATUS_ASSIGNED = true
      ∧ (setEndpoint dt eid p).mctp.responses
        = p.mctp.responses ++ [mctpMsg MCTP_CONTROL MC_SET_EID (leBytes 1 0 ++ (leBytes 1 0 ++ leBytes 1 eid ++ leBytes 1 0))] := by
  rw [setEndpoint_taken dt hup h0 h255]
  refine ⟨?_, ?_, ?_⟩
  · rw [Package.control_get, Package.get_put_disjoint _ _ _ _ (by decide) (by decide), Package.get_put_same _ _ _ (by decide)]
    exact Nat.mod_eq_of_lt (by change eid < 256; omega)
  · rw [Package.control_has, Package.has_put_one _ rfl (by decide)]
  · rw [Package.control_responses, Package.put_mctp, Package.put_mctp, Package.pass_mctp]

theorem getEndpoint_up (hup : p.mctpUp = true) :
    getEndpoint dt p = (p.pass dt).control MC_GET_EID (leBytes 1 (p.get PKG_MCTP_STATUS_EID) ++ leBytes 2 0) := by
  unfold getEndpoint
  dsimp only
  rw [if_neg (by simp [hup]), Package.pass_get]

theorem getUuid_up (hup : p.mctpUp = true) : getUuid dt p = (p.pass dt).control MC_GET_UUID (beBytes 16 (Config.uuid p.serial).toNat) := by
  unfold getUuid
  dsimp only
  rw [if_neg (by simp [hup]), Package.pass_serial]

theorem getVersion_up (hup : p.mctpUp = true) : getVersion dt p = (p.pass dt).control MC_GET_VERSION (leBytes 1 1 ++ beBytes 4 Config.mctpVersions.toNat) := by
  unfold getVersion
  dsimp only
  rw [if_neg (by simp [hup])]

theorem getTypes_up (hup : p.mctpUp = true) :
    getTypes dt p = (p.pass dt).control MC_GET_TYPES (leBytes 1 2 ++ leBytes 1 MCTP_CONTROL ++ leBytes 1 MCTP_NALTO) := by
  unfold getTypes
  dsimp only
  rw [if_neg (by simp [hup])]

theorem getVendor_up (hup : p.mctpUp = true) :
    getVendor dt p = (p.pass dt).control MC_GET_VENDOR (leBytes 1 0xFF ++ leBytes 1 1 ++ beBytes 4 Config.iana.toNat) := by
  unfold getVendor
  dsimp only
  rw [if_neg (by simp [hup]), readReg_iana ((p.pass_mctpUp dt).trans hup)]

theorem getIdentity_up (hup : p.mctpUp = true) :
    getIdentity dt p = (p.pass dt).nalto NC_IDENTITY (leBytes 8 p.serial ++ leBytes 8 p.variantWord ++ leBytes 8 p.fittedWord) := by
  have hvariant : (p.pass dt).variantWord = p.variantWord := by rw [Package.variantWord, Package.pass_variant, Package.variantWord]
  have hfitted : (p.pass dt).fittedWord = p.fittedWord := by rw [Package.fittedWord, Package.pass_variant, Package.fittedWord]
  unfold getIdentity
  dsimp only
  rw [if_neg (by simp [hup]), readReg_serial, readReg_variant, readReg_fitted, Package.pass_serial, hvariant, hfitted]

theorem readErrlog_up {d : Nat} (hup : p.mctpUp = true) (hd : d = 8 ∨ p.dieOn d = true) (first count : Nat) :
    readErrlog dt d first count p = (p.pass dt).nalto NC_ERRLOG ((List.range (min count 31)).flatMap (fun i => p.errSlot d (first + i))) := by
  have hslot : (p.pass dt).errSlot d = p.errSlot d := by
    funext i
    unfold Package.errSlot
    rw [Package.pass_errLog]
  unfold readErrlog
  dsimp only
  rw [if_neg (by simp [hup]), if_neg (by rw [Package.pass_dieOn]; simpa using fun h8 => hd.resolve_left h8), hslot]

theorem getTelemetry_full (hfull : p.mctpFull = true) : getTelemetry dt p = (p.pass dt).nalto NC_TELEMETRY p.mctp.telemetry := by
  unfold getTelemetry
  dsimp only
  rw [if_neg (by simp [hfull]), Package.pass_mctp]

theorem getMeasurements_full (hfull : p.mctpFull = true) (body : List Byte) : getMeasurements dt none body p
    = ((p.pass dt).reportRequest REQ_I3C body).2.nalto NC_MEASUREMENTS ((p.pass dt).reportRequest REQ_I3C body).1 := by
  unfold getMeasurements
  dsimp only
  rw [if_neg (by simp [hfull])]
  rfl

theorem mctpReadReg_read {l : List Nat} (hfull : p.mctpFull = true) (hlen : l.length ≤ 16) (hall : l.all p.readable = true) :
    mctpReadReg dt l p = (p.pass dt).nalto NC_READ_REG (l.flatMap (fun a => leBytes 8 ((p.pass dt).readReg a))) := by
  have hreadable : (p.pass dt).readable = p.readable := funext (p.pass_readable dt)
  unfold mctpReadReg
  dsimp only
  rw [if_neg (by simp [hfull]), hreadable, hall, if_neg (by simp; omega)]

theorem mctpReadReg_none {l : List Nat} (hfull : p.mctpFull = true) (h : 16 < l.length ∨ ∃ a ∈ l, pageAt a = some .sec) :
    mctpReadReg dt l p = (p.pass dt).nalto NC_READ_REG [] := by
  have hbad : (decide (16 < l.length) || !l.all (p.pass dt).readable) = true := by
    obtain hlen | ⟨a, ha, hsec⟩ := h
    · simp [hlen]
    · have hno : (p.pass dt).readable a = false := by
        unfold Package.readable
        rw [hsec]
        exact Bool.and_false _
      have hall : l.all (p.pass dt).readable = false := List.all_eq_false.mpr ⟨a, ha, by simp [hno]⟩
      simp [hall]
  unfold mctpReadReg
  dsimp only
  rw [if_neg (by simp [hfull]), if_pos hbad]

theorem getIdentity_down (hup : p.mctpUp = false) : getIdentity dt p = p.pass dt := by
  unfold getIdentity
  dsimp only
  rw [if_pos (by simp [hup])]

theorem getEndpoint_down (hup : p.mctpUp = false) : getEndpoint dt p = p.pass dt := by
  unfold getEndpoint
  dsimp only
  rw [if_pos (by simp [hup])]

end

/-- Settles O44, by the command. -/
theorem telemetryAndEndpoint : Obligations.TelemetryAndEndpoint := by
  unfold Obligations.TelemetryAndEndpoint
  refine ⟨?due, ?notDue, Package.telRecord_length, ?setEid, ?up, ?full, ?down⟩
  case due => exact fun s dt h => ⟨{ s with pkg := telemetryRecord dt s.pkg }, rfl, telemetryRecord_shows dt h⟩
  case notDue => exact fun s dt h => next_pkg_congr (telemetryRecord_notDue dt h)
  case setEid =>
    intro s dt eid hup h0 h255
    exact ⟨{ s with pkg := setEndpoint dt eid s.pkg }, rfl, setEndpoint_shows dt hup h0 h255⟩
  case up =>
    intro s dt hup
    exact ⟨next_pkg_congr (getEndpoint_up dt hup), next_pkg_congr (getUuid_up dt hup), next_pkg_congr (getVersion_up dt hup),
      next_pkg_congr (getTypes_up dt hup), next_pkg_congr (getVendor_up dt hup), next_pkg_congr (getIdentity_up dt hup),
      fun d first count hd => next_pkg_congr (readErrlog_up dt hup hd first count)⟩
  case full =>
    intro s dt hfull
    exact ⟨next_pkg_congr (getTelemetry_full dt hfull), fun body => next_pkg_congr (getMeasurements_full dt hfull body),
      fun l hlen hall => next_pkg_congr (mctpReadReg_read dt hfull hlen hall), fun l h => next_pkg_congr (mctpReadReg_none dt hfull h)⟩
  case down =>
    intro s dt hup
    exact ⟨next_pkg_congr (getIdentity_down dt hup), next_pkg_congr (getEndpoint_down dt hup)⟩

end Sys2Proof.Machine

/-! ### Command rings: records, aborts and control (R358, R362 to R365) -/

namespace Sys2Proof.Machine

/-! #### A ring's own state -/

section
variable (p : Package) (d : Nat)

@[simp] theorem Package.ringSt_modRing (f : RingSt → RingSt) : (p.modRing d f).ringSt d = f (p.ringSt d) := mapGet_mapSet_same _ _ _ _

theorem Package.put_ringSt (f : Fld) (v : Nat) : (p.put f v).ringSt d = p.ringSt d := rfl

theorem Package.modRing_shape (f : RingSt → RingSt) : ∃ r m, p.modRing d f = { p with regs := r, rings := m } := ⟨_, _, rfl⟩

theorem Package.modRing_rd (f : RingSt → RingSt) {a : Nat} (h : DIE_RING_STATUS d ≠ a) : (p.modRing d f).rd a = p.rd a := by
  rw [Package.modRing, Package.showRing, Package.rd_put_ne _ (DIE_RING_STATUS_ABORTS d) _ h, Package.rd_put_ne _ (DIE_RING_STATUS_INFLIGHT d) _ h]
  rfl

@[simp] theorem Package.modRing_mem (f : RingSt → RingSt) : (p.modRing d f).mem = p.mem := by
  obtain ⟨r, m, h⟩ := p.modRing_shape d f
  rw [h]

@[simp] theorem Package.modRing_variant (f : RingSt → RingSt) : (p.modRing d f).variant = p.variant := by
  obtain ⟨r, m, h⟩ := p.modRing_shape d f
  rw [h]

@[simp] theorem Package.modRing_runs (f : RingSt → RingSt) : (p.modRing d f).runs = p.runs := by
  obtain ⟨r, m, h⟩ := p.modRing_shape d f
  rw [h]

@[simp] theorem Package.modRing_snap (f : RingSt → RingSt) : (p.modRing d f).snap = p.snap := by
  obtain ⟨r, m, h⟩ := p.modRing_shape d f
  rw [h]

/-- The counts of INFLIGHT and ABORTS stand beside the state and the halt's cause. -/
theorem Package.modRing_get (f : RingSt → RingSt) {lo len : Nat} (h : lo + len ≤ 16) :
    (p.modRing d f).get ⟨DIE_RING_STATUS d, lo, len⟩ = p.get ⟨DIE_RING_STATUS d, lo, len⟩ := by
  rw [Package.modRing, Package.showRing]
  refine (Package.get_put_apart _ _ (by omega) (.inl (by omega))).trans ((Package.get_put_apart _ _ (by omega) (.inl (by omega))).trans ?_)
  rfl

theorem Package.modRing_ringState (f : RingSt → RingSt) : (p.modRing d f).ringState d = p.ringState d := p.modRing_get d f (by decide)

@[simp] theorem Package.pass_ringSt (dt : Nat) : (p.pass dt).ringSt d = p.ringSt d := by
  unfold Package.ringSt
  rw [Package.pass_rings]

@[simp] theorem Package.pass_ringState (dt : Nat) : (p.pass dt).ringState d = p.ringState d := p.pass_get dt _

end

/-- A die's page: the hub die's is among the package's own, the others lie beyond them. -/
theorem pageDIE_range {d : Nat} (hd : d ≤ 8) : pageDIE d = 0x1000 ∨ 0x1000000 ≤ pageDIE d ∧ pageDIE d ≤ 0x8000000 := by
  unfold pageDIE pageD
  split
  · exact .inl rfl
  · exact .inr (by omega)

/-- A register of a die's ring is none that memory's counts or the event queue use. -/
structure RingReg (d a : Nat) : Prop where
  place : ∃ o, o < 0x200 ∧ 0x80 ≤ o ∧ a = pageDIE d + o
  die : d ≤ 8

namespace RingReg

variable {d a : Nat}

theorem ne_writeBytes (h : RingReg d a) (k : Nat) : MEM_WRITE_BYTES k ≠ a := by
  obtain ⟨o, ho, -, rfl⟩ := h.place
  have := pageDIE_range h.die
  change 0x10000000 + 0x100000 * k + 0x120 ≠ pageDIE d + o
  omega

theorem ne_readBytes (h : RingReg d a) (k : Nat) : MEM_READ_BYTES k ≠ a := by
  obtain ⟨o, ho, -, rfl⟩ := h.place
  have := pageDIE_range h.die
  change 0x10000000 + 0x100000 * k + 0x118 ≠ pageDIE d + o
  omega

theorem ne_low (h : RingReg d a) {b : Nat} (hb : b < 0x1080 ∨ 0x1200 ≤ b ∧ b < 0x1000000) : b ≠ a := by
  obtain ⟨o, ho, hl, rfl⟩ := h.place
  have := pageDIE_range h.die
  omega

theorem not_event (h : RingReg d a) : a ∉ evtRegs := by
  intro hm
  have hlow : a < 0x1080 := by
    simp only [evtRegs, PKG_EVT_SEQ, PKG_EVT_STATUS, PKG_EVT_LOST, List.mem_cons, List.not_mem_nil, or_false] at hm
    omega
  exact h.ne_low (.inl hlow) rfl

end RingReg

/-- A register of a ring by its offset on the die's page. -/
theorem ringReg {d : Nat} (hd : d ≤ 8) {o : Nat} (h : 0x80 ≤ o ∧ o < 0x200) : RingReg d (pageDIE d + o) := ⟨⟨o, h.2, h.1, rfl⟩, hd⟩

/-- Two registers of one page. -/
theorem pageDIE_ne (d : Nat) {o o' : Nat} (h : o ≠ o') : pageDIE d + o ≠ pageDIE d + o' := by omega

/-! #### Records -/

section
variable {p : Package} {d : Nat} {r : CqRec}

/-- Where the next record goes, and its phase. -/
def Package.cqSlot (p : Package) (d : Nat) : Nat := p.rd (DIE_CQ_BASE d) + 16 * (p.rd (DIE_CQ_TAIL d) % p.cqDepth d)

def Package.cqPhase (p : Package) (d : Nat) : Nat := if p.rd (DIE_CQ_TAIL d) / p.cqDepth d % 2 = 0 then 1 else 0

theorem Package.cqDepth_congr {q : Package} (h : q.rd (DIE_RING_CFG d) = p.rd (DIE_RING_CFG d)) : q.cqDepth d = p.cqDepth d := by
  unfold Package.cqDepth
  rw [Package.get_of_rd (f := DIE_RING_CFG_CQ_DEPTH_LOG2 d) h]

theorem Package.modRing_page (p : Package) (d : Nat) (f : RingSt → RingSt) {o : Nat} (ho : 0x140 ≠ o) :
    (p.modRing d f).rd (pageDIE d + o) = p.rd (pageDIE d + o) := p.modRing_rd d f (pageDIE_ne d ho)

theorem Package.modRing_cqDepth (p : Package) (d : Nat) (f : RingSt → RingSt) : (p.modRing d f).cqDepth d = p.cqDepth d :=
  Package.cqDepth_congr (p.modRing_page d f (o := 0x108) (by decide))

theorem Package.modRing_cqTail (p : Package) (d : Nat) (f : RingSt → RingSt) : (p.modRing d f).rd (DIE_CQ_TAIL d) = p.rd (DIE_CQ_TAIL d) :=
  p.modRing_page d f (o := 0x130) (by decide)

theorem Package.modRing_cqSlot (p : Package) (d : Nat) (f : RingSt → RingSt) : (p.modRing d f).cqSlot d = p.cqSlot d := by
  have hbase : (p.modRing d f).rd (DIE_CQ_BASE d) = p.rd (DIE_CQ_BASE d) := p.modRing_page d f (o := 0x110) (by decide)
  rw [Package.cqSlot, Package.modRing_cqDepth, Package.modRing_cqTail, hbase, Package.cqSlot]

theorem Package.modRing_cqPhase (p : Package) (d : Nat) (f : RingSt → RingSt) : (p.modRing d f).cqPhase d = p.cqPhase d := by
  rw [Package.cqPhase, Package.modRing_cqDepth, Package.modRing_cqTail, Package.cqPhase]

theorem Package.modRing_cqUsed (p : Package) (d : Nat) (f : RingSt → RingSt) : (p.modRing d f).cqUsed d = p.cqUsed d := by
  have hhead : (p.modRing d f).rd (DIE_CQ_HEAD d) = p.rd (DIE_CQ_HEAD d) := p.modRing_page d f (o := 0x128) (by decide)
  rw [Package.cqUsed, Package.modRing_cqTail, hhead, Package.cqUsed]

theorem Package.modRing_done (p : Package) (d : Nat) (f : RingSt → RingSt) : (p.modRing d f).rd (DIE_CMDS_DONE d) = p.rd (DIE_CMDS_DONE d) :=
  p.modRing_page d f (o := 0x150) (by decide)

/-- The ring's status is no register that lies elsewhere. -/
theorem ringStatus_ne {d : Nat} (hd : d ≤ 8) {a : Nat} (h : a < 0x1080 ∨ 0x1200 ≤ a ∧ a < 0x1000000) : DIE_RING_STATUS d ≠ a :=
  Ne.symm ((ringReg hd (o := 0x140) (by decide)).ne_low h)

theorem Package.modRing_beatNo (p : Package) {d : Nat} (hd : d ≤ 8) (f : RingSt → RingSt) : (p.modRing d f).beatNo = p.beatNo :=
  p.modRing_rd d f (ringStatus_ne hd (by decide))

theorem Package.modRing_rangeOk (p : Package) {d : Nat} (hd : d ≤ 8) (f : RingSt → RingSt) (a n : Nat) : (p.modRing d f).rangeOk a n = p.rangeOk a n :=
  Package.rangeOk_congr (p.modRing_variant d f) (p.modRing_rd d f (ringStatus_ne hd (by decide))) a n

/-- The counts of a record that has been written (R358). -/
def Package.countRec (p : Package) (d status : Nat) : Package :=
  if status = ST_ABORTED || status = ST_ABORTED_BY_DISABLE then (p.bump64 (DIE_CMDS_DONE d) 1).bump64 (DIE_CMDS_ABORTED d) 1 else p.bump64 (DIE_CMDS_DONE d) 1

theorem Package.countRec_done (p : Package) (d status : Nat) : (p.countRec d status).rd (DIE_CMDS_DONE d) = (p.rd (DIE_CMDS_DONE d) + 1) % 2 ^ 64 := by
  unfold Package.countRec
  split
  · rw [Package.rd_bump64_ne _ _ (show DIE_CMDS_ABORTED d ≠ DIE_CMDS_DONE d from pageDIE_ne d (by decide)), Package.rd_bump64]
  · rw [Package.rd_bump64]

theorem Package.countRec_rd (p : Package) (d status : Nat) {a : Nat} (h : DIE_CMDS_DONE d ≠ a) (h' : DIE_CMDS_ABORTED d ≠ a) :
    (p.countRec d status).rd a = p.rd a := by
  unfold Package.countRec
  split
  · rw [Package.rd_bump64_ne _ _ h', Package.rd_bump64_ne _ _ h]
  · rw [Package.rd_bump64_ne _ _ h]

theorem Package.countRec_shape (p : Package) (d status : Nat) : ∃ m, p.countRec d status = { p with regs := m } := by
  unfold Package.countRec
  split
  · exact ⟨_, rfl⟩
  · exact ⟨_, rfl⟩

/-- A record written where the completion ring is reachable. -/
theorem Package.writeRec_eq (h : p.rangeOk (p.cqSlot d) 16 = true) (habort : r.abortResult = false) : ∃ n, p.writeRec d r
    = (((p.storeBy d (p.cqSlot d) (r.toBytes (p.cqPhase d) p.beatNo)).wr (DIE_CQ_TAIL d) ((p.rd (DIE_CQ_TAIL d) + 1) % 2 ^ 16)).bump64
        (DIE_CQ_WAIT_NS d) n).countRec d r.status := by
  unfold Package.writeRec
  extract_lets tail a phase
  rw [if_neg (by rw [show p.rangeOk a 16 = true from h]; decide), habort, if_neg Bool.false_ne_true]
  exact ⟨_, rfl⟩

/-- What a written record leaves: its bytes, the tail moved on, the command counted. -/
theorem Package.writeRec_shows (hd : d ≤ 8) (h : p.rangeOk (p.cqSlot d) 16 = true) (habort : r.abortResult = false) :
    (p.writeRec d r).mem = storeBytes p.mem (p.cqSlot d) (r.toBytes (p.cqPhase d) p.beatNo)
      ∧ (p.writeRec d r).rd (DIE_CQ_TAIL d) = (p.rd (DIE_CQ_TAIL d) + 1) % 2 ^ 16
      ∧ (p.writeRec d r).rd (DIE_CMDS_DONE d) = (p.rd (DIE_CMDS_DONE d) + 1) % 2 ^ 64 ∧ (p.writeRec d r).rings = p.rings := by
  obtain ⟨n, hn⟩ := Package.writeRec_eq h habort
  have hstore {o : Nat} (ho : 0x80 ≤ o ∧ o < 0x200) (bs : List Byte) : (p.storeBy d (p.cqSlot d) bs).rd (pageDIE d + o) = p.rd (pageDIE d + o) :=
    Package.storeBy_rd _ d _ bs (ringReg hd ho).ne_writeBytes ((ringReg hd ho).ne_low (by decide))
  rw [hn]
  refine ⟨?_, ?_, ?_, ?_⟩
  · obtain ⟨m, hm⟩ := Package.countRec_shape (((p.storeBy d (p.cqSlot d) (r.toBytes (p.cqPhase d) p.beatNo)).wr (DIE_CQ_TAIL d)
      ((p.rd (DIE_CQ_TAIL d) + 1) % 2 ^ 16)).bump64 (DIE_CQ_WAIT_NS d) n) d r.status
    rw [hm]
    dsimp only
    rw [Package.bump64_mem, Package.wr_mem, Package.storeBy_mem]
  · rw [Package.countRec_rd _ _ _ (show DIE_CMDS_DONE d ≠ DIE_CQ_TAIL d from pageDIE_ne d (by decide))
      (show DIE_CMDS_ABORTED d ≠ DIE_CQ_TAIL d from pageDIE_ne d (by decide)),
      Package.rd_bump64_ne _ _ (show DIE_CQ_WAIT_NS d ≠ DIE_CQ_TAIL d from pageDIE_ne d (by decide)), Package.rd_wr_same]
    omega
  · rw [Package.countRec_done, Package.rd_bump64_ne _ _ (show DIE_CQ_WAIT_NS d ≠ DIE_CMDS_DONE d from pageDIE_ne d (by decide)),
      Package.rd_wr_ne _ _ (show DIE_CQ_TAIL d ≠ DIE_CMDS_DONE d from pageDIE_ne d (by decide))]
    exact congrArg (fun n => (n + 1) % 2 ^ 64) (hstore (o := 0x150) (by decide) _)
  · obtain ⟨m, hm⟩ := Package.countRec_shape (((p.storeBy d (p.cqSlot d) (r.toBytes (p.cqPhase d) p.beatNo)).wr (DIE_CQ_TAIL d)
      ((p.rd (DIE_CQ_TAIL d) + 1) % 2 ^ 16)).bump64 (DIE_CQ_WAIT_NS d) n) d r.status
    obtain ⟨m', hm'⟩ := p.storeBy_shape d (p.cqSlot d) (r.toBytes (p.cqPhase d) p.beatNo)
    rw [hm]
    dsimp only
    rw [Package.bump64_rings, Package.wr_rings, hm', Package.withStore]

/-- What a record out of the ring leaves of its state where no abort was pending. -/
theorem Package.recordOut_eq (habort : r.abortResult = false) (hnone : (p.ringSt d).aborts = []) (hwait : (p.ringSt d).waiting = []) :
    ∃ f : RingSt → RingSt, p.recordOut d r = p.modRing d f ∧ (f (p.ringSt d)).inflight = (p.ringSt d).inflight.filter (fun c => c.tag ≠ r.tag)
      ∧ (f (p.ringSt d)).waiting = [] := by
  unfold Package.recordOut
  rw [habort, if_neg Bool.false_ne_true]
  refine ⟨_, rfl, rfl, ?_⟩
  dsimp only
  rw [hnone, hwait]
  rfl

theorem Package.flushCq_empty (h : (p.ringSt d).waiting = []) (n : Nat) : Package.flushCq d (n + 1) p = p := by
  unfold Package.flushCq
  rw [h]

theorem Package.flushCq_one (h : (p.ringSt d).waiting = [r]) (hroom : p.cqUsed d < p.cqDepth d) (n : Nat) :
    Package.flushCq d (n + 1) p = Package.flushCq d n (((p.modRing d (fun x => { x with waiting := [] })).writeRec d r).recordOut d r) := by
  rw [Package.flushCq, h]
  dsimp only
  rw [if_neg (by omega)]

/-- A ring whose drain may end changes its state alone. -/
theorem Package.ringIdle_shows (p : Package) (d : Nat) : (p.ringIdle d).mem = p.mem ∧ (∀ a, DIE_RING_STATUS d ≠ a → (p.ringIdle d).rd a = p.rd a)
    ∧ ((p.ringIdle d).ringSt d).inflight = (p.ringSt d).inflight := by
  unfold Package.ringIdle Package.setRingState
  dsimp only
  split
  · refine ⟨?_, fun a ha => ?_, ?_⟩
    · rw [Package.put_mem, Package.modRing_mem]
    · rw [Package.rd_put_ne _ (DIE_RING_STATUS_STATE d) _ ha, Package.modRing_rd _ _ _ ha]
    · rw [Package.put_ringSt, Package.ringSt_modRing]
  · exact ⟨rfl, fun _ _ => rfl, rfl⟩

theorem Package.ringIdle_serving (h : p.ringState d ≠ RING_DRAINING) : p.ringIdle d = p := by
  unfold Package.ringIdle
  dsimp only
  rw [if_neg (by simp [h])]

/-- The record of a command that ended, as it goes out. -/
def ringRecord (p : Package) (tag cls status result : Nat) (replayed errLogged : Bool) : CqRec :=
  { tag := tag, status := status, result := result % 2 ^ 32, cls := cls, abortResult := false, replayed := replayed, errLogged := errLogged, since := p.clock }

/-- A command's end where the completion ring has room and nothing waits: the record is written and the command leaves the ring. -/
theorem Package.ringEnd_shows {tag cls status result : Nat} {replayed errLogged : Bool} (hd : d ≤ 8) (hwait : (p.ringSt d).waiting = [])
    (hnone : (p.ringSt d).aborts = []) (hroom : p.cqUsed d < p.cqDepth d) (hok : p.rangeOk (p.cqSlot d) 16 = true) :
    let t := p.ringEnd d tag cls status result replayed errLogged
    t.mem = storeBytes p.mem (p.cqSlot d) ((ringRecord p tag cls status result replayed errLogged).toBytes (p.cqPhase d) p.beatNo)
      ∧ t.rd (DIE_CQ_TAIL d) = (p.rd (DIE_CQ_TAIL d) + 1) % 2 ^ 16 ∧ t.rd (DIE_CMDS_DONE d) = (p.rd (DIE_CMDS_DONE d) + 1) % 2 ^ 64
      ∧ t.ringCmd d tag = none := by
  intro t
  have hrec : ∃ f : RingSt → RingSt, (f (p.ringSt d)).waiting = [ringRecord p tag cls status result replayed errLogged]
      ∧ (f (p.ringSt d)).aborts = [] ∧ (f (p.ringSt d)).inflight = (p.ringSt d).inflight ∧ t = (p.modRing d f).settleRing d :=
    ⟨fun x => { x with waiting := x.waiting ++ [ringRecord p tag cls status result replayed errLogged] }, by dsimp only; rw [hwait]; rfl, hnone, rfl, rfl⟩
  obtain ⟨f, hone, hnone', hinflight, ht⟩ := hrec
  generalize hq : p.modRing d f = q at ht
  generalize hw : ringRecord p tag cls status result replayed errLogged = w at hone ⊢
  have hst : q.ringSt d = f (p.ringSt d) := by rw [← hq, Package.ringSt_modRing]
  have hqu : q.cqUsed d < q.cqDepth d := by rwa [← hq, Package.modRing_cqUsed, Package.modRing_cqDepth]
  obtain ⟨u, hu⟩ : ∃ u, u = q.modRing d (fun x => { x with waiting := [] }) := ⟨_, rfl⟩
  have huok : u.rangeOk (u.cqSlot d) 16 = true := by
    rw [hu, Package.modRing_cqSlot, Package.modRing_rangeOk _ hd, ← hq, Package.modRing_cqSlot, Package.modRing_rangeOk _ hd, hok]
  have hwabort : w.abortResult = false := by rw [← hw]; rfl
  have hwtag : w.tag = tag := by rw [← hw]; rfl
  obtain ⟨hmem, htail, hdone, hrings⟩ := Package.writeRec_shows (r := w) hd huok hwabort
  have hust : (u.writeRec d w).ringSt d = { f (p.ringSt d) with waiting := [] } := by
    rw [Package.ringSt, hrings, ← Package.ringSt, hu, Package.ringSt_modRing, hst]
  obtain ⟨g, hg, hgin, hgwait⟩ := Package.recordOut_eq (p := u.writeRec d w) (d := d) hwabort (by rw [hust]; exact hnone') (by rw [hust])
  have hsettle : t = ((u.writeRec d w).modRing d g).ringIdle d := by
    rw [ht, Package.settleRing, hst, hone]
    change (Package.flushCq d (3 + 1) q).ringIdle d = _
    rw [Package.flushCq_one (hst ▸ hone) hqu, ← hu, hg, Package.flushCq_empty (by rw [Package.ringSt_modRing]; exact hgwait)]
  obtain ⟨hidleMem, hidleRd, hidleSt⟩ := Package.ringIdle_shows ((u.writeRec d w).modRing d g) d
  rw [← hsettle] at hidleMem hidleRd hidleSt
  refine ⟨?_, ?_, ?_, ?_⟩
  · rw [hidleMem, Package.modRing_mem, hmem, hu, Package.modRing_mem, Package.modRing_cqSlot, Package.modRing_cqPhase, Package.modRing_beatNo _ hd, ← hq,
      Package.modRing_mem, Package.modRing_cqSlot, Package.modRing_cqPhase, Package.modRing_beatNo _ hd]
  · rw [hidleRd _ (show DIE_RING_STATUS d ≠ DIE_CQ_TAIL d from pageDIE_ne d (by decide)), Package.modRing_cqTail, htail, hu, Package.modRing_cqTail, ← hq, Package.modRing_cqTail]
  · rw [hidleRd _ (show DIE_RING_STATUS d ≠ DIE_CMDS_DONE d from pageDIE_ne d (by decide)), Package.modRing_done, hdone, hu, Package.modRing_done, ← hq, Package.modRing_done]
  · rw [Package.ringCmd, hidleSt, Package.ringSt_modRing, hgin, hwtag]
    refine List.find?_eq_none.mpr fun c hc => ?_
    have hne := (List.mem_filter.mp hc).2
    simpa using hne

end

/-! #### The commands -/

section
variable {p : Package} {d : Nat}

theorem Package.pass_ringCmd (p : Package) (dt d tag : Nat) : (p.pass dt).ringCmd d tag = p.ringCmd d tag := by
  rw [Package.ringCmd, Package.pass_ringSt, Package.ringCmd]

theorem Package.pass_runOf (p : Package) (dt d tag : Nat) : (p.pass dt).runOf d tag = p.runOf d tag := by
  rw [Package.runOf, Package.pass_runs, Package.runOf]

theorem Package.pass_cqDepth (p : Package) (dt d : Nat) : (p.pass dt).cqDepth d = p.cqDepth d := Package.cqDepth_congr (p.pass_rd dt _)

theorem Package.pass_cqUsed (p : Package) (dt d : Nat) : (p.pass dt).cqUsed d = p.cqUsed d := by
  rw [Package.cqUsed, Package.pass_rd, Package.pass_rd, Package.cqUsed]

theorem Package.pass_cqSlot (p : Package) (dt d : Nat) : (p.pass dt).cqSlot d = p.cqSlot d := by
  rw [Package.cqSlot, Package.pass_rd, Package.pass_rd, Package.pass_cqDepth, Package.cqSlot]

theorem Package.pass_cqPhase (p : Package) (dt d : Nat) : (p.pass dt).cqPhase d = p.cqPhase d := by
  rw [Package.cqPhase, Package.pass_rd, Package.pass_cqDepth, Package.cqPhase]

/-- A command that ended, and is no RUN that still holds its clusters, ends in the ring. -/
theorem commandComplete_eq {tag st res : Nat} {c : RingCmd} (dt : Nat) (hcmd : p.ringCmd d tag = some c) (hdone : c.done = some (st, res))
    (hrun : p.runOf d tag = none) (hwait : (p.ringSt d).waiting = []) :
    commandComplete dt d tag p = (p.pass dt).ringEnd d tag c.cls st res c.replayed c.errLogged := by
  have hend : (p.pass dt).endRun d tag = p.pass dt := by
    rw [Package.endRun, Package.pass_runOf, hrun]
  unfold commandComplete
  dsimp only
  rw [hend, Package.pass_ringCmd, hcmd]
  dsimp only
  rw [hdone]
  dsimp only
  rw [Package.pass_ringSt, hwait, if_neg (by simp)]

/-- The oldest record has waited too long (R358). -/
theorem cqStall_eq {w : CqRec} {rest : List CqRec} {dt : Nat} (hwait : (p.ringSt d).waiting = w :: rest) (hnone : (p.ringSt d).stallAt = none)
    (hlong : w.since + 100 * Config.usUnits < p.clock + dt) : cqStall dt d p
      = ((p.pass dt).modRing d (fun x => { x with stallAt := some (p.clock + dt) })).raise (.die d) EV_DIE_CQ_STALL (p.pass dt).beatNo (arg1Of d 0) := by
  unfold cqStall
  dsimp only
  rw [Package.pass_ringSt, hwait, hnone, Package.pass_clock]
  dsimp only
  rw [if_neg (by simp; omega)]

theorem cqHeadWrite_eq {v : Nat} (hreach : p.ringReach d = true) (hwait : (p.ringSt d).waiting = []) (hst : p.ringState d ≠ RING_DRAINING) :
    cqHeadWrite d v p = p.wr (DIE_CQ_HEAD d) (v % 2 ^ 16) := by
  have hempty : ((p.wr (DIE_CQ_HEAD d) (v % 2 ^ 16)).ringSt d).waiting = [] := hwait
  have hstate : (p.wr (DIE_CQ_HEAD d) (v % 2 ^ 16)).ringState d = p.ringState d :=
    Package.get_wr_ne _ _ (show DIE_CQ_HEAD d ≠ DIE_RING_STATUS d from pageDIE_ne d (by decide))
  unfold cqHeadWrite
  rw [if_neg (by simp [hreach]), Package.settleRing, Package.flushCq_empty hempty, Package.ringIdle_serving (hstate ▸ hst)]

theorem commandAbort_pending {v : Nat} (hreach : p.ringReach d = true) (hin : v % 2 ^ 16 ∈ (p.ringSt d).aborts) :
    commandAbort d v p = p.bump64 (DIE_ABORT_IGNORED d) 1 := by
  unfold commandAbort
  dsimp only
  rw [if_neg (by simp [hreach]), if_pos (by rw [List.contains_iff_mem.mpr hin]; rfl)]

theorem commandAbort_found {v : Nat} {c : RingCmd} (hreach : p.ringReach d = true) (hroom : (p.ringSt d).aborts.length < Config.ringAborts)
    (hnew : v % 2 ^ 16 ∉ (p.ringSt d).aborts) (hcmd : p.ringCmd d (v % 2 ^ 16) = some c) : commandAbort d v p
      = if (p.modRing d (fun x => { x with aborts := x.aborts ++ [v % 2 ^ 16] })).pastPoint d c then p.modRing d (fun x => { x with aborts := x.aborts ++ [v % 2 ^ 16] })
        else (p.modRing d (fun x => { x with aborts := x.aborts ++ [v % 2 ^ 16] })).stopCmd d c ST_ABORTED := by
  have hfresh : ((p.ringSt d).aborts.contains (v % 2 ^ 16) || decide (Config.ringAborts ≤ (p.ringSt d).aborts.length)) = false := by
    rw [decide_eq_false (Nat.not_le.mpr hroom), Bool.or_false]
    exact Bool.eq_false_iff.mpr fun h => hnew (List.contains_iff_mem.mp h)
  unfold commandAbort
  dsimp only
  rw [if_neg (by simp [hreach]), if_neg (ne_true_of_eq_false hfresh), hcmd]

/-- Where a command stands is not moved by the aborts noted, but for a RUN's dispatch. -/
theorem Package.pastPoint_modRing {c : RingCmd} (hcls : c.cls ≠ CC_RUN) (f : RingSt → RingSt) (hf : (f (p.ringSt d)).waiting = (p.ringSt d).waiting) :
    (p.modRing d f).pastPoint d c = p.pastPoint d c := by
  unfold Package.pastPoint
  rw [Package.ringSt_modRing, hf, if_neg hcls, if_neg hcls, Package.modRing_snap]

theorem ringResume_eq (hreach : p.ringReach d = true) (hst : p.ringState d = RING_HALTED) (hroom : p.ringQueued d ≤ p.ringDepth d) :
    ringResume d p = (p.put (DIE_RING_STATUS_HALT_CAUSE d) 0).setRingState d (if p.has (CTRL_ENABLE (.die d)) then RING_ACTIVE else RING_DRAINING) := by
  unfold ringResume
  rw [if_neg (by simp [hreach, hst]; omega)]

theorem ringResume_shows (hreach : p.ringReach d = true) (hst : p.ringState d = RING_HALTED) (hroom : p.ringQueued d ≤ p.ringDepth d) :
    (ringResume d p).get (DIE_RING_STATUS_HALT_CAUSE d) = 0
      ∧ (ringResume d p).ringState d = if p.has (CTRL_ENABLE (.die d)) then RING_ACTIVE else RING_DRAINING := by
  rw [ringResume_eq hreach hst hroom]
  refine ⟨?_, ?_⟩
  · exact (Package.get_put_apart _ _ (by decide) (by decide)).trans (Package.get_put_self _ _ (by decide))
  · refine (Package.get_put_self _ _ (by decide)).trans ?_
    split <;> rfl

theorem ringReset_eq (hreach : p.ringReach d = true) (hst : p.ringState d = RING_DISABLED) :
    ringReset d p = (((p.modRing d (fun x => { x with tail := 0 })).wr (DIE_RING_HEAD d) 0).wr (DIE_CQ_HEAD d) 0).wr (DIE_CQ_TAIL d) 0 := by
  unfold ringReset
  rw [if_neg (by simp [hreach, hst])]

theorem ringReset_shows (hreach : p.ringReach d = true) (hst : p.ringState d = RING_DISABLED) :
    (ringReset d p).rd (DIE_RING_HEAD d) = 0 ∧ (ringReset d p).rd (DIE_CQ_HEAD d) = 0 ∧ (ringReset d p).rd (DIE_CQ_TAIL d) = 0
      ∧ ((ringReset d p).ringSt d).tail = 0 := by
  have hne {o o' : Nat} (h : o ≠ o') : pageDIE d + o ≠ pageDIE d + o' := pageDIE_ne d h
  have hwr (q : Package) (a v : Nat) : (q.wr a v).ringSt d = q.ringSt d := rfl
  rw [ringReset_eq hreach hst]
  refine ⟨?_, ?_, ?_, ?_⟩
  · rw [Package.rd_wr_ne _ _ (show DIE_CQ_TAIL d ≠ DIE_RING_HEAD d from hne (by decide)),
      Package.rd_wr_ne _ _ (show DIE_CQ_HEAD d ≠ DIE_RING_HEAD d from hne (by decide)), Package.rd_wr_same, Nat.zero_mod]
  · rw [Package.rd_wr_ne _ _ (show DIE_CQ_TAIL d ≠ DIE_CQ_HEAD d from hne (by decide)), Package.rd_wr_same, Nat.zero_mod]
  · rw [Package.rd_wr_same, Nat.zero_mod]
  · rw [hwr, hwr, hwr, Package.ringSt_modRing]

theorem ringDrainDeadline_eq {c : RingCmd} (dt : Nat) (hoff : p.has (CTRL_ENABLE (.die d)) = false)
    (hst : p.ringState d = RING_DRAINING ∨ p.ringState d = RING_HALTED) (hbeat : (p.ringSt d).drainBeat ≤ p.beatNo) (hone : (p.ringSt d).inflight = [c]) :
    ringDrainDeadline dt d p = if (p.pass dt).pastPoint d c then p.pass dt else (p.pass dt).stopCmd d c ST_ABORTED_BY_DISABLE := by
  have hcmd : (p.pass dt).ringCmd d c.tag = some c := by
    rw [Package.pass_ringCmd, Package.ringCmd, hone, List.find?_cons_of_pos (by simp)]
  have hstops : (p.pass dt).has (CTRL_ENABLE (.die d)) = false := (p.pass_has dt _).trans hoff
  unfold ringDrainDeadline
  dsimp only
  rw [hstops, Package.pass_ringState, Package.pass_beatNo, Package.pass_ringSt, if_neg (by simpa using ⟨hst.resolve_left, hbeat⟩), hone]
  change (match (p.pass dt).ringCmd d c.tag with
    | some c => if (p.pass dt).pastPoint d c then p.pass dt else (p.pass dt).stopCmd d c ST_ABORTED_BY_DISABLE
    | none => p.pass dt) = _
  rw [hcmd]

end

/-- Settles O43, by the command. -/
theorem ringRecordsAndControl : Obligations.RingRecordsAndControl := by
  unfold Obligations.RingRecordsAndControl
  refine ⟨?complete, ?stall, ?head, ?ignored, ?abort, ?resume, ?reset, ?deadline⟩
  case complete =>
    intro s dt d tag st res c hd hcmd hdone hrun hwait hnone hroom hok
    have hshows := Package.ringEnd_shows (p := s.pkg.pass dt) (tag := tag) (cls := c.cls) (status := st) (result := res) (replayed := c.replayed)
      (errLogged := c.errLogged) hd ((congrArg RingSt.waiting (s.pkg.pass_ringSt d dt)).trans hwait)
      ((congrArg RingSt.aborts (s.pkg.pass_ringSt d dt)).trans hnone) (by rwa [Package.pass_cqUsed, Package.pass_cqDepth])
      (by rw [Package.pass_cqSlot, Package.pass_rangeOk]; exact hok)
    rw [← commandComplete_eq dt hcmd hdone hrun hwait, Package.pass_mem, Package.pass_cqSlot, Package.pass_cqPhase, Package.pass_beatNo, Package.pass_rd,
      Package.pass_rd, ringRecord, Package.pass_clock] at hshows
    obtain ⟨hmem, htail, hcount, hgone⟩ := hshows
    exact ⟨{ s with pkg := commandComplete dt d tag s.pkg }, rfl, hgone, htail, hcount, hmem⟩
  case stall =>
    intro s dt d w rest hd hwait hnone hlong
    refine ⟨{ s with pkg := cqStall dt d s.pkg }, rfl, ?_⟩
    dsimp only
    rw [cqStall_eq hwait hnone hlong]
    have hraise (q : Package) (ev a b : Nat) : (q.raise (.die d) ev a b).ringSt d = q.ringSt d := by
      rw [Package.ringSt, Package.raise_rings, Package.ringSt]
    refine ⟨?_, ?_, Package.raise_status _ _ _ _ _ (by decide)⟩
    · rw [hraise, Package.ringSt_modRing]
    · rw [hraise, Package.ringSt_modRing, Package.pass_ringSt]
  case head => exact fun s d v _ hreach hwait hst => next_pkg_congr (cqHeadWrite_eq hreach hwait hst)
  case ignored => exact fun s d v hreach hin => next_pkg_congr (commandAbort_pending hreach hin)
  case abort =>
    intro s d v c _ hreach hroom hnew hcmd hcls
    refine ⟨{ s with pkg := commandAbort d v s.pkg }, rfl, ?_⟩
    dsimp only
    rw [commandAbort_found hreach hroom hnew hcmd, Package.pastPoint_modRing hcls _ rfl]
    refine ⟨fun hpast => ?_, fun hpast => ?_⟩
    · rw [if_pos hpast, Package.ringSt_modRing, Package.modRing_mem]
      exact ⟨rfl, rfl, rfl⟩
    · rw [if_neg (ne_true_of_eq_false hpast)]
  case resume => exact fun s d _ hreach hst hroom => ⟨{ s with pkg := ringResume d s.pkg }, rfl, ringResume_shows hreach hst hroom⟩
  case reset => exact fun s d _ hreach hst => ⟨{ s with pkg := ringReset d s.pkg }, rfl, ringReset_shows hreach hst⟩
  case deadline =>
    intro s dt d c hoff hst hbeat hone
    exact ⟨{ s with pkg := ringDrainDeadline dt d s.pkg }, rfl, ringDrainDeadline_eq dt hoff hst hbeat hone⟩

end Sys2Proof.Machine

/-! ### Command rings: fetching and the command classes (R354 to R362, R391, R412, R433) -/

namespace Sys2Proof.Machine

/-! #### Commands in flight -/

section
variable {p : Package} {d tag cls : Nat} {c : RingCmd}

theorem Package.ringReach_le (h : p.ringReach d = true) : d ≤ 8 := by
  unfold Package.ringReach Package.ringFitted at h
  simp only [Bool.and_eq_true, Bool.or_eq_true, decide_eq_true_eq] at h
  obtain ⟨rfl | hfitted, -⟩ := h
  · exact Nat.le_refl 8
  · exact Nat.le_of_lt (Package.dieFitted_lt hfitted)

@[simp] theorem Package.pass_ringReach (p : Package) (dt d : Nat) : (p.pass dt).ringReach d = p.ringReach d := by
  unfold Package.ringReach Package.ringFitted Package.dieFitted Package.dieFenced
  rw [Package.pass_variant, Package.pass_get]

@[simp] theorem Package.pass_startable (p : Package) (dt d tag cls : Nat) : (p.pass dt).startable d tag cls = p.startable d tag cls := by
  unfold Package.startable Package.earlier
  rw [Package.pass_ringCmd, Package.pass_ringSt, Package.pass_has, Package.pass_ringReach]

/-- A command that may start is in flight on a ring that can be reached. -/
theorem startable_cmd (h : p.startable d tag cls = some c) : p.ringCmd d tag = some c ∧ d ≤ 8 := by
  unfold Package.startable at h
  cases hcmd : p.ringCmd d tag with
  | none => rw [hcmd] at h; cases h
  | some x =>
    rw [hcmd] at h
    dsimp only at h
    split at h
    · next hcond =>
      simp only [Bool.and_eq_true] at hcond
      obtain ⟨⟨⟨⟨⟨⟨-, -⟩, -⟩, hreach⟩, -⟩, -⟩, -⟩ := hcond
      exact ⟨h, Package.ringReach_le hreach⟩
    · cases h

theorem Package.startClass_eq (h : p.startable d tag cls = some c) (f : Package → RingCmd → Package) : p.startClass d tag cls f = f p c := by
  rw [Package.startClass, h]

/-- A command of a class that does nothing is as one that does not start. -/
theorem Package.startClass_idle {f : Package → RingCmd → Package} (h : ∀ c, f p c = p) : p.startClass d tag cls f = p := by
  unfold Package.startClass
  split
  · rfl
  · exact h _

theorem Package.ringCmd_modCmd {f : RingCmd → RingCmd} (h : p.ringCmd d tag = some c) (hf : ∀ x, (f x).tag = x.tag) :
    (p.modCmd d tag f).ringCmd d tag = some (f c) := by
  have htag : c.tag = tag := by simpa using List.find?_some h
  have hsame : ((fun x : RingCmd => decide (x.tag = tag)) ∘ fun x => if x.tag = tag then f x else x) = fun x => decide (x.tag = tag) := by
    funext x
    dsimp only [Function.comp]
    split
    · rw [hf]
    · rfl
  rw [Package.ringCmd, Package.modCmd, Package.ringSt_modRing]
  dsimp only
  rw [List.find?_map, hsame, show (p.ringSt d).inflight.find? (fun x => decide (x.tag = tag)) = some c from h, Option.map_some, if_pos htag]

theorem Package.ringCmd_begunDone (h : p.ringCmd d tag = some c) (st res : Nat) :
    (p.begunDone d tag st res).ringCmd d tag = some { c with started := true, past := true, done := some (st, res) } := by
  unfold Package.begunDone Package.cmdDone Package.begun
  exact Package.ringCmd_modCmd (Package.ringCmd_modCmd h (by exact fun _ => rfl)) (by exact fun _ => rfl)

theorem Package.begunDone_shape (p : Package) (d tag st res : Nat) : ∃ f g : RingSt → RingSt, p.begunDone d tag st res = (p.modRing d f).modRing d g := by
  unfold Package.begunDone Package.cmdDone Package.begun Package.modCmd
  exact ⟨_, _, rfl⟩

@[simp] theorem Package.begunDone_mem (p : Package) (d tag st res : Nat) : (p.begunDone d tag st res).mem = p.mem := by
  obtain ⟨f, g, h⟩ := p.begunDone_shape d tag st res
  rw [h, Package.modRing_mem, Package.modRing_mem]

@[simp] theorem Package.begunDone_runs (p : Package) (d tag st res : Nat) : (p.begunDone d tag st res).runs = p.runs := by
  obtain ⟨f, g, h⟩ := p.begunDone_shape d tag st res
  rw [h, Package.modRing_runs, Package.modRing_runs]

@[simp] theorem Package.modRing_rewind (p : Package) (d : Nat) (f : RingSt → RingSt) : (p.modRing d f).rewind = p.rewind := by
  obtain ⟨r, m, h⟩ := p.modRing_shape d f
  rw [h]

@[simp] theorem Package.modRing_bists (p : Package) (d : Nat) (f : RingSt → RingSt) : (p.modRing d f).bists = p.bists := by
  obtain ⟨r, m, h⟩ := p.modRing_shape d f
  rw [h]

@[simp] theorem Package.modRing_poison (p : Package) (d : Nat) (f : RingSt → RingSt) : (p.modRing d f).poison = p.poison := by
  obtain ⟨r, m, h⟩ := p.modRing_shape d f
  rw [h]

theorem Package.modRing_load (p : Package) (hd : d ≤ 8) (f : RingSt → RingSt) (a n : Nat) : (p.modRing d f).load a n = p.load a n :=
  Package.load_congr (p.modRing_mem d f) (p.modRing_poison d f) (p.modRing_variant d f) (p.modRing_rd d f (ringStatus_ne hd (by decide))) a n

@[simp] theorem Package.begunDone_rewind (p : Package) (d tag st res : Nat) : (p.begunDone d tag st res).rewind = p.rewind := by
  obtain ⟨f, g, h⟩ := p.begunDone_shape d tag st res
  rw [h, Package.modRing_rewind, Package.modRing_rewind]

/-- The outcome of a command that has ended. -/
theorem Package.done_begunDone (h : p.ringCmd d tag = some c) (st res : Nat) :
    ((p.begunDone d tag st res).ringCmd d tag).map (fun c => c.done) = some (some (st, res)) := by
  rw [Package.ringCmd_begunDone h, Option.map_some]

@[simp] theorem Package.ringCmd_countReadBy (p : Package) (die a n d tag : Nat) : (p.countReadBy die a n).ringCmd d tag = p.ringCmd d tag := by
  obtain ⟨r, h⟩ := p.regsOnly_countReadBy die a n
  rw [h]
  rfl

@[simp] theorem Package.ringCmd_storeBy (p : Package) (die a : Nat) (bs : List Byte) (d tag : Nat) : (p.storeBy die a bs).ringCmd d tag = p.ringCmd d tag := by
  obtain ⟨r, h⟩ := p.storeBy_shape die a bs
  rw [h]
  rfl

/-! #### The doorbell and the fetch -/

theorem Package.haltRing_shows (p : Package) (d : Nat) {cause : Nat} (hcause : cause < 16) (hd : d ≤ 8) :
    (p.haltRing d cause).ringState d = RING_HALTED ∧ (p.haltRing d cause).get (DIE_RING_STATUS_HALT_CAUSE d) = cause
      ∧ bitAt ((p.haltRing d cause).rd (IRQ_STATUS (.die d))) EV_DIE_RING_HALT = true := by
  have hpage : DIE_RING_STATUS d ≠ IRQ_STATUS (.die d) := pageDIE_ne d (by decide)
  have hreg : DIE_RING_STATUS d ∉ evtRegs := (ringReg hd (o := 0x140) (by decide)).not_event
  unfold Package.haltRing Package.setRingState
  refine ⟨?_, ?_, Package.raise_status _ _ _ _ _ (by decide)⟩
  · rw [Package.ringState, Package.raise_get _ _ _ _ _ hreg hpage]
    exact (Package.get_put_apart _ _ (by decide) (by decide)).trans (Package.get_put_self _ _ (by decide))
  · rw [Package.raise_get _ _ _ _ _ hreg hpage]
    exact (Package.get_put_self _ _ (by decide)).trans (Nat.mod_eq_of_lt hcause)

/-- The entries that a tail would leave between head and tail. -/
theorem Package.ringQueued_tail (p : Package) (d v : Nat) :
    (p.modRing d (fun r => { r with tail := v % 2 ^ 16 })).ringQueued d = (v % 2 ^ 16 + 2 ^ 16 - p.rd (DIE_RING_HEAD d)) % 2 ^ 16 := by
  rw [Package.ringQueued, Package.ringSt_modRing, Package.modRing_rd _ _ _ (show DIE_RING_STATUS d ≠ DIE_RING_HEAD d from pageDIE_ne d (by decide))]

theorem Package.modRing_ringDepth (p : Package) (d : Nat) (f : RingSt → RingSt) : (p.modRing d f).ringDepth d = p.ringDepth d := by
  unfold Package.ringDepth
  rw [Package.get_of_rd (f := DIE_RING_CFG_DEPTH_LOG2 d) (p.modRing_page d f (o := 0x108) (by decide))]

theorem ringDoorbell_near {v : Nat} (hreach : p.ringReach d = true) (hnear : (v % 2 ^ 16 + 2 ^ 16 - p.rd (DIE_RING_HEAD d)) % 2 ^ 16 ≤ p.ringDepth d) :
    ringDoorbell d v p = p.modRing d (fun r => { r with tail := v % 2 ^ 16 }) := by
  unfold ringDoorbell
  rw [if_neg (by simp [hreach])]
  dsimp only
  rw [Package.ringQueued_tail, Package.modRing_ringDepth, decide_eq_false (Nat.not_lt.mpr hnear), Bool.and_false, if_neg Bool.false_ne_true]

theorem ringDoorbell_far {v : Nat} (hreach : p.ringReach d = true) (hst : p.ringState d = RING_ACTIVE)
    (hfar : p.ringDepth d < (v % 2 ^ 16 + 2 ^ 16 - p.rd (DIE_RING_HEAD d)) % 2 ^ 16) :
    ringDoorbell d v p = (p.modRing d (fun r => { r with tail := v % 2 ^ 16 })).haltRing d 2 := by
  unfold ringDoorbell
  rw [if_neg (by simp [hreach])]
  dsimp only
  rw [Package.ringQueued_tail, Package.modRing_ringDepth, decide_eq_true hfar, Package.modRing_ringState, hst, if_pos (by decide)]

@[simp] theorem Package.pass_ringQueued (p : Package) (dt d : Nat) : (p.pass dt).ringQueued d = p.ringQueued d := by
  rw [Package.ringQueued, Package.pass_ringSt, Package.pass_rd, Package.ringQueued]

@[simp] theorem Package.pass_ringDepth (p : Package) (dt d : Nat) : (p.pass dt).ringDepth d = p.ringDepth d := by
  rw [Package.ringDepth, Package.pass_get, Package.ringDepth]

@[simp] theorem Package.pass_ringEntry (p : Package) (dt d e : Nat) : (p.pass dt).ringEntry d e = p.ringEntry d e := by
  rw [Package.ringEntry, Package.pass_rd, Package.pass_ringDepth, Package.ringEntry]

@[simp] theorem Package.pass_ringServes (p : Package) (dt d : Nat) : (p.pass dt).ringServes d = p.ringServes d := by
  rw [Package.ringServes, Package.pass_has, Package.pass_ringReach, Package.pass_ringState, Package.ringServes]

/-- Lines that are clean change nothing. -/
theorem Package.readFinds_clean (p : Package) (x a n cls : Nat) : p.readFinds [(x, .clean)] a n cls = p := by
  change (if overlaps a n (x / 64 * 64) 64 && p.memOk x then
      match physOf x with
      | some y => p.lineRead y cls .clean
      | none => p
    else p) = p
  split
  · split
    · rfl
    · rfl
  · rfl

/-- The fetch of an entry that can be read, on a ring that serves and has room. -/
theorem fetchEntry_read {b : List Byte} (hserves : p.ringServes d = true) (hqueued : p.ringQueued d ≠ 0) (hdepth : p.ringQueued d ≤ p.ringDepth d)
    (hroom : (p.ringSt d).inflight.length < Config.ringInflight) (hload : p.load (p.ringEntry d (p.rd (DIE_RING_HEAD d))) 64 = .ok b) :
    p.fetchEntry d .clean = (p.countReadBy d (p.ringEntry d (p.rd (DIE_RING_HEAD d))) 64).takeEntry d b := by
  unfold Package.fetchEntry
  rw [if_neg (by simp [hserves, hqueued]; omega), if_neg (by omega)]
  dsimp only
  rw [Package.readFinds_clean, hload]

/-- An entry out of reach halts the ring. -/
theorem fetchEntry_refused (hserves : p.ringServes d = true) (hqueued : p.ringQueued d ≠ 0) (hdepth : p.ringQueued d ≤ p.ringDepth d)
    (hroom : (p.ringSt d).inflight.length < Config.ringInflight) (hload : p.load (p.ringEntry d (p.rd (DIE_RING_HEAD d))) 64 = .refused) :
    p.fetchEntry d .clean = p.haltRing d 3 := by
  unfold Package.fetchEntry
  rw [if_neg (by simp [hserves, hqueued]; omega), if_neg (by omega)]
  dsimp only
  rw [Package.readFinds_clean, hload]

/-- A ring with nothing that waits settles as it is, unless it drains. -/
theorem Package.settleRing_idle (hwait : (p.ringSt d).waiting = []) (hst : p.ringState d ≠ RING_DRAINING) : p.settleRing d = p := by
  rw [Package.settleRing, Package.flushCq_empty hwait, Package.ringIdle_serving hst]

/-- A sound descriptor's command. -/
def descCmd (b : List Byte) : RingCmd := { tag := descTag b, cls := descCls b, fence := decide (fieldAt b 1 1 = 1), desc := b }

theorem takeEntry_sound {b : List Byte} (hfresh : p.ringCmd d (descTag b) = none) (hnone : (p.ringSt d).aborts = []) (hst : p.ringState d = RING_ACTIVE)
    (hok : descOk d b = true) (hpermitted : (p.nextEntry d).classPermitted b = true) :
    p.takeEntry d b = (p.nextEntry d).modRing d (fun r => { r with inflight := r.inflight ++ [descCmd b] }) := by
  have hnext : ((p.nextEntry d).ringSt d).aborts = [] := hnone
  have hstate : (p.nextEntry d).ringState d = RING_ACTIVE :=
    (Package.get_wr_ne _ _ (show DIE_RING_HEAD d ≠ DIE_RING_STATUS d from pageDIE_ne d (by decide))).trans hst
  unfold Package.takeEntry
  dsimp only
  rw [hfresh, if_neg (by simp), hnext, if_neg (by simp), hstate, if_neg (by decide), hok, if_neg (by decide), hpermitted, if_neg (by decide)]
  rfl

theorem Package.classPermitted_congr {q : Package} (hlc : q.lcState = p.lcState) (hfeat : q.rd (FEATURE_ACCEPT .pkg 0) = p.rd (FEATURE_ACCEPT .pkg 0))
    (htarget : q.get SNAP_CFG_TARGET = p.get SNAP_CFG_TARGET) (b : List Byte) : q.classPermitted b = p.classPermitted b := by
  unfold Package.classPermitted Package.feature Package.captureToBuddy
  rw [hlc, hfeat, htarget]

/-- A sound descriptor enters the ring, and its head moves on. -/
theorem commandFetch_sound {b : List Byte} (dt : Nat) (hd : d ≤ 8) (hserves : p.ringServes d = true) (hst : p.ringState d = RING_ACTIVE)
    (hqueued : p.ringQueued d ≠ 0) (hdepth : p.ringQueued d ≤ p.ringDepth d) (hroom : (p.ringSt d).inflight.length < Config.ringInflight)
    (hwait : (p.ringSt d).waiting = []) (hnone : (p.ringSt d).aborts = []) (hload : p.load (p.ringEntry d (p.rd (DIE_RING_HEAD d))) 64 = .ok b)
    (hfresh : p.ringCmd d (descTag b) = none) (hok : descOk d b = true) (hpermitted : p.classPermitted b = true) :
    let t := commandFetch dt d .clean p
    t.rd (DIE_RING_HEAD d) = (p.rd (DIE_RING_HEAD d) + 1) % 2 ^ 16 ∧ t.mem = p.mem
      ∧ (t.ringSt d).inflight = (p.ringSt d).inflight ++ [descCmd b] := by
  intro t
  obtain ⟨r, hr⟩ := (p.pass dt).regsOnly_countReadBy d (p.ringEntry d (p.rd (DIE_RING_HEAD d))) 64
  obtain ⟨u, hu⟩ : ∃ u, u = (p.pass dt).countReadBy d (p.ringEntry d (p.rd (DIE_RING_HEAD d))) 64 := ⟨_, rfl⟩
  have hurd {a : Nat} (hreg : RingReg d a) : u.rd a = p.rd a := by
    rw [hu, Package.countReadBy_rd _ _ _ _ hreg.ne_readBytes (hreg.ne_low (by decide)), Package.pass_rd]
  have hulow {a : Nat} (ha : a < 0xB000 ∨ 0xC000 ≤ a ∧ a < 0x1000000) : u.rd a = p.rd a := by
    have hread (k : Nat) : MEM_READ_BYTES k ≠ a := by
      change 0x10000000 + 0x100000 * k + 0x118 ≠ a
      omega
    have hstay : FAB_STAY_BYTES ≠ a := by
      change 0xB148 ≠ a
      omega
    rw [hu, Package.countReadBy_rd _ _ _ _ hread hstay, Package.pass_rd]
  have hust : u.ringSt d = p.ringSt d := by
    rw [hu, hr]
    exact p.pass_ringSt d dt
  have hustate : u.ringState d = RING_ACTIVE := (Package.get_of_rd (f := DIE_RING_STATUS_STATE d) (hurd (ringReg hd (o := 0x140) (by decide)))).trans hst
  have hnext {a : Nat} (h : a < 0xB000 ∨ 0xC000 ≤ a ∧ a < 0x1000000) (hne : DIE_RING_HEAD d ≠ a) : (u.nextEntry d).rd a = p.rd a :=
    (Package.rd_wr_ne _ _ hne).trans (hulow h)
  have hhead {a : Nat} (h : a < 0x1080 ∨ 0x1200 ≤ a ∧ a < 0x1000000) : DIE_RING_HEAD d ≠ a := Ne.symm ((ringReg hd (o := 0x120) (by decide)).ne_low h)
  have hpermitted' : (u.nextEntry d).classPermitted b = true :=
    (Package.classPermitted_congr (Package.get_of_rd (hnext (by decide) (hhead (by decide)))) (hnext (by decide) (hhead (by decide)))
      (Package.get_of_rd (hnext (by decide) (hhead (by decide)))) b).trans hpermitted
  have hfetch : (p.pass dt).fetchEntry d .clean = (u.nextEntry d).modRing d (fun r => { r with inflight := r.inflight ++ [descCmd b] }) := by
    rw [fetchEntry_read (by rw [Package.pass_ringServes, hserves]) (by rwa [Package.pass_ringQueued]) (by rwa [Package.pass_ringQueued, Package.pass_ringDepth])
      (by rwa [Package.pass_ringSt]) (by rwa [Package.pass_ringEntry, Package.pass_rd, Package.pass_load]), Package.pass_ringEntry, Package.pass_rd, ← hu]
    exact takeEntry_sound (by rw [Package.ringCmd, hust]; exact hfresh) (by rw [hust]; exact hnone) hustate hok hpermitted'
  have ht : t = (u.nextEntry d).modRing d (fun r => { r with inflight := r.inflight ++ [descCmd b] }) := by
    simp only [t, commandFetch]
    rw [hfetch]
    refine Package.settleRing_idle ?_ ?_
    · rw [Package.ringSt_modRing]
      exact (congrArg RingSt.waiting hust).trans hwait
    · rw [Package.modRing_ringState, Package.ringState, Package.nextEntry,
        Package.get_wr_ne _ _ (show DIE_RING_HEAD d ≠ (DIE_RING_STATUS_STATE d).addr from pageDIE_ne d (by decide))]
      rw [← Package.ringState, hustate]
      decide
  rw [ht]
  refine ⟨?_, ?_, ?_⟩
  · rw [Package.modRing_rd _ _ _ (show DIE_RING_STATUS d ≠ DIE_RING_HEAD d from pageDIE_ne d (by decide)), Package.nextEntry, Package.rd_wr_same,
      show u.rd (DIE_RING_HEAD d) = p.rd (DIE_RING_HEAD d) from hurd (ringReg hd (o := 0x120) (by decide))]
    omega
  · rw [Package.modRing_mem, Package.nextEntry, Package.wr_mem, hu, hr]
    exact p.pass_mem dt
  · rw [Package.ringSt_modRing]
    exact congrArg (fun x => x.inflight ++ [descCmd b]) hust

theorem commandFetch_refused (dt : Nat) (hd : d ≤ 8) (hserves : p.ringServes d = true) (hqueued : p.ringQueued d ≠ 0)
    (hdepth : p.ringQueued d ≤ p.ringDepth d) (hroom : (p.ringSt d).inflight.length < Config.ringInflight) (hwait : (p.ringSt d).waiting = [])
    (hload : p.load (p.ringEntry d (p.rd (DIE_RING_HEAD d))) 64 = .refused) : commandFetch dt d .clean p = (p.pass dt).haltRing d 3 := by
  have hstate : ((p.pass dt).haltRing d 3).ringState d = RING_HALTED := (Package.haltRing_shows _ d (by decide) hd).1
  have hst : ((p.pass dt).haltRing d 3).ringSt d = p.ringSt d := by
    rw [Package.haltRing, Package.ringSt, Package.raise_rings]
    exact p.pass_ringSt d dt
  rw [commandFetch, fetchEntry_refused (by rw [Package.pass_ringServes, hserves]) (by rwa [Package.pass_ringQueued])
    (by rwa [Package.pass_ringQueued, Package.pass_ringDepth]) (by rwa [Package.pass_ringSt])
    (by rwa [Package.pass_ringEntry, Package.pass_rd, Package.pass_load])]
  exact Package.settleRing_idle (by rw [hst, hwait]) (by rw [hstate]; decide)

theorem Package.haltRing_head (p : Package) (hd : d ≤ 8) (cause : Nat) : (p.haltRing d cause).rd (DIE_RING_HEAD d) = p.rd (DIE_RING_HEAD d) := by
  have hne : DIE_RING_STATUS d ≠ DIE_RING_HEAD d := pageDIE_ne d (by decide)
  rw [Package.haltRing, Package.raise_rd _ _ _ _ _ (show DIE_RING_HEAD d ∉ evtRegs from (ringReg hd (o := 0x120) (by decide)).not_event)
    (show DIE_RING_HEAD d ≠ IRQ_STATUS (.die d) from pageDIE_ne d (by decide)), Package.rd_put_ne _ (DIE_RING_STATUS_HALT_CAUSE d) _ hne,
    Package.setRingState, Package.rd_put_ne _ (DIE_RING_STATUS_STATE d) _ hne]

/-! #### Data commands -/

theorem ringNop_eq (dt : Nat) (h : p.startable d tag CC_NOP = some c) : ringNop dt d tag p = (p.pass dt).begunDone d tag ST_OK 0 :=
  Package.startClass_eq ((p.pass_startable dt d tag CC_NOP).trans h) _

/-- A source that can be read, with no line's finding: the command stays as it was but for its log mark. -/
theorem sourceFinds_nil {a n : Nat} (hok : p.rangeOk a n = true) :
    p.sourceFinds d tag [] a n = p.modCmd d tag (fun c => { c with errLogged := decide ((p.readFinds [] a n MEM_BY_DM).errLogs ≠ p.errLogs) }) := by
  unfold Package.sourceFinds
  rw [if_neg (by simp [hok])]
  rfl

theorem rangeOk_of_load {a n : Nat} {bs : List Byte} (h : p.load a n = .ok bs) : p.rangeOk a n = true := by
  unfold Package.load at h
  cases hok : p.rangeOk a n with
  | true => rfl
  | false => rw [hok] at h; cases h

theorem readSource_ok {a n : Nat} {bs : List Byte} (h : p.load a n = .ok bs) : p.readSource a n = .inr bs := by
  rw [Package.readSource, h]

/-- The package once a data command has read its source. -/
theorem sourceFinds_read {a n : Nat} {bs : List Byte} (hd : d ≤ 8) (hcmd : p.ringCmd d tag = some c) (hload : p.load a n = .ok bs) :
    ∃ c', (p.sourceFinds d tag [] a n).ringCmd d tag = some c' ∧ (p.sourceFinds d tag [] a n).readSource a n = .inr bs
      ∧ (p.sourceFinds d tag [] a n).mem = p.mem := by
  rw [sourceFinds_nil (rangeOk_of_load hload)]
  refine ⟨_, Package.ringCmd_modCmd hcmd (by exact fun _ => rfl), readSource_ok ?_, ?_⟩
  · rw [Package.modCmd, Package.modRing_load _ hd, hload]
  · rw [Package.modCmd, Package.modRing_mem]

theorem ringCopy_moves {bs : List Byte} (dt : Nat) (h : p.startable d tag CC_COPY = some c)
    (hdst : p.rangeOk (fieldAt c.desc 16 8) (fieldAt c.desc 24 8) = true) (hload : p.load (fieldAt c.desc 8 8) (fieldAt c.desc 24 8) = .ok bs) :
    (ringCopy dt d tag [] p).mem = storeBytes p.mem (fieldAt c.desc 16 8) bs
      ∧ ((ringCopy dt d tag [] p).ringCmd d tag).map (fun c => c.done) = some (some (ST_OK, 0)) := by
  obtain ⟨hcmd, hd⟩ := startable_cmd h
  obtain ⟨c', hc', hsource, hmem⟩ := sourceFinds_read (p := p.pass dt) hd ((p.pass_ringCmd dt d tag).trans hcmd) ((p.pass_load dt _ _).trans hload)
  have hcopy : ringCopy dt d tag [] p = ((((p.pass dt).sourceFinds d tag [] (fieldAt c.desc 8 8) (fieldAt c.desc 24 8)).countReadBy d (fieldAt c.desc 8 8)
      (fieldAt c.desc 24 8)).storeBy d (fieldAt c.desc 16 8) bs).begunDone d tag ST_OK 0 := by
    unfold ringCopy
    rw [Package.startClass_eq ((p.pass_startable dt d tag CC_COPY).trans h)]
    dsimp only
    rw [Package.pass_rangeOk, Package.pass_rangeOk, rangeOk_of_load hload, hdst, if_neg (by decide), hsource]
  rw [hcopy]
  refine ⟨?_, Package.done_begunDone (c := c') ?_ _ _⟩
  · rw [Package.begunDone_mem, Package.storeBy_mem, Package.countReadBy_mem, hmem, Package.pass_mem]
  · rw [Package.ringCmd_storeBy, Package.ringCmd_countReadBy, hc']

theorem ringCopy_refused (dt : Nat) (found : List (Nat × LineCheck)) (h : p.startable d tag CC_COPY = some c)
    (hsrc : p.rangeOk (fieldAt c.desc 8 8) (fieldAt c.desc 24 8) = false) : ringCopy dt d tag found p = (p.pass dt).begunDone d tag ST_REFUSED_ADDR 0 := by
  unfold ringCopy
  rw [Package.startClass_eq ((p.pass_startable dt d tag CC_COPY).trans h)]
  dsimp only
  rw [Package.pass_rangeOk, hsrc]
  rfl

theorem ringFill_eq (dt : Nat) (h : p.startable d tag CC_FILL = some c) (hdst : p.rangeOk (fieldAt c.desc 16 8) (fieldAt c.desc 24 8) = true) :
    ringFill dt d tag p = ((p.pass dt).storeBy d (fieldAt c.desc 16 8) (patternBytes (fieldAt c.desc 32 8) (fieldAt c.desc 24 8))).begunDone d tag ST_OK 0 := by
  unfold ringFill
  rw [Package.startClass_eq ((p.pass_startable dt d tag CC_FILL).trans h)]
  dsimp only
  rw [Package.pass_rangeOk, hdst, if_neg (by decide)]

theorem ringCheck_shows {bs : List Byte} (dt : Nat) (h : p.startable d tag CC_CHECK = some c)
    (hload : p.load (fieldAt c.desc 8 8) (fieldAt c.desc 24 8) = .ok bs) :
    (ringCheck dt d tag [] p).mem = p.mem
      ∧ ((ringCheck dt d tag [] p).ringCmd d tag).map (fun c => c.done) = some (some (if bitAt (fieldAt c.desc 36 4) 0 && decide (crc32c bs ≠ fieldAt c.desc 32 4)
          then ST_MISMATCH else ST_OK, crc32c bs)) := by
  obtain ⟨hcmd, hd⟩ := startable_cmd h
  obtain ⟨c', hc', hsource, hmem⟩ := sourceFinds_read (p := p.pass dt) hd ((p.pass_ringCmd dt d tag).trans hcmd) ((p.pass_load dt _ _).trans hload)
  have hcheck : ringCheck dt d tag [] p = (((p.pass dt).sourceFinds d tag [] (fieldAt c.desc 8 8) (fieldAt c.desc 24 8)).countReadBy d (fieldAt c.desc 8 8)
      (fieldAt c.desc 24 8)).begunDone d tag (if bitAt (fieldAt c.desc 36 4) 0 && decide (crc32c bs ≠ fieldAt c.desc 32 4) then ST_MISMATCH else ST_OK)
        (crc32c bs) := by
    unfold ringCheck
    rw [Package.startClass_eq ((p.pass_startable dt d tag CC_CHECK).trans h)]
    dsimp only
    rw [hsource]
  rw [hcheck]
  refine ⟨?_, Package.done_begunDone (c := c') ?_ _ _⟩
  · rw [Package.begunDone_mem, Package.countReadBy_mem, hmem, Package.pass_mem]
  · rw [Package.ringCmd_countReadBy, hc']

/-! #### RUN, BIST, captures, restores and rewinds -/

/-- The job of a RUN's descriptor. -/
def runJob (clock d tag : Nat) (c : RingCmd) : RunJob :=
  { ring := d, tag := tag, die := d, first := bitsOf (fieldAt c.desc 24 8) 0 8, count := bitsOf (fieldAt c.desc 24 8) 8 8,
    layer := bitsOf (fieldAt c.desc 24 8) 16 16, list := fieldAt c.desc 8 8, len := fieldAt c.desc 16 8, startAt := clock }

/-- A RUN's descriptor names a cluster that serves something already. -/
def Package.runBusy (p : Package) (job : RunJob) : Bool := job.clusters.any (fun k => p.clusterBound k || (p.servedRun k).isSome)

/-- The first cluster of a RUN that is retired. -/
def Package.runRetired (p : Package) (job : RunJob) : Option Nat := job.clusters.find? (fun k => decide (p.get (CLU_STATUS_STATE k) = 2))

theorem Package.pass_runBusy (p : Package) (dt : Nat) (job : RunJob) : (p.pass dt).runBusy job = p.runBusy job := by
  unfold Package.runBusy Package.clusterBound Package.servedRun
  simp only [Package.pass_runs, Package.pass_stgState, Package.pass_stg_clusters]

theorem Package.pass_runRetired (p : Package) (dt : Nat) (job : RunJob) : (p.pass dt).runRetired job = p.runRetired job := by
  unfold Package.runRetired
  simp only [Package.pass_get]

theorem ringRun_busy (dt : Nat) (h : p.startable d tag CC_RUN = some c) (hbusy : p.runBusy (runJob (p.clock + dt) d tag c) = true) :
    ringRun dt d tag p = (p.pass dt).begunDone d tag ST_BAD_DESCRIPTOR 0 := by
  rw [← p.pass_clock dt, ← p.pass_runBusy dt] at hbusy
  unfold ringRun
  rw [Package.startClass_eq ((p.pass_startable dt d tag CC_RUN).trans h)]
  exact if_pos hbusy

/-- The runs and memory stay as they were. -/
structure Package.KeepsRuns (p q : Package) : Prop where
  runs : q.runs = p.runs
  mem : q.mem = p.mem

theorem Package.KeepsRuns.startCores (p : Package) (l : List (Nat × Nat)) (job : Nat × Nat) : p.KeepsRuns (p.startCores l job) := by
  unfold Package.startCores
  refine Package.each_keeps_of_mem p.KeepsRuns (fun q e _ h => ?_) ⟨rfl, rfl⟩
  exact ⟨h.runs, h.mem⟩

theorem ringRun_starts (dt : Nat) (h : p.startable d tag CC_RUN = some c) (hfree : p.runBusy (runJob (p.clock + dt) d tag c) = false)
    (hlist : p.rangeOk (fieldAt c.desc 8 8) (32 * fieldAt c.desc 16 8) = true) (hgood : p.runRetired (runJob (p.clock + dt) d tag c) = none) :
    (ringRun dt d tag p).runs = p.runs ++ [runJob (p.clock + dt) d tag c] ∧ (ringRun dt d tag p).mem = p.mem := by
  rw [← p.pass_clock dt, ← p.pass_runBusy dt] at hfree
  rw [← p.pass_clock dt, ← p.pass_runRetired dt] at hgood
  rw [← p.pass_rangeOk dt] at hlist
  obtain ⟨cores, at', hrun⟩ : ∃ cores at', ringRun dt d tag p
      = (({ (p.pass dt) with runs := (p.pass dt).runs ++ [runJob (p.pass dt).clock d tag c] } : Package).begun d tag false).startCores cores at' := by
    unfold ringRun
    rw [Package.startClass_eq ((p.pass_startable dt d tag CC_RUN).trans h)]
    unfold Package.runBusy runJob at hfree
    unfold Package.runRetired runJob at hgood
    dsimp only
    rw [if_neg (ne_true_of_eq_false hfree), if_neg (by rw [hlist]; decide), hgood]
    exact ⟨_, _, rfl⟩
  have hkeeps := Package.KeepsRuns.startCores
    (({ (p.pass dt) with runs := (p.pass dt).runs ++ [runJob (p.pass dt).clock d tag c] } : Package).begun d tag false) cores at'
  rw [hrun]
  refine ⟨?_, ?_⟩
  · rw [hkeeps.runs, Package.begun, Package.modCmd, Package.modRing_runs]
    dsimp only
    rw [Package.pass_runs, Package.pass_clock]
  · rw [hkeeps.mem, Package.begun, Package.modCmd, Package.modRing_mem]
    exact p.pass_mem dt

/-- The run that a BIST's descriptor asks for. -/
def bistRun (clock tag : Nat) (c : RingCmd) : BistRun :=
  { tag := tag, cluster := fieldAt c.desc 9 1, core := if fieldAt c.desc 8 1 = 1 then some (fieldAt c.desc 10 1) else none,
    noRepair := bitAt (fieldAt c.desc 11 1) 0, askedAt := clock }

/-- No register of the clusters or of the BIST page is the ring's status. -/
theorem ringStatus_ne_cluster {a : Nat} (h : 0x100000 ≤ a % 0x1000000) : DIE_RING_STATUS d ≠ a := by
  unfold DIE_RING_STATUS pageDIE pageD
  split
  · omega
  · omega

/-- Whether a unit is isolated does not rest on the ring's state. -/
theorem Package.modRing_unitIsolated (p : Package) (hd : d < 8) (f : RingSt → RingSt) {b : BistRun} (hb : b.cluster < 256) :
    (p.modRing d f).unitIsolated d b = p.unitIsolated d b := by
  have hpage {c o : Nat} (ho : o < 0x1000) : (p.modRing d f).rd (pageCLU c + o) = p.rd (pageCLU c + o) :=
    p.modRing_rd d f (ringStatus_ne_cluster (by unfold pageCLU pageD; omega))
  have hiso : (p.modRing d f).rd (BIST_ISOLATE ((72 * d + b.cluster) / 64)) = p.rd (BIST_ISOLATE ((72 * d + b.cluster) / 64)) :=
    p.modRing_rd d f (ringStatus_ne (Nat.le_of_lt hd) (.inr (by unfold BIST_ISOLATE; omega)))
  have hstatus {lo len : Nat} (c : Nat) : (p.modRing d f).get ⟨CLU_STATUS c, lo, len⟩ = p.get ⟨CLU_STATUS c, lo, len⟩ :=
    Package.get_of_rd (f := ⟨CLU_STATUS c, lo, len⟩) (hpage (c := c) (o := 0x108) (by decide))
  have hclu : (p.modRing d f).cluIsolated (72 * d + b.cluster) = p.cluIsolated (72 * d + b.cluster) := by
    unfold Package.cluIsolated CLU_STATUS_STATE
    rw [hiso, hstatus]
  have hpos (c k : Nat) : (p.modRing d f).posOf c k = p.posOf c k := by
    have hat : (p.modRing d f).coreAt c = p.coreAt c := by
      funext q
      unfold Package.coreAt
      rw [show (p.modRing d f).rd (CLU_CORE_MAP_0 c) = p.rd (CLU_CORE_MAP_0 c) from hpage (o := 0x110) (by decide),
        show (p.modRing d f).rd (CLU_CORE_MAP_1 c) = p.rd (CLU_CORE_MAP_1 c) from hpage (o := 0x118) (by decide)]
    unfold Package.posOf
    rw [hat]
  unfold Package.unitIsolated Package.coreIsolated CLU_STATUS_RETIRED
  rw [hclu]
  simp only [hstatus, hpos]

theorem Package.pass_unitIsolated (p : Package) (dt d : Nat) (b : BistRun) : (p.pass dt).unitIsolated d b = p.unitIsolated d b := by
  have hat (c : Nat) : (p.pass dt).coreAt c = p.coreAt c := by
    funext q
    unfold Package.coreAt
    rw [Package.pass_rd, Package.pass_rd]
  unfold Package.unitIsolated Package.coreIsolated Package.cluIsolated Package.posOf
  simp only [Package.pass_rd, Package.pass_get, hat]

theorem fieldAt_byte_lt (b : List Byte) (o : Nat) : fieldAt b o 1 < 256 := by
  calc fieldAt b o 1 < 256 ^ ((b.drop o).take 1).length := leNat_lt _
    _ ≤ 256 ^ 1 := Nat.pow_le_pow_right (by decide) (by rw [List.length_take]; exact Nat.min_le_left _ _)

/-- A run of field BIST is asked for. -/
def Package.withBist (p : Package) (d : Nat) (b : BistRun) : Package := { p with bists := mapPut p.bists d b }

theorem Package.withBist_unitIsolated (p : Package) (d : Nat) (b : BistRun) : (p.withBist d b).unitIsolated d b = p.unitIsolated d b := by
  unfold Package.unitIsolated
  split
  · rfl
  · rfl

theorem ringBist_asks (dt : Nat) (hd : d < 8) (h : p.startable d tag CC_BIST = some c) (hfree : mapFind p.bists d = none)
    (hiso : p.unitIsolated d (bistRun (p.clock + dt) tag c) = true) :
    mapFind (ringBist dt d tag p).bists d = some (bistRun (p.clock + dt) tag c) := by
  rw [← p.pass_bists dt] at hfree
  rw [← p.pass_clock dt, ← p.pass_unitIsolated dt] at hiso
  obtain ⟨u, hu⟩ : ∃ u : Package, u = (p.pass dt).withBist d (bistRun (p.pass dt).clock tag c) := ⟨_, rfl⟩
  have hisoU : u.unitIsolated d (bistRun (p.pass dt).clock tag c) = true := by
    rw [hu, Package.withBist_unitIsolated]
    exact hiso
  have hstart : ringBist dt d tag p = if (u.begun d tag false).unitIsolated d (bistRun (p.pass dt).clock tag c) then u.begun d tag false
      else (u.begun d tag false).bistFail d (bistRun (p.pass dt).clock tag c) 1 := by
    unfold ringBist
    rw [Package.startClass_eq ((p.pass_startable dt d tag CC_BIST).trans h)]
    dsimp only
    rw [hfree, if_neg (by decide), hu, Package.withBist, bistRun]
  have hbegun : (u.begun d tag false).unitIsolated d (bistRun (p.pass dt).clock tag c) = true := by
    rw [Package.begun, Package.modCmd, Package.modRing_unitIsolated _ hd _ (fieldAt_byte_lt _ _), hisoU]
  rw [hstart, if_pos hbegun, Package.begun, Package.modCmd, Package.modRing_bists, hu, Package.withBist]
  dsimp only
  rw [mapFind_mapPut_same, Package.pass_clock]

theorem ringCapture_arms (dt : Nat) (h : p.startable 8 tag CC_CAPTURE = some c) (hcap : p.snap.capture = none) (hres : p.snap.restore = none) :
    (ringCapture dt tag p).snap.capture = some { tag := some tag, buddy := p.captureToBuddy c.desc, step := fieldAt c.desc 8 8 } := by
  unfold ringCapture
  rw [Package.startClass_eq ((p.pass_startable dt 8 tag CC_CAPTURE).trans h)]
  dsimp only
  rw [Package.pass_snap, hcap, hres, if_neg (by decide), Package.begun, Package.modCmd, Package.modRing_snap, Package.captureToBuddy, Package.pass_get,
    Package.captureToBuddy]

theorem ringCapture_waits (dt : Nat) (hbusy : p.snap.capture ≠ none ∨ p.snap.restore ≠ none) : ringCapture dt tag p = p.pass dt := by
  unfold ringCapture
  refine Package.startClass_idle fun c => if_pos ?_
  rw [Package.pass_snap, Bool.or_eq_true, Option.isSome_iff_ne_none, Option.isSome_iff_ne_none]
  exact hbusy

theorem ringRestore_starts (dt : Nat) (h : (p.pass dt).startable 8 tag CC_RESTORE = some c) (hfree : p.snap.restore = none) :
    ringRestore dt tag p = ((p.pass dt).begun 8 tag false).startRestore tag c.desc := by
  unfold ringRestore
  rw [Package.startClass_eq h, Package.pass_snap, hfree, if_neg (by decide)]

theorem ringRestore_waits (dt : Nat) (hbusy : p.snap.restore ≠ none) : ringRestore dt tag p = p.pass dt := by
  unfold ringRestore
  refine Package.startClass_idle fun c => if_pos ?_
  rw [Package.pass_snap, Option.isSome_iff_ne_none]
  exact hbusy

theorem ringRewind_refused {x : Nat} (dt : Nat) (h : p.startable 8 tag CC_REWIND = some c)
    (hx : (p.pass dt).rewindCause (fieldAt c.desc 8 8) (fieldAt c.desc 16 8) = some x) : ringRewind dt tag p = (p.pass dt).begunDone 8 tag ST_FAILED x := by
  unfold ringRewind
  rw [Package.startClass_eq ((p.pass_startable dt 8 tag CC_REWIND).trans h)]
  dsimp only
  rw [hx]

theorem ringRewind_waits (dt : Nat) (h : p.startable 8 tag CC_REWIND = some c)
    (hx : (p.pass dt).rewindCause (fieldAt c.desc 8 8) (fieldAt c.desc 16 8) = none) :
    (ringRewind dt tag p).rewind = some { tag := tag, step := fieldAt c.desc 8 8, next := fieldAt c.desc 16 8 } := by
  unfold ringRewind
  rw [Package.startClass_eq ((p.pass_startable dt 8 tag CC_REWIND).trans h)]
  dsimp only
  rw [hx, Package.begun, Package.modCmd, Package.modRing_rewind]

end

/-- Settles O42, by the command. -/
theorem ringCommandClasses : Obligations.RingCommandClasses := by
  unfold Obligations.RingCommandClasses
  refine ⟨?near, ?far, ?fetch, ?refused, ?nop, ?copy, ?copyRefused, ?fill, ?check, ?run, ?bist, ?capture, ?captureWaits, ?restore, ?restoreWaits, ?rewind⟩
  case near =>
    intro s d v hd hreach hnear
    refine ⟨{ s with pkg := ringDoorbell d v s.pkg }, rfl, ?_⟩
    dsimp only
    rw [ringDoorbell_near hreach hnear, Package.ringSt_modRing, Package.modRing_ringState, Package.modRing_mem]
    exact ⟨rfl, rfl, rfl⟩
  case far =>
    intro s d v hd hreach hst hfar
    refine ⟨{ s with pkg := ringDoorbell d v s.pkg }, rfl, ?_⟩
    dsimp only
    rw [ringDoorbell_far hreach hst hfar]
    exact Package.haltRing_shows _ d (by decide) hd
  case fetch =>
    intro s dt d b hd hserves hst hqueued hdepth hroom hwait hnone hload hfresh hok hpermitted
    exact ⟨{ s with pkg := commandFetch dt d .clean s.pkg }, rfl,
      commandFetch_sound dt hd hserves hst hqueued hdepth hroom hwait hnone hload hfresh hok hpermitted⟩
  case refused =>
    intro s dt d hd hserves hqueued hdepth hroom hwait hload
    refine ⟨{ s with pkg := commandFetch dt d .clean s.pkg }, rfl, ?_⟩
    dsimp only
    rw [commandFetch_refused dt hd hserves hqueued hdepth hroom hwait hload]
    obtain ⟨hstate, hcause, -⟩ := Package.haltRing_shows (s.pkg.pass dt) d (cause := 3) (by decide) hd
    exact ⟨hstate, hcause, (Package.haltRing_head _ hd 3).trans (s.pkg.pass_rd dt _)⟩
  case nop =>
    intro s dt d tag c h
    refine ⟨{ s with pkg := ringNop dt d tag s.pkg }, rfl, ?_⟩
    dsimp only
    rw [ringNop_eq dt h, Package.begunDone_mem, Package.pass_mem]
    exact ⟨Package.ringCmd_begunDone ((s.pkg.pass_ringCmd dt d tag).trans (startable_cmd h).1) _ _, rfl⟩
  case copy => exact fun s dt d tag c bs h hdst hload => ⟨{ s with pkg := ringCopy dt d tag [] s.pkg }, rfl, ringCopy_moves dt h hdst hload⟩
  case copyRefused =>
    intro s dt d tag c found h hsrc
    refine ⟨{ s with pkg := ringCopy dt d tag found s.pkg }, rfl, ?_⟩
    dsimp only
    rw [ringCopy_refused dt found h hsrc, Package.begunDone_mem, Package.pass_mem]
    exact ⟨rfl, Package.done_begunDone ((s.pkg.pass_ringCmd dt d tag).trans (startable_cmd h).1) _ _⟩
  case fill =>
    intro s dt d tag c h hdst
    refine ⟨{ s with pkg := ringFill dt d tag s.pkg }, rfl, ?_⟩
    dsimp only
    rw [ringFill_eq dt h hdst, Package.begunDone_mem, Package.storeBy_mem, Package.pass_mem]
    exact ⟨rfl, Package.done_begunDone (c := c) (by rw [Package.ringCmd_storeBy, Package.pass_ringCmd, (startable_cmd h).1]) _ _⟩
  case check => exact fun s dt d tag c bs h hload => ⟨{ s with pkg := ringCheck dt d tag [] s.pkg }, rfl, ringCheck_shows dt h hload⟩
  case run =>
    intro s dt d tag c h
    refine ⟨runJob (s.pkg.clock + dt) d tag c, rfl, rfl, rfl, rfl, rfl, rfl, rfl, fun hfree hlist hgood => ?_, fun hbusy => ?_⟩
    · exact ⟨{ s with pkg := ringRun dt d tag s.pkg }, rfl, ringRun_starts dt h hfree hlist hgood⟩
    · refine ⟨{ s with pkg := ringRun dt d tag s.pkg }, rfl, ?_⟩
      dsimp only
      rw [ringRun_busy dt h hbusy, Package.begunDone_runs, Package.pass_runs]
      exact ⟨rfl, Package.done_begunDone ((s.pkg.pass_ringCmd dt d tag).trans (startable_cmd h).1) _ _⟩
  case bist =>
    intro s dt d tag c b h hfree hb hd hiso
    subst hb
    exact ⟨{ s with pkg := ringBist dt d tag s.pkg }, rfl, ringBist_asks dt hd h hfree hiso⟩
  case capture => exact fun s dt tag c h hcap hres => ⟨{ s with pkg := ringCapture dt tag s.pkg }, rfl, ringCapture_arms dt h hcap hres⟩
  case captureWaits => exact fun s dt tag hbusy => next_pkg_congr (ringCapture_waits dt hbusy)
  case restore => exact fun s dt tag c h hfree => next_pkg_congr (ringRestore_starts dt h hfree)
  case restoreWaits => exact fun s dt tag hbusy => next_pkg_congr (ringRestore_waits dt hbusy)
  case rewind =>
    intro s dt tag c h
    refine ⟨{ s with pkg := ringRewind dt tag s.pkg }, rfl, fun x hx => ?_, fun hx => ringRewind_waits dt h hx⟩
    dsimp only
    rw [ringRewind_refused dt h hx, Package.begunDone_rewind, Package.pass_rewind]
    exact ⟨rfl, Package.done_begunDone ((s.pkg.pass_ringCmd dt 8 tag).trans (startable_cmd h).1) _ _⟩

end Sys2Proof.Machine

/-! ### Snapshot captures (R407 to R415) -/

namespace Sys2Proof.Machine

/-! #### What sending and storing leave of the SNAP unit -/

/-- The SNAP unit, and the registers of its page but the count of bytes, stay as they were. -/
structure Package.KeepsSnap (p q : Package) : Prop where
  snap : q.snap = p.snap
  pause : q.snapPause = p.snapPause
  regs : ∀ a, 0x70100 ≤ a → a < 0x701D0 ∨ 0x701D8 ≤ a ∧ a < 0x70300 → q.rd a = p.rd a

namespace Package.KeepsSnap

variable {p q r : Package}

theorem refl (p : Package) : p.KeepsSnap p := ⟨rfl, rfl, fun _ _ _ => rfl⟩

theorem trans (h : p.KeepsSnap q) (k : q.KeepsSnap r) : p.KeepsSnap r :=
  ⟨k.snap.trans h.snap, k.pause.trans h.pause, fun a hl hr => (k.regs a hl hr).trans (h.regs a hl hr)⟩

theorem each {α : Type} {f : Package → α → Package} (hf : ∀ (q : Package) (e : α), q.KeepsSnap (f q e)) (p : Package) (l : List α) :
    p.KeepsSnap (p.each l f) :=
  Package.each_keeps p.KeepsSnap f (fun q e h => h.trans (hf q e)) p l (refl p)

theorem raise (p : Package) (g : Page) (ev a0 a1 : Nat) (hg : IRQ_STATUS g < 0x70100) : p.KeepsSnap (p.raise g ev a0 a1) := by
  refine ⟨p.raise_snap _ _ _ _, p.raise_snapPause _ _ _ _, fun a hl _ => p.raise_rd _ _ _ _ ?_ (by omega)⟩
  simp only [evtRegs, PKG_EVT_SEQ, PKG_EVT_STATUS, PKG_EVT_LOST, List.mem_cons, List.not_mem_nil, or_false]
  omega

theorem noRoute (p : Package) (dest : Nat) : p.KeepsSnap (p.noRoute dest) := by
  unfold Package.noRoute
  extract_lets l q quiet
  have hq : p.KeepsSnap q := ⟨rfl, rfl, fun a hl _ => p.rd_bump64_ne 1 (by change 0xA140 ≠ a; omega)⟩
  have hmarked (u : LinkUnit) : q.KeepsSnap { q with lnk := u } := ⟨rfl, rfl, fun _ _ _ => rfl⟩
  split
  · exact hq
  · exact hq.trans ((hmarked _).trans (raise _ _ _ _ _ (by decide)))

theorem sendMask (p : Package) (mask dest cls len : Nat) (body : MsgBody) : p.KeepsSnap (p.sendMask mask dest cls len body) := by
  unfold Package.sendMask
  split
  · exact ⟨rfl, rfl, fun _ _ _ => rfl⟩
  · exact noRoute p dest

theorem sendBytes (p : Package) (mask node cls kind : Nat) (vals : List Nat) (bs : List Byte) : p.KeepsSnap (p.sendBytes mask node cls kind vals bs) :=
  each (fun q _ => sendMask q _ _ _ _ _) p _

theorem tryStoreBy (p : Package) (die a : Nat) (bs : List Byte) : p.KeepsSnap (p.tryStoreBy die a bs) := by
  unfold Package.tryStoreBy
  split
  · obtain ⟨r, hr⟩ := p.storeBy_shape die a bs
    refine ⟨by rw [hr]; rfl, by rw [hr]; rfl, fun b hl hu => Package.storeBy_rd p die a bs (fun k => ?_) ?_⟩
    · change 0x10000000 + 0x100000 * k + 0x120 ≠ b
      omega
    · change 0xB148 ≠ b
      omega
  · exact refl p

theorem putImage (p : Package) (c : Capture) (ofs : Nat) (bs : List Byte) : p.KeepsSnap (p.putImage c ofs bs) := by
  have hcount : p.KeepsSnap (p.bump64 SNAP_BYTES bs.length) := ⟨rfl, rfl, fun a _ hr => p.rd_bump64_ne _ (by change 0x701D0 ≠ a; omega)⟩
  unfold Package.putImage
  dsimp only
  split
  · exact hcount.trans (sendBytes _ _ _ _ _ _ _)
  · exact hcount.trans (tryStoreBy _ _ _ _)

theorem countReadBy (p : Package) (die a n : Nat) : p.KeepsSnap (p.countReadBy die a n) := by
  obtain ⟨r, hr⟩ := p.regsOnly_countReadBy die a n
  refine ⟨by rw [hr], by rw [hr], fun b hl hu => Package.countReadBy_rd p die a n (fun k => ?_) ?_⟩
  · change 0x10000000 + 0x100000 * k + 0x118 ≠ b
    omega
  · change 0xB148 ≠ b
    omega

theorem get (h : p.KeepsSnap q) {f : Fld} (hl : 0x70100 ≤ f.addr) (hr : f.addr < 0x701D0 ∨ 0x701D8 ≤ f.addr ∧ f.addr < 0x70300) : q.get f = p.get f :=
  Package.get_of_rd (h.regs f.addr hl hr)

theorem has (h : p.KeepsSnap q) {f : Fld} (hl : 0x70100 ≤ f.addr) (hr : f.addr < 0x701D0 ∨ 0x701D8 ≤ f.addr ∧ f.addr < 0x70300) : q.has f = p.has f :=
  Package.has_of_rd (h.regs f.addr hl hr)

end Package.KeepsSnap

/-! #### Freeze and streaming -/

section
variable {p : Package} {c : Capture}

theorem captureFreezeEnd_shows (dt : Nat) (hcap : p.snap.capture = some c) (hfrozen : c.frozen = true) (hstream : c.streaming = false)
    (hfatal : p.fatal = false) :
    let t := captureFreezeEnd dt p
    t.snapPause = false ∧ t.get SNAP_STATUS_STATE = SNAP_STREAMING
      ∧ t.snap.capture = some { c with streaming := true, freezeUs := (p.clock + dt - c.freezeAt) / Config.usUnits } := by
  intro t
  have hguard : (!c.frozen || c.streaming || (p.pass dt).fatal) = false := by
    rw [hfrozen, hstream, Package.pass_fatal, hfatal]
    rfl
  obtain ⟨u, c', bs, hsnap, hpause, ht⟩ : ∃ (u : Package) (c' : Capture) (bs : List Byte),
      u.snap.capture = some { c with streaming := true, freezeUs := (p.clock + dt - c.freezeAt) / Config.usUnits } ∧ u.snapPause = false
        ∧ t = (u.setSnapState SNAP_STREAMING).putImage c' 0 bs := by
    simp only [t]
    unfold captureFreezeEnd
    dsimp only
    rw [Package.pass_snap, hcap]
    dsimp only
    rw [if_neg (ne_true_of_eq_false hguard), Package.pass_clock]
    split
    · exact ⟨_, _, _, rfl, rfl, rfl⟩
    · exact ⟨_, _, _, rfl, rfl, rfl⟩
  have hkeep := Package.KeepsSnap.putImage (u.setSnapState SNAP_STREAMING) c' 0 bs
  rw [ht]
  refine ⟨hkeep.pause.trans hpause, ?_, ?_⟩
  · exact (hkeep.get (f := SNAP_STATUS_STATE) (by decide) (by decide)).trans (Package.get_put_same _ _ _ (by decide))
  · rw [hkeep.snap, Package.setSnapState, Package.put_snap, hsnap]

theorem Package.pass_sectionBytes (p : Package) (dt : Nat) (x : Section) : (p.pass dt).sectionBytes x = p.sectionBytes x := by
  unfold Package.sectionBytes
  simp only [Package.pass_load]

/-- Reads that found nothing. -/
theorem Package.each_readFinds_nil (p : Package) (l : List (Nat × Nat)) (cls : Nat) : p.each l (fun p r => p.readFinds [] r.1 r.2 cls) = p :=
  Package.each_eq_self fun _ _ => rfl

theorem streaming_guard {dt : Nat} (hstream : c.streaming = true) (hfatal : p.fatal = false) : (!c.streaming || (p.pass dt).fatal) = false := by
  rw [hstream, Package.pass_fatal, hfatal]
  rfl

theorem linked_guard {dt : Nat} (hlink : c.buddy = true → p.lnk.snapLost = false) : (c.buddy && (p.pass dt).lnk.snapLost) = false := by
  rw [Package.pass_lnk]
  cases hb : c.buddy with
  | false => rfl
  | true => rw [hlink hb]; rfl

theorem sectionReadDone_unreadable {x : Section} {rest : List Section} (dt : Nat) (hcap : p.snap.capture = some c) (hstream : c.streaming = true)
    (hfatal : p.fatal = false) (hlink : c.buddy = true → p.lnk.snapLost = false) (htodo : c.todo = x :: rest) (hbytes : p.sectionBytes x = none) :
    sectionReadDone dt [] p = (p.pass dt).captureFail none true := by
  unfold sectionReadDone
  dsimp only
  rw [Package.pass_snap, hcap]
  dsimp only
  rw [if_neg (ne_true_of_eq_false (streaming_guard hstream hfatal)), if_neg (ne_true_of_eq_false (linked_guard hlink)), htodo]
  dsimp only
  rw [Package.each_readFinds_nil, Package.pass_sectionBytes, hbytes]

theorem sectionReadDone_last (dt : Nat) (hcap : p.snap.capture = some c) (hstream : c.streaming = true) (hfatal : p.fatal = false)
    (hlink : c.buddy = true → p.lnk.snapLost = false) (htodo : c.todo = []) : sectionReadDone dt [] p = (p.pass dt).finishCapture c := by
  unfold sectionReadDone
  dsimp only
  rw [Package.pass_snap, hcap]
  dsimp only
  rw [if_neg (ne_true_of_eq_false (streaming_guard hstream hfatal)), if_neg (ne_true_of_eq_false (linked_guard hlink)), htodo]

/-- A section that has been read is noted, and the next one stands at the front. -/
theorem sectionReadDone_next {x y : Section} {rest : List Section} {bs : List Byte} (dt : Nat) (hcap : p.snap.capture = some c) (hstream : c.streaming = true)
    (hfatal : p.fatal = false) (hlink : c.buddy = true → p.lnk.snapLost = false) (htodo : c.todo = x :: y :: rest) (htyp : x.typ ≠ 0x07)
    (hbytes : p.sectionBytes x = some bs) :
    (sectionReadDone dt [] p).snap.capture = some { c with todo := y :: rest, dir := c.dir ++ dirEntry x (crc32c bs) (roundUp c.offset 64) bs.length,
                                                           offset := roundUp c.offset 64 + bs.length } := by
  unfold sectionReadDone
  dsimp only
  rw [Package.pass_snap, hcap]
  dsimp only
  rw [if_neg (ne_true_of_eq_false (streaming_guard hstream hfatal)), if_neg (ne_true_of_eq_false (linked_guard hlink)), htodo]
  dsimp only
  rw [Package.each_readFinds_nil, Package.pass_sectionBytes, hbytes]
  dsimp only
  rw [if_neg htyp, if_neg (by simp), Package.put_snap, Package.modSnap]

/-! #### The buddy's side -/

theorem snapshotReceive_foreign {node ofs : Nat} {data : List Byte} (dt : Nat) (h : p.has SNAP_RECV_CFG_VALID = false ∨ p.get SNAP_RECV_CFG_SRC ≠ node) :
    snapshotReceive dt node ofs data p = p.pass dt := by
  unfold snapshotReceive
  dsimp only
  rw [Package.pass_has, Package.pass_get, if_pos (by obtain h | h := h <;> simp [h])]

@[simp] theorem Package.pass_freeSlot (p : Package) (dt : Nat) (b : Bool) : (p.pass dt).freeSlot b = p.freeSlot b := by
  unfold Package.freeSlot Package.newestSlot Package.slotState Package.slotBytes'
  simp only [Package.pass_get, Package.pass_rd]

/-- A receive slot that opens. -/
def Package.openSlot (p : Package) (n : Nat) : Package := (p.setSlotState n SLOT_WRITING).modSnap (fun s => { s with receiving := some n })

theorem Package.openSlot_rd (p : Package) (n : Nat) {a : Nat} (h : SNAP_SLOT_STATUS ≠ a) : (p.openSlot n).rd a = p.rd a :=
  p.rd_put_ne (SNAP_SLOT_STATE n) _ h

theorem Package.openSlot_slotBytes (p : Package) (n m : Nat) : (p.openSlot n).slotBytes' m = p.slotBytes' m := by
  unfold Package.slotBytes'
  rw [Package.openSlot_rd _ _ (by decide), Package.openSlot_rd _ _ (by decide)]

theorem Package.openSlot_slotBase (p : Package) (n m : Nat) : (p.openSlot n).slotBase m = p.slotBase m := by
  unfold Package.slotBase
  rw [Package.openSlot_rd _ _ (by decide), Package.openSlot_rd _ _ (by decide), Package.openSlot_slotBytes]

theorem Package.openSlot_rangeOk (p : Package) (k a n : Nat) : (p.openSlot k).rangeOk a n = p.rangeOk a n :=
  Package.rangeOk_congr (p := p) (q := p.openSlot k) rfl (p.openSlot_rd k (by decide)) a n

theorem freeSlot_lt {n : Nat} (h : p.freeSlot false = some n) : n < 2 := by
  have hmem := List.mem_of_find?_eq_some h
  obtain ⟨i, hi, rfl⟩ := List.mem_map.mp hmem
  have := List.mem_range.mp hi
  change 0 + i < 2
  omega

theorem snapshotReceive_opens {node n : Nat} {data : List Byte} (dt : Nat) (hvalid : p.has SNAP_RECV_CFG_VALID = true) (hsrc : p.get SNAP_RECV_CFG_SRC = node)
    (hstate : fieldAt data 6 1 = 0) (hfree : p.freeSlot false = some n) (hidle : p.snap.receiving = none) (hfits : data.length ≤ p.slotBytes' n)
    (hok : p.rangeOk (p.slotBase n) data.length = true) :
    snapshotReceive dt node 0 data p = ((p.pass dt).openSlot n).store (p.slotBase n) data := by
  have hbytes : (p.pass dt).slotBytes' n = p.slotBytes' n := by
    unfold Package.slotBytes'
    rw [Package.pass_rd, Package.pass_rd]
  have hbase : (p.pass dt).slotBase n = p.slotBase n := by
    unfold Package.slotBase
    rw [Package.pass_rd, Package.pass_rd, hbytes]
  unfold snapshotReceive
  dsimp only
  rw [Package.pass_has, Package.pass_get, if_neg (by simp [hvalid, hsrc]), if_pos (by simp [hstate]), Package.pass_freeSlot, hfree]
  dsimp only
  rw [Package.pass_snap, hidle]
  dsimp only
  refine (if_neg (show ¬((p.pass dt).openSlot n).slotBytes' n < 0 + data.length by rw [Package.openSlot_slotBytes, hbytes]; omega)).trans ?_
  refine (if_neg (by rw [hstate]; decide)).trans ?_
  change ((p.pass dt).openSlot n).tryStore (((p.pass dt).openSlot n).slotBase n + 0) data = _
  rw [Nat.add_zero, Package.openSlot_slotBase, hbase, Package.tryStore, Package.openSlot_rangeOk, Package.pass_rangeOk, if_pos hok]

theorem snapshotReceive_shows {node n : Nat} {data : List Byte} (dt : Nat) (hvalid : p.has SNAP_RECV_CFG_VALID = true) (hsrc : p.get SNAP_RECV_CFG_SRC = node)
    (hstate : fieldAt data 6 1 = 0) (hfree : p.freeSlot false = some n) (hidle : p.snap.receiving = none) (hfits : data.length ≤ p.slotBytes' n)
    (hok : p.rangeOk (p.slotBase n) data.length = true) :
    let t := snapshotReceive dt node 0 data p
    t.snap.receiving = some n ∧ t.slotState n = SLOT_WRITING ∧ t.mem = storeBytes p.mem (p.slotBase n) data := by
  intro t
  have hn : n < 2 := freeSlot_lt hfree
  have hfit : (SNAP_SLOT_STATE n).lo + (SNAP_SLOT_STATE n).len ≤ 64 := by
    change 4 * n + 3 ≤ 64
    omega
  simp only [t]
  rw [snapshotReceive_opens dt hvalid hsrc hstate hfree hidle hfits hok]
  refine ⟨?_, ?_, ?_⟩
  · obtain ⟨r, hr⟩ := ((p.pass dt).openSlot n).store_shape (p.slotBase n) data
    rw [hr]
    rfl
  · have hput : ((p.pass dt).openSlot n).slotState n = SLOT_WRITING := (p.pass dt).get_put_same (SNAP_SLOT_STATE n) SLOT_WRITING hfit
    have hrd : (((p.pass dt).openSlot n).store (p.slotBase n) data).rd SNAP_SLOT_STATUS = ((p.pass dt).openSlot n).rd SNAP_SLOT_STATUS :=
      Package.countBytes_rd _ _ _ fun k => by
        change 0x10000000 + 0x100000 * k + 0x120 ≠ 0x70160
        omega
    exact (Package.get_of_rd (f := SNAP_SLOT_STATE n) hrd).trans hput
  · rw [Package.store_mem]
    exact congrArg (storeBytes · _ _) (p.pass_mem dt)

/-! #### Cadence -/

theorem Package.KeepsSnap.pass (p : Package) (dt : Nat) : p.KeepsSnap (p.pass dt) := ⟨p.pass_snap dt, p.pass_snapPause dt, fun a _ _ => p.pass_rd dt a⟩

theorem Package.KeepsSnap.sendNotice (p : Package) (step : Nat) : p.KeepsSnap (p.sendNotice step) := by
  unfold Package.sendNotice
  refine each (fun q i => ?_) p _
  split
  · exact refl q
  · exact sendMask q _ _ _ _ _

theorem captureNotice_shows (dt step : Nat) (hcad : p.has SNAP_CFG_CAD_ENABLE = true) :
    let t := captureNotice dt step p
    (p.snap.capture = none → t.snap.capture = some { tag := none, buddy := decide (p.get SNAP_CFG_TARGET = 0), step := step })
      ∧ (∀ c, p.snap.capture = some c → t.snap.capture = some c ∧ t.rd SNAP_CAD_SKIPPED = (p.rd SNAP_CAD_SKIPPED + 1) % 2 ^ 64) := by
  intro t
  obtain ⟨q, hq⟩ : ∃ q, q = (p.pass dt).sendNotice step := ⟨_, rfl⟩
  have hkeep : p.KeepsSnap q := hq ▸ (Package.KeepsSnap.pass p dt).trans (.sendNotice _ step)
  have ht : t = if q.snap.capture.isSome then q.bump64 SNAP_CAD_SKIPPED 1
      else q.modSnap (fun s => { s with capture := some { tag := none, buddy := decide (q.get SNAP_CFG_TARGET = 0), step := step } }) := by
    simp only [t, captureNotice]
    rw [← hq, Package.noticeCapture, if_neg (by rw [hkeep.has (f := SNAP_CFG_CAD_ENABLE) (by decide) (by decide), hcad]; decide)]
  rw [ht, hkeep.snap, hkeep.get (f := SNAP_CFG_TARGET) (by decide) (by decide)]
  refine ⟨fun hnone => ?_, fun c hsome => ?_⟩
  · rw [hnone, if_neg (by decide), Package.modSnap]
  · rw [hsome, Option.isSome_some, if_pos rfl, Package.bump64_snap, hkeep.snap, hsome, Package.rd_bump64, hkeep.regs _ (by decide) (by decide)]
    exact ⟨rfl, rfl⟩

end

/-- Settles O47, by the command. -/
theorem capturesStream : Obligations.CapturesStream := by
  unfold Obligations.CapturesStream
  refine ⟨?freeze, ?next, ?unreadable, ?last, ?opens, ?foreign, ?notice, ?epoch, ?note⟩
  case freeze =>
    exact fun s dt c hcap hfrozen hstream hfatal => ⟨{ s with pkg := captureFreezeEnd dt s.pkg }, rfl, captureFreezeEnd_shows dt hcap hfrozen hstream hfatal⟩
  case next =>
    intro s dt c x y rest bs hcap hstream hfatal hlink htodo htyp hbytes
    exact ⟨{ s with pkg := sectionReadDone dt [] s.pkg }, rfl, sectionReadDone_next dt hcap hstream hfatal hlink htodo htyp hbytes⟩
  case unreadable =>
    intro s dt c x rest hcap hstream hfatal hlink htodo hbytes
    exact next_pkg_congr (sectionReadDone_unreadable dt hcap hstream hfatal hlink htodo hbytes)
  case last => exact fun s dt c hcap hstream hfatal hlink htodo => next_pkg_congr (sectionReadDone_last dt hcap hstream hfatal hlink htodo)
  case opens =>
    intro s dt node n data hvalid hsrc hstate hfree hidle hfits hok
    exact ⟨{ s with pkg := snapshotReceive dt node 0 data s.pkg }, rfl, snapshotReceive_shows dt hvalid hsrc hstate hfree hidle hfits hok⟩
  case foreign => exact fun s dt node ofs data h => next_pkg_congr (snapshotReceive_foreign dt h)
  case notice => exact fun s dt step hcad => ⟨{ s with pkg := captureNotice dt step s.pkg }, rfl, captureNotice_shows dt step hcad⟩
  case epoch => exact fun s => ⟨{ s with pkg := cadEpoch s.pkg }, rfl, Package.rd_wr_same _ _ _, rfl⟩
  case note =>
    intro s v
    refine ⟨{ s with pkg := failNote v s.pkg }, rfl, (Package.rd_wr_same _ _ _).trans (Nat.mod_eq_of_lt ?_)⟩
    omega

end Sys2Proof.Machine

/-! ### Snapshot restores (R416 to R420) -/

namespace Sys2Proof.Machine

section
variable {p : Package} {r : Restore}

/-! #### How a restore ends -/

/-- The restore leaves the SNAP unit, and only its page shows it. -/
theorem Package.dropRestore_shows (p : Package) : p.dropRestore.snap.restore = none ∧ p.dropRestore.mem = p.mem ∧ p.dropRestore.stages = p.stages
    ∧ ∀ a, SNAP_SLOT_STATUS ≠ a → SNAP_STATUS ≠ a → p.dropRestore.rd a = p.rd a := by
  unfold Package.dropRestore
  cases hres : p.snap.restore with
  | none => exact ⟨hres, rfl, rfl, fun _ _ _ => rfl⟩
  | some r =>
    have hend : (p.endReading r).mem = p.mem ∧ (p.endReading r).stages = p.stages
        ∧ ∀ a, SNAP_SLOT_STATUS ≠ a → (p.endReading r).rd a = p.rd a := by
      unfold Package.endReading
      split
      · split
        · exact ⟨rfl, rfl, fun a ha => p.rd_put_ne (SNAP_SLOT_STATE _) _ ha⟩
        · exact ⟨rfl, rfl, fun _ _ => rfl⟩
      · exact ⟨rfl, rfl, fun _ _ => rfl⟩
    obtain ⟨hmem, hstages, hrd⟩ := hend
    have hmod (q : Package) (f : SnapUnit → SnapUnit) (a : Nat) : (q.modSnap f).rd a = q.rd a := rfl
    refine ⟨rfl, hmem, hstages, fun a hslot hstatus => ?_⟩
    dsimp only
    rw [Package.setSnapState, Package.rd_put_ne _ SNAP_STATUS_STATE _ hstatus, hmod, hrd a hslot]

theorem Package.cmdDone_shape (p : Package) (d tag st res : Nat) : ∃ f : RingSt → RingSt, p.cmdDone d tag st res = p.modRing d f := by
  unfold Package.cmdDone Package.modCmd
  exact ⟨_, rfl⟩

theorem Package.cmdDone_rd (p : Package) (tag st res : Nat) {d a : Nat} (h : DIE_RING_STATUS d ≠ a) : (p.cmdDone d tag st res).rd a = p.rd a := by
  obtain ⟨f, hf⟩ := p.cmdDone_shape d tag st res
  rw [hf, Package.modRing_rd _ _ _ h]

theorem Package.cmdDone_keeps (p : Package) (d tag st res : Nat) : (p.cmdDone d tag st res).snap = p.snap ∧ (p.cmdDone d tag st res).mem = p.mem
    ∧ (p.cmdDone d tag st res).stages = p.stages := by
  obtain ⟨f, hf⟩ := p.cmdDone_shape d tag st res
  obtain ⟨m, g, hg⟩ := p.modRing_shape d f
  rw [hf, hg]
  exact ⟨rfl, rfl, rfl⟩

theorem snapLast_cause (step cause kind : Nat) (cad : Bool) : bitsOf (snapLast step cause kind cad) 48 8 = cause % 2 ^ 8 := by
  unfold bitsOf snapLast
  omega

theorem restoreFail_shows (p : Package) (tag step cause result : Nat) :
    let t := p.restoreFail tag step cause result
    t.snap.restore = none ∧ t.mem = p.mem ∧ t.stages = p.stages ∧ t.get SNAP_LAST_CAUSE = cause % 2 ^ 8
      ∧ bitAt (t.rd (IRQ_STATUS .snap)) EV_SNAP_RESTORE_FAILED = true := by
  intro t
  obtain ⟨hnone, hmem, hstages, -⟩ := p.dropRestore_shows
  obtain ⟨u, a, b, hu, ht⟩ : ∃ (u : Package) (a b : Nat), u = p.dropRestore.wr SNAP_LAST (snapLast step cause 1 false)
      ∧ t = (u.raise .snap EV_SNAP_RESTORE_FAILED a b).cmdDone 8 tag ST_FAILED result := ⟨_, _, _, rfl, rfl⟩
  obtain ⟨hksnap, hkmem, hkstages⟩ := (u.raise .snap EV_SNAP_RESTORE_FAILED a b).cmdDone_keeps 8 tag ST_FAILED result
  rw [ht]
  refine ⟨?_, ?_, ?_, ?_, ?_⟩
  · rw [hksnap, Package.raise_snap, hu, Package.wr_snap, hnone]
  · rw [hkmem, Package.raise_mem, hu, Package.wr_mem, hmem]
  · rw [hkstages, Package.raise_stages, hu, Package.wr_stages, hstages]
  · refine get_of_rd_mod (f := SNAP_LAST_CAUSE) (v := snapLast step cause 1 false) ?_ (by decide) |>.trans (snapLast_cause step cause 1 false)
    rw [Package.cmdDone_rd _ _ _ _ (by decide), Package.raise_rd _ _ _ _ _ (by decide) (by decide), hu]
    exact Package.rd_wr_same _ _ _
  · rw [Package.cmdDone_rd _ _ _ _ (by decide)]
    exact Package.raise_status _ _ _ _ _ (by decide)

/-! #### The verify pass -/

theorem Package.pass_readImage (p : Package) (dt a : Nat) : (p.pass dt).readImage a = p.readImage a := by
  unfold Package.readImage
  simp only [Package.pass_load]

theorem Package.pass_readPos (p : Package) (dt a : Nat) : (p.pass dt).readPos a = p.readPos a := by
  unfold Package.readPos
  simp only [Package.pass_load]

theorem restoreVerifyDone_passes {img : List Byte} {pos : Option (Nat × Nat)} {res : Nat × Nat} (dt : Nat) (hres : p.snap.restore = some r)
    (hopen : r.result = none) (hown : r.buddy = false) (hfatal : p.fatal = false) (himg : p.readImage r.addr = .inr img)
    (hpos : p.readPos r.posAddr = .inr pos) (hjudge : (p.pass dt).judgeImage r img pos = .inr res) :
    restoreVerifyDone dt [] none p = (((p.pass dt).modSnap (fun s => { s with restore := some { r with result := some res, image := img } })).setSnapState
      SNAP_WRITING).put SNAP_STATUS_STEP (fieldAt img 64 8) := by
  unfold restoreVerifyDone
  dsimp only
  rw [Package.pass_snap, hres]
  dsimp only
  rw [hopen, Package.pass_fatal, hfatal, hown, if_neg (by decide), if_neg (by decide), if_neg Bool.false_ne_true, if_neg Bool.false_ne_true,
    Package.each_nil, Package.pass_readImage, himg, Package.pass_readPos, hpos]
  dsimp only
  rw [hjudge]

theorem restoreVerifyDone_fails {img : List Byte} {pos : Option (Nat × Nat)} {cause result : Nat} (dt : Nat) (hres : p.snap.restore = some r)
    (hopen : r.result = none) (hown : r.buddy = false) (hfatal : p.fatal = false) (himg : p.readImage r.addr = .inr img)
    (hpos : p.readPos r.posAddr = .inr pos) (hjudge : (p.pass dt).judgeImage r img pos = .inl (cause, result)) (hskew : cause ≠ SC_SKEW) :
    ∃ step, restoreVerifyDone dt [] none p = (p.pass dt).restoreFail r.tag step cause result := by
  unfold restoreVerifyDone
  dsimp only
  rw [Package.pass_snap, hres]
  dsimp only
  rw [hopen, Package.pass_fatal, hfatal, hown, if_neg (by decide), if_neg (by decide), if_neg Bool.false_ne_true, if_neg Bool.false_ne_true,
    Package.each_nil, Package.pass_readImage, himg, Package.pass_readPos, hpos]
  dsimp only
  rw [hjudge]
  dsimp only
  rw [if_neg hskew]
  exact ⟨_, rfl⟩

/-! #### The write pass -/

/-- The end of a write pass: the positions, the restore's mark and event, and the command's outcome. -/
def Package.endWrite (p : Package) (data ofs k last arg : Nat) (tag : Nat) : Package :=
  (((((((((p.wr (ERR_POS_DATA 8) data).wr (ERR_POS_START 8) data).wr (ERR_POS_STEP 8) (k % 2 ^ 48)).wr (ERR_POS_STREAM 8) ofs).dropRestore).wr SNAP_LAST
    last).bump64 SNAP_RESTORES 1).raise .snap EV_SNAP_RESTORE_DONE last arg).cmdDone 8 tag ST_OK (k % 2 ^ 32))

theorem restoreWriteDone_eq {data ofs : Nat} (dt : Nat) (hres : p.snap.restore = some r) (hready : r.result = some (data, ofs)) (hfatal : p.fatal = false) :
    ∃ u k last arg, restoreWriteDone dt p = Package.endWrite u data ofs k last arg r.tag := by
  unfold restoreWriteDone Package.endWrite
  dsimp only
  rw [Package.pass_snap, hres]
  dsimp only
  rw [hready]
  dsimp only
  rw [Package.pass_fatal, hfatal, if_neg Bool.false_ne_true]
  exact ⟨_, _, _, _, rfl⟩

theorem Package.endWrite_shows (p : Package) (data ofs k last arg tag : Nat) :
    let t := p.endWrite data ofs k last arg tag
    t.snap.restore = none ∧ t.rd (ERR_POS_DATA 8) = data % 2 ^ 64 ∧ t.rd (ERR_POS_STREAM 8) = ofs % 2 ^ 64
      ∧ bitAt (t.rd (IRQ_STATUS .snap)) EV_SNAP_RESTORE_DONE = true := by
  intro t
  obtain ⟨u, hu⟩ : ∃ u, u = (((p.wr (ERR_POS_DATA 8) data).wr (ERR_POS_START 8) data).wr (ERR_POS_STEP 8) (k % 2 ^ 48)).wr (ERR_POS_STREAM 8) ofs := ⟨_, rfl⟩
  have ht : t = (((u.dropRestore.wr SNAP_LAST last).bump64 SNAP_RESTORES 1).raise .snap EV_SNAP_RESTORE_DONE last arg).cmdDone 8 tag ST_OK (k % 2 ^ 32) := by
    rw [hu]
    rfl
  obtain ⟨hnone, -, -, hrd⟩ := u.dropRestore_shows
  have hpos {a : Nat} (hslot : SNAP_SLOT_STATUS ≠ a) (hstatus : SNAP_STATUS ≠ a) (hlast : SNAP_LAST ≠ a) (hcount : SNAP_RESTORES ≠ a)
      (hring : DIE_RING_STATUS 8 ≠ a) (hevt : a ∉ evtRegs) (hirq : a ≠ IRQ_STATUS .snap) : t.rd a = u.rd a := by
    rw [ht, Package.cmdDone_rd _ _ _ _ hring, Package.raise_rd _ _ _ _ _ hevt hirq, Package.rd_bump64_ne _ _ hcount, Package.rd_wr_ne _ _ hlast,
      hrd a hslot hstatus]
  refine ⟨?_, ?_, ?_, ?_⟩
  · rw [ht, (Package.cmdDone_keeps _ 8 tag ST_OK (k % 2 ^ 32)).1, Package.raise_snap, Package.bump64_snap, Package.wr_snap, hnone]
  · rw [hpos (by decide) (by decide) (by decide) (by decide) (by decide) (by decide) (by decide), hu, Package.rd_wr_ne _ _ (by decide),
      Package.rd_wr_ne _ _ (by decide), Package.rd_wr_ne _ _ (by decide), Package.rd_wr_same]
  · rw [hpos (by decide) (by decide) (by decide) (by decide) (by decide) (by decide) (by decide), hu, Package.rd_wr_same]
  · rw [ht, Package.cmdDone_rd _ _ _ _ (by decide)]
    exact Package.raise_status _ _ _ _ _ (by decide)

theorem judgeImage_noImage {img : List Byte} (p : Package) (r : Restore) (pos : Option (Nat × Nat)) (h : headerOk img = false) :
    p.judgeImage r img pos = .inl (SC_NO_IMAGE, SC_NO_IMAGE) := by
  unfold Package.judgeImage
  rw [if_pos (by rw [h]; rfl)]

end

/-- Settles O48, by the pass. -/
theorem restoresVerifyThenWrite : Obligations.RestoresVerifyThenWrite := by
  unfold Obligations.RestoresVerifyThenWrite
  refine ⟨?passes, ?fails, ?write, fun p r img pos h => judgeImage_noImage p r pos h⟩
  case passes =>
    intro s dt r img pos res hres hopen hown hfatal himg hpos hjudge
    refine ⟨{ s with pkg := restoreVerifyDone dt [] none s.pkg }, rfl, ?_⟩
    dsimp only
    rw [restoreVerifyDone_passes dt hres hopen hown hfatal himg hpos hjudge]
    refine ⟨rfl, ?_, ?_⟩
    · exact (Package.get_put_disjoint _ _ _ _ (by decide) (by decide)).trans (Package.get_put_same _ _ _ (by decide))
    · rw [Package.put_mem, Package.setSnapState, Package.put_mem]
      exact s.pkg.pass_mem dt
  case fails =>
    intro s dt cause result r img pos hres hopen hown hfatal himg hpos hjudge hskew
    obtain ⟨step, h⟩ := restoreVerifyDone_fails dt hres hopen hown hfatal himg hpos hjudge hskew
    have hshows := restoreFail_shows (s.pkg.pass dt) r.tag step cause result
    rw [← h, Package.pass_mem] at hshows
    exact ⟨{ s with pkg := restoreVerifyDone dt [] none s.pkg }, rfl, hshows⟩
  case write =>
    intro s dt data ofs r hres hready hfatal
    obtain ⟨u, k, last, arg, h⟩ := restoreWriteDone_eq dt hres hready hfatal
    refine ⟨{ s with pkg := restoreWriteDone dt s.pkg }, rfl, ?_⟩
    dsimp only
    rw [h]
    exact u.endWrite_shows data ofs k last arg r.tag

end Sys2Proof.Machine

/-! ### Field self-test and the ledger (R431 to R439) -/

namespace Sys2Proof.Machine

section
variable {p : Package} {d : Nat} {b : BistRun}

/-! #### How a run ends -/

/-- What a run's end leaves: the die is free, the event is raised, and of the registers only those of the BIST page that name it are written. -/
theorem bistStop_shows (p : Package) (d : Nat) (b : BistRun) (outcome cause fails : Nat) :
    let t := p.bistStop d b outcome cause fails
    t.bists = mapDel p.bists d ∧ t.pwr = p.pwr
      ∧ bitAt (t.rd (IRQ_STATUS .bist)) (if outcome < 3 then EV_BIST_RUN_DONE else EV_BIST_RUN_FAILED) = true
      ∧ ∀ a, BIST_PAUSE_NS ≠ a → BIST_STATUS ≠ a → BIST_LAST ≠ a → a ∉ evtRegs → a ≠ IRQ_STATUS .bist → t.rd a = p.rd a := by
  intro t
  obtain ⟨u, v, last, ev, arg, hev, hu, hv, ht⟩ : ∃ (u v : Package) (last ev arg : Nat), ev = (if outcome < 3 then EV_BIST_RUN_DONE else EV_BIST_RUN_FAILED)
      ∧ (u.bists = p.bists ∧ u.pwr = p.pwr ∧ ∀ a, BIST_PAUSE_NS ≠ a → u.rd a = p.rd a)
      ∧ v = (({ u with bists := mapDel u.bists d }.setBit BIST_STATUS d false).setBit BIST_STATUS (8 + d) false).wr BIST_LAST last
      ∧ t = v.raise .bist ev last arg := by
    simp only [t]
    unfold Package.bistStop
    extract_lets c last u v
    have hu : u.bists = p.bists ∧ u.pwr = p.pwr ∧ ∀ a, BIST_PAUSE_NS ≠ a → u.rd a = p.rd a := by
      simp only [u]
      split
      · exact ⟨rfl, rfl, fun a ha => p.rd_bump64_ne _ ha⟩
      · exact ⟨rfl, rfl, fun _ _ => rfl⟩
    split
    · exact ⟨u, v, last, _, _, rfl, hu, rfl, rfl⟩
    · exact ⟨u, v, last, _, _, rfl, hu, rfl, rfl⟩
  obtain ⟨hbists, hpwr, hrd⟩ := hu
  rw [ht]
  refine ⟨?_, ?_, ?_, fun a hpause hstatus hlast hevt hirq => ?_⟩
  · rw [Package.raise_bists, hv, Package.wr_bists, ← hbists]
    rfl
  · rw [Package.raise_pwr, hv, Package.wr_pwr, ← hpwr]
    rfl
  · rw [← hev]
    refine Package.raise_status _ _ _ _ _ ?_
    rw [hev]
    split <;> decide
  · rw [Package.raise_rd _ _ _ _ _ hevt hirq, hv, Package.rd_wr_ne _ _ hlast]
    exact (Package.rd_put_ne _ ⟨BIST_STATUS, 8 + d, 1⟩ _ hstatus).trans ((Package.rd_put_ne _ ⟨BIST_STATUS, d, 1⟩ _ hstatus).trans (hrd a hpause))

/-- The registers that name a run's counts and its clusters are none that a ring shows. -/
theorem ringStatus_ne_own (d : Nat) {a : Nat} (h : 0x1200 ≤ a ∧ a < 0x1000000) : DIE_RING_STATUS d ≠ a := by
  unfold DIE_RING_STATUS pageDIE pageD
  split <;> omega

theorem Package.cmdDone_bists (p : Package) (d tag st res : Nat) : (p.cmdDone d tag st res).bists = p.bists := by
  obtain ⟨f, hf⟩ := p.cmdDone_shape d tag st res
  rw [hf, Package.modRing_bists]

theorem Package.cmdDone_pwr (p : Package) (d tag st res : Nat) : (p.cmdDone d tag st res).pwr = p.pwr := by
  obtain ⟨f, hf⟩ := p.cmdDone_shape d tag st res
  obtain ⟨m, g, hg⟩ := p.modRing_shape d f
  rw [hf, hg]

/-- A run that fails leaves its die, and is counted (R432). -/
theorem bistFail_shows (p : Package) (d : Nat) (b : BistRun) (cause : Nat) :
    let t := p.bistFail d b cause
    mapFind t.bists d = none ∧ t.rd BIST_FAILS = (p.rd BIST_FAILS + 1) % 2 ^ 64 ∧ bitAt (t.rd (IRQ_STATUS .bist)) EV_BIST_RUN_FAILED = true := by
  intro t
  obtain ⟨hbists, -, hevt, hrd⟩ := bistStop_shows p d b 3 cause 0
  have ht : t = ((p.bistStop d b 3 cause 0).bump64 BIST_FAILS 1).cmdDone d b.tag ST_FAILED cause := rfl
  rw [ht]
  refine ⟨?_, ?_, ?_⟩
  · rw [Package.cmdDone_bists, Package.bump64_bists, hbists, mapFind_mapDel_same]
  · rw [Package.cmdDone_rd _ _ _ _ (ringStatus_ne_own d (by decide)), Package.rd_bump64,
      hrd _ (by decide) (by decide) (by decide) (by decide) (by decide)]
  · rw [Package.cmdDone_rd _ _ _ _ (ringStatus_ne_own d (by decide)), Package.rd_bump64_ne _ _ (by decide)]
    exact hevt

/-! #### A run's start and its wait -/

@[simp] theorem Package.pass_clockFit (p : Package) (dt d : Nat) : (p.pass dt).clockFit d = p.clockFit d := by
  unfold Package.clockFit Package.dieMHz
  rw [Package.pass_aclk]

@[simp] theorem Package.pass_coolEnough (p : Package) (dt d : Nat) : (p.pass dt).coolEnough d = p.coolEnough d := by
  unfold Package.coolEnough
  rw [Package.pass_pwr, Package.pass_get]

/-- The package once a run has started, but for a core that its unit resets. -/
def Package.bistStarted (p : Package) (d : Nat) (b : BistRun) (clock : Nat) : Package :=
  (((p.withBist d { b with startAt := some clock }).setBit BIST_STATUS d true).bump64 BIST_RUNS 1).modCmd d b.tag (fun c => { c with past := true })

theorem bistRunStart_eq (dt : Nat) (hbist : mapFind p.bists d = some b) (hwait : b.startAt = none) (hiso : p.unitIsolated d b = true)
    (hclock : p.clockFit d = true) (hcool : p.coolEnough d = true) :
    bistRunStart dt d true p = (p.pass dt).bistStarted d b (p.pass dt).clock
      ∨ ∃ k, bistRunStart dt d true p = ((p.pass dt).bistStarted d b (p.pass dt).clock).setCore (72 * d + b.cluster) k {} := by
  unfold bistRunStart Package.bistStarted Package.withBist
  dsimp only
  rw [Package.pass_bists, hbist]
  dsimp only
  rw [hwait, if_neg (by decide), Package.pass_unitIsolated, hiso, if_neg (by decide), Package.pass_clockFit, hclock, Package.pass_coolEnough, hcool,
    if_neg (by decide)]
  cases b.core with
  | none => exact .inl rfl
  | some k => exact .inr ⟨k, rfl⟩

theorem bistStarted_shows (p : Package) (hd : d < 8) (b : BistRun) (clock : Nat) :
    mapFind (p.bistStarted d b clock).bists d = some { b with startAt := some clock }
      ∧ (p.bistStarted d b clock).rd BIST_RUNS = (p.rd BIST_RUNS + 1) % 2 ^ 64 ∧ bitAt ((p.bistStarted d b clock).get BIST_STATUS_RUNNING) d = true := by
  have hwith (x : BistRun) (a : Nat) : (p.withBist d x).rd a = p.rd a := rfl
  have hset (q : Package) {a : Nat} (h : BIST_STATUS ≠ a) : (q.setBit BIST_STATUS d true).rd a = q.rd a := q.rd_put_ne ⟨BIST_STATUS, d, 1⟩ _ h
  unfold Package.bistStarted Package.modCmd
  refine ⟨?_, ?_, ?_⟩
  · rw [Package.modRing_bists, Package.bump64_bists, Package.setBit, Package.put_bists, Package.withBist, mapFind_mapPut_same]
  · rw [Package.modRing_rd _ _ _ (ringStatus_ne_own d (by decide)), Package.rd_bump64, hset _ (by decide), hwith]
  · rw [Package.get_of_rd (f := BIST_STATUS_RUNNING) ((Package.modRing_rd _ _ _ (ringStatus_ne_own d (by decide))).trans (Package.rd_bump64_ne _ _ (by decide)))]
    have hbit := (p.withBist d { b with startAt := some clock }).bit_setBit (a := BIST_STATUS) (lo := 0) (len := 8) (i := d) true hd (by decide)
    rwa [Nat.zero_add] at hbit

theorem bistRunStart_notIsolated (dt : Nat) (railOk : Bool) (hbist : mapFind p.bists d = some b) (hwait : b.startAt = none)
    (hiso : p.unitIsolated d b = false) : bistRunStart dt d railOk p = (p.pass dt).bistFail d b 1 := by
  unfold bistRunStart
  dsimp only
  rw [Package.pass_bists, hbist]
  dsimp only
  rw [hwait, if_neg (by decide), Package.pass_unitIsolated, hiso, if_pos (by decide)]

theorem bistWaitTimeout_eq (dt : Nat) (hbist : mapFind p.bists d = some b) (hwait : b.startAt = none)
    (hlate : b.askedAt + p.get BIST_CFG_WAIT_MS * Config.msUnits ≤ p.clock + dt) : ∃ cause, bistWaitTimeout dt d p = (p.pass dt).bistFail d b cause := by
  unfold bistWaitTimeout
  dsimp only
  rw [Package.pass_bists, hbist]
  dsimp only
  rw [hwait]
  dsimp only
  rw [Package.pass_get, Package.pass_clock, if_pos hlate]
  exact ⟨_, rfl⟩

/-! #### A run's end -/

/-- The completion of a run touches neither the dies' runs nor the ledger, and of the registers its ring's alone. -/
theorem bistComplete_shows (p : Package) (d tag result : Nat) (recorded : Bool) :
    let t := p.bistComplete d tag result recorded
    t.bists = p.bists ∧ t.pwr.ledger = p.pwr.ledger ∧ ∀ a, DIE_RING_STATUS d ≠ a → t.rd a = p.rd a := by
  intro t
  simp only [t]
  unfold Package.bistComplete
  split
  · unfold Package.startLedgerWrite
    split
    · exact ⟨rfl, rfl, fun _ _ => rfl⟩
    · exact ⟨rfl, rfl, fun _ _ => rfl⟩
  · exact ⟨p.cmdDone_bists _ _ _ _, congrArg PwrUnit.ledger (p.cmdDone_pwr _ _ _ _), fun a ha => p.cmdDone_rd _ _ _ ha⟩

/-- The end of a run from what its unit's test left. -/
def Package.bistEnds (p : Package) (d : Nat) (b : BistRun) (bad : Bool) (outcome fails result : Nat) : Package :=
  ((((p.when bad (fun p => p.bump64 BIST_FAILS 1)).when (!bad) (fun p => p.bump64 BIST_PASSES 1)).bistStop d b outcome 0 fails)).bistComplete d b.tag result
    (((p.when bad (fun p => p.bump64 BIST_FAILS 1)).when (!bad) (fun p => p.bump64 BIST_PASSES 1)).bistStop d b outcome 0 fails).pwr.dirty

theorem bistEnds_shows (p : Package) (d : Nat) (b : BistRun) (bad : Bool) (outcome fails result : Nat) :
    let t := p.bistEnds d b bad outcome fails result
    mapFind t.bists d = none ∧ t.pwr.ledger = p.pwr.ledger
      ∧ bitAt (t.rd (IRQ_STATUS .bist)) (if outcome < 3 then EV_BIST_RUN_DONE else EV_BIST_RUN_FAILED) = true
      ∧ t.rd (if bad then BIST_FAILS else BIST_PASSES) = (p.rd (if bad then BIST_FAILS else BIST_PASSES) + 1) % 2 ^ 64
      ∧ ∀ a, 0x1200 ≤ a ∧ a < 0xE000 ∨ 0x1000000 ≤ a ∧ DIE_RING_STATUS d ≠ a → t.rd a = p.rd a := by
  intro t
  obtain ⟨u, hu, hcount, hupwr, hurd⟩ : ∃ u, u = (p.when bad (fun p => p.bump64 BIST_FAILS 1)).when (!bad) (fun p => p.bump64 BIST_PASSES 1)
      ∧ u.rd (if bad then BIST_FAILS else BIST_PASSES) = (p.rd (if bad then BIST_FAILS else BIST_PASSES) + 1) % 2 ^ 64 ∧ u.pwr = p.pwr
      ∧ ∀ a, BIST_FAILS ≠ a → BIST_PASSES ≠ a → u.rd a = p.rd a := by
    refine ⟨_, rfl, ?_⟩
    cases bad with
    | true => exact ⟨p.rd_bump64 _ _, rfl, fun a hf _ => p.rd_bump64_ne _ hf⟩
    | false => exact ⟨p.rd_bump64 _ _, rfl, fun a _ hp => p.rd_bump64_ne _ hp⟩
  obtain ⟨hbists, hpwr, hevt, hrd⟩ := bistStop_shows u d b outcome 0 fails
  have ht : t = (u.bistStop d b outcome 0 fails).bistComplete d b.tag result (u.bistStop d b outcome 0 fails).pwr.dirty := by
    rw [hu]
    rfl
  obtain ⟨hcbists, hcledger, hcrd⟩ := bistComplete_shows (u.bistStop d b outcome 0 fails) d b.tag result (u.bistStop d b outcome 0 fails).pwr.dirty
  rw [← ht] at hcbists hcledger hcrd
  have hown {a : Nat} (h : 0x1200 ≤ a ∧ a < 0x1000000) : t.rd a = (u.bistStop d b outcome 0 fails).rd a := hcrd a (ringStatus_ne_own d h)
  refine ⟨?_, ?_, ?_, ?_, fun a ha => ?_⟩
  · rw [hcbists, hbists, mapFind_mapDel_same]
  · rw [hcledger, hpwr, hupwr]
  · rw [hown (by decide)]
    exact hevt
  · cases bad with
    | true =>
      rw [if_pos rfl] at hcount ⊢
      rw [hown (by decide), hrd _ (by decide) (by decide) (by decide) (by decide) (by decide), hcount]
    | false =>
      rw [if_neg Bool.false_ne_true] at hcount ⊢
      rw [hown (by decide), hrd _ (by decide) (by decide) (by decide) (by decide) (by decide), hcount]
  · have hstatus : DIE_RING_STATUS d ≠ a := by
      obtain h | ⟨-, h⟩ := ha
      · exact ringStatus_ne_own d (by omega)
      · exact h
    have hne {o : Nat} (ho : 0xE000 ≤ o ∧ o < 0xE200) : o ≠ a := by omega
    have hevt' : a ∉ evtRegs := by
      simp only [evtRegs, PKG_EVT_SEQ, PKG_EVT_STATUS, PKG_EVT_LOST, List.mem_cons, List.not_mem_nil, or_false]
      omega
    rw [hcrd a hstatus, hrd a (hne (by decide)) (hne (by decide)) (hne (by decide)) hevt' (Ne.symm (hne (by decide))), hurd a (hne (by decide)) (hne (by decide))]

/-- The cores that a core's run found failing. -/
def coreFails (fails k : Nat) : Nat := if bitAt fails k then 2 ^ k else 0

theorem runOutcome_lt (lost bad : Bool) : (if lost then 2 else if bad then 1 else 0) < 3 := by
  cases lost with
  | true => exact (by decide : 2 < 3)
  | false => cases bad <;> decide

/-- The package once a run has left its die's place. -/
def Package.dropBist (p : Package) (d : Nat) : Package := { p with bists := mapDel p.bists d }

theorem Package.dropBist_rd (p : Package) (d a : Nat) : (p.dropBist d).rd a = p.rd a := rfl

theorem Package.dropBist_pwr (p : Package) (d : Nat) : (p.dropBist d).pwr = p.pwr := rfl

/-- A run on one core whose cluster's SRAM is sound: the core's result, then the run's end. -/
theorem bistRunDone_core {fails start k : Nat} (dt : Nat) (q : Part) (hbist : mapFind p.bists d = some b) (hstart : b.startAt = some start)
    (hpause : b.pausedAt = none) (hclock : p.clockFit d = true) (hcore : b.core = some k) :
    ∃ outcome result, outcome < 3 ∧ bistRunDone dt d fails true false true q p
      = (((p.pass dt).dropBist d).bistCore (72 * d + b.cluster) k (decide (coreFails fails k ≠ 0)) b.noRepair).bistEnds
          d b (decide (coreFails fails k ≠ 0)) outcome (coreFails fails k) result := by
  unfold bistRunDone Package.bistEnds coreFails Package.dropBist
  dsimp only
  rw [Package.pass_bists, hbist]
  dsimp only
  rw [hstart, hpause, if_neg (by simp), Package.pass_clockFit, hclock, if_neg (by decide), hcore]
  dsimp only
  simp only [Bool.not_true, Bool.or_false, Bool.false_and, Bool.false_eq_true, if_false]
  exact ⟨_, _, runOutcome_lt _ _, rfl⟩

theorem bistCore_report (p : Package) (c k : Nat) (failed : Bool) : p.bistCore c k failed true = p := by
  unfold Package.bistCore
  exact if_pos rfl

/-- The core that gives way changes registers of its cluster alone. -/
theorem bistReplace_shows (p : Package) (c k : Nat) : (p.bistReplace c k).pwr = p.pwr ∧ ∀ a, a < 0x1000000 → (p.bistReplace c k).rd a = p.rd a := by
  have hpage {o a : Nat} (ha : a < 0x1000000) : pageCLU c + o ≠ a := by
    unfold pageCLU pageD
    omega
  have hput (q : Package) {o lo len v a : Nat} (ha : a < 0x1000000) : (q.put ⟨pageCLU c + o, lo, len⟩ v).rd a = q.rd a := q.rd_put_ne _ _ (hpage ha)
  unfold Package.bistReplace
  extract_lets left
  have hleft : left.pwr = p.pwr ∧ ∀ a, a < 0x1000000 → left.rd a = p.rd a := ⟨rfl, fun a ha => hput p (o := 0x108) ha⟩
  split
  · exact hleft
  · split
    · unfold Package.mapCore
      split
      · exact ⟨hleft.1, fun a ha => (hput left (o := 0x110) ha).trans (hleft.2 a ha)⟩
      · exact ⟨hleft.1, fun a ha => (hput left (o := 0x118) ha).trans (hleft.2 a ha)⟩
    · exact ⟨rfl, fun a ha => hput p (o := 0x108) ha⟩

/-- The repair that names core `k` of cluster `c`, with the spare that takes its place. -/
def Package.coreRepair (p : Package) (c k : Nat) : Repair :=
  { kind := 1, place := c / 72, where' := c % 72, location := k, spare := 2 - min 2 (p.get (CLU_STATUS_SPARES c)), origin := 1 }

/-- A core that failed its run: it is retired, and a ledger that has room and does not name it takes it (R439). -/
theorem bistCore_failed {c k : Nat} (hk : k < 18) (hroom : p.pwr.ledger.length < ledgerMax)
    (hnew : p.pwr.ledger.any (fun r => r.kind = 1 && r.place = c / 72 && r.where' = c % 72 && r.location = k) = false) :
    (p.bistCore c k true false).pwr.ledger = p.pwr.ledger
        ++ [p.coreRepair c k]
      ∧ (p.bistCore c k true false).rd BIST_FAILS = p.rd BIST_FAILS ∧ bitAt ((p.bistCore c k true false).get (CLU_STATUS_RETIRED c)) k = true := by
  have hclu {o a : Nat} (ha : a < 0x1000000) : pageCLU c + o ≠ a := by
    unfold pageCLU pageD
    omega
  obtain ⟨u, hupwr, hufails, hubit, hcore⟩ : ∃ u : Package, u.pwr = p.pwr ∧ u.rd BIST_FAILS = p.rd BIST_FAILS ∧ bitAt (u.get (CLU_STATUS_RETIRED c)) k = true
      ∧ p.bistCore c k true false = if u.pwr.ledger.any (fun r => r.kind = 1 && r.place = c / 72 && r.where' = c % 72 && r.location = k) then u
        else u.addRepairs [p.coreRepair c k] := by
    unfold Package.bistCore
    extract_lets was n u
    refine ⟨u, ?_, ?_, ?_, rfl⟩
    · simp only [u]
      split
      · rfl
      · exact (bistReplace_shows p c k).1
    · simp only [u]
      split
      · rfl
      · exact (Package.rd_put_ne _ ⟨CLU_STATUS c, 12 + k, 1⟩ _ (hclu (o := 0x108) (by decide))).trans ((bistReplace_shows p c k).2 _ (by decide))
    · simp only [u]
      split
      · next hwas => exact hwas
      · exact Package.bit_setBit _ (lo := 12) (len := 18) true hk (by decide)
  rw [hcore, hupwr, hnew, if_neg Bool.false_ne_true]
  have hadd (r : Repair) : u.addRepairs [r] = (u.bump64 BIST_REPAIRS 1).modPwr (fun w => { w with ledger := w.ledger ++ [r], dirty := true }) := by
    have hlen : ¬ledgerMax ≤ (u.bump64 BIST_REPAIRS 1).pwr.ledger.length := by
      rw [Package.bump64_pwr, hupwr]
      omega
    exact if_neg hlen
  have hmod (q : Package) (f : PwrUnit → PwrUnit) (a : Nat) : (q.modPwr f).rd a = q.rd a := rfl
  rw [hadd]
  refine ⟨?_, ?_, ?_⟩
  · change (u.bump64 BIST_REPAIRS 1).pwr.ledger ++ _ = _
    rw [Package.bump64_pwr, hupwr]
  · rw [hmod, Package.rd_bump64_ne _ _ (by decide), hufails]
  · rw [Package.get_of_rd (f := CLU_STATUS_RETIRED c) ((hmod _ _ _).trans (Package.rd_bump64_ne _ _ (Ne.symm (hclu (o := 0x108) (by decide)))))]
    exact hubit

theorem bistRunDone_passes {start k : Nat} (dt : Nat) (q : Part) (hbist : mapFind p.bists d = some b) (hstart : b.startAt = some start)
    (hpause : b.pausedAt = none) (hrepair : b.noRepair = true) (hclock : p.clockFit d = true) (hcore : b.core = some k) :
    let t := bistRunDone dt d 0 true false true q p
    mapFind t.bists d = none ∧ t.rd BIST_PASSES = (p.rd BIST_PASSES + 1) % 2 ^ 64 ∧ t.pwr.ledger = p.pwr.ledger
      ∧ bitAt (t.rd (IRQ_STATUS .bist)) EV_BIST_RUN_DONE = true := by
  intro t
  obtain ⟨outcome, result, hout, h⟩ := bistRunDone_core (fails := 0) dt q hbist hstart hpause hclock hcore
  have hnone : coreFails 0 k = 0 := if_neg (by simp [bitAt])
  have hsound : decide (0 ≠ 0) = false := by decide
  rw [hnone, hrepair, bistCore_report, hsound] at h
  obtain ⟨hbists, hledger, hevt, hcount, -⟩ := bistEnds_shows ((p.pass dt).dropBist d) d b false outcome 0 result
  rw [← h] at hbists hledger hevt hcount
  rw [if_pos hout] at hevt
  rw [if_neg Bool.false_ne_true, Package.dropBist_rd, Package.pass_rd] at hcount
  rw [Package.dropBist_pwr, Package.pass_pwr] at hledger
  exact ⟨hbists, hcount, hledger, hevt⟩

theorem bistRunDone_fails {start k : Nat} (dt : Nat) (q : Part) (hk : k < 18) (hbist : mapFind p.bists d = some b)
    (hstart : b.startAt = some start) (hpause : b.pausedAt = none) (hrepair : b.noRepair = false) (hclock : p.clockFit d = true) (hcore : b.core = some k)
    (hroom : p.pwr.ledger.length < ledgerMax)
    (hnew : p.pwr.ledger.any
      (fun r => r.kind = 1 && r.place = (72 * d + b.cluster) / 72 && r.where' = (72 * d + b.cluster) % 72 && r.location = k) = false) :
    let t := bistRunDone dt d (2 ^ k) true false true q p
    mapFind t.bists d = none ∧ t.rd BIST_FAILS = (p.rd BIST_FAILS + 1) % 2 ^ 64
      ∧ t.pwr.ledger = p.pwr.ledger ++ [p.coreRepair (72 * d + b.cluster) k]
      ∧ bitAt (t.get (CLU_STATUS_RETIRED (72 * d + b.cluster))) k = true := by
  intro t
  obtain ⟨c, hc⟩ : ∃ c, c = 72 * d + b.cluster := ⟨_, rfl⟩
  obtain ⟨outcome, result, -, h⟩ := bistRunDone_core (fails := 2 ^ k) dt q hbist hstart hpause hclock hcore
  have hself : coreFails (2 ^ k) k = 2 ^ k := if_pos (by simp [bitAt])
  have hbad : decide (2 ^ k ≠ 0) = true := decide_eq_true (Nat.pos_iff_ne_zero.mp (Nat.two_pow_pos k))
  rw [hself, hbad, hrepair, ← hc] at h
  rw [← hc] at hnew ⊢
  obtain ⟨r, hr⟩ : ∃ r, r = (p.pass dt).dropBist d := ⟨_, rfl⟩
  have hrpwr : r.pwr = p.pwr := by rw [hr, Package.dropBist_pwr, Package.pass_pwr]
  have hrrd (a : Nat) : r.rd a = p.rd a := by rw [hr, Package.dropBist_rd, Package.pass_rd]
  obtain ⟨hcledger, hcfails, hcbit⟩ := bistCore_failed (p := r) (c := c) hk (by rwa [hrpwr]) (by rwa [hrpwr])
  rw [hrpwr, Package.coreRepair, Package.get_of_rd (f := CLU_STATUS_SPARES c) (hrrd _)] at hcledger
  rw [hrrd] at hcfails
  obtain ⟨hbists, hledger, -, hcount, hrd⟩ := bistEnds_shows (r.bistCore c k true false) d b true outcome (2 ^ k) result
  rw [← hr] at h
  rw [← h] at hbists hledger hcount hrd
  rw [if_pos rfl, hcfails] at hcount
  rw [hcledger] at hledger
  refine ⟨hbists, hcount, hledger, ?_⟩
  have hclu : 0x1000000 ≤ CLU_STATUS c ∧ DIE_RING_STATUS d ≠ CLU_STATUS c :=
    ⟨by unfold CLU_STATUS pageCLU pageD; omega, ringStatus_ne_cluster (by unfold CLU_STATUS pageCLU pageD; omega)⟩
  rw [Package.get_of_rd (f := CLU_STATUS_RETIRED c) (hrd _ (.inr hclu))]
  exact hcbit

end

/-! #### The ledger (R437 to R439) -/

section
variable {p : Package} {q : Part}

/-- A copy that is sound and of this package. -/
def goodCopy (q : Part) : Option LedgerCopy → Option LedgerCopy
  | some c => if c.sound && c.serial = q.serial then some c else none
  | none => none

theorem chooseLedger_A {a : LedgerCopy} (hA : goodCopy q q.ledgerA = some a) (hB : ∀ b, goodCopy q q.ledgerB = some b → b.seq ≤ a.seq) :
    chooseLedger q = (1, some a) := by
  unfold chooseLedger
  extract_lets ok
  have hok : ok = goodCopy q := by
    funext c
    cases c <;> rfl
  rw [hok, hA]
  cases hb : goodCopy q q.ledgerB with
  | none => rfl
  | some b => exact if_neg (Nat.not_lt.mpr (hB b hb))

theorem chooseLedger_B {b : LedgerCopy} (hB : goodCopy q q.ledgerB = some b) (hA : ∀ a, goodCopy q q.ledgerA = some a → a.seq < b.seq) :
    chooseLedger q = (2, some b) := by
  unfold chooseLedger
  extract_lets ok
  have hok : ok = goodCopy q := by
    funext c
    cases c <;> rfl
  rw [hok, hB]
  cases ha : goodCopy q q.ledgerA with
  | none => rfl
  | some a => exact if_pos (hA a ha)

theorem chooseLedger_none (hA : goodCopy q q.ledgerA = none) (hB : goodCopy q q.ledgerB = none) : chooseLedger q = (0, none) := by
  unfold chooseLedger
  extract_lets ok
  have hok : ok = goodCopy q := by
    funext c
    cases c <;> rfl
  rw [hok, hA, hB]

/-- The three ways to choose the copy in force. -/
theorem chooseLedger_cases (q : Part) : (∃ a, goodCopy q q.ledgerA = some a ∧ (∀ b, goodCopy q q.ledgerB = some b → b.seq ≤ a.seq))
    ∨ (∃ b, goodCopy q q.ledgerB = some b ∧ ∀ a, goodCopy q q.ledgerA = some a → a.seq < b.seq)
    ∨ (goodCopy q q.ledgerA = none ∧ goodCopy q q.ledgerB = none) := by
  cases hA : goodCopy q q.ledgerA with
  | none =>
    cases hB : goodCopy q q.ledgerB with
    | none => exact .inr (.inr ⟨rfl, rfl⟩)
    | some b => exact .inr (.inl ⟨b, rfl, fun a h => by cases h⟩)
  | some a =>
    cases hB : goodCopy q q.ledgerB with
    | none => exact .inl ⟨a, rfl, fun b h => by cases h⟩
    | some b =>
      by_cases hlt : a.seq < b.seq
      · exact .inr (.inl ⟨b, rfl, fun x h => by cases h; exact hlt⟩)
      · exact .inl ⟨a, rfl, fun x h => by cases h; exact Nat.not_lt.mp hlt⟩

/-- A write that fails loses the copy not in force. -/
theorem chooseLedger_lost (q : Part) : (chooseLedger (q.replaceCopy none)).2 = (chooseLedger q).2 := by
  obtain ⟨a, hA, hB⟩ | ⟨b, hB, hA⟩ | ⟨hA, hB⟩ := chooseLedger_cases q
  · have hq := chooseLedger_A hA hB
    rw [Part.replaceCopy, hq, if_pos rfl, chooseLedger_A (q := { q with ledgerB := none }) hA (fun b h => by cases h)]
  · have hq := chooseLedger_B hB hA
    rw [Part.replaceCopy, hq, if_neg (by decide : ¬(2 = 1)), chooseLedger_B (q := { q with ledgerA := none }) hB (fun a h => by cases h)]
  · have hq := chooseLedger_none hA hB
    rw [Part.replaceCopy, hq, if_neg (by decide : ¬(0 = 1)), chooseLedger_none (q := { q with ledgerA := none }) rfl hB]

/-- A good copy of a later SEQ replaces the copy not in force, and is in force then. -/
theorem chooseLedger_written {c : LedgerCopy} (hgood : goodCopy q (some c) = some c) (hseq : ∀ x, (chooseLedger q).2 = some x → x.seq < c.seq) :
    (chooseLedger (q.replaceCopy (some c))).2 = some c := by
  obtain ⟨a, hA, hB⟩ | ⟨b, hB, hA⟩ | ⟨hA, hB⟩ := chooseLedger_cases q
  · have hq := chooseLedger_A hA hB
    rw [hq] at hseq
    have hlt : a.seq < c.seq := hseq a rfl
    rw [Part.replaceCopy, hq, if_pos rfl,
      chooseLedger_B (q := { q with ledgerB := some c }) hgood (fun x h => by cases (show some x = some a from h.symm.trans hA); exact hlt)]
  · have hq := chooseLedger_B hB hA
    rw [hq] at hseq
    have hlt : b.seq < c.seq := hseq b rfl
    rw [Part.replaceCopy, hq, if_neg (by decide : ¬(2 = 1)),
      chooseLedger_A (q := { q with ledgerA := some c }) hgood (fun x h => by cases (show some x = some b from h.symm.trans hB); exact Nat.le_of_lt hlt)]
  · have hq := chooseLedger_none hA hB
    rw [Part.replaceCopy, hq, if_neg (by decide : ¬(0 = 1)),
      chooseLedger_A (q := { q with ledgerA := some c }) hgood (fun x h => by cases (show some x = none from h.symm.trans hB))]

/-- Completions that waited for a write change their rings alone. -/
theorem endWaits_rd (p : Package) (failed : Bool) {a : Nat} (h : 0x1200 ≤ a ∧ a < 0x1000000) : (p.endWaits failed).rd a = p.rd a := by
  unfold Package.endWaits
  extract_lets l
  have hmod (f : PwrUnit → PwrUnit) : (p.modPwr f).rd a = p.rd a := rfl
  have hdone (q : Package) (e : Nat × Nat × Nat) : (q.cmdDone e.1 e.2.1 ST_OK (e.2.2 + 2 ^ 25 * b2n failed)).rd a = q.rd a :=
    q.cmdDone_rd _ _ _ (ringStatus_ne_own e.1 h)
  rw [Package.each_rd hdone, hmod]

theorem startLedgerWrite_rd (p : Package) (a : Nat) : p.startLedgerWrite.rd a = p.rd a := by
  unfold Package.startLedgerWrite
  split
  · rfl
  · rfl

theorem showLedger_rd (p : Package) (q : Part) {a : Nat} (hs : PWR_STATUS ≠ a) (hseq : PWR_LEDGER_SEQ ≠ a) : (p.showLedger q).rd a = p.rd a := by
  unfold Package.showLedger
  dsimp only
  split
  · rw [Package.rd_put_ne _ PWR_LEDGER_SEQ_ENTRIES _ hseq, Package.rd_put_ne _ PWR_LEDGER_SEQ_SEQ _ hseq, Package.rd_put_ne _ PWR_STATUS_LEDGER _ hs]
  · rw [Package.rd_wr_ne _ _ hseq, Package.rd_put_ne _ PWR_STATUS_LEDGER _ hs]

/-- The next copy's SEQ. -/
def nextSeq (q : Part) : Nat := match (chooseLedger q).2 with
  | some c => (c.seq + 1) % 2 ^ 32
  | none => 1

theorem ledgerWriteDone_good {entries : List Repair} (dt : Nat) (hwrite : p.pwr.writing = some entries) : ∃ (u : Package) (sig : List Byte) (r : Part),
    r = q.replaceCopy (some { sound := true, seq := nextSeq q, serial := q.serial, entries := entries, sig := sig }) ∧ u.regs = p.regs
      ∧ ledgerWriteDone dt true q p = (r, (((u.bump64 PWR_LEDGER_WRITES 1).showLedger r).endWaits false).startLedgerWrite) := by
  unfold ledgerWriteDone
  dsimp only
  rw [Package.pass_pwr, hwrite]
  exact ⟨(((p.pass dt).modPwr (fun w => { w with writing := none })).sign).2, (((p.pass dt).modPwr (fun w => { w with writing := none })).sign).1, _, rfl,
    p.pass_regs dt, rfl⟩

theorem ledgerWriteDone_failed {entries : List Repair} (dt : Nat) (hwrite : p.pwr.writing = some entries) : ∃ (u : Package) (n : Nat),
    ledgerWriteDone dt false q p = (q.replaceCopy none, ((u.raise .pwr EV_PWR_LEDGER_WRITE_FAIL n 0).endWaits true).startLedgerWrite) := by
  unfold ledgerWriteDone
  dsimp only
  rw [Package.pass_pwr, hwrite]
  exact ⟨_, _, rfl⟩

theorem ledgerWriteDone_written {entries : List Repair} (dt : Nat) (hwrite : p.pwr.writing = some entries)
    (hseq : ∀ c, (chooseLedger q).2 = some c → c.seq + 1 < 2 ^ 32) :
    (chooseLedger (ledgerWriteDone dt true q p).1).2.map (fun c => c.entries) = some entries
      ∧ (ledgerWriteDone dt true q p).2.rd PWR_LEDGER_WRITES = (p.rd PWR_LEDGER_WRITES + 1) % 2 ^ 64 := by
  obtain ⟨u, sig, r, hr, hregs, h⟩ := ledgerWriteDone_good (q := q) dt hwrite
  have hnext : ∀ x, (chooseLedger q).2 = some x → x.seq < nextSeq q := by
    intro x hx
    have := hseq x hx
    rw [nextSeq, hx]
    dsimp only
    omega
  rw [h]
  refine ⟨?_, ?_⟩
  · dsimp only
    rw [hr, chooseLedger_written (if_pos (by simp)) hnext]
    rfl
  · dsimp only
    rw [startLedgerWrite_rd, endWaits_rd _ _ (by decide), showLedger_rd _ _ (by decide) (by decide), Package.rd_bump64, Package.rd_of_regs hregs]

theorem ledgerWriteDone_lost {entries : List Repair} (dt : Nat) (hwrite : p.pwr.writing = some entries) :
    (ledgerWriteDone dt false q p).1 = q.replaceCopy none
      ∧ bitAt ((ledgerWriteDone dt false q p).2.rd (IRQ_STATUS .pwr)) EV_PWR_LEDGER_WRITE_FAIL = true := by
  obtain ⟨u, n, h⟩ := ledgerWriteDone_failed (q := q) dt hwrite
  rw [h]
  refine ⟨rfl, ?_⟩
  dsimp only
  rw [startLedgerWrite_rd, endWaits_rd _ _ (by decide)]
  exact Package.raise_status _ _ _ _ _ (by decide)

end

/-- Settles O51, by the command. -/
theorem selfTestAndLedger : Obligations.SelfTestAndLedger := by
  unfold Obligations.SelfTestAndLedger
  refine ⟨?start, ?notIsolated, ?timeout, ?passes, ?fails, ?ledger⟩
  case start =>
    intro s dt d b hd hbist hwait hiso hclock hcool
    have hshows := bistStarted_shows (s.pkg.pass dt) hd b (s.pkg.pass dt).clock
    rw [Package.pass_rd, Package.pass_clock] at hshows
    refine ⟨{ s with pkg := bistRunStart dt d true s.pkg }, rfl, ?_⟩
    dsimp only
    obtain h | ⟨k, h⟩ := bistRunStart_eq dt hbist hwait hiso hclock hcool
    · rw [h, Package.pass_clock]
      exact hshows
    · have hbists (q : Package) (c : Core) : (q.setCore (72 * d + b.cluster) k c).bists = q.bists := rfl
      have hrd (q : Package) (c : Core) (a : Nat) : (q.setCore (72 * d + b.cluster) k c).rd a = q.rd a := rfl
      rw [h, Package.pass_clock, hbists, hrd, Package.get_of_rd (f := BIST_STATUS_RUNNING) (hrd _ _ _)]
      exact hshows
  case notIsolated => exact fun s dt d b railOk hbist hwait hiso => next_pkg_congr (bistRunStart_notIsolated dt railOk hbist hwait hiso)
  case timeout =>
    intro s dt d b _ hbist hwait hlate
    obtain ⟨cause, h⟩ := bistWaitTimeout_eq dt hbist hwait hlate
    have hshows := bistFail_shows (s.pkg.pass dt) d b cause
    rw [← h, Package.pass_rd] at hshows
    exact ⟨{ s with pkg := bistWaitTimeout dt d s.pkg }, rfl, hshows⟩
  case passes =>
    intro s dt d start b _ _ hbist hstart hpause hrepair hclock _ hcore
    obtain ⟨k, hk⟩ := Option.ne_none_iff_exists'.mp hcore
    obtain ⟨hbists, hcount, hledger, hevt⟩ := bistRunDone_passes dt s.part hbist hstart hpause hrepair hclock hk
    exact ⟨{ s with pkg := bistRunDone dt d 0 true false true s.part s.pkg }, rfl, hbists, hcount, hledger, hevt⟩
  case fails =>
    intro s dt d start k b hd hcluster hk hbist hstart hpause hrepair hclock hcore hroom hnew
    have hplace : (72 * d + b.cluster) / 72 = d ∧ (72 * d + b.cluster) % 72 = b.cluster := by omega
    have hfresh : s.pkg.pwr.ledger.any (fun r => r.kind = 1 && r.place = (72 * d + b.cluster) / 72 && r.where' = (72 * d + b.cluster) % 72 && r.location = k)
        = false := by
      rw [hplace.1, hplace.2]
      refine List.any_eq_false.mpr fun r hr h => hnew r hr ?_
      simpa [and_assoc] using h
    obtain ⟨hbists, hcount, hledger, hbit⟩ := bistRunDone_fails dt s.part hk hbist hstart hpause hrepair hclock hcore hroom hfresh
    exact ⟨{ s with pkg := bistRunDone dt d (2 ^ k) true false true s.part s.pkg }, rfl, hbists, hcount, ⟨_, hledger, rfl, hplace.1, hplace.2, rfl, rfl, rfl⟩, hbit⟩
  case ledger =>
    intro s dt entries hwrite hseq
    obtain ⟨hentries, hcount⟩ := ledgerWriteDone_written dt hwrite hseq
    obtain ⟨hpart, hlost⟩ := ledgerWriteDone_lost (q := s.part) dt hwrite
    have hexec (ok : Bool) : exec (.ledgerWriteDone dt ok) s = onBoth (ledgerWriteDone dt ok) s := rfl
    obtain ⟨x, hx⟩ : ∃ x, ledgerWriteDone dt true s.part s.pkg = x := ⟨_, rfl⟩
    obtain ⟨y, hy⟩ : ∃ y, ledgerWriteDone dt false s.part s.pkg = y := ⟨_, rfl⟩
    rw [hx] at hentries hcount
    rw [hy] at hpart hlost
    exact ⟨_, _, (hexec true).trans (onBoth_of hx), (hexec false).trans (onBoth_of hy), hentries, hcount, hpart,
      (congrArg (fun q => (chooseLedger q).2) hpart).trans (chooseLedger_lost s.part), hlost⟩

end Sys2Proof.Machine

/-! ### Core faults: a spare takes over, or the cluster retires (R378 to R387) -/

namespace Sys2Proof.Machine

section
variable {p : Package} {c k : Nat}

/-! #### The page of a cluster -/

/-- The registers of a cluster's page past its summary are none that a report writes. -/
theorem cluReg_not_report (hc : c < 576) {o : Nat} (ho : 0x78 < o) (hpage : o < 0x1000) : pageCLU c + o ∉ reportRegs (.clu c) (c / 72) := by
  have hd : c / 72 ≠ 8 := by omega
  simp only [reportRegs, evtRegs, ERR_SUMMARY, IRQ_STATUS, Page.base, ERR_STATUS, ERR_LOG_TAIL, ERR_COALESCED, ERR_LOST_CORR, ERR_LOST_UNCORR,
    ERR_LOST_FATAL, pageERR, pageCLU, pageD, PKG_EVT_SEQ, PKG_EVT_STATUS, PKG_EVT_LOST, List.mem_append, List.mem_cons, List.not_mem_nil, or_false, not_or,
    hd, if_false]
  omega

theorem cluIrq_not_report (hc : c < 576) : IRQ_STATUS (.clu c) ∉ reportRegs (.clu c) (c / 72) := by
  have hd : c / 72 ≠ 8 := by omega
  simp only [reportRegs, evtRegs, ERR_SUMMARY, IRQ_STATUS, Page.base, ERR_STATUS, ERR_LOG_TAIL, ERR_COALESCED, ERR_LOST_CORR, ERR_LOST_UNCORR,
    ERR_LOST_FATAL, pageERR, pageCLU, pageD, PKG_EVT_SEQ, PKG_EVT_STATUS, PKG_EVT_LOST, List.mem_append, List.mem_cons, List.not_mem_nil, or_false, not_or,
    hd, if_false]
  omega

/-- Nor is one of them a register that an event of the page writes. -/
theorem cluReg_not_event (c : Nat) {o : Nat} (ho : 0x60 < o) : pageCLU c + o ∉ evtRegs ∧ pageCLU c + o ≠ IRQ_STATUS (.clu c) := by
  simp only [evtRegs, IRQ_STATUS, Page.base, pageCLU, pageD, PKG_EVT_SEQ, PKG_EVT_STATUS, PKG_EVT_LOST, List.mem_cons, List.not_mem_nil, or_false, not_or]
  omega

theorem cluPage_ne (c : Nat) {a b : Nat} (h : a ≠ b) : pageCLU c + a ≠ pageCLU c + b := fun e => h (Nat.add_left_cancel e)

theorem Package.report_cluReg (p : Package) (hc : c < 576) (cls cause a0 a1 : Nat) (b r : Bool) {o : Nat} (ho : 0x78 < o) (hpage : o < 0x1000) :
    (p.report (.clu c) (c / 72) cls cause a0 a1 b r).rd (pageCLU c + o) = p.rd (pageCLU c + o) := p.report_rd _ _ _ _ _ _ _ _ (cluReg_not_report hc ho hpage)

theorem Package.clu_congr {q : Package} (h : q.clus = p.clus) (c : Nat) : q.clu c = p.clu c := by
  unfold Package.clu
  rw [h]

@[simp] theorem Package.clu_modClu_same (p : Package) (c : Nat) (f : Cluster → Cluster) : (p.modClu c f).clu c = f (p.clu c) :=
  mapGet_mapSet_same _ _ _ _

@[simp] theorem Package.pass_clu (p : Package) (dt c : Nat) : (p.pass dt).clu c = p.clu c := Package.clu_congr (p.pass_clus dt) c

@[simp] theorem Package.pass_core (p : Package) (dt c k : Nat) : (p.pass dt).core c k = p.core c k := by
  unfold Package.core
  rw [Package.pass_cores]

@[simp] theorem Package.pass_posOf (p : Package) (dt c k : Nat) : (p.pass dt).posOf c k = p.posOf c k := by
  have hat (q : Nat) : (p.pass dt).coreAt c q = p.coreAt c q := by
    unfold Package.coreAt
    simp only [Package.pass_rd]
  unfold Package.posOf
  simp only [hat]

@[simp] theorem Package.pass_canFail (p : Package) (dt c k : Nat) : (p.pass dt).canFail c k = p.canFail c k := by
  unfold Package.canFail
  rw [Package.pass_dieActive, Package.pass_dieFenced, Package.pass_get, Package.pass_posOf, Package.pass_clu]

/-! #### Serving a fault -/

/-- A core that can fail, in a cluster without a refill: its fault is served at once. -/
theorem coreFault_served (cause : Nat) (hcan : p.canFail c k = true) (hidle : (p.clu c).refill = none) :
    p.coreFault c k cause = p.serveFault c k cause p.clock false := by
  unfold Package.coreFault
  rw [hcan, if_neg (by decide), hidle]

theorem serveFault_spare {spare : Nat} (cause at' : Nat) (compound : Bool) (h : p.spareOf c = some spare) :
    p.serveFault c k cause at' compound = p.startRefill c k spare cause at' compound := by
  unfold Package.serveFault
  rw [h]

theorem serveFault_retire (cause at' : Nat) (compound : Bool) (h : p.spareOf c = none) :
    p.serveFault c k cause at' compound = p.retireCluster c k ((p.posOf c k).getD 0) cause compound := by
  unfold Package.serveFault
  rw [h]

theorem coreFault_pass (dt cause : Nat) (hcan : p.canFail c k = true) (hidle : (p.clu c).refill = none) :
    (p.pass dt).coreFault c k cause = (p.pass dt).serveFault c k cause (p.clock + dt) false := by
  rw [coreFault_served cause ((p.pass_canFail dt c k).trans hcan) ((congrArg Cluster.refill (p.pass_clu dt c)).trans hidle), Package.pass_clock]

/-- What the start of a repair shows: the cluster refills, the core is counted and the event raised. -/
theorem startRefill_shows (p : Package) (hc : c < 576) (k spare cause at' : Nat) (compound : Bool) :
    let t := p.startRefill c k spare cause at' compound
    t.get (CLU_STATUS_STATE c) = 1 ∧ t.rd (CLU_CORE_RETIRES c) = (p.rd (CLU_CORE_RETIRES c) + 1) % 2 ^ 64
      ∧ (t.clu c).refill = some { core := k, spare := spare, position := (p.posOf c k).getD 0, cause := cause, startAt := at', compound := compound }
      ∧ bitAt (t.rd (IRQ_STATUS (.clu c))) EV_CLU_CORE_RETIRED = true := by
  intro t
  obtain ⟨u, v, f, left, last, a1, hu, hv, hf, ht⟩ : ∃ (u v : Package) (f : Cluster → Cluster) (left last a1 : Nat),
      u.rd (CLU_CORE_RETIRES c) = p.rd (CLU_CORE_RETIRES c)
      ∧ v = ((((u.put (CLU_STATUS_SPARES c) left).setBit (CLU_STATUS c) (12 + k) true).put (CLU_STATUS_STATE c) 1).bump64 (CLU_CORE_RETIRES c) 1).modClu c f
      ∧ (∀ x, (f x).refill = some { core := k, spare := spare, position := (p.posOf c k).getD 0, cause := cause, startAt := at', compound := compound })
      ∧ t = ((v.wr (CLU_LAST c) last).raise (.clu c) EV_CLU_CORE_RETIRED last a1).report (.clu c) (c / 72) 1 cause last a1 compound false := by
    simp only [t]
    unfold Package.startRefill
    extract_lets pos co q1 q2 fresh q3 q4 left q5 q6 last q7
    refine ⟨q4, q6, _, left, last, _, ?_, rfl, fun _ => rfl, rfl⟩
    have hq1 : q1.rd (CLU_CORE_RETIRES c) = p.rd (CLU_CORE_RETIRES c) := by
      simp only [q1]
      split
      · exact p.rd_bump64_ne _ (by unfold CLU_CORE_RETIRES pageCLU pageD NUM_ASSAY_SKIPPED; omega)
      · rfl
    have hmap (q : Package) : (q.mapCore c pos spare).rd (CLU_CORE_RETIRES c) = q.rd (CLU_CORE_RETIRES c) := by
      unfold Package.mapCore
      split
      · exact q.rd_put_ne _ _ (cluPage_ne c (by decide))
      · exact q.rd_put_ne _ _ (cluPage_ne c (by decide))
    exact (hmap _).trans hq1
  have hreg (q : Package) {o : Nat} (ho : 0x78 < o) (hpage : o < 0x1000) (hlast : o ≠ 0x150) :
      (((q.wr (CLU_LAST c) last).raise (.clu c) EV_CLU_CORE_RETIRED last a1).report (.clu c) (c / 72) 1 cause last a1 compound false).rd (pageCLU c + o)
        = q.rd (pageCLU c + o) := by
    rw [Package.report_cluReg _ hc _ _ _ _ _ _ ho hpage, Package.raise_rd _ _ _ _ _ (cluReg_not_event c (by omega)).1 (cluReg_not_event c (by omega)).2,
      Package.rd_wr_ne _ _ (show CLU_LAST c ≠ pageCLU c + o from cluPage_ne c (Ne.symm hlast))]
  have hmod (q : Package) (a : Nat) : (q.modClu c f).rd a = q.rd a := rfl
  rw [ht]
  refine ⟨?_, ?_, ?_, ?_⟩
  · rw [Package.get_of_rd (f := CLU_STATUS_STATE c) (hreg v (o := 0x108) (by decide) (by decide) (by decide)), hv,
      Package.get_of_rd (f := CLU_STATUS_STATE c) (hmod _ _), Package.get_bump64_ne (f := CLU_STATUS_STATE c) _ _ (show CLU_CORE_RETIRES c ≠ CLU_STATUS c from cluPage_ne c (by decide)),
      Package.get_put_same _ _ _ (show 0 + 2 ≤ 64 by decide)]
    rfl
  · have hput (q : Package) (lo len x : Nat) : (q.put ⟨CLU_STATUS c, lo, len⟩ x).rd (CLU_CORE_RETIRES c) = q.rd (CLU_CORE_RETIRES c) :=
      q.rd_put_ne _ _ (cluPage_ne c (a := 0x108) (b := 0x120) (by decide))
    refine (hreg v (o := 0x120) (by decide) (by decide) (by decide)).trans ?_
    rw [hv, hmod]
    change (Package.bump64 _ (CLU_CORE_RETIRES c) 1).rd (CLU_CORE_RETIRES c) = _
    rw [Package.rd_bump64, CLU_STATUS_STATE, hput, Package.setBit, hput, CLU_STATUS_SPARES, hput, hu]
  · rw [Package.clu_congr ((Package.report_clus ..).trans ((Package.raise_clus ..).trans (Package.wr_clus ..))), hv, Package.clu_modClu_same, hf]
  · rw [Package.report_rd _ _ _ _ _ _ _ _ _ (cluIrq_not_report hc)]
    exact Package.raise_status _ _ _ _ _ (by decide)

/-! #### Errors in SRAM -/

/-- A corrected error is counted and reported, and nothing else changes. -/
theorem sramCorrected_shows (p : Package) (hc : c < 576) (index : Nat) :
    let t := p.sramCorrected c index
    t.rd (CLU_ECC_CORR c) = (p.rd (CLU_ECC_CORR c) + 1) % 2 ^ 64 ∧ t.cores = p.cores ∧ t.clus = p.clus ∧ t.mem = p.mem := by
  intro t
  have ht : t = (p.bump64 (CLU_ECC_CORR c) 1).report (.clu c) (c / 72) 0 2 p.beatNo (arg1Of index 0) false false := rfl
  rw [ht, Package.report_cores, Package.report_clus, Package.report_mem]
  exact ⟨(Package.report_cluReg _ hc _ _ _ _ _ _ (o := 0x148) (by decide) (by decide)).trans (p.rd_bump64 _ _), rfl, rfl, rfl⟩

theorem coreEcc_corrected (dt : Nat) (hcan : p.canFail c k = true) : coreEcc dt c k false p = (p.pass dt).sramCorrected c k := by
  unfold coreEcc
  dsimp only
  rw [Package.pass_canFail, hcan, if_neg (by decide), if_neg (by decide)]

theorem coreEcc_double (dt : Nat) (hcan : p.canFail c k = true) : coreEcc dt c k true p = (p.pass dt).coreFault c k 2 := by
  unfold coreEcc
  dsimp only
  rw [Package.pass_canFail, hcan, if_neg (by decide), if_pos rfl]

/-- The cluster's line is noted as poisoned, where the error is in no command list. -/
def Package.poisonLine (p : Package) (c line : Nat) (inList : Bool) : Package :=
  if inList then p else p.modClu c (fun x => { x with poison := insertRising (line % (CLU_BYTES / 64)) x.poison })

theorem clusterEcc_eq (dt line : Nat) (double inList : Bool) (hactive : p.dieActive (c / 72) = true) (hfenced : p.dieFenced (c / 72) = false)
    (hstate : p.get (CLU_STATUS_STATE c) ≠ 2) :
    clusterEcc dt c line double inList p = if !double then (p.pass dt).sramCorrected c line
      else ((p.pass dt).poisonLine c line inList).report (.clu c) (c / 72) 1 2 ((p.pass dt).poisonLine c line inList).beatNo (arg1Of line (b2n inList)) false false := by
  unfold clusterEcc Package.poisonLine
  dsimp only
  rw [Package.pass_dieActive, Package.pass_dieFenced, Package.pass_get, hactive, hfenced, if_neg (by simpa using hstate)]

/-! #### The end of a repair -/

theorem coreRepairDone_shows {r : Refill} (dt : Nat) (hrefill : (p.clu c).refill = some r) (hpoint : (p.core c r.spare).point.layerPos = 0) :
    let t := coreRepairDone dt c p
    (t.clu c).refill = none ∧ t.get (CLU_STATUS_STATE c) = 0
      ∧ t.rd (CLU_LAST c) = cluLast r.core r.spare r.position r.cause r.compound false ((p.clock + dt - r.startAt) / Config.usUnits) % 2 ^ 64 := by
  intro t
  obtain ⟨u, last, hlast, hu, hclus, hrd⟩ : ∃ (u : Package) (last : Nat),
      last = cluLast r.core r.spare r.position r.cause r.compound false ((p.clock + dt - r.startAt) / Config.usUnits)
      ∧ u = (((p.pass dt).modClu c (fun x => { x with refill := none })).put (CLU_STATUS_STATE c) 0).wr (CLU_LAST c) last
      ∧ t.clus = u.clus ∧ ∀ a, t.rd a = u.rd a := by
    simp only [t]
    unfold coreRepairDone
    extract_lets q0 q1
    have hclu : (q0.clu c).refill = some r := (congrArg Cluster.refill (p.pass_clu dt c)).trans hrefill
    split
    · next hnone => cases hnone.symm.trans hclu
    · next r' hsome =>
      cases hsome.symm.trans hclu
      extract_lets k co q2
      have hstop : co.point.layerPos = 0 := (congrArg (fun x : Core => x.point.layerPos) (p.pass_core dt c r.spare)).trans hpoint
      rw [if_pos (by simp [hstop])]
      exact ⟨q2, cluLast r.core k r.position r.cause r.compound false ((q1.clock - r.startAt) / Config.usUnits), congrArg (fun n => cluLast r.core r.spare r.position r.cause r.compound false ((n - r.startAt) / Config.usUnits)) (p.pass_clock dt),
        rfl, rfl, fun _ => rfl⟩
  rw [Package.clu_congr hclus, Package.get_of_rd (f := CLU_STATUS_STATE c) (hrd _), hrd, hu]
  refine ⟨?_, ?_, (Package.rd_wr_same _ _ _).trans (congrArg (· % 2 ^ 64) hlast)⟩
  · rw [Package.clu_congr ((Package.wr_clus ..).trans (Package.put_clus ..)), Package.clu_modClu_same]
  · rw [Package.get_wr_ne (f := CLU_STATUS_STATE c) _ _ (show CLU_LAST c ≠ CLU_STATUS c from cluPage_ne c (by decide)), Package.get_put_same _ _ _ (show 0 + 2 ≤ 64 by decide)]
    rfl

theorem queuedFaultServe_eq {cause at' : Nat} {rest : List (Nat × Nat × Nat)} (dt : Nat) (hidle : (p.clu c).refill = none)
    (hqueued : (p.clu c).queued = (k, cause, at') :: rest) :
    queuedFaultServe dt c p = (((p.pass dt).modClu c (fun x => { x with queued := rest })).showQueued c).serveFault c k cause at' true := by
  unfold queuedFaultServe
  dsimp only
  rw [Package.pass_clu, hidle, hqueued]

end

/-- Settles O45, by the command. -/
theorem coreFaultsServed : Obligations.CoreFaultsServed := by
  unfold Obligations.CoreFaultsServed
  refine ⟨?spare, ?retire, fun p c k spare cause at' compound hc => startRefill_shows p hc k spare cause at' compound, ?corrected, ?sram, ?repaired, ?queued⟩
  case spare =>
    intro s dt c k spare hcan hidle hspare
    have hserved (cause : Nat) : (s.pkg.pass dt).coreFault c k cause = (s.pkg.pass dt).startRefill c k spare cause (s.pkg.clock + dt) false :=
      (coreFault_pass dt cause hcan hidle).trans (serveFault_spare _ _ _ hspare)
    refine ⟨next_pkg_congr (hserved 0), next_pkg_congr ((coreEcc_double dt hcan).trans (hserved 2)), fun hctx hrun => next_pkg_congr ?_⟩
    refine Eq.trans ?_ (hserved 1)
    exact if_pos (by rw [hctx, hrun]; rfl)
  case retire =>
    intro s dt c k hcan hidle hspare
    exact next_pkg_congr ((coreFault_pass dt 0 hcan hidle).trans (serveFault_retire _ _ _ hspare))
  case corrected =>
    intro s dt c k hc hcan
    obtain ⟨hcount, hcores, -, hmem⟩ := sramCorrected_shows (s.pkg.pass dt) hc k
    rw [Package.pass_rd] at hcount
    exact ⟨_, next_pkg_congr (coreEcc_corrected dt hcan), hcount, hcores.trans (s.pkg.pass_cores dt), hmem.trans (s.pkg.pass_mem dt)⟩
  case sram =>
    intro s dt c line inList hc hactive hfenced hstate
    obtain ⟨hcount, -, hclus, -⟩ := sramCorrected_shows (s.pkg.pass dt) hc line
    rw [Package.pass_rd] at hcount
    refine ⟨_, _, next_pkg_congr (clusterEcc_eq dt line false inList hactive hfenced hstate), hcount, hclus.trans (s.pkg.pass_clus dt),
      next_pkg_congr (clusterEcc_eq dt line true inList hactive hfenced hstate), fun hlist => ?_, fun hlist => ?_⟩
    · dsimp only
      rw [if_neg (by decide), Package.report_clus, hlist]
      exact s.pkg.pass_clus dt
    · dsimp only
      rw [if_neg (by decide), Package.clu_congr (Package.report_clus ..), hlist, Package.poisonLine, if_neg Bool.false_ne_true, Package.clu_modClu_same]
      exact mem_insertRising _ _
  case repaired =>
    intro s dt c r _ hrefill hpoint
    exact ⟨{ s with pkg := coreRepairDone dt c s.pkg }, rfl, coreRepairDone_shows dt hrefill hpoint⟩
  case queued => exact fun s dt c k cause at' rest hidle hqueued => next_pkg_congr (queuedFaultServe_eq dt hidle hqueued)

end Sys2Proof.Machine

/-! ### Fences and readmission (R322 to R329) -/

namespace Sys2Proof.Machine

/-- What a filter of the keys keeps is found as before. -/
theorem mapFind_filter_kept {α : Type} (m : List (Nat × α)) {keep : Nat → Bool} {i : Nat} (h : keep i = true) :
    mapFind (m.filter (fun e => keep e.1)) i = mapFind m i := by
  induction m with
  | nil => rfl
  | cons e r ih =>
    rw [List.filter_cons]
    split
    · rw [mapFind, mapFind, ih]
    · next hdrop =>
      have hne : e.1 ≠ i := fun he => hdrop (he ▸ h)
      rw [ih, mapFind, if_neg hne]

/-- Registers at different addresses, written in turn, read as written. -/
theorem Package.rd_wrRange (p : Package) {addr : Nat → Nat} (v : Nat → Nat) (hinj : ∀ i j, addr i = addr j → i = j) {n w : Nat} (hw : w < n) :
    (p.each (List.range n) (fun p i => p.wr (addr i) (v i))).rd (addr w) = v w % 2 ^ 64 := by
  induction n with
  | zero => exact absurd hw (Nat.not_lt_zero w)
  | succ n ih =>
    rw [List.range_succ, Package.each, List.foldl_append]
    change (Package.wr _ (addr n) (v n)).rd (addr w) = _
    by_cases h : n = w
    · rw [h, Package.rd_wr_same]
    · rw [Package.rd_wr_ne _ _ (fun e => h (hinj n w e))]
      exact ih (by omega)

section
variable {p : Package} {d : Nat}

/-! #### Heartbeats -/

theorem dieGone_of_free (h : p.dieFenced d = false) : p.dieGone d = false := by
  unfold Package.dieGone
  rw [h]
  rfl

theorem Package.pass_dieGone (p : Package) (dt d : Nat) : (p.pass dt).dieGone d = p.dieGone d := by
  unfold Package.dieGone Package.dieState
  rw [Package.pass_dieFenced, Package.pass_get]

theorem Package.pass_beatPaths (p : Package) (dt d : Nat) : (p.pass dt).beatPaths d = p.beatPaths d := by
  unfold Package.beatPaths Package.shroudsOf
  simp only [Package.pass_shroudState, Package.pass_hasShroud]

/-- A die that no shroud misses: its heartbeat clears its silence, and no shroud degrades. -/
theorem heartbeatSend_eq (dt : Nat) (hfitted : p.dieFitted d = true) (hfree : p.dieFenced d = false) (hstay : ∀ e ∈ p.fab.silent, e.1 = d → e.2 = 12) :
    heartbeatSend dt d p = (p.pass dt).modFab
      (fun f => { f with silent := f.silent.filter (fun e => e.1 ≠ d), lastBeat := mapPut f.lastBeat d (p.pass dt).clock }) := by
  have hnone : p.fab.silent.filter (fun e => decide (e.1 = d) && decide (e.2 < 12)) = [] := by
    refine List.filter_eq_nil_iff.mpr fun e he h => ?_
    rw [Bool.and_eq_true, decide_eq_true_iff, decide_eq_true_iff] at h
    have := hstay e he h.1
    omega
  unfold heartbeatSend
  dsimp only
  rw [Package.pass_dieFitted, hfitted, Package.pass_dieGone, dieGone_of_free hfree, if_neg (by simp), Package.pass_fab, hnone]
  rfl

/-- The package once a heartbeat is missed on a path. -/
def Package.missBeat (p : Package) (d path : Nat) : Package :=
  p.modFab (fun f => { f with silent := if f.silent.contains (d, path) then f.silent else f.silent ++ [(d, path)] })

theorem Package.missBeat_new (p : Package) {path : Nat} (h : (d, path) ∉ p.fab.silent) :
    p.missBeat d path = p.modFab (fun f => { f with silent := f.silent ++ [(d, path)] }) := by
  have hnew : (if p.fab.silent.contains (d, path) then p.fab.silent else p.fab.silent ++ [(d, path)]) = p.fab.silent ++ [(d, path)] := if_neg (by simpa using h)
  exact congrArg (fun l => p.modFab (fun f => { f with silent := l })) hnew

theorem Package.mem_missBeat (p : Package) (d path : Nat) (e : Nat × Nat) : e ∈ (p.missBeat d path).fab.silent ↔ e ∈ p.fab.silent ∨ e = (d, path) := by
  change e ∈ (if p.fab.silent.contains (d, path) then p.fab.silent else p.fab.silent ++ [(d, path)]) ↔ _
  split
  · next h =>
    have hin : (d, path) ∈ p.fab.silent := by simpa using h
    exact ⟨.inl, fun he => he.elim id (fun h => h ▸ hin)⟩
  · rw [List.mem_append, List.mem_singleton]

theorem heartbeatMissing_eq {path : Nat} (dt : Nat) (hfitted : p.dieFitted d = true) (hfree : p.dieFenced d = false) (hpath : path ∈ p.beatPaths d) :
    heartbeatMissing dt d path p = if ((p.pass dt).missBeat d path).dieSilent d
      then ((p.pass dt).missBeat d path).fenceDie d 0 (mapGet (p.pass dt).clock (p.pass dt).fab.lastBeat d) else (p.pass dt).missBeat d path := by
  have hin : (p.beatPaths d).contains path = true := by simpa using hpath
  unfold heartbeatMissing Package.missBeat
  dsimp only
  rw [Package.pass_dieFitted, hfitted, Package.pass_dieGone, dieGone_of_free hfree, Package.pass_beatPaths, hin, if_neg (by decide)]
  rfl

/-- A die is silent once every path that carries its heartbeats misses them. -/
theorem dieSilent_missBeat (dt d path : Nat) :
    ((p.pass dt).missBeat d path).dieSilent d = true ↔ ∀ j ∈ p.beatPaths d, (d, j) ∈ p.fab.silent ∨ j = path := by
  have hpaths : ((p.pass dt).missBeat d path).beatPaths d = p.beatPaths d := p.pass_beatPaths dt d
  unfold Package.dieSilent
  rw [hpaths, List.all_eq_true]
  refine forall_congr' fun j => imp_congr_right fun _ => ?_
  rw [List.contains_iff_mem, Package.mem_missBeat, Package.pass_fab, Prod.mk.injEq]
  simp

theorem softwareFence_eq (dt : Nat) (hfree : p.dieFenced d = false) : softwareFence dt d p = (p.pass dt).fenceDie d 1 (p.clock + dt) := by
  unfold softwareFence
  dsimp only
  rw [Package.pass_dieGone, dieGone_of_free hfree, if_neg Bool.false_ne_true, Package.pass_clock]

/-! #### The end of the hold -/

/-- The events of the fences, each with the die that it lost. -/
def Package.raiseFences (p : Package) (l : List FenceJob) : Package := p.each l (fun p f => p.raise .fab EV_FAB_DIE_FENCED (p.rd FAB_FENCE_LAST) f.held)

theorem Package.raiseFences_fab (p : Package) (l : List FenceJob) : (p.raiseFences l).fab = p.fab :=
  Package.each_keeps (fun q => q.fab = p.fab) _ (fun q _ h => (q.raise_fab _ _ _ _).trans h) p l rfl

theorem Package.raiseFences_raised (p : Package) {l : List FenceJob} (h : l ≠ []) :
    bitAt ((p.raiseFences l).rd (IRQ_STATUS .fab)) EV_FAB_DIE_FENCED = true := by
  obtain ⟨front, f, rfl⟩ := (List.eq_nil_or_concat l).resolve_left h
  unfold Package.raiseFences Package.each
  rw [List.concat_eq_append, List.foldl_append]
  exact Package.raise_status _ _ _ _ _ (by decide)

theorem fenceRelease_eq (dt : Nat) (hended : ∀ f ∈ p.fab.fences, f.since + 40 * Config.usUnits ≤ p.clock + dt) :
    fenceRelease dt p = ((p.pass dt).modFab (fun f => { f with fences := [] })).raiseFences p.fab.fences := by
  have hall : p.fab.fences.any (fun f => decide (p.clock + dt < f.since + 40 * Config.usUnits)) = false :=
    List.any_eq_false.mpr fun f hf h => Nat.not_lt.mpr (hended f hf) (of_decide_eq_true h)
  unfold fenceRelease
  dsimp only
  rw [Package.pass_fab, Package.pass_clock, hall, if_neg Bool.false_ne_true]
  rfl

/-! #### Die states -/

theorem Package.dieState_setDieState (p : Package) (hd : d < 8) {st : Nat} (h : st < 8) : (p.setDieState d st).dieState d = st :=
  (Package.get_put_same _ _ _ (show 3 * d + 3 ≤ 64 by omega)).trans (Nat.mod_eq_of_lt h)

theorem Package.dieState_congr {q : Package} (h : q.rd FAB_DIE_STATE = p.rd FAB_DIE_STATE) (d : Nat) : q.dieState d = p.dieState d := Package.get_of_rd h

/-! #### Readmission -/

/-- READMIT resets the die: its stacks read as zero, and every other byte stays. -/
theorem dieReset_mem (p : Package) (d y : Nat) : memByte (p.dieReset d).mem y = if y / 2 ^ 38 = d then memDefault else memByte p.mem y := by
  have hmem : (p.dieReset d).mem = p.mem.filter (fun e => decide (e.1 / 2 ^ 38 ≠ d)) := rfl
  unfold memByte mapGet
  rw [hmem]
  by_cases h : y / 2 ^ 38 = d
  · rw [if_pos h, mapFind_filter_key (keep := fun a => decide (a / 2 ^ 38 ≠ d)) p.mem (by simpa using h)]
  · rw [if_neg h, mapFind_filter_kept (keep := fun a => decide (a / 2 ^ 38 ≠ d)) p.mem (by simpa using h)]

theorem dieReadmit_eq (dt : Nat) (hfitted : p.dieFitted d = true) (hfenced : p.dieState d = DIE_FENCED) (hdone : ∀ f ∈ p.fab.fences, f.die ≠ d) :
    ∃ u : Package, ((p.pass dt).dieReset d).RegsOnly u
      ∧ dieReadmit dt d p = (u.setDieState d DIE_RECOVERING).modFab (fun f => { f with readmits := mapPut f.readmits d (1, 0) }) := by
  have hnone : p.fab.fences.any (fun f => f.die = d) = false := List.any_eq_false.mpr fun f hf h => hdone f hf (of_decide_eq_true h)
  have hstate : (p.pass dt).dieState d = DIE_FENCED := (p.pass_get dt _).trans hfenced
  unfold dieReadmit
  dsimp only
  rw [Package.pass_dieFitted, hfitted, hstate, Package.pass_fab, hnone, if_neg (by decide)]
  exact ⟨_, Package.regsOnly_each _ _ (fun q w => q.regsOnly_wr _ _), rfl⟩

theorem readmitFail_shows (p : Package) (hd : d < 8) (step : Nat) :
    let t := p.readmitFail d step
    t.dieState d = DIE_FENCED ∧ mapFind t.fab.readmits d = none ∧ t.get FAB_FENCE_LAST_STEP = step % 2 ^ 8
      ∧ bitAt (t.rd (IRQ_STATUS .fab)) EV_FAB_READMIT_FAILED = true := by
  intro t
  obtain ⟨u, last, hu, hlast, ht⟩ : ∃ (u : Package) (last : Nat), u = (p.setDieState d DIE_FENCED).modFab (fun f => { f with readmits := mapDel f.readmits d })
      ∧ bitsOf last 8 8 = step % 2 ^ 8 ∧ t = (u.wr FAB_FENCE_LAST last).raise .fab EV_FAB_READMIT_FAILED last (arg1Of d step) :=
    ⟨_, _, rfl, bitsOf_putBits_same _ _ _ _, rfl⟩
  rw [ht]
  refine ⟨?_, ?_, ?_, Package.raise_status _ _ _ _ _ (by decide)⟩
  · rw [Package.dieState_congr ((Package.raise_rd _ _ _ _ _ (show FAB_DIE_STATE ∉ evtRegs by decide) (by decide)).trans (Package.rd_wr_ne _ _ (by decide))), hu]
    exact p.dieState_setDieState hd (by decide)
  · rw [Package.raise_fab, Package.wr_fab, hu]
    exact mapFind_mapDel_same _ _
  · rw [Package.get_of_rd (f := FAB_FENCE_LAST_STEP) (Package.raise_rd _ _ _ _ _ (show FAB_FENCE_LAST ∉ evtRegs by decide) (by decide))]
    unfold Package.get
    rw [show FAB_FENCE_LAST_STEP = ⟨FAB_FENCE_LAST, 8, 8⟩ from rfl]
    dsimp only
    rw [Package.rd_wr_same]
    exact (bitsOf_mod _ _ _ _ (by decide)).trans hlast

theorem readmitStep_fails {step n : Nat} (dt : Nat) (fails : List (Nat × Bool)) (q : Part) (hstep : mapFind p.fab.readmits d = some (step, n)) (hrun : step ≠ 5) :
    readmitStep dt d false fails q p = (p.pass dt).readmitFail d step := by
  have hdone : readmitStepDone dt d false fails p = (p.pass dt).readmitFail d step := by
    unfold readmitStepDone
    dsimp only
    rw [Package.pass_fab, hstep]
    dsimp only
    rw [if_neg hrun, if_pos (by simp)]
  unfold readmitStep
  rw [hstep]
  split
  · exact hdone
  · exact hdone

theorem regsOnly_mapCore (p : Package) (c q k : Nat) : p.RegsOnly (p.mapCore c q k) := by
  unfold Package.mapCore
  split
  · exact p.regsOnly_wr _ _
  · exact p.regsOnly_wr _ _

theorem regsOnly_mapCluster (p : Package) (c failed : Nat) (sramOk : Bool) : p.RegsOnly (p.mapCluster c failed sramOk) := by
  have hput (q : Package) (f g : Fld) (v w : Nat) : q.RegsOnly ((q.put f v).put g w) := (q.regsOnly_wr _ _).trans (Package.regsOnly_wr _ _ _)
  unfold Package.mapCluster
  extract_lets good mask u
  have hu : p.RegsOnly u := hput p _ _ _ _
  split
  · exact hu.trans (hput u _ _ _ _)
  · exact (hu.trans (u.regsOnly_each _ (fun r q => regsOnly_mapCore r _ _ _))).trans (hput _ _ _ _ _)

theorem regsOnly_mapDie (p : Package) (d : Nat) (fuses : List Repair) (fails : List (Nat × Bool)) : p.RegsOnly (p.mapDie d fuses fails) :=
  p.regsOnly_each _ fun q _ => regsOnly_mapCluster q _ _ _

/-- The last step of a readmission leaves the die waiting for a step. -/
theorem readmitStep_last {n : Nat} (dt : Nat) (fails : List (Nat × Bool)) (q : Part) (hstep : mapFind p.fab.readmits d = some (4, n)) :
    ∃ u : Package, p.fab = u.fab ∧ p.cru = u.cru ∧ readmitStep dt d true fails q p
      = (u.modFab (fun f => { f with readmits := mapPut f.readmits d (5, u.cru.resolved) })).setDieState d DIE_WAIT_STEP := by
  obtain ⟨r, hr⟩ := regsOnly_mapDie (p.pass dt) d [] fails
  refine ⟨(p.pass dt).mapDie d [] fails, ?_, ?_, ?_⟩
  · rw [hr]
    exact (p.pass_fab dt).symm
  · rw [hr]
    exact (p.pass_cru dt).symm
  · unfold readmitStep
    split
    · next h => cases hstep.symm.trans h
    · unfold readmitStepDone
      dsimp only
      rw [Package.pass_fab, hstep]
      dsimp only
      rw [if_neg (by decide : ¬4 = 5), if_neg (by simp), if_pos rfl, if_neg (by decide : ¬4 = 1), if_pos rfl]

theorem readmitActivate_eq {n : Nat} (dt : Nat) (hstep : mapFind p.fab.readmits d = some (5, n)) (hresolved : n < p.cru.resolved) :
    readmitActivate dt d p = (((p.pass dt).setDieState d DIE_ACTIVE).showFenced d false).modFab (fun f => { f with readmits := mapDel f.readmits d }) := by
  have hpass : mapFind (p.pass dt).fab.readmits d = some (5, n) := by rwa [Package.pass_fab]
  unfold readmitActivate
  extract_lets u
  split
  · next m h =>
    cases hpass.symm.trans h
    exact if_neg (Nat.not_le.mpr (by rwa [Package.pass_cru]))
  · next h => exact absurd hpass (h n)

theorem showFenced_shows (p : Package) (hd : d < 8) (b : Bool) :
    (p.showFenced d b).dieFenced d = b ∧ (p.showFenced d b).rd FAB_DIE_STATE = p.rd FAB_DIE_STATE ∧ (p.showFenced d b).fab = p.fab := by
  obtain ⟨u, deg, hu, ht⟩ : ∃ (u : Package) (deg : Nat), u = p.setBit FAB_STATUS (8 + d) b
      ∧ p.showFenced d b = (u.put FAB_STATUS_DEGRADED deg).put PKG_STATUS_DEGRADED deg := ⟨_, _, rfl, rfl⟩
  rw [ht]
  refine ⟨?_, ?_, ?_⟩
  · unfold Package.dieFenced
    rw [Package.get_put_ne _ _ _ _ (show PKG_STATUS_DEGRADED.addr ≠ FAB_STATUS_DIE_MASK.addr by decide),
      Package.get_put_disjoint _ FAB_STATUS_DEGRADED FAB_STATUS_DIE_MASK _ (by decide) (by decide), hu]
    exact p.bit_setBit b hd (by decide)
  · rw [Package.rd_put_ne _ _ _ (show PKG_STATUS_DEGRADED.addr ≠ FAB_DIE_STATE by decide),
      Package.rd_put_ne _ _ _ (show FAB_STATUS_DEGRADED.addr ≠ FAB_DIE_STATE by decide), hu]
    exact p.rd_put_ne ⟨FAB_STATUS, 8 + d, 1⟩ _ (by show FAB_STATUS ≠ FAB_DIE_STATE; decide)
  · rw [Package.put_fab, Package.put_fab, hu, Package.setBit_fab]

/-! #### Capability records -/

/-- The package once a capability record is kept. -/
def Package.takeRecord (p : Package) (d gen rev : Nat) (words : List Nat) : Package :=
  (((p.each (List.range 4) (fun p w => p.wr (FAB_DIE_CAP (4 * d + w)) (listAt 0 words w))).put (FAB_GEN_OF d) gen).modFab
    (fun f => { f with revisions := mapPut f.revisions d rev })).agreeRevisions

theorem agreeRevisions_rd (p : Package) {a : Nat} (h : a < 0xB200 ∨ 0xB2C0 ≤ a) : p.agreeRevisions.rd a = p.rd a := by
  unfold Package.agreeRevisions
  refine Package.each_keeps_of_mem (fun q => q.rd a = p.rd a) (fun q j hj hq => ?_) rfl
  have hlt : j < 12 := List.mem_range.mp (List.mem_filter.mp hj).1
  refine (q.rd_put_ne _ _ ?_).trans hq
  change 0xB200 + 0x10 * j ≠ a
  omega

theorem regsOnly_agreeRevisions (p : Package) : p.RegsOnly p.agreeRevisions := p.regsOnly_each _ fun q _ => q.regsOnly_wr _ _

/-- A record changes the fabric's revisions and registers of the fabric's page alone. -/
theorem takeRecord_frame (p : Package) (d gen rev : Nat) (words : List Nat) : ∃ r f, p.takeRecord d gen rev words = { p with regs := r, fab := f } := by
  have hcaps := p.regsOnly_each (List.range 4) (f := fun p w => p.wr (FAB_DIE_CAP (4 * d + w)) (listAt 0 words w)) (fun q w => q.regsOnly_wr _ _)
  obtain ⟨r, hr⟩ := hcaps.trans (Package.regsOnly_wr _ (FAB_GEN_OF d).addr _)
  unfold Package.takeRecord
  obtain ⟨r', hr'⟩ := regsOnly_agreeRevisions ((({ p with regs := r } : Package)).modFab (fun f => { f with revisions := mapPut f.revisions d rev }))
  rw [Package.put, hr, hr']
  exact ⟨r', _, rfl⟩

theorem takeRecord_rd (p : Package) {gen rev a : Nat} {words : List Nat} (hcap : ∀ w, FAB_DIE_CAP w ≠ a) (hgen : FAB_GEN ≠ a) (h : a < 0xB200 ∨ 0xB2C0 ≤ a) :
    (p.takeRecord d gen rev words).rd a = p.rd a := by
  have hmod (q : Package) (f : FabUnit → FabUnit) : (q.modFab f).rd a = q.rd a := rfl
  unfold Package.takeRecord
  rw [agreeRevisions_rd _ h, hmod, Package.rd_put_ne _ (FAB_GEN_OF d) _ hgen]
  exact Package.each_rd (fun q w => q.rd_wr_ne _ (hcap _)) p

theorem takeRecord_shows (p : Package) (hd : d ≤ 8) {gen rev w : Nat} {words : List Nat} (hw : w < 4) :
    (p.takeRecord d gen rev words).capWord d w = listAt 0 words w % 2 ^ 64 ∧ (p.takeRecord d gen rev words).get (FAB_GEN_OF d) = gen % 2 ^ 4 := by
  have hmod (q : Package) (f : FabUnit → FabUnit) (a : Nat) : (q.modFab f).rd a = q.rd a := rfl
  have hcap : 0xB2C0 ≤ FAB_DIE_CAP (4 * d + w) ∧ FAB_GEN ≠ FAB_DIE_CAP (4 * d + w) := by
    unfold FAB_DIE_CAP FAB_GEN
    omega
  unfold Package.takeRecord Package.capWord
  refine ⟨?_, ?_⟩
  · rw [agreeRevisions_rd _ (.inr hcap.1), hmod, Package.rd_put_ne _ (FAB_GEN_OF d) _ hcap.2]
    exact p.rd_wrRange (addr := fun w => FAB_DIE_CAP (4 * d + w)) (listAt 0 words) (fun i j h => by dsimp only [FAB_DIE_CAP] at h; omega) hw
  · rw [Package.get_of_rd (f := FAB_GEN_OF d) ((agreeRevisions_rd _ (.inl (by decide : FAB_GEN < 0xB200))).trans (hmod _ _ _))]
    exact Package.get_put_same _ _ _ (show 4 * d + 4 ≤ 64 by omega)

theorem capabilityRecord_kept {gen rev : Nat} {words : List Nat} (dt : Nat) (hd : d = 8 ∨ p.dieFitted d = true) (hfloor : within' p.variant.floor (listAt 0 words 0) = true) :
    capabilityRecord dt d gen rev words p = (p.pass dt).takeRecord d gen rev words := by
  obtain ⟨r, f, hu⟩ := takeRecord_frame (p.pass dt) d gen rev words
  have hvariant : ((p.pass dt).takeRecord d gen rev words).variant = p.variant := by
    rw [hu]
    exact p.pass_variant dt
  have hhere : (decide (d = 8) || p.dieFitted d) = true := by simpa using hd
  unfold capabilityRecord
  dsimp only
  rw [Package.pass_dieFitted, hhere, if_neg (by decide)]
  change (if within' ((p.pass dt).takeRecord d gen rev words).variant.floor (listAt 0 words 0) || _ || _ then _ else _) = _
  rw [hvariant, hfloor, if_pos (by simp)]
  rfl

/-- A record below the floor at power-up fences its die. -/
theorem capabilityRecord_low {gen rev : Nat} {words : List Nat} (dt : Nat) (hfitted : p.dieFitted d = true) (hfree : p.dieFenced d = false)
    (hstate : p.dieState d ≠ DIE_RECOVERING) (hready : p.has PKG_STATUS_READY = false) (hfloor : within' p.variant.floor (listAt 0 words 0) = false) :
    capabilityRecord dt d gen rev words p
      = (((p.pass dt).takeRecord d gen rev words).put (PWR_DIE_BOOT_RESULT d) 6).fenceDie d CAUSE_CAP_FLOOR (p.clock + dt) := by
  obtain ⟨u, hu⟩ : ∃ u, u = (p.pass dt).takeRecord d gen rev words := ⟨_, rfl⟩
  have hrd {a : Nat} (h : a < 0xB118 ∨ a = 0xB118) (hgen : FAB_GEN ≠ a) : u.rd a = p.rd a := by
    rw [hu, takeRecord_rd _ (fun w => by unfold FAB_DIE_CAP; omega) hgen (by omega), Package.pass_rd]
  have hframe : u.variant = p.variant ∧ u.clock = p.clock + dt := by
    obtain ⟨r, f, hframe⟩ := takeRecord_frame (p.pass dt) d gen rev words
    rw [hu, hframe]
    exact ⟨p.pass_variant dt, p.pass_clock dt⟩
  have hustate : u.dieState d ≠ DIE_RECOVERING := by rwa [Package.dieState_congr (hrd (by decide) (by decide))]
  have huready : u.has PKG_STATUS_READY = false := (Package.has_of_rd (hrd (a := PKG_STATUS) (by decide) (by decide))).trans hready
  have hufree : u.dieFenced d = false := by
    unfold Package.dieFenced at hfree ⊢
    rwa [Package.get_of_rd (f := FAB_STATUS_DIE_MASK) (hrd (a := FAB_STATUS) (by decide) (by decide))]
  have hd : d ≠ 8 := Nat.ne_of_lt (Package.dieFitted_lt hfitted)
  rw [← hu]
  unfold capabilityRecord
  dsimp only
  rw [Package.pass_dieFitted, hfitted, if_neg (by simp)]
  change (if within' ((p.pass dt).takeRecord d gen rev words).variant.floor (listAt 0 words 0)
      || decide (((p.pass dt).takeRecord d gen rev words).dieState d = DIE_RECOVERING) || ((p.pass dt).takeRecord d gen rev words).has PKG_STATUS_READY
    then (p.pass dt).takeRecord d gen rev words
    else if d = 8 then _ else if ((p.pass dt).takeRecord d gen rev words).dieFenced d then _
    else (((p.pass dt).takeRecord d gen rev words).put (PWR_DIE_BOOT_RESULT d) 6).fenceDie d CAUSE_CAP_FLOOR ((p.pass dt).takeRecord d gen rev words).clock) = _
  rw [← hu, hframe.1, hfloor, huready, if_neg (by simpa using hustate), if_neg hd, hufree, if_neg Bool.false_ne_true, hframe.2]

end

/-- Settles O35, by the command. -/
theorem diesFencedAndReadmitted : Obligations.DiesFencedAndReadmitted := by
  unfold Obligations.DiesFencedAndReadmitted
  refine ⟨?beat, ?missed, ?lost, fun s dt d hfree => next_pkg_congr (softwareFence_eq dt hfree), ?released, ?readmit, ?failed, ?last, ?active, ?record, ?low⟩
  case beat =>
    intro s dt d hfitted hfree hstay
    refine ⟨_, next_pkg_congr (heartbeatSend_eq dt hfitted hfree hstay), s.pkg.pass_regs dt, ?_, fun e he => ?_⟩
    · change mapPut (s.pkg.pass dt).fab.lastBeat d (s.pkg.pass dt).clock = _
      rw [Package.pass_fab, Package.pass_clock]
    · exact of_decide_eq_true (List.mem_filter.mp he).2
  case missed =>
    intro s dt d path other hfitted hfree hpath hother hne hbeats
    have hheard : ¬((s.pkg.pass dt).missBeat d path).dieSilent d = true := fun h =>
      ((dieSilent_missBeat dt d path).mp h other hother).elim hbeats hne
    refine ⟨_, next_pkg_congr ((heartbeatMissing_eq dt hfitted hfree hpath).trans (if_neg hheard)), s.pkg.pass_regs dt, ?_, rfl⟩
    exact (Package.mem_missBeat _ _ _ _).mpr (.inr rfl)
  case lost =>
    intro s dt d path hfitted hfree hpath hrest hnew
    have hsilent : ((s.pkg.pass dt).missBeat d path).dieSilent d = true := (dieSilent_missBeat dt d path).mpr fun j hj => by
      by_cases h : j = path
      · exact .inr h
      · exact .inl (hrest j hj h)
    have hlost := (heartbeatMissing_eq dt hfitted hfree hpath).trans (if_pos hsilent)
    rw [Package.missBeat_new _ (by rwa [Package.pass_fab]), Package.pass_clock] at hlost
    refine next_pkg_congr (hlost.trans ?_)
    rw [Package.pass_fab]
  case released =>
    intro s dt hheld hended
    refine ⟨_, next_pkg_congr (fenceRelease_eq dt hended), ?_, Package.raiseFences_raised _ hheld⟩
    exact congrArg FabUnit.fences (Package.raiseFences_fab _ _)
  case readmit =>
    intro s dt d hfitted hfenced hdone
    obtain ⟨u, ⟨r, hu⟩, h⟩ := dieReadmit_eq dt hfitted hfenced hdone
    have hmem (y : Nat) : memByte u.mem y = if y / 2 ^ 38 = d then memDefault else memByte s.pkg.mem y := by
      rw [hu]
      exact (dieReset_mem _ d y).trans (by rw [Package.pass_mem])
    exact ⟨_, next_pkg_congr h, u.dieState_setDieState (Package.dieFitted_lt hfitted) (by decide), mapFind_mapPut_same _ _ _,
      fun y hy => (hmem y).trans (if_pos hy), fun y hy => (hmem y).trans (if_neg hy)⟩
  case failed =>
    intro s dt d step n fails hd hstep hrun
    exact ⟨_, next_pkg_congr (readmitStep_fails dt fails s.part hstep hrun), readmitFail_shows _ hd step⟩
  case last =>
    intro s dt d n fails hd hstep
    obtain ⟨u, hfab, hcru, h⟩ := readmitStep_last dt fails s.part hstep
    refine ⟨_, next_pkg_congr h, Package.dieState_setDieState _ hd (by decide), ?_⟩
    rw [hcru]
    exact mapFind_mapPut_same _ _ _
  case active =>
    intro s dt d n hd hstep hresolved
    obtain ⟨hfenced, hrd, -⟩ := showFenced_shows ((s.pkg.pass dt).setDieState d DIE_ACTIVE) hd false
    refine ⟨_, next_pkg_congr (readmitActivate_eq dt hstep hresolved), ?_, hfenced, mapFind_mapDel_same _ _⟩
    exact (Package.dieState_congr hrd d).trans (Package.dieState_setDieState _ hd (by decide))
  case record =>
    intro s dt d gen rev w words hd hw hfloor
    have hd8 : d ≤ 8 := hd.elim Nat.le_of_eq (fun h => Nat.le_of_lt (Package.dieFitted_lt h))
    obtain ⟨hcap, hgen⟩ := takeRecord_shows (s.pkg.pass dt) hd8 (gen := gen) (rev := rev) (words := words) hw
    obtain ⟨r, f, hframe⟩ := takeRecord_frame (s.pkg.pass dt) d gen rev words
    exact ⟨_, next_pkg_congr (capabilityRecord_kept dt hd hfloor), hcap, hgen, by rw [hframe]⟩
  case low =>
    intro s dt d gen rev words hfitted hfree hstate hready hfloor
    obtain ⟨r, f, hframe⟩ := takeRecord_frame (s.pkg.pass dt) d gen rev words
    have hlt := Package.dieFitted_lt hfitted
    refine ⟨_, next_pkg_congr (capabilityRecord_low dt hfitted hfree hstate hready hfloor), Package.get_put_same _ _ _ (show 4 * d + 4 ≤ 64 by omega), ?_⟩
    rw [Package.put_mem, hframe]
    exact s.pkg.pass_mem dt

end Sys2Proof.Machine

/-! ### The power-up sequence (R423 to R426, R449) -/

namespace Sys2Proof.Machine

/-! #### What the boot of the hub die leaves -/

/-- Memory, the serial number, the sequence's start and the life cycle shown are the same. -/
structure Package.PowerKeeps (p q : Package) : Prop where
  mem : q.mem = p.mem := by rfl
  serial : q.serial = p.serial := by rfl
  goodAt : q.pwr.goodAt = p.pwr.goodAt := by rfl
  lc : q.get PWR_STATUS_LC_STATE = p.get PWR_STATUS_LC_STATE := by rfl

namespace Package.PowerKeeps

variable {p q r : Package}

theorem refl (p : Package) : p.PowerKeeps p := {}

theorem trans (h : p.PowerKeeps q) (k : q.PowerKeeps r) : p.PowerKeeps r :=
  ⟨k.mem.trans h.mem, k.serial.trans h.serial, k.goodAt.trans h.goodAt, k.lc.trans h.lc⟩

theorem each {α : Type} {l : List α} {f : Package → α → Package} (h : p.PowerKeeps q) (hf : ∀ r e, Package.PowerKeeps r (f r e)) : p.PowerKeeps (q.each l f) :=
  Package.each_keeps p.PowerKeeps f (fun r e hr => hr.trans (hf r e)) q l h

theorem wr {a v : Nat} (h : p.PowerKeeps q) (ha : a ≠ PWR_STATUS) : p.PowerKeeps (q.wr a v) := h.trans { lc := q.get_wr_ne v ha }

theorem put {f : Fld} {v : Nat} (h : p.PowerKeeps q) (hf : f.addr ≠ PWR_STATUS) : p.PowerKeeps (q.put f v) := h.wr hf

theorem setBit {a i : Nat} {b : Bool} (h : p.PowerKeeps q) (ha : a ≠ PWR_STATUS) : p.PowerKeeps (q.setBit a i b) := h.wr ha

theorem modPwr {f : PwrUnit → PwrUnit} (h : p.PowerKeeps q) (hf : (f q.pwr).goodAt = q.pwr.goodAt) : p.PowerKeeps (q.modPwr f) := h.trans { goodAt := hf }

theorem modSec {f : SecUnit → SecUnit} (h : p.PowerKeeps q) : p.PowerKeeps (q.modSec f) := h.trans {}

theorem setLnk {l : LinkUnit} (h : p.PowerKeeps q) : p.PowerKeeps { q with lnk := l } := h.trans {}

theorem raise {g : Page} {ev a0 a1 : Nat} (h : p.PowerKeeps q) (hg : PWR_STATUS ≠ IRQ_STATUS g) : p.PowerKeeps (q.raise g ev a0 a1) :=
  h.trans ⟨q.raise_mem _ _ _ _, q.raise_serial _ _ _ _, congrArg PwrUnit.goodAt (q.raise_pwr _ _ _ _), Package.get_of_rd (q.raise_rd _ _ _ _ (by decide) hg)⟩

theorem extendMr {n : Nat} {d : List Byte} (h : p.PowerKeeps q) : p.PowerKeeps (q.extendMr n d) := by
  unfold Package.extendMr
  dsimp only
  refine (h.each fun r w => (refl r).wr ?_).modSec
  unfold SEC_MR PWR_STATUS
  omega

theorem verifyClass {cls : Nat} {slots : ImageRead × ImageRead} (h : p.PowerKeeps q) : p.PowerKeeps (q.verifyClass cls slots).2 := by
  have himage : SEC_IMAGE_SLOTS ≠ PWR_STATUS := by decide
  unfold Package.verifyClass
  extract_lets good bFirst first other take fallen
  have hfallen : p.PowerKeeps fallen := h.raise (by decide)
  have htake (r : Package) (i : ImageRead) (b c : Bool) (hr : p.PowerKeeps r) : p.PowerKeeps (take r i b c).2 := by
    dsimp only [take]
    exact ((hr.setBit himage).setBit himage).modSec
  split
  · exact htake _ _ _ _ h
  · split
    · exact htake _ _ _ _ hfallen
    · exact hfallen

theorem loadClass {part : Part} {cls n : Nat} (h : p.PowerKeeps q) : p.PowerKeeps (q.loadClass part cls n).2 := by
  have hverify : p.PowerKeeps (q.verifyClass cls (part.slots cls)).2 := h.verifyClass
  unfold Package.loadClass
  split
  · next hv =>
    rw [hv] at hverify
    exact hverify.extendMr
  · next hv =>
    rw [hv] at hverify
    exact hverify

theorem readLedger {part : Part} (h : p.PowerKeeps q) : p.PowerKeeps (q.readLedger part) := by
  have hledger (v : Nat) : p.PowerKeeps (q.put PWR_STATUS_LEDGER v) := h.trans { lc := q.get_put_disjoint _ _ _ (by decide) (by decide) }
  have hshown : p.PowerKeeps (q.showLedger part) := by
    unfold Package.showLedger
    dsimp only
    split
    · exact ((hledger _).put (by decide)).put (by decide)
    · exact (hledger _).wr (by decide)
  unfold Package.readLedger
  dsimp only
  split
  · exact (hshown.extendMr.wr (by decide)).modPwr rfl
  · exact (hshown.extendMr.modPwr rfl).raise (by decide)

end Package.PowerKeeps

/-- Hub firmware shows the life cycle and its phase, and touches neither memory nor the sequence's start. -/
theorem bootHub_shows (p : Package) (q : Part) :
    let t := p.bootHub q
    t.mem = p.mem ∧ t.serial = p.serial ∧ t.pwr.goodAt = p.pwr.goodAt ∧ t.get PWR_STATUS_LC_STATE = q.lc % 2 ^ 3
      ∧ t.get PWR_STATUS_PHASE = if q.lc = LC_ENDED then PH_ENDED else PH_HUB_FW := by
  intro t
  obtain ⟨u, hu, ht⟩ : ∃ u : Package, (p.put PWR_STATUS_LC_STATE q.lc).PowerKeeps u ∧ t = if q.lc = LC_ENDED then u.put PWR_STATUS_PHASE PH_ENDED
      else (u.put PWR_STATUS_PHASE PH_HUB_FW).each u.dies (fun p d => p.setDieState d DIE_TRAINING) := by
    simp only [t]
    unfold Package.bootHub
    extract_lets shown ledger c3 c4 c2 loaded links noted site
    have hloaded : shown.PowerKeeps loaded := (Package.PowerKeeps.refl shown).readLedger.loadClass.loadClass.loadClass.modPwr rfl
    have hnoted : shown.PowerKeeps noted := hloaded.setLnk
    refine ⟨site, ?_, rfl⟩
    unfold site
    split
    · exact hnoted.put (by decide)
    · exact hnoted
  have hphase (n : Nat) : u.PowerKeeps (u.put PWR_STATUS_PHASE n) := { lc := u.get_put_disjoint _ _ _ (by decide) (by decide) }
  have hkeeps : (p.put PWR_STATUS_LC_STATE q.lc).PowerKeeps t
      ∧ t.get PWR_STATUS_PHASE = if q.lc = LC_ENDED then PH_ENDED else PH_HUB_FW := by
    rw [ht]
    split
    · exact ⟨hu.trans (hphase _), u.get_put_same _ _ (by decide)⟩
    · refine ⟨(hu.trans (hphase _)).each fun r d => (Package.PowerKeeps.refl r).put (by show FAB_DIE_STATE ≠ PWR_STATUS; decide), ?_⟩
      exact (Package.get_of_rd (f := PWR_STATUS_PHASE) (Package.each_rd (fun r d => r.rd_put_ne (FAB_DIE_STATE_STATE d) _ (by show FAB_DIE_STATE ≠ PWR_STATUS; decide)) _)).trans
        (u.get_put_same _ _ (by decide))
  exact ⟨hkeeps.1.mem, hkeeps.1.serial, hkeeps.1.goodAt, hkeeps.1.lc.trans (p.get_put_same _ _ (by decide)), hkeeps.2⟩

/-! #### Power good -/

/-- The package when power good begins: nothing in the stacks, and the sequence's start noted. -/
def Part.poweredOn (q : Part) (p : Package) (dt : Nat) : Package := { q.cold p with clock := dt, pwr := { goodAt := some 0 } }

/-- The package once the boot ROM has shown the fuses and measured itself. -/
def Part.bootRom (q : Part) (p : Package) (dt : Nat) : Package :=
  (((((q.poweredOn p dt).put PWR_STATUS_LC_STATE q.lc).showArb q).showFuses q).put SEC_STATUS_DEBUG_OPEN
    (b2n (decide (q.lc ≤ LC_MANUFACTURE) || q.lc = LC_RETURNED))).extendMr 0 (beBytes 48 (Config.romMeasure q.lc q.revoked).toNat)

theorem extendMr_rd_low (p : Package) (n : Nat) (d : List Byte) {a : Nat} (h : a < 0xF200) : (p.extendMr n d).rd a = p.rd a :=
  p.extendMr_rd n d fun i => by
    unfold SEC_MR
    omega

theorem extendMr_pwr (p : Package) (n : Nat) (d : List Byte) : (p.extendMr n d).pwr = p.pwr := by
  have heach (v : Nat → Nat) : (p.each (List.range 6) (fun p w => p.wr (SEC_MR (6 * n + w)) (v w))).pwr = p.pwr :=
    Package.each_keeps_of_mem (fun q => q.pwr = p.pwr) (fun q w _ h => (q.wr_pwr _ _).trans h) rfl
  have hsec (q : Package) (f : SecUnit → SecUnit) : (q.modSec f).pwr = q.pwr := rfl
  exact (hsec _ _).trans (heach (fun w => fieldAt (sha384 (p.mr n ++ d)) (8 * w) 8))

theorem loadClass_shows (p : Package) (q : Part) (cls n : Nat) :
    (p.loadClass q cls n).2.pwr = p.pwr ∧ ∀ a, a < 0xF060 → a ∉ evtRegs → (p.loadClass q cls n).2.rd a = p.rd a := by
  have hverify : (p.verifyClass cls (q.slots cls)).2.pwr = p.pwr ∧ ∀ a, a < 0xF060 → a ∉ evtRegs → (p.verifyClass cls (q.slots cls)).2.rd a = p.rd a := by
    unfold Package.verifyClass
    extract_lets good bFirst first other take fallen
    have hfallen : fallen.pwr = p.pwr ∧ ∀ a, a < 0xF060 → a ∉ evtRegs → fallen.rd a = p.rd a :=
      ⟨p.raise_pwr _ _ _ _, fun a ha he => p.raise_rd _ _ _ _ he (by change a ≠ 0xF060; omega)⟩
    have htake (r : Package) (i : ImageRead) (b c : Bool) : (take r i b c).2.pwr = r.pwr ∧ ∀ a, a < 0xF060 → (take r i b c).2.rd a = r.rd a := by
      dsimp only [take]
      refine ⟨rfl, fun a ha => ?_⟩
      have hne : SEC_IMAGE_SLOTS ≠ a := by
        unfold SEC_IMAGE_SLOTS
        omega
      exact (Package.rd_put_ne _ ⟨SEC_IMAGE_SLOTS, 8 + cls, 1⟩ _ hne).trans (r.rd_put_ne ⟨SEC_IMAGE_SLOTS, cls, 1⟩ _ hne)
    split
    · exact ⟨(htake p first bFirst false).1, fun a ha _ => (htake p first bFirst false).2 a ha⟩
    · split
      · exact ⟨(htake fallen other (!bFirst) true).1.trans hfallen.1, fun a ha he => ((htake fallen other (!bFirst) true).2 a ha).trans (hfallen.2 a ha he)⟩
      · exact hfallen
  unfold Package.loadClass
  split
  · next hv =>
    rw [hv] at hverify
    exact ⟨(extendMr_pwr _ _ _).trans hverify.1, fun a ha he => (extendMr_rd_low _ _ _ (by omega)).trans (hverify.2 a ha he)⟩
  · next hv =>
    rw [hv] at hverify
    exact hverify

/-- A class loads where one of its slots verifies. -/
theorem loadClass_ok {p : Package} {q : Part} {cls : Nat} (n : Nat)
    (h : imageVerifies cls (p.get SEC_STATUS_REVOKED) (p.arbCount cls) (q.slots cls).1 = true
      ∨ imageVerifies cls (p.get SEC_STATUS_REVOKED) (p.arbCount cls) (q.slots cls).2 = true) : (p.loadClass q cls n).1 = true := by
  have hsome : (p.verifyClass cls (q.slots cls)).1.isSome = true := by
    unfold Package.verifyClass
    extract_lets good bFirst first other take fallen
    have hone : good first = true ∨ good other = true := by
      unfold first other
      split
      · exact h.symm
      · exact h
    split
    · rfl
    · next hfirst =>
      rw [if_pos (hone.resolve_left hfirst)]
      rfl
  unfold Package.loadClass
  split
  · rfl
  · next hv => rw [hv] at hsome; cases hsome

section
variable {p : Package}

theorem bootRom_keeps (q : Part) (p : Package) (dt : Nat) :
    ((q.poweredOn p dt).put PWR_STATUS_LC_STATE q.lc).PowerKeeps (q.bootRom p dt) ∧ ((q.poweredOn p dt).put PWR_STATUS_LC_STATE q.lc).BootKeeps (q.bootRom p dt) := by
  have hpower := Package.PowerKeeps.refl ((q.poweredOn p dt).put PWR_STATUS_LC_STATE q.lc)
  have hboot := Package.BootKeeps.refl ((q.poweredOn p dt).put PWR_STATUS_LC_STATE q.lc)
  unfold Part.bootRom Package.showFuses Package.showArb
  refine ⟨?_, ?_⟩
  · exact ((((hpower.each fun r c => (Package.PowerKeeps.refl r).put (by show SEC_ARB ≠ PWR_STATUS; decide)).put (by decide)).put (by decide)).put (by decide)).extendMr
  · exact ((((hboot.each fun r c => (Package.BootKeeps.refl r).put (by show SEC_ARB ≠ PKG_STATUS; decide)).put (by decide)).put (by decide)).put (by decide)).extendMr

/-- The boot ROM shows the revoked keys and the counters as the fuses hold them. -/
theorem bootRom_fuses (q : Part) (p : Package) (dt : Nat) :
    (q.bootRom p dt).get SEC_STATUS_REVOKED = q.revoked % 16 ∧ (q.bootRom p dt).arbCount 0 = listAt 0 q.arb 0 % 2 ^ 7 := by
  unfold Part.bootRom Package.showFuses
  refine ⟨?_, ?_⟩
  · rw [Package.get_of_rd (f := SEC_STATUS_REVOKED) (extendMr_rd_low _ _ _ (by decide)), Package.get_put_disjoint _ _ _ _ (by decide) (by decide),
      Package.get_put_disjoint _ _ _ _ (by decide) (by decide), Package.get_put_same _ _ _ (by decide)]
    exact Nat.mod_mod _ _
  · have harb := Package.showArb_arbCount ((q.poweredOn p dt).put PWR_STATUS_LC_STATE q.lc) q (c := 0) (by decide)
    unfold Package.arbCount at harb ⊢
    rw [extendMr_rd_low _ _ _ (by decide), Package.rd_put_ne _ _ _ (show SEC_STATUS_DEBUG_OPEN.addr ≠ SEC_ARB by decide),
      Package.rd_put_ne _ _ _ (show SEC_STATUS_PENDING_LC.addr ≠ SEC_ARB by decide), Package.rd_put_ne _ _ _ (show SEC_STATUS_REVOKED.addr ≠ SEC_ARB by decide)]
    exact harb

/-- The package as hub firmware starts. -/
def Package.startFw (p : Package) (dt : Nat) (devcert : Option (List Byte)) : Package :=
  let u := (p.put PWR_BOOT_MS_HUB_FW (min 65535 (dt / Config.msUnits))).modPwr (fun w => { w with fw := true })
  ({ u with fresh := u.fresh + 1, sec := { u.sec with chain := devcert.getD [] ++ Config.attestCert u.fresh } }).put SEC_STATUS_NO_DEVCERT (b2n devcert.isNone)

theorem reportFatal_pwr (p : Package) (g : Page) (cause a0 a1 : Nat) : (p.reportFatal g 8 cause a0 a1).pwr = p.pwr := by
  rw [Package.reportFatal, if_pos rfl, Package.raise_pwr, Package.put_pwr, Package.report_pwr]

/-- Power good, past the boot ROM: the hub die's self-test, then its image. -/
theorem powerGood_eq (dt : Nat) (ok : Bool) (devcert : Option (List Byte)) (q : Part) (hoff : p.pwr.goodAt = none) :
    powerGood dt ok devcert q p = if !ok then (q.coldReset p, ((q.coldReset p).bootRom p dt).bootFatal 1)
      else if !(((q.coldReset p).bootRom p dt).loadClass (q.coldReset p) 0 1).1
        then (q.coldReset p, (((q.coldReset p).bootRom p dt).loadClass (q.coldReset p) 0 1).2.bootFatal 2)
      else (q.coldReset p, ((((q.coldReset p).bootRom p dt).loadClass (q.coldReset p) 0 1).2.startFw dt devcert).bootHub (q.coldReset p)) := by
  obtain ⟨rom, hrom⟩ : ∃ rom, rom = (q.coldReset p).bootRom p dt := ⟨_, rfl⟩
  unfold powerGood
  rw [hoff, if_neg (by decide)]
  extract_lets q' src p0 p1 p2 p3 p4 c0 p5 sec p6 p7
  have hp4 : p4 = rom := hrom.symm
  clear_value p4
  rw [← hrom]
  subst hp4
  have hp7 : p7 = c0.2.startFw dt devcert := rfl
  clear_value p7
  rw [hp7]

theorem powerGood_starts (dt : Nat) (devcert : Option (List Byte)) (q : Part) (hoff : p.pwr.goodAt = none)
    (hload : (((q.coldReset p).bootRom p dt).loadClass (q.coldReset p) 0 1).1 = true) : powerGood dt true devcert q p
      = (q.coldReset p, ((((q.coldReset p).bootRom p dt).loadClass (q.coldReset p) 0 1).2.startFw dt devcert).bootHub (q.coldReset p)) := by
  rw [powerGood_eq dt _ devcert q hoff, if_neg (by decide), hload, if_neg (by decide)]

theorem powerGood_fails (dt : Nat) (devcert : Option (List Byte)) (q : Part) (hoff : p.pwr.goodAt = none) :
    powerGood dt false devcert q p = (q.coldReset p, ((q.coldReset p).bootRom p dt).bootFatal 1) := by
  rw [powerGood_eq dt _ devcert q hoff, if_pos (by decide)]

/-- The package that hub firmware starts on: the sequence's start, nothing in the stacks, and no stage. -/
theorem startFw_shows (dt : Nat) (devcert : Option (List Byte)) (q q' : Part) :
    let t := (((q.bootRom p dt).loadClass q' 0 1).2.startFw dt devcert)
    t.pwr.fw = true ∧ t.pwr.goodAt = some 0 ∧ t.clock = dt ∧ t.mem = [] ∧ t.stages = [] ∧ t.serial = q.serial := by
  intro t
  obtain ⟨hpower, hboot⟩ := bootRom_keeps q p dt
  obtain ⟨u, hu⟩ : ∃ u, u = ((q.bootRom p dt).loadClass q' 0 1).2 := ⟨_, rfl⟩
  have hukeeps : ((q.poweredOn p dt).put PWR_STATUS_LC_STATE q.lc).PowerKeeps u := by
    rw [hu]
    exact hpower.loadClass
  have huboot : ((q.poweredOn p dt).put PWR_STATUS_LC_STATE q.lc).BootKeeps u := by
    rw [hu]
    exact hboot.loadClass
  have ht : t = u.startFw dt devcert := by
    rw [hu]
  rw [ht]
  exact ⟨rfl, hukeeps.goodAt, huboot.clock, hukeeps.mem, huboot.stages, hukeeps.serial⟩

/-! #### Dies power up -/

theorem Package.pass_booting (p : Package) (dt : Nat) : (p.pass dt).booting = p.booting := by
  unfold Package.booting Package.lcState
  rw [Package.pass_pwr, Package.pass_has, Package.pass_get, Package.pass_fatal]

theorem readFlash_nil (q : Part) : q.readFlash [] = q := rfl

theorem diePowerUp_eq {d : Nat} (dt : Nat) (q : Part) (hboot : p.booting = true) (hfitted : p.dieFitted d = true) (hended : d ∉ p.pwr.ended)
    (hoff : d ∉ p.pwr.powered) (hstack : p.pwr.stackFw = true) (hload : (((p.pass dt).put PWR_STATUS_PHASE PH_DIES).loadClass q 1 (4 + d)).1 = true) :
    diePowerUp dt d q p = (((p.pass dt).put PWR_STATUS_PHASE PH_DIES).loadClass q 1 (4 + d)).2.modPwr (fun w => { w with powered := insertRising d w.powered }) := by
  have hended' : p.pwr.ended.contains d = false := by simpa using hended
  have hoff' : p.pwr.powered.contains d = false := by simpa using hoff
  unfold diePowerUp
  dsimp only
  rw [Package.pass_booting, hboot, Package.pass_dieFitted, hfitted, Package.pass_pwr, hended', hoff', if_neg (by decide), hload, if_neg (by decide), hstack,
    if_neg (by decide)]

/-- A die whose boot fails is fenced, with the result that names why (R426). -/
theorem dieBootFail_shows (p : Package) {d result : Nat} (hd : d < 8) (hresult : result < 16) :
    let t := p.dieBootFail d result
    t.dieState d = DIE_FENCED ∧ t.dieFenced d = true ∧ t.get (PWR_DIE_BOOT_RESULT d) = result
      ∧ bitAt (t.rd (IRQ_STATUS .pwr)) EV_PWR_DIE_BOOT_FAIL = true := by
  intro t
  obtain ⟨u, v, hv, ht⟩ : ∃ u v : Package, v = ((u.setDieState d DIE_FENCED).showFenced d true).put (PWR_DIE_BOOT_RESULT d) result
      ∧ ∃ a0 a1, t = (v.each (v.shroudsOf d) (fun p j => p.setShroudState j SHROUD_DOWN)).raise .pwr EV_PWR_DIE_BOOT_FAIL a0 a1 := ⟨_, _, rfl, _, _, rfl⟩
  obtain ⟨a0, a1, ht⟩ := ht
  have hdown {a : Nat} (h : a < 0xB200 ∨ 0xB2C0 ≤ a) : (v.each (v.shroudsOf d) (fun p j => p.setShroudState j SHROUD_DOWN)).rd a = v.rd a := by
    refine Package.each_keeps_of_mem (fun q => q.rd a = v.rd a) (fun q j hj hq => (q.rd_put_ne _ _ ?_).trans hq) rfl
    have hlt : j < 12 := List.mem_range.mp (List.mem_filter.mp hj).1
    change 0xB200 + 0x10 * j ≠ a
    omega
  have hrd {a : Nat} (h : a < 0xB200 ∨ 0xB2C0 ≤ a) (he : a ∉ evtRegs) (hi : a ≠ IRQ_STATUS .pwr) : t.rd a = v.rd a := by
    rw [ht]
    exact (Package.raise_rd _ _ _ _ _ he hi).trans (hdown h)
  have hboot (q : Package) {a : Nat} (h : PWR_DIE_BOOT ≠ a) : (q.put (PWR_DIE_BOOT_RESULT d) result).rd a = q.rd a := q.rd_put_ne _ _ h
  obtain ⟨hfenced, hstate, -⟩ := showFenced_shows (u.setDieState d DIE_FENCED) hd true
  refine ⟨?_, ?_, ?_, ?_⟩
  · rw [Package.dieState_congr (hrd (by decide) (by decide) (by decide)), hv, Package.dieState_congr (hboot _ (by decide)), Package.dieState_congr hstate]
    exact u.dieState_setDieState hd (by decide)
  · unfold Package.dieFenced at hfenced ⊢
    rw [Package.get_of_rd (f := FAB_STATUS_DIE_MASK) (hrd (a := FAB_STATUS) (by decide) (by decide) (by decide)), hv,
      Package.get_of_rd (f := FAB_STATUS_DIE_MASK) (hboot _ (a := FAB_STATUS) (by decide))]
    exact hfenced
  · rw [Package.get_of_rd (f := PWR_DIE_BOOT_RESULT d) (hrd (a := PWR_DIE_BOOT) (by decide) (by decide) (by decide)), hv]
    exact (Package.get_put_same _ _ _ (show 4 * d + 4 ≤ 64 by omega)).trans (Nat.mod_eq_of_lt hresult)
  · rw [ht]
    exact Package.raise_status _ _ _ _ _ (by decide)

/-- A die whose self-test passed its control core and its stacks is ACTIVE. -/
theorem dieSelftestDone_good {d control : Nat} (dt : Nat) (fails : List (Nat × Bool)) (repairs : List Repair) (q : Part) (hboot : p.booting = true)
    (hpowered : d ∈ p.pwr.powered) (hended : d ∉ p.pwr.ended) (hcontrol : 6 ≤ control) :
    ∃ u : Package, dieSelftestDone dt d fails control true repairs q p
      = ((u.modPwr (fun w => { w with ended := insertRising d w.ended })).setDieState d DIE_ACTIVE).put (PWR_DIE_BOOT_RESULT d) DB_ACTIVE := by
  have hended' : p.pwr.ended.contains d = false := by simpa using hended
  have hpowered' : p.pwr.powered.contains d = true := by simpa using hpowered
  unfold dieSelftestDone
  extract_lets u
  rw [Package.pass_booting, hboot, Package.pass_pwr, hended', hpowered', if_neg (by decide), if_neg (Nat.not_lt.mpr hcontrol), if_neg (by decide)]
  exact ⟨_, rfl⟩

theorem dieSelftestDone_bad {d control : Nat} {stackOk : Bool} (dt : Nat) (fails : List (Nat × Bool)) (repairs : List Repair) (q : Part)
    (hboot : p.booting = true) (hpowered : d ∈ p.pwr.powered) (hended : d ∉ p.pwr.ended) (hbad : control < 6 ∨ stackOk = false) :
    dieSelftestDone dt d fails control stackOk repairs q p = (p.pass dt).dieBootFail d (if control < 6 then DB_CONTROL else DB_STACK) := by
  have hended' : p.pwr.ended.contains d = false := by simpa using hended
  have hpowered' : p.pwr.powered.contains d = true := by simpa using hpowered
  unfold dieSelftestDone
  extract_lets u
  rw [Package.pass_booting, hboot, Package.pass_pwr, hended', hpowered', if_neg (by decide)]
  by_cases h : control < 6
  · rw [if_pos h, if_pos h]
  · rw [if_neg h, if_neg h, hbad.resolve_left h, if_pos (by decide)]

theorem dieBootTimeout_eq {d start : Nat} (dt : Nat) (hboot : p.booting = true) (hfitted : p.dieFitted d = true) (hended : d ∉ p.pwr.ended)
    (hgood : p.pwr.goodAt = some start) (hlate : start + 5500 * Config.msUnits ≤ p.clock + dt) :
    dieBootTimeout dt d p = (p.pass dt).dieBootFail d DB_TIMEOUT := by
  have hended' : p.pwr.ended.contains d = false := by simpa using hended
  unfold dieBootTimeout
  dsimp only
  rw [Package.pass_booting, hboot, Package.pass_dieFitted, hfitted, Package.pass_pwr, hended', hgood, Package.pass_clock]
  exact if_pos (by simpa using hlate)

/-! #### READY -/

theorem pkgReady_eq {start : Nat} (dt : Nat) (hboot : p.booting = true) (hgood : p.pwr.goodAt = some start) (hlate : start + 6000 * Config.msUnits ≤ p.clock + dt) :
    ∃ u n, u = (((p.pass dt).put PKG_STATUS_READY 1).put PWR_STATUS_PHASE PH_READY).put PWR_BOOT_MS_READY n
      ∧ pkgReady dt p = (u.raise .pwr EV_PWR_READY u.beatNo 0).startLedgerWrite := by
  unfold pkgReady
  dsimp only
  rw [Package.pass_booting, hboot, if_neg (by decide), Package.pass_pwr, hgood, Package.pass_clock, if_neg (by simp; omega)]
  exact ⟨_, _, rfl, rfl⟩

theorem pkgReady_shows {start : Nat} (dt : Nat) (hboot : p.booting = true) (hgood : p.pwr.goodAt = some start)
    (hlate : start + 6000 * Config.msUnits ≤ p.clock + dt) :
    let t := pkgReady dt p
    t.has PKG_STATUS_READY = true ∧ t.get PWR_STATUS_PHASE = PH_READY ∧ bitAt (t.rd (IRQ_STATUS .pwr)) EV_PWR_READY = true := by
  intro t
  obtain ⟨u, n, hu, ht⟩ := pkgReady_eq dt hboot hgood hlate
  have hrd {a : Nat} (he : a ∉ evtRegs) (hi : a ≠ IRQ_STATUS .pwr) : t.rd a = u.rd a := by
    simp only [t]
    rw [ht, startLedgerWrite_rd, Package.raise_rd _ _ _ _ _ he hi]
  refine ⟨?_, ?_, ?_⟩
  · rw [Package.has_of_rd (f := PKG_STATUS_READY) (hrd (by decide) (by decide)), hu,
      Package.has_of_rd (f := PKG_STATUS_READY) (Package.rd_put_ne _ PWR_BOOT_MS_READY _ (show PWR_BOOT_MS ≠ PKG_STATUS by decide)),
      Package.has_of_rd (f := PKG_STATUS_READY) (Package.rd_put_ne _ PWR_STATUS_PHASE _ (show PWR_STATUS ≠ PKG_STATUS by decide))]
    exact Package.has_put_one _ rfl (by decide)
  · rw [Package.get_of_rd (f := PWR_STATUS_PHASE) (hrd (by decide) (by decide)), hu,
      Package.get_of_rd (f := PWR_STATUS_PHASE) (Package.rd_put_ne _ PWR_BOOT_MS_READY _ (show PWR_BOOT_MS ≠ PWR_STATUS by decide))]
    exact Package.get_put_same _ _ _ (by decide)
  · simp only [t]
    rw [ht, startLedgerWrite_rd]
    exact Package.raise_status _ _ _ _ _ (by decide)

end

/-- Settles O49, by the command. -/
theorem packagePowersUp : Obligations.PackagePowersUp := by
  unfold Obligations.PackagePowersUp
  refine ⟨?starts, ?fails, ?again, ?die, ?selftest, ?failed, ?timeout, ?ready⟩
  case starts =>
    intro s dt flash cert q hoff hq hverify
    have hoffB : s.pkg.pwr.goodAt.isSome = false := by rw [hoff]; rfl
    have hload : ((q.bootRom s.pkg dt).loadClass q 0 1).1 = true := by
      obtain ⟨hrevoked, harb⟩ := bootRom_fuses q s.pkg dt
      exact loadClass_ok 1 (by rwa [hrevoked, harb])
    have hexec : exec (.powerGood dt true flash cert) s
        = onBoth (fun q p => powerGood dt true cert (if p.pwr.goodAt.isSome then q else q.readFlash flash) p) s := rfl
    have hstart : powerGood dt true cert (if s.pkg.pwr.goodAt.isSome then s.part else s.part.readFlash flash) s.pkg
        = (q, (((q.bootRom s.pkg dt).loadClass q 0 1).2.startFw dt cert).bootHub q) := by
      rw [hoffB, if_neg Bool.false_ne_true]
      rw [hq] at hload ⊢
      exact powerGood_starts dt cert _ hoff hload
    obtain ⟨hfw, hgood, hclock, hmem, hstages, hserial⟩ := startFw_shows (p := s.pkg) dt cert q q
    obtain ⟨u, hu⟩ : ∃ u, u = ((q.bootRom s.pkg dt).loadClass q 0 1).2.startFw dt cert := ⟨_, rfl⟩
    rw [← hu] at hstart hfw hgood hclock hmem hstages hserial
    obtain ⟨hbmem, hbserial, hbgood, hblc, hbphase⟩ := bootHub_shows u q
    have hboot := (Package.BootKeeps.refl u).bootHub (part := q)
    exact ⟨_, hexec.trans (onBoth_of hstart), rfl, hboot.fw.trans hfw, hbgood.trans hgood, hboot.clock.trans hclock, hbmem.trans hmem, hboot.stages.trans hstages,
      hbserial.trans hserial, hblc, hbphase⟩
  case fails =>
    intro s dt flash cert hoff
    have hoffB : s.pkg.pwr.goodAt.isSome = false := by rw [hoff]; rfl
    have hexec : exec (.powerGood dt false flash cert) s
        = onBoth (fun q p => powerGood dt false cert (if p.pwr.goodAt.isSome then q else q.readFlash flash) p) s := rfl
    obtain ⟨q, hq⟩ : ∃ q, q = (s.part.readFlash flash).coldReset s.pkg := ⟨_, rfl⟩
    have hfail : powerGood dt false cert (if s.pkg.pwr.goodAt.isSome then s.part else s.part.readFlash flash) s.pkg
        = (q, (q.bootRom s.pkg dt).bootFatal 1) := by
      rw [hoffB, if_neg Bool.false_ne_true, hq]
      exact powerGood_fails dt cert _ hoff
    refine ⟨_, hexec.trans (onBoth_of hfail), Package.reportFatal_fatal _ _ _ _ _, ?_, ?_⟩
    · exact (Package.get_of_rd (f := PWR_STATUS_PHASE) (Package.reportFatal_rd _ _ _ _ _ (by decide))).trans (Package.get_put_same _ _ _ (by decide))
    · dsimp only
      rw [Package.bootFatal, reportFatal_pwr, Package.put_pwr, (bootRom_keeps q s.pkg dt).2.fw, Package.put_pwr]
      rfl
  case again =>
    intro s dt ok flash cert hon
    have honB : s.pkg.pwr.goodAt.isSome = true := Option.isSome_iff_ne_none.mpr hon
    have hexec : exec (.powerGood dt ok flash cert) s
        = onBoth (fun q p => powerGood dt ok cert (if p.pwr.goodAt.isSome then q else q.readFlash flash) p) s := rfl
    have hsame : powerGood dt ok cert (if s.pkg.pwr.goodAt.isSome then s.part else s.part.readFlash flash) s.pkg = (s.part, s.pkg) := by
      unfold powerGood
      rw [honB, if_pos rfl, if_pos rfl]
    exact hexec.trans (onBoth_of (x := (s.part, s.pkg)) hsame)
  case die =>
    intro s dt d hboot hfitted hended hoff hstack hverify _
    have hrd {a : Nat} (h : PWR_STATUS ≠ a) : ((s.pkg.pass dt).put PWR_STATUS_PHASE PH_DIES).rd a = s.pkg.rd a :=
      (Package.rd_put_ne _ PWR_STATUS_PHASE _ h).trans (s.pkg.pass_rd dt a)
    have hload : (((s.pkg.pass dt).put PWR_STATUS_PHASE PH_DIES).loadClass s.part 1 (4 + d)).1 = true := by
      refine loadClass_ok _ (.inl ?_)
      rw [Package.get_of_rd (f := SEC_STATUS_REVOKED) (hrd (by decide))]
      unfold Package.arbCount at hverify ⊢
      rwa [hrd (by decide)]
    obtain ⟨-, hkept⟩ := loadClass_shows ((s.pkg.pass dt).put PWR_STATUS_PHASE PH_DIES) s.part 1 (4 + d)
    have hexec : exec (.diePowerUp dt d []) s = onBoth (fun q p => (q.readFlash [], diePowerUp dt d (q.readFlash []) p)) s := rfl
    obtain ⟨t, ht⟩ : ∃ t, t = diePowerUp dt d s.part s.pkg := ⟨_, rfl⟩
    have hup : (s.part.readFlash [], diePowerUp dt d (s.part.readFlash []) s.pkg) = (s.part, t) := by rw [readFlash_nil, ht]
    rw [diePowerUp_eq dt s.part hboot hfitted hended hoff hstack hload] at ht
    refine ⟨_, hexec.trans (onBoth_of hup), ?_, ?_, rfl⟩
    · dsimp only
      rw [ht]
      exact mem_insertRising _ _
    · have hmod (r : Package) (f : PwrUnit → PwrUnit) (a : Nat) : (r.modPwr f).rd a = r.rd a := rfl
      dsimp only
      rw [ht, Package.get_of_rd (f := PWR_STATUS_PHASE) ((hmod _ _ _).trans (hkept _ (by decide) (by decide)))]
      exact Package.get_put_same _ _ _ (by decide)
  case selftest =>
    intro s dt d control fails repairs hboot hd hpowered hended hcontrol
    obtain ⟨u, h⟩ := dieSelftestDone_good dt fails repairs s.part hboot hpowered hended hcontrol
    have hnoted (f : Fld) (v : Nat) : ((u.modPwr (fun w => { w with ended := insertRising d w.ended })).put f v).pwr.ended = insertRising d u.pwr.ended := rfl
    refine ⟨_, next_pkg_congr h, ?_, (Package.get_put_same _ _ _ (show 4 * d + 4 ≤ 64 by omega)).trans rfl, ?_⟩
    rotate_left
    · rw [Package.put_pwr, Package.setDieState, hnoted]
      exact mem_insertRising _ _
    exact (Package.dieState_congr (Package.rd_put_ne _ (PWR_DIE_BOOT_RESULT d) _ (show PWR_DIE_BOOT ≠ FAB_DIE_STATE by decide)) d).trans
      (Package.dieState_setDieState _ hd (by decide))
  case failed =>
    intro s dt d control fails repairs stackOk hboot hd hpowered hended hbad
    have hresult : (if control < 6 then DB_CONTROL else DB_STACK) < 16 := by split <;> decide
    exact ⟨_, next_pkg_congr (dieSelftestDone_bad dt fails repairs s.part hboot hpowered hended hbad), dieBootFail_shows _ hd hresult⟩
  case timeout =>
    intro s dt d start hboot hfitted hended hgood hlate
    obtain ⟨hstate, -, hresult, -⟩ := dieBootFail_shows (s.pkg.pass dt) (Package.dieFitted_lt hfitted) (show DB_TIMEOUT < 16 by decide)
    exact ⟨_, next_pkg_congr (dieBootTimeout_eq dt hboot hfitted hended hgood hlate), hstate, hresult⟩
  case ready =>
    intro s dt start hboot hgood hlate
    exact ⟨{ s with pkg := pkgReady dt s.pkg }, rfl, pkgReady_shows dt hboot hgood hlate⟩

end Sys2Proof.Machine

/-! ### How a phase starts late and how it ends (R37, R38, R41, R57, R100, R380) -/

namespace Sys2Proof.Machine

namespace Package.KeepsSched

variable {p q r : Package}

theorem startCores (p : Package) (cores : List (Nat × Nat)) (job : Nat × Nat) : p.KeepsSched (p.startCores cores job) := each (fun _ _ => by exact ⟨rfl, rfl⟩) p _

theorem bump48 (p : Package) (a n : Nat) : p.KeepsSched (p.bump48 a n) := ⟨rfl, rfl⟩

theorem when (p : Package) (b : Bool) {f : Package → Package} (h : ∀ q : Package, q.KeepsSched (f q)) : p.KeepsSched (p.when b f) := by
  unfold Package.when
  split
  · exact h p
  · exact refl p

end Package.KeepsSched

section
variable {p : Package} {s : Nat}

theorem Package.setQueue_groups (p : Package) (s : Nat) (d : Dir) (q : Queue) : (p.setQueue s d q).groups = p.groups := by
  cases d <;> rfl

/-! #### A phase begins -/

/-- A backward phase that begins, and the window that counts it. -/
theorem beginPhase_bwd (p : Package) (g s : Nat) (w : Window) (idx mb step entry : Nat) (e : Desc) :
    let t := p.beginPhase g s w .bwd idx mb step entry e
    ∃ ph, (t.stg s).phase = some ph ∧ ph.dir = .bwd ∧ ph.step = step ∧ ph.microBatch = mb ∧ ph.startAt = p.clock
      ∧ (t.grp g).started = (p.grp g).started + 1 := by
  intro t
  simp only [t]
  unfold Package.beginPhase
  extract_lets q version chans recompute now late ph p1 p2 p3 p4 p5 p6 p7 p8 n p9
  have h1 : p1 = p := if_neg (by simp)
  have h2 : p2.groups = p.groups := (Package.setQueue_groups p1 s .bwd _).trans (congrArg Package.groups h1)
  have h3 : p2.KeepsSched p3 := Package.KeepsSched.each (fun _ _ => Package.KeepsSched.put _ _ _) p2 _
  have h4 : (p4.stg s).phase = some ph ∧ p4.groups = p.groups :=
    ⟨congrArg Stage.phase (Package.stg_modStg_same _ s _), h3.groups.trans h2⟩
  have h5 : (p5.stg s).phase = some ph ∧ p5.groups = p.groups := by
    refine Package.each_keeps (fun r => (r.stg s).phase = some ph ∧ r.groups = p.groups) _ (fun r m hr => ⟨?_, ?_⟩) p4 _ h4
    rotate_left
    · exact hr.2
    rw [Package.stg_modStg]
    split
    · next hm => exact hm ▸ hr.1
    · exact hr.1
  have h6 : p5.KeepsSched p6 := (Package.KeepsSched.bump48 _ _ _).trans (Package.KeepsSched.when _ _ fun r => ⟨rfl, rfl⟩)
  have h7 : p7 = p6 := if_neg (by simp)
  have h8 : p7.KeepsSched p8 := by
    refine Package.KeepsSched.each (fun r c => ?_) p7 _
    split
    · split
      · exact .startCores r _ _
      · exact .refl r
    · exact .refl r
  have hkeeps : p9.KeepsSched ((p9.setWinState g (windowState w n)).showGroup g) := (Package.KeepsSched.putGroup _ _ _ _).trans (Package.KeepsSched.showGroup _ g)
  rw [h7] at h8
  have h58 := h6.trans h8
  refine ⟨ph, ?_, rfl, rfl, rfl, ?_, ?_⟩
  · rw [hkeeps.stg, Package.modGrp_stg, h58.stg]
    exact h5.1
  · rfl
  · rw [hkeeps.grp, Package.grp_modGrp_same]
    change (p8.grp g).started + 1 = _
    rw [h58.grp, Package.grp_of_groups h5.2]

theorem tryStart_bwd {g idx mb step i : Nat} {w : Window} {st : EntrySt} {e : Desc} (hcur : (p.grp g).cur = some w)
    (hnext : (p.grp g).next = some (.bwd, idx, mb, step)) (hverdict : p.verdict g = .start) (hhead : (p.queue w.owner .bwd).head = some (i, st))
    (hdesc : p.descOf w.owner .bwd i = some e) : p.tryStart g = p.beginPhase g w.owner w .bwd idx mb step i e := by
  unfold Package.tryStart
  rw [hcur, hnext]
  dsimp only
  rw [hverdict]
  dsimp only
  rw [hhead]
  dsimp only
  rw [hdesc]
  rfl

theorem Package.pass_queue_bwd (p : Package) (dt s : Nat) : (p.pass dt).queue s .bwd = p.queue s .bwd := p.pass_stg_bq dt s

theorem Package.pass_descOf (p : Package) (dt s : Nat) (d : Dir) (i : Nat) : (p.pass dt).descOf s d i = p.descOf s d i := by
  have haddr : (p.pass dt).qDescAddr s d i = p.qDescAddr s d i := by
    unfold Package.qDescAddr Package.qBase
    cases d <;> simp only [Package.pass_rd]
  unfold Package.descOf
  rw [haddr, Package.pass_load]

theorem phaseLateStart_eq {w : Window} (dt : Nat) (hearly : (p.pass dt).beforeDeadline = true) (hgave : (p.stg s).gaveUp = none)
    (hcur : (p.grp (p.leader s)).cur = some w) (howner : w.owner = s) : phaseLateStart dt s p = (p.pass dt).tryStart (p.leader s) := by
  unfold phaseLateStart
  dsimp only
  rw [hearly, Package.pass_stg_gaveUp, hgave, Package.pass_leader, Package.pass_grp, hcur]
  exact if_pos (by simp [howner])

/-! #### The work deadline -/

/-- A stage that gives its slot up at the work deadline. -/
def Package.settleSlot (p : Package) (s : Nat) : Package := match p.nextOf s with
  | none => p
  | some _ => if (p.stg s).slotUsed then p else
      let c := p.stageCause s
      p.modStg s (fun x => { x with gaveUp := some c })

theorem workDeadline_eq (dt : Nat) (p : Package) : workDeadline dt p = (p.pass dt).each (p.pass dt).countingStages Package.settleSlot := rfl

theorem settleSlot_cases (p : Package) (s : Nat) : p.settleSlot s = p ∨ ∃ c, p.settleSlot s = p.modStg s (fun x => { x with gaveUp := some c }) := by
  unfold Package.settleSlot
  split
  · exact .inl rfl
  · split
    · exact .inl rfl
    · exact .inr ⟨_, rfl⟩

theorem settleSlot_gaveUp (hnext : (p.nextOf s).isSome = true) (hfree : (p.stg s).slotUsed = false) : ((p.settleSlot s).stg s).gaveUp.isSome = true := by
  unfold Package.settleSlot
  split
  · next h => rw [h] at hnext; cases hnext
  · rw [hfree, if_neg Bool.false_ne_true]
    dsimp only
    rw [Package.stg_modStg_same]
    rfl

/-- Settling a stage leaves what the next phases are and which slots are used, and takes no cause back. -/
theorem settleSlot_keeps (p : Package) (s t : Nat) : (p.settleSlot s).nextOf t = p.nextOf t ∧ ((p.settleSlot s).stg t).slotUsed = (p.stg t).slotUsed
    ∧ ((p.stg t).gaveUp.isSome = true → ((p.settleSlot s).stg t).gaveUp.isSome = true) := by
  obtain h | ⟨c, h⟩ := settleSlot_cases p s
  · rw [h]
    exact ⟨rfl, rfl, id⟩
  · rw [h, Package.stg_modStg]
    refine ⟨rfl, ?_, ?_⟩
    · split
      · rfl
      · rfl
    · split
      · exact fun _ => rfl
      · exact id

theorem each_settleSlot {l : List Nat} {t : Nat} (p : Package) (hnext : (p.nextOf t).isSome = true) (hfree : (p.stg t).slotUsed = false)
    (h : t ∈ l ∨ (p.stg t).gaveUp.isSome = true) : ((p.each l Package.settleSlot).stg t).gaveUp.isSome = true := by
  induction l generalizing p with
  | nil => exact h.resolve_left List.not_mem_nil
  | cons s l ih =>
    obtain ⟨hnext', hfree', hkeep⟩ := settleSlot_keeps p s t
    refine ih (p.settleSlot s) (by rwa [hnext']) (hfree'.trans hfree) ?_
    obtain hin | hgave := h
    · obtain rfl | hin := List.mem_cons.mp hin
      · exact .inr (settleSlot_gaveUp hnext hfree)
      · exact .inl hin
    · exact .inr (hkeep hgave)

/-! #### A phase ends -/

/-- The record of a phase that ends is completed or freed, and the phase is over. -/
theorem endPhase_phase (p : Package) (s : Nat) : ((p.endPhase s).stg s).phase = none := by
  unfold Package.endPhase
  split
  · assumption
  · next ph _ =>
    extract_lets p1 p2 p3 p4 p5 g n p6
    have h4 : (p4.stg s).phase = none := congrArg Stage.phase (p3.stg_modStg_same s _)
    have h5 : (p5.stg s).phase = none := by
      unfold p5
      split
      · rw [Package.stg_modStg_same]
        exact h4
      · exact h4
    split
    · exact h5
    · next w _ =>
      split
      · exact h5
      · have h6 : (p6.stg s).phase = none := h5
        split
        · unfold Package.windowDone
          extract_lets p7
          have h7 : (p7.stg s).phase = none := h6
          split
          · rw [(Package.KeepsSched.raise p7 _ _ _ _).stg]
            exact h7
          · exact h7
        · exact h6

/-! #### The end of compute -/

/-- The stages and groups stay, and so does every register of the stages' pages. -/
structure Package.KeepsStagePages (p q : Package) : Prop where
  sched : p.KeepsSched q
  clock : q.clock = p.clock
  rd : ∀ a, 0x10000 ≤ a → a < 0x30000 → q.rd a = p.rd a

namespace Package.KeepsStagePages

variable {p q r : Package}

theorem refl (p : Package) : p.KeepsStagePages p := ⟨.refl p, rfl, fun _ _ _ => rfl⟩

theorem trans (h : p.KeepsStagePages q) (k : q.KeepsStagePages r) : p.KeepsStagePages r :=
  ⟨h.sched.trans k.sched, k.clock.trans h.clock, fun a ha hb => (k.rd a ha hb).trans (h.rd a ha hb)⟩

theorem of_frame (h : p.KeepsSched q) (hclock : q.clock = p.clock) (hrd : ∀ a, q.rd a = p.rd a) : p.KeepsStagePages q := ⟨h, hclock, fun a _ _ => hrd a⟩

theorem wr (p : Package) {a : Nat} (v : Nat) (h : a < 0x10000 ∨ 0x30000 ≤ a) : p.KeepsStagePages (p.wr a v) :=
  ⟨.wr p a v, rfl, fun b hb hb' => p.rd_wr_ne v (by omega)⟩

theorem each {α : Type} {l : List α} {f : Package → α → Package} (hf : ∀ (q : Package) (e : α), e ∈ l → q.KeepsStagePages (f q e)) (p : Package) :
    p.KeepsStagePages (p.each l f) :=
  Package.each_keeps_of_mem p.KeepsStagePages (fun q e he h => h.trans (hf q e he)) (refl p)

theorem closeCore (p : Package) (e : Nat × Nat) : p.KeepsStagePages (p.closeCore e) := by
  have hacc {o : Nat} : pageACC e.1 + o < 0x10000 ∨ 0x30000 ≤ pageACC e.1 + o := by
    unfold pageACC pageD
    omega
  unfold Package.closeCore Package.when Package.releaseStats
  extract_lets n
  have hstats (q : Package) : q.KeepsStagePages (q.each (q.core e.1 e.2).heldStats (fun p e => p.addStats e.1 e.2.1 e.2.2)) :=
    each (fun _ _ _ => by exact of_frame ⟨rfl, rfl⟩ rfl (fun _ => rfl)) q
  have hclose (q : Package) : q.KeepsStagePages ((q.put ⟨ACC_STATUS e.1, e.2, 1⟩ 0).releaseStats e.1 e.2) :=
    (wr q _ hacc).trans ((hstats _).trans (of_frame ⟨rfl, rfl⟩ rfl (fun _ => rfl)))
  split
  · exact (wr p _ hacc).trans (hclose _)
  · exact hclose p

theorem closeCores (p : Package) (s : Nat) : p.KeepsStagePages (p.closeCores s) := each (fun q e _ => closeCore q e) p

theorem nextOnClusters (p : Package) (s : Nat) : p.KeepsStagePages (p.nextOnClusters s) := by
  refine each (fun q c _ => ?_) p
  split
  · exact each (fun _ _ _ => by exact of_frame ⟨rfl, rfl⟩ rfl (fun _ => rfl)) q
  · exact refl q

theorem sendMask (p : Package) (mask dest cls len : Nat) (body : MsgBody) : p.KeepsStagePages (p.sendMask mask dest cls len body) := by
  unfold Package.sendMask
  split
  · exact of_frame ⟨rfl, rfl⟩ rfl (fun _ => rfl)
  · unfold Package.noRoute
    extract_lets l q quiet
    have hlast (u : LinkUnit) : p.KeepsStagePages { p with lnk := u } := of_frame ⟨rfl, rfl⟩ rfl (fun _ => rfl)
    have hcount (r : Package) : r.KeepsStagePages (r.bump64 LNK_NO_ROUTE 1) := wr r _ (by decide)
    have hq : p.KeepsStagePages q := (hlast _).trans (hcount _)
    have hmarked (u : LinkUnit) : p.KeepsStagePages { q with lnk := u } := hq.trans (of_frame ⟨rfl, rfl⟩ rfl (fun _ => rfl))
    split
    · exact hq
    · refine (hmarked _).trans ⟨.raise _ _ _ _ _, Package.raise_clock _ _ _ _ _, fun a ha _ => Package.raise_rd _ _ _ _ _ ?_ ?_⟩
      · simp only [evtRegs, PKG_EVT_SEQ, PKG_EVT_STATUS, PKG_EVT_LOST, List.mem_cons, List.not_mem_nil, or_false]
        omega
      · change a ≠ 0xA060
        omega

/-- An output for another stage leaves the sending stage as it was. -/
theorem sendOutput (p : Package) (s n : Nat) (ph : Phase) (o : OutDesc) (h : p.get (STG_CH_CFG_ROUTE s n) ≠ 0) : p.KeepsStagePages (p.sendOutput s n ph o) := by
  unfold Package.sendOutput
  extract_lets out route mask node q
  rw [if_neg h]
  split
  · exact of_frame ⟨rfl, rfl⟩ rfl (fun _ => rfl)
  · exact (each (fun _ _ _ => sendMask _ _ _ _ _ _) p).trans (sendMask q _ _ _ _ _)

end Package.KeepsStagePages

theorem chanRoute_inPages {n : Nat} (hs : s < 32) (hn : n < 4) : 0x10000 ≤ STG_CH_CFG s n ∧ STG_CH_CFG s n < 0x30000 := by
  unfold STG_CH_CFG
  omega

/-- The outputs of a phase leave, none of them for a queue of this package. -/
theorem sendOutputs_keeps {l : List Nat} (p : Package) (ph : Phase) (o : OutDesc) (hs : s < 32) (hn : ∀ n ∈ l, n < 4)
    (hroute : ∀ n ∈ l, p.get (STG_CH_CFG_ROUTE s n) ≠ 0) : p.KeepsStagePages (p.each l (fun p n => p.sendOutput s n ph o)) :=
  Package.each_keeps_of_mem p.KeepsStagePages (fun q n hin h => h.trans (Package.KeepsStagePages.sendOutput q s n ph o (by
    rw [Package.get_of_rd (f := STG_CH_CFG_ROUTE s n) (h.rd _ (chanRoute_inPages hs (hn n hin)).1 (chanRoute_inPages hs (hn n hin)).2)]
    exact hroute n hin))) (.refl p)

/-- What a phase whose compute ends leaves: its end marked, its cores closed and the cores' next phases begun. -/
def Package.markEnd (p : Package) (s : Nat) (ph : Phase) : Package :=
  ((((p.closeCores s).modStg s (fun x => { x with phase := some ph })).when (((p.closeCores s).modStg s (fun x => { x with phase := some ph })).slotLate ph)
    (fun p => p.bump48 (HAL_LATE_COUNT s) 1))).nextOnClusters s

theorem markEnd_keeps (p : Package) (s : Nat) (ph : Phase) : ∃ q : Package, p.KeepsStagePages q ∧ (q.modStg s (fun x => { x with phase := some ph })).KeepsStagePages (p.markEnd s ph) := by
  refine ⟨p.closeCores s, .closeCores p s, ?_⟩
  unfold Package.markEnd Package.when
  split
  · exact (Package.KeepsStagePages.wr _ _ (by unfold HAL_LATE_COUNT; omega)).trans (.nextOnClusters _ s)
  · exact .nextOnClusters _ s

theorem markEnd_phase (p : Package) (s : Nat) (ph : Phase) : ((p.markEnd s ph).stg s).phase = some ph := by
  obtain ⟨q, -, h⟩ := markEnd_keeps p s ph
  rw [h.sched.stg, Package.stg_modStg_same]

theorem markEnd_rd (p : Package) (s : Nat) (ph : Phase) {a : Nat} (ha : 0x10000 ≤ a) (hb : a < 0x30000) : (p.markEnd s ph).rd a = p.rd a := by
  obtain ⟨q, hq, h⟩ := markEnd_keeps p s ph
  rw [h.rd a ha hb, Package.modStg_rd, hq.rd a ha hb]

/-- A phase at its end of compute. -/
def Phase.ended (ph : Phase) (now : Nat) : Phase := { ph with endAt := some now }

/-- The end of compute of a phase without channels ends it. -/
theorem computeEnd_noChannels {ph : Phase} (dt c k : Nat) (hphase : (p.stg s).phase = some ph) (hend : ph.endAt = none)
    (hdone : (p.pass dt).computeDone s ph = true) (hchan : ph.channels = []) : ∃ u : Package, computeEnd dt s c k p = u.endPhase s := by
  have hphase' : ((p.pass dt).stg s).phase = some ph := (p.pass_stg_phase dt s).trans hphase
  unfold computeEnd
  extract_lets q
  split
  · next h => cases h.symm.trans hphase'
  · next ph' h =>
    cases h.symm.trans hphase'
    rw [hend, hdone, if_neg (by decide)]
    exact ⟨_, if_pos (List.isEmpty_iff.mpr hchan)⟩

/-- The end of compute of a phase whose outputs leave the stage: it is marked, and stays until they land. -/
theorem computeEnd_sends {ph : Phase} {o : OutDesc} (dt c k : Nat) (hphase : (p.stg s).phase = some ph) (hend : ph.endAt = none)
    (hdone : (p.pass dt).computeDone s ph = true) (hout : ph.out = some o) (hland : allLanded ph = false) (hs : s < 32) (hn : ∀ n ∈ ph.channels, n < 4)
    (hroute : ∀ n ∈ ph.channels, p.get (STG_CH_CFG_ROUTE s n) ≠ 0) :
    ((computeEnd dt s c k p).stg s).phase = some (ph.ended (p.clock + dt)) := by
  have hphase' : ((p.pass dt).stg s).phase = some ph := (p.pass_stg_phase dt s).trans hphase
  have hchan : ph.channels.isEmpty = false := by
    cases h : ph.channels with
    | nil => rw [allLanded, h] at hland; cases hland
    | cons n l => rfl
  unfold computeEnd
  extract_lets q q1
  split
  · next h => cases h.symm.trans hphase'
  · next ph' h =>
    cases h.symm.trans hphase'
    rw [hend, hdone, if_neg (by decide)]
    extract_lets ph1 q2 q3 q4
    have hclock : q1.clock = p.clock + dt := (Package.KeepsStagePages.closeCores q s).clock.trans (p.pass_clock dt)
    have h1 : ph1 = ph.ended (p.clock + dt) := congrArg (fun n => ph.ended n) hclock
    have h4 : q4 = q.markEnd s ph1 := rfl
    clear_value q4 ph1
    subst h4
    obtain ⟨e, he⟩ : ∃ e, e = ph.ended (p.clock + dt) := ⟨_, rfl⟩
    obtain ⟨hchans, houts, hlands⟩ : e.channels = ph.channels ∧ e.out = ph.out ∧ allLanded e = allLanded ph := by
      rw [he]
      exact ⟨rfl, rfl, rfl⟩
    rw [h1, ← he, hchans, if_neg (Bool.eq_false_iff.mp hchan)]
    have hkept : (q.markEnd s e).KeepsStagePages ((q.markEnd s e).each ph.channels (fun p n => p.sendOutput s n e o)) := by
      refine sendOutputs_keeps _ e o hs hn fun n hin => ?_
      rw [Package.get_of_rd (f := STG_CH_CFG_ROUTE s n) (markEnd_rd _ _ _ (chanRoute_inPages hs (hn n hin)).1 (chanRoute_inPages hs (hn n hin)).2),
        Package.pass_get]
      exact hroute n hin
    split
    · next hnone => cases hnone.symm.trans (houts.trans hout)
    · next o' ho =>
      cases ho.symm.trans (houts.trans hout)
      extract_lets u1 u2
      have hphase2 : (u2.stg s).phase = some e := (congrArg Stage.phase (hkept.sched.stg s)).trans (markEnd_phase q s e)
      split
      · next e' he' =>
        cases he'.symm.trans hphase2
        rw [hlands, hland, if_neg Bool.false_ne_true]
        exact hphase2
      · next hnone => cases hnone.symm.trans hphase2

/-! #### Outputs land -/

/-- A phase of which the output on a channel has landed. -/
def Phase.land (ph : Phase) (n : Nat) : Phase := { ph with landed := if ph.landed.contains n then ph.landed else n :: ph.landed }

theorem Phase.mem_land (ph : Phase) (n m : Nat) : m ∈ (ph.land n).landed ↔ m = n ∨ m ∈ ph.landed := by
  unfold Phase.land
  dsimp only
  split
  · next h =>
    have hin : n ∈ ph.landed := List.contains_iff_mem.mp h
    exact ⟨.inr, fun hm => hm.elim (fun h => h ▸ hin) id⟩
  · exact List.mem_cons

theorem Phase.allLanded_land (ph : Phase) (n : Nat) : allLanded (ph.land n) = true ↔ ∀ m ∈ ph.channels, m = n ∨ m ∈ ph.landed := by
  unfold allLanded
  rw [List.all_eq_true]
  refine forall_congr' fun m => imp_congr_right fun _ => ?_
  rw [List.contains_iff_mem, Phase.mem_land]

theorem outputLanded_eq {ph : Phase} {n : Nat} (dt : Nat) (hphase : (p.stg s).phase = some ph) (hend : ph.endAt.isSome = true) (hn : n ∈ ph.channels) :
    outputLanded dt s n p = if allLanded (ph.land n) then ((p.pass dt).modStg s (fun x => { x with phase := some (ph.land n) })).endPhase s
      else (p.pass dt).modStg s (fun x => { x with phase := some (ph.land n) }) := by
  have hphase' : ((p.pass dt).stg s).phase = some ph := (p.pass_stg_phase dt s).trans hphase
  have hskip : (ph.endAt.isNone || !ph.channels.contains n) = false := by
    rw [Option.isNone_eq_false_iff.mpr hend, List.contains_iff_mem.mpr hn]
    rfl
  unfold outputLanded
  extract_lets q
  split
  · next h => cases h.symm.trans hphase'
  · next ph' h =>
    cases h.symm.trans hphase'
    rw [hskip, if_neg Bool.false_ne_true]
    rfl

/-! #### A hung phase -/

theorem Package.putGroup_rd (p : Package) (g : Nat) (f : Nat → Fld) (v : Nat) {a : Nat} (h : ∀ m, (f m).addr ≠ a) : (p.putGroup g f v).rd a = p.rd a :=
  Package.each_rd (fun q m => q.rd_put_ne (f m) v (h m)) p

theorem halReg_ne_status (hs : s < 32) (o m : Nat) : 0x30000 + 0x1000 * m + o ≠ STG_STATUS s := by
  unfold STG_STATUS
  omega

theorem Package.showGroup_status (p : Package) (hs : s < 32) (g : Nat) : (p.showGroup g).rd (STG_STATUS s) = p.rd (STG_STATUS s) := by
  have hput (q : Package) (lo len v : Nat) : (q.putGroup g (fun m => ⟨HAL_WIN_STATUS m, lo, len⟩) v).rd (STG_STATUS s) = q.rd (STG_STATUS s) :=
    q.putGroup_rd g _ v fun m => halReg_ne_status hs 0x120 m
  have hcur (q : Package) (l : List Nat) (a b : Nat) :
      (q.each l (fun p m => (p.wr (HAL_WIN_CUR_A m) a).wr (HAL_WIN_CUR_B m) b)).rd (STG_STATUS s) = q.rd (STG_STATUS s) :=
    Package.each_rd (fun r m => (r.wr (HAL_WIN_CUR_A m) a |>.rd_wr_ne b (halReg_ne_status hs 0x130 m)).trans (r.rd_wr_ne a (halReg_ne_status hs 0x128 m))) q
  unfold Package.showGroup
  extract_lets x q
  have hq : q.rd (STG_STATUS s) = p.rd (STG_STATUS s) := hput p _ _ _
  split
  · exact (hcur _ _ _ _).trans ((hput _ _ _ _).trans ((hput _ _ _ _).trans ((hput _ _ _ _).trans hq)))
  · exact (hcur _ _ _ _).trans ((hput _ _ _ _).trans ((hput _ _ _ _).trans ((hput _ _ _ _).trans hq)))

theorem Package.freeRecord_status (p : Package) (s step mb : Nat) (hs : s < 32) : (p.freeRecord s step mb).rd (STG_STATUS s) = p.rd (STG_STATUS s) := by
  have hmem (k : Nat) : MEM_WRITE_BYTES k ≠ STG_STATUS s := by
    unfold MEM_WRITE_BYTES STG_STATUS
    omega
  have hshow (q : Package) : (q.showStash s).rd (STG_STATUS s) = q.rd (STG_STATUS s) := by
    unfold Package.showStash
    extract_lets x used held r
    have hr : r.rd (STG_STATUS s) = q.rd (STG_STATUS s) :=
      (Package.rd_put_ne _ (HAL_STASH_USED_RECORDS s) _ (halReg_ne_status hs 0x170 s)).trans (q.rd_put_ne (HAL_STASH_USED_BYTES s) _ (halReg_ne_status hs 0x170 s))
    split
    · exact (r.rd_wr_ne _ (halReg_ne_status hs 0x178 s)).trans hr
    · exact hr
  unfold Package.freeRecord
  split
  · rfl
  · rw [hshow, Package.modStg_rd, Package.clearDir, Package.tryStore_rd _ _ _ hmem]

theorem Package.unstart_status (p : Package) (s : Nat) (hs : s < 32) : (p.unstart s).rd (STG_STATUS s) = p.rd (STG_STATUS s) := by
  unfold Package.unstart
  extract_lets g n q
  split
  · rfl
  · split
    · rfl
    · rw [Package.showGroup_status _ hs]
      split
      · rfl
      · exact Package.putGroup_rd _ _ _ _ fun m => halReg_ne_status hs 0x120 m

/-- A phase that is abandoned leaves its stage's state as it was. -/
theorem Package.abandon_status (p : Package) (s : Nat) (hs : s < 32) : (p.abandon s).rd (STG_STATUS s) = p.rd (STG_STATUS s) := by
  unfold Package.abandon
  split
  · rfl
  · next ph _ =>
    extract_lets q c x r u
    have hc : c.rd (STG_STATUS s) = p.rd (STG_STATUS s) := by
      refine (Package.each_rd (fun r n => ?_) q).trans rfl
      unfold Package.addCredit
      split
      · exact r.rd_put_ne (STG_CH_STATE_CREDITS s n) _ (Package.KeepsDisabled.chanState_ne s n)
      · rfl
    have hr : r.rd (STG_STATUS s) = p.rd (STG_STATUS s) := by
      refine Eq.trans ?_ hc
      unfold r Package.setQueue
      split
      · exact (Package.rd_wr_ne _ _ (by unfold STG_FQ_PTR STG_STATUS; omega)).trans (Package.modStg_rd _ _ _ _)
      · exact (Package.rd_wr_ne _ _ (by unfold STG_BQ_PTR STG_STATUS; omega)).trans (Package.modStg_rd _ _ _ _)
    rw [Package.unstart_status _ _ hs]
    unfold u
    split
    · exact (r.freeRecord_status s _ _ hs).trans hr
    · exact hr

theorem phaseHung_eq {ph : Phase} (dt : Nat) (hphase : (p.stg s).phase = some ph) (hlate : ph.beat + p.get BEAT_SLOT_CFG_HUNG_BEATS + 1 ≤ p.beatNo) :
    ∃ (u v : Package) (a0 a1 b0 b1 : Nat), u = (((p.pass dt).raise .beat EV_BEAT_SLOT_HUNG a0 a1).stopCores s).abandon s
      ∧ v = (u.holdStage s 4).modStg s (fun x => { x with recovery := true }) ∧ phaseHung dt s p = v.report (.hal s) 8 1 EV_BEAT_SLOT_HUNG b0 b1 false false := by
  have hphase' : ((p.pass dt).stg s).phase = some ph := (p.pass_stg_phase dt s).trans hphase
  unfold phaseHung
  extract_lets q
  split
  · next h => cases h.symm.trans hphase'
  · next ph' h =>
    cases h.symm.trans hphase'
    rw [if_neg (by rw [Package.pass_beatNo, Package.pass_get]; exact Nat.not_lt.mpr hlate)]
    exact ⟨_, _, _, _, _, _, rfl, rfl, rfl⟩

theorem status_not_report (hs : s < 32) : STG_STATUS s ∉ reportRegs (.hal s) 8 := by
  simp only [reportRegs, evtRegs, ERR_SUMMARY, IRQ_STATUS, Page.base, ERR_STATUS, ERR_LOG_TAIL, ERR_COALESCED, ERR_LOST_CORR, ERR_LOST_UNCORR,
    ERR_LOST_FATAL, pageERR, PKG_EVT_SEQ, PKG_EVT_STATUS, PKG_EVT_LOST, STG_STATUS, List.mem_append, List.mem_cons, List.not_mem_nil, or_false, not_or,
    if_true]
  omega

/-- A hung phase is abandoned, and its stage is HELD for recovery. -/
theorem phaseHung_shows {ph : Phase} (dt : Nat) (hs : s < 32) (hphase : (p.stg s).phase = some ph)
    (hlate : ph.beat + p.get BEAT_SLOT_CFG_HUNG_BEATS + 1 ≤ p.beatNo) (hready : p.stgState s = 2) :
    let t := phaseHung dt s p
    (t.stg s).phase = none ∧ (t.stg s).recovery = true ∧ t.stgState s = 4 ∧ t.get (STG_STATUS_HOLD_CAUSE s) = 4 := by
  intro t
  obtain ⟨u, v, a0, a1, b0, b1, hu, hv, ht⟩ := phaseHung_eq dt hphase hlate
  have hustatus : u.stgState s = 2 := by
    refine Eq.trans (Package.get_of_rd (f := STG_STATUS_STATE s) ?_) hready
    change u.rd (STG_STATUS s) = p.rd (STG_STATUS s)
    have hstop (q : Package) : (q.stopCores s).rd (STG_STATUS s) = q.rd (STG_STATUS s) := Package.each_rd (fun _ _ => by exact rfl) q
    rw [hu, Package.abandon_status _ s hs, hstop, Package.raise_rd _ _ _ _ _ ?_ (by change 0x10000 + 0x1000 * s + 0x108 ≠ 0x2060; omega), Package.pass_rd]
    · simp only [evtRegs, PKG_EVT_SEQ, PKG_EVT_STATUS, PKG_EVT_LOST, STG_STATUS, List.mem_cons, List.not_mem_nil, or_false, not_or]
      omega
  have huphase : (u.stg s).phase = none := by
    rw [hu]
    exact Package.abandon_phase _ s
  have hheld : u.holdStage s 4 = (u.put (STG_STATUS_STATE s) STG_HELD).put (STG_STATUS_HOLD_CAUSE s) 4 := by
    unfold Package.holdStage
    rw [hustatus]
    exact if_pos (by decide)
  have hvstg : v.stg s = { u.stg s with recovery := true } := by
    rw [hv, Package.stg_modStg_same, hheld, Package.put_stg, Package.put_stg]
  have hvrd : v.rd (STG_STATUS s) = ((u.put (STG_STATUS_STATE s) STG_HELD).put (STG_STATUS_HOLD_CAUSE s) 4).rd (STG_STATUS s) := by
    rw [hv, Package.modStg_rd, hheld]
  have htstg : t.stg s = v.stg s := by
    simp only [t]
    rw [ht]
    exact (Package.KeepsSched.report v _ _ _ _ _ _ _ _).stg s
  have htrd : t.rd (STG_STATUS s) = v.rd (STG_STATUS s) := by
    simp only [t]
    rw [ht, Package.report_rd _ _ _ _ _ _ _ _ _ (status_not_report hs)]
  refine ⟨?_, ?_, ?_, ?_⟩
  · rw [htstg, hvstg]
    exact huphase
  · rw [htstg, hvstg]
  · refine (Package.get_of_rd (f := STG_STATUS_STATE s) (htrd.trans hvrd)).trans ?_
    exact (Package.get_put_disjoint _ _ _ _ (show 0 + 3 ≤ 64 by decide) (.inl (show 0 + 3 ≤ 8 by decide))).trans (Package.get_put_same _ _ _ (show 0 + 3 ≤ 64 by decide))
  · refine (Package.get_of_rd (f := STG_STATUS_HOLD_CAUSE s) (htrd.trans hvrd)).trans ?_
    exact Package.get_put_same _ _ _ (show 8 + 4 ≤ 64 by decide)

end

/-- Settles O9, by the command. -/
theorem phasesStartAndEnd : Obligations.PhasesStartAndEnd := by
  unfold Obligations.PhasesStartAndEnd
  refine ⟨?late, ?deadline, ?ends, ?sends, ?lastLands, ?lands, ?hung⟩
  case late =>
    intro s dt stage w idx mb step i st e _ hearly hgave hcur howner hnext hverdict hhead hdesc
    subst howner
    have hstart := (phaseLateStart_eq dt hearly hgave hcur rfl).trans (tryStart_bwd (p := s.pkg.pass dt)
      ((congrArg Group.cur (s.pkg.pass_grp dt _)).trans hcur) ((congrArg Group.next (s.pkg.pass_grp dt _)).trans hnext) hverdict
      ((congrArg Queue.head (s.pkg.pass_queue_bwd dt _)).trans hhead) ((s.pkg.pass_descOf dt _ _ _).trans hdesc))
    obtain ⟨ph, hphase, hdir, hstep, hmb, hat, hcount⟩ := beginPhase_bwd (s.pkg.pass dt) (s.pkg.leader w.owner) w.owner w idx mb step i e
    rw [← hstart] at hphase hcount
    rw [Package.pass_clock] at hat
    rw [Package.pass_grp] at hcount
    exact ⟨{ s with pkg := phaseLateStart dt w.owner s.pkg }, ph, rfl, hphase, hdir, hstep, hmb, hat, hcount⟩
  case deadline =>
    intro s dt
    refine ⟨_, next_pkg_congr (workDeadline_eq dt s.pkg), fun st hst hnext hfree => each_settleSlot _ ?_ ?_ (.inl hst)⟩
    · unfold Package.nextOf at hnext ⊢
      rwa [Package.pass_leader, Package.pass_grp]
    · rwa [Package.pass_stg_slotUsed]
  case ends =>
    intro s dt stage cluster core ph hphase hend hchan hdone
    obtain ⟨u, hu⟩ := computeEnd_noChannels dt cluster core hphase hend hdone hchan
    exact ⟨_, next_pkg_congr hu, endPhase_phase u stage⟩
  case sends =>
    intro s dt stage cluster core ph o hphase hend hout hland hroute hs hn _ hdone
    exact ⟨{ s with pkg := computeEnd dt stage cluster core s.pkg }, _, rfl, computeEnd_sends dt cluster core hphase hend hdone hout hland hs hn hroute, rfl⟩
  case lastLands =>
    intro s dt stage chan ph hphase hend hchan hall
    have hlast : allLanded (ph.land chan) = true := (Phase.allLanded_land ph chan).mpr hall
    exact ⟨_, next_pkg_congr ((outputLanded_eq dt hphase hend hchan).trans (if_pos hlast)), endPhase_phase _ stage⟩
  case lands =>
    intro s dt stage chan ph hphase hend hchan hleft
    obtain ⟨n, hn, hne, hmiss⟩ := hleft
    have hmore : ¬allLanded (ph.land chan) = true := fun h => ((Phase.allLanded_land ph chan).mp h n hn).elim hne hmiss
    refine ⟨_, ph.land chan, next_pkg_congr ((outputLanded_eq dt hphase hend hchan).trans (if_neg hmore)), ?_, (ph.mem_land chan chan).mpr (.inl rfl), rfl⟩
    exact congrArg Stage.phase (Package.stg_modStg_same _ stage _)
  case hung =>
    intro s dt stage ph hs hphase _ hlate hready
    exact ⟨{ s with pkg := phaseHung dt stage s.pkg }, rfl, phaseHung_shows dt hs hphase hlate hready⟩

end Sys2Proof.Machine

/-! ### The sequencer (R100, R103, R106, R186, R200 to R202, R249) -/

namespace Sys2Proof.Machine

/-! #### What leaves the cores alone -/

theorem Package.store_cores (p : Package) (a : Nat) (bs : List Byte) : (p.store a bs).cores = p.cores := by
  obtain ⟨r, h⟩ := p.store_shape a bs
  rw [h]
  rfl

theorem Package.tryStore_cores (p : Package) (a : Nat) (bs : List Byte) : (p.tryStore a bs).cores = p.cores := by
  unfold Package.tryStore
  split
  · exact p.store_cores a bs
  · rfl

theorem Package.enterWarm_cores (p : Package) (slot step : Nat) (b : List Byte) : (p.enterWarm slot step b).cores = p.cores := by
  have hhist (b' : List Byte) : (p.putHist slot b').cores = p.cores := p.tryStore_cores _ _
  unfold Package.enterWarm
  extract_lets b' p1 p2
  have h2 : p2.cores = p.cores := by
    unfold p2
    split
    · exact hhist b'
    · rw [Package.put_cores]
      exact hhist b'
  exact h2

theorem Package.resetHist_cores (p : Package) (slot step : Nat) (b : List Byte) : (p.resetHist slot step b).cores = p.cores := by
  have hwarm (q : Package) (h : q.cores = p.cores) (b' : List Byte) : (q.enterWarm slot step b').cores = p.cores :=
    (q.enterWarm_cores slot step b').trans h
  unfold Package.resetHist
  extract_lets was d b1 p1 p2
  have h1 : p1.cores = p.cores := by
    unfold p1
    split
    · rfl
    · split <;> rfl
  split
  · exact (Package.raise_cores _ _ _ _ _).trans (hwarm p1 h1 b1)
  · exact hwarm p1 h1 b1

theorem Package.useSlot_cores (p : Package) (slot step : Nat) : (p.useSlot slot step).cores = p.cores := by
  unfold Package.useSlot
  split
  · rfl
  · split
    · exact p.resetHist_cores slot step _
    · rfl

theorem Package.recordGate_cores (p : Package) (x : Ctx) (g : Bool) : (p.recordGate x g).cores = p.cores := by
  unfold Package.recordGate
  split
  · rfl
  · split
    · exact p.tryStore_cores _ _
    · rfl

theorem Package.core_of_cores {p q : Package} (h : q.cores = p.cores) (c k : Nat) : q.core c k = p.core c k := by
  unfold Package.core
  rw [h]

/-! #### Starting a list -/

/-- A core's place in its phase, and what is left of its list. -/
def Core.place (co : Core) : Nat × Nat × Nat := (co.layerPos, co.left, co.ordinal)

theorem Core.setPreds_place (co : Core) (i : Nat) (bs : List Bool) : (co.setPreds i bs).place = co.place := by
  induction bs generalizing co i with
  | nil => rfl
  | cons b bs ih => exact ih (co.setPred i b) (i + 1)

theorem Package.takeGate_place (p : Package) (c k : Nat) (g : Bool) : ((p.takeGate c k g).core c k).place = (p.core c k).place := by
  have hmod : ((p.modCore c k (fun co => { co.setPred 6 g with skip := !g })).core c k).place = (p.core c k).place := by
    rw [Package.core_modCore]
    rfl
  unfold Package.takeGate
  dsimp only
  split
  · exact hmod
  · exact hmod

theorem Package.passPoint_place (p : Package) (c k : Nat) : ((p.passPoint c k).core c k).place = (p.core c k).place := by
  have hstats : (p.each (p.core c k).heldStats (fun p e => p.addStats e.1 e.2.1 e.2.2)).cores = p.cores :=
    Package.each_keeps (fun q => q.cores = p.cores) (fun p (e : Nat × Nat × Stats) => p.addStats e.1 e.2.1 e.2.2) (fun _ _ h => h) p _ rfl
  unfold Package.passPoint Package.releaseStats
  dsimp only
  rw [Package.core_modCore, Package.core_modCore, Package.core_of_cores hstats]
  rfl

/-- A list begins at its first command, where the core stands in its phase. -/
theorem Package.beginList_place (p : Package) (c k : Nat) (x : Ctx) (n : Nat) (preds : List Bool) :
    ((p.beginList c k x n preds).core c k).place = ((p.core c k).layerPos, n, 0) := by
  unfold Package.beginList
  extract_lets p1 p2
  have h1 : (p1.core c k).place = ((p.core c k).layerPos, n, 0) := by
    unfold p1
    rw [Package.core_modCore]
    exact congrArg (fun e : Nat × Nat × Nat => (e.1, n, 0)) ((p.core c k).setPreds_place 7 preds)
  rw [Package.passPoint_place]
  unfold p2
  split
  · rw [Package.takeGate_place, h1]
  · exact h1

theorem Package.startPhaseList_layerPos (p : Package) (c k s : Nat) (ph : Phase) :
    ((p.startPhaseList c k s ph).core c k).layerPos = (p.core c k).layerPos + 1 := by
  unfold Package.startPhaseList
  extract_lets n at' p1
  have h1 : (p1.core c k).layerPos = n + 1 := by
    unfold p1
    rw [Package.core_modCore]
  split
  · exact h1
  · next x _ =>
    have hplace := congrArg Prod.fst (Package.beginList_place (p1.useSlot x.layer.numSlot x.step) c k x
      (if at'.2.1 then x.layer.fwdLen else x.layer.bwdLen) ((p1.useSlot x.layer.numSlot x.step).phasePreds x ph ++ (p1.useSlot x.layer.numSlot x.step).slotPreds x))
    exact hplace.trans ((congrArg Core.layerPos (Package.core_of_cores (p1.useSlot_cores _ _) c k)).trans h1)

/-- A core in a RUN always has something to serve. -/
theorem Package.ctx_of_run {p : Package} {c : Nat} {r : RunJob} (h : p.servedRun c = some r) (k : Nat) : ∃ x, p.ctx c k = some x := by
  unfold Package.ctx
  rw [h]
  exact ⟨_, rfl⟩

theorem Package.startRunList_place {p : Package} {c : Nat} {r : RunJob} (h : p.servedRun c = some r) (k : Nat) :
    ((p.startRunList c k r).core c k).place = (1, r.len, 0) := by
  unfold Package.startRunList
  extract_lets p1
  obtain ⟨x, hx⟩ := p1.ctx_of_run (show p1.servedRun c = some r from h) k
  have h1 : (p1.core c k).layerPos = 1 := by
    unfold p1
    rw [Package.core_modCore]
  rw [hx]
  dsimp only
  rw [Package.beginList_place, h1]

theorem layerListStart_phase {p : Package} {c k st : Nat} {ph : Phase} (dt : Nat) (hpos : ((p.pass dt).posOf c k).isSome = true)
    (hrun : ((p.pass dt).core c k).stopped = false) (hgiven : ((p.pass dt).core c k).listGiven = true) (hfull : (p.pass dt).filling c k = false)
    (hnone : (p.pass dt).servedRun c = none) (hst : (p.pass dt).servedStage c = some (st, ph))
    (hserve : ((p.pass dt).core c k).serving = some (1 + st, ph.startAt)) (hleft : ((p.pass dt).core c k).layerPos < (p.pass dt).listCount st ph)
    (hready : (p.pass dt).layerReady st ph.version ((p.pass dt).listAtPos st ph ((p.pass dt).core c k).layerPos).1 = true) :
    layerListStart dt c k p = (p.pass dt).startPhaseList c k st ph := by
  have hsome := Option.isNone_eq_false_iff.mpr hpos
  unfold layerListStart
  generalize p.pass dt = q at *
  simp [hsome, hrun, hgiven, hfull, hnone, hst, hserve, hleft, hready]

theorem layerListStart_run {p : Package} {c k : Nat} {r : RunJob} (dt : Nat) (hpos : ((p.pass dt).posOf c k).isSome = true)
    (hrun : ((p.pass dt).core c k).stopped = false) (hgiven : ((p.pass dt).core c k).listGiven = true) (hfull : (p.pass dt).filling c k = false)
    (hr : (p.pass dt).servedRun c = some r) (hserve : ((p.pass dt).core c k).serving = some (0, r.startAt)) (hleft : ((p.pass dt).core c k).layerPos = 0) :
    layerListStart dt c k p = (p.pass dt).startRunList c k r := by
  have hsome := Option.isNone_eq_false_iff.mpr hpos
  unfold layerListStart
  generalize p.pass dt = q at *
  simp [hsome, hrun, hgiven, hfull, hr, hserve, hleft]

/-! #### NOP, SYNC and PSET -/

theorem runCommand_nop {h : Held} (hop : opcodeOf h.word = 0x00) (hbits : strayBits h.word baseFields = false) (p : Package) (c k : Nat) (x : Ctx) :
    runCommand p c k x h = .done p := by
  simp [runCommand, hop, hbits]

theorem runCommand_sync {h : Held} (hop : opcodeOf h.word = 0x01) (hbits : strayBits h.word (baseFields ++ [(8, 1)]) = false) (p : Package) (c k : Nat)
    (x : Ctx) : runCommand p c k x h = .done p := by
  unfold runCommand
  simp only [hop, hbits]
  rfl

theorem runCommand_pset {h : Held} (hop : opcodeOf h.word = 0xA0) (p : Package) (c k : Nat) (x : Ctx) : runCommand p c k x h = pset p c k x h := by
  unfold runCommand
  simp only [hop]
  rfl

/-- PSET's row of the opcode table, from what the command's own function does. -/
theorem commandRuns_pset {ok : Package → Nat → Nat → Ctx → Held → Prop} {f : Package → Nat → Nat → Ctx → Held → Package}
    (hr : ∀ p c k x h, ok p c k x h → pset p c k x h = .done (f p c k x h)) (hq : ∀ p c k x h, ok p c k x h → p.Still (f p c k x h)) :
    CommandRuns 0xA0 .pset ok f :=
  commandRuns_of (fun _ _ _ _ _ => rfl) (by decide) rfl (fun p c k x h hop hok => (runCommand_pset hop p c k x).trans (hr p c k x h hok)) hq

/-- Setting a predicate register keeps a quiet core quiet. -/
theorem Package.still_setPred (p : Package) (c k i : Nat) (b : Bool) : p.Still (p.setCore c k ((p.core c k).setPred i b)) :=
  p.still_setCore c k _ fun h => h

theorem Package.still_takeGate (p : Package) (c k : Nat) (g : Bool) : p.Still (p.takeGate c k g) := by
  have hmod : p.Still (p.modCore c k (fun co => { co.setPred 6 g with skip := !g })) := p.still_modCore c k _ fun _ h => h
  unfold Package.takeGate
  dsimp only
  split
  · exact hmod
  · exact hmod.trans (Package.still_bump64 _ _ _)

theorem Package.still_recordGate (p : Package) (x : Ctx) (g : Bool) : p.Still (p.recordGate x g) :=
  Package.still_of_cores (p.recordGate_cores x g)

/-- The value PSET computes, form by form (R201). -/
def Package.psetValue (p : Package) (c k : Nat) (w : CmdWord) : Bool :=
  if psetForm w = 0 then decide (cw w 56 1 = 1) else if psetForm w = 1 then (p.core c k).pred (cw w 40 4)
  else if psetForm w = 2 then !(p.core c k).pred (cw w 40 4) else if psetForm w = 3 then (p.core c k).pred (cw w 40 4) && (p.core c k).pred (cw w 44 4)
  else if psetForm w = 4 then (p.core c k).pred (cw w 40 4) || (p.core c k).pred (cw w 44 4)
  else decide (leNat (p.opRead c k (16 * cw w 64 16) 4) ≠ 0)

/-- The fields that a form of PSET uses. -/
def psetFields (form : Nat) : List (Nat × Nat) :=
  if form = 0 then [(56, 1)] else if form = 1 || form = 2 then [(40, 4)] else if form = 3 || form = 4 then [(40, 8)]
  else if form = 5 then [(64, 16)] else [(128, 48)]

theorem pset_computes {p : Package} {h : Held} (c k : Nat) (x : Ctx) (hform : psetForm h.word < 6) (hdst : cw h.word 32 4 ≤ 5)
    (hbits : strayBits h.word (baseFields ++ [(8, 3), (32, 4)] ++ psetFields (psetForm h.word)) = false)
    (hmem : psetForm h.word = 5 → 16 * cw h.word 64 16 + 4 ≤ OP_BYTES) :
    pset p c k x h = .done (p.setCore c k ((p.core c k).setPred (cw h.word 32 4) (p.psetValue c k h.word))) := by
  have h6 : psetForm h.word ≠ 6 := by omega
  have h7 : psetForm h.word ≠ 7 := by omega
  have hroom : (decide (psetForm h.word = 5) && decide (OP_BYTES < 16 * cw h.word 64 16 + 4)) = false := by
    by_cases e : psetForm h.word = 5
    · simpa [e] using hmem e
    · simp [e]
  have hd : ¬ 5 < cw h.word 32 4 := by omega
  unfold psetFields at hbits
  unfold pset
  simp only [hbits, h6, h7, hd, hroom, decide_false, Bool.false_and, Bool.and_false, Bool.or_self, Bool.false_eq_true, if_false]
  rfl

theorem pset_gate {p : Package} {x : Ctx} {h : Held} (c k : Nat) (hform : psetForm h.word = 6) (hdst : cw h.word 32 4 = 6) (hfeat : p.feature 11 = true)
    (hbits : strayBits h.word (baseFields ++ [(8, 3), (32, 4)] ++ [(128, 48)]) = false) : pset p c k x h = psetGate p c k x h.word := by
  have hfields : strayBits h.word (baseFields ++ [(8, 3), (32, 4)] ++ psetFields 6) = false := hbits
  unfold psetFields at hfields
  unfold pset
  simp only [hform, hdst, hfeat, hfields]
  rfl

/-- A form of PSET that computes a value runs as stated. -/
theorem commandRuns_psetValue {ok : Package → Nat → Nat → Ctx → Held → Prop} {v : Package → Nat → Nat → CmdWord → Bool}
    (hok : ∀ p c k x h, ok p c k x h → psetForm h.word < 6 ∧ cw h.word 32 4 ≤ 5
      ∧ strayBits h.word (baseFields ++ [(8, 3), (32, 4)] ++ psetFields (psetForm h.word)) = false
      ∧ (psetForm h.word = 5 → 16 * cw h.word 64 16 + 4 ≤ OP_BYTES) ∧ p.psetValue c k h.word = v p c k h.word) :
    CommandRuns 0xA0 .pset ok (fun p c k _ h => p.setCore c k ((p.core c k).setPred (cw h.word 32 4) (v p c k h.word))) := by
  refine commandRuns_pset (fun p c k x h hh => ?_) fun p c k _ h _ => p.still_setPred c k _ _
  obtain ⟨hform, hdst, hbits, hmem, hv⟩ := hok p c k x h hh
  rw [pset_computes c k x hform hdst hbits hmem, hv]

/-- A gate that a forward computes: read from memory, recorded and taken (R202). -/
theorem commandRuns_gateForward :
    CommandRuns 0xA0 .pset (fun p _ _ x h => psetForm h.word = 6 ∧ cw h.word 32 4 = 6 ∧ p.feature 11 = true ∧ x.run = none ∧ x.dir = .fwd
        ∧ strayBits h.word (baseFields ++ [(8, 3), (32, 4)] ++ [(128, 48)]) = false ∧ cw h.word 128 48 % 4 = 0
        ∧ ∃ b, p.load (cw h.word 128 48 + 4 * x.microBatch) 4 = .ok b)
      (fun p c k x h => match p.load (cw h.word 128 48 + 4 * x.microBatch) 4 with
        | .ok b => (p.recordGate x (decide (leNat b ≠ 0))).takeGate c k (decide (leNat b ≠ 0))
        | _ => p) := by
  refine commandRuns_pset (fun p c k x h hok => ?_) fun p c k x h hok => ?_
  · obtain ⟨hform, hdst, hfeat, hrun, hdir, hbits, hal, b, hload⟩ := hok
    rw [pset_gate c k hform hdst hfeat hbits]
    unfold psetGate
    simp [hrun, hdir, hal, hload]
  · obtain ⟨-, -, -, -, -, -, -, b, hload⟩ := hok
    rw [hload]
    exact (p.still_recordGate x _).trans (Package.still_takeGate _ _ _ _)

/-- Settles O10, by the command. -/
theorem sequencerCommands : Obligations.SequencerCommands := by
  refine ⟨?_, ?_, ?_, ?_, ?_, ?_, ?_, ?_, commandRuns_gateForward, ?_⟩
  case refine_1 =>
    intro s dt c k st ph hpos hrun hgiven hfull hnone hst hserve hleft hready
    exact ⟨_, next_pkg_congr (layerListStart_phase dt hpos hrun hgiven hfull hnone hst hserve hleft hready), rfl,
      Package.startPhaseList_layerPos _ c k st ph⟩
  case refine_2 =>
    intro s dt c k r hpos hrun hgiven hfull hr hserve hleft
    obtain ⟨hplace, hlen, hord⟩ := by simpa [Core.place] using Package.startRunList_place hr k
    exact ⟨_, next_pkg_congr (layerListStart_run dt hpos hrun hgiven hfull hr hserve hleft), rfl, hplace, hlen, hord⟩
  case refine_3 =>
    exact commandRuns_of (fun _ _ _ _ _ => rfl) (by decide) rfl (fun p c k x _ hop hbits => runCommand_nop hop hbits p c k x)
      fun p _ _ _ _ _ => Package.Still.refl p
  case refine_4 =>
    exact commandRuns_of (fun _ _ _ _ _ => rfl) (by decide) rfl (fun p c k x _ hop hbits => runCommand_sync hop hbits p c k x)
      fun p _ _ _ _ _ => Package.Still.refl p
  case refine_5 =>
    refine commandRuns_psetValue (v := fun _ _ _ w => decide (cw w 56 1 = 1)) fun p c k x h ⟨hform, hdst, hbits⟩ => ?_
    simpa [hform, hdst, psetFields, Package.psetValue] using hbits
  case refine_6 =>
    refine commandRuns_psetValue (v := fun p c k w => if psetForm w = 1 then (p.core c k).pred (cw w 40 4) else !(p.core c k).pred (cw w 40 4))
      fun p c k x h ⟨hform, hdst, hbits⟩ => ?_
    rcases hform with hform | hform <;> simpa [hform, hdst, psetFields, Package.psetValue] using hbits
  case refine_7 =>
    refine commandRuns_psetValue (v := fun p c k w => if psetForm w = 3 then (p.core c k).pred (cw w 40 4) && (p.core c k).pred (cw w 44 4)
      else (p.core c k).pred (cw w 40 4) || (p.core c k).pred (cw w 44 4)) fun p c k x h ⟨hform, hdst, hbits⟩ => ?_
    rcases hform with hform | hform <;> simpa [hform, hdst, psetFields, Package.psetValue] using hbits
  case refine_8 =>
    refine commandRuns_psetValue (v := fun p c k w => decide (leNat (p.opRead c k (16 * cw w 64 16) 4) ≠ 0)) fun p c k x h ⟨hform, hdst, hmem, hbits⟩ => ?_
    simpa [hform, hdst, psetFields, Package.psetValue, hmem] using hbits
  case refine_9 =>
    refine commandRuns_pset (fun p c k x h hok => ?_) fun p c k x _ _ => p.still_takeGate c k _
    obtain ⟨hform, hdst, hfeat, hrun, hdir, hbits⟩ := hok
    rw [pset_gate c k hform hdst hfeat hbits]
    unfold psetGate
    simp [hrun, hdir]

end Sys2Proof.Machine

/-! ### The data mover (R229 to R234, R382) -/

namespace Sys2Proof.Machine

/-! #### The fields of a word that its opcode leaves -/

theorem testBit_withOpcode (op : Nat) (w : CmdWord) {i : Nat} (h : 8 ≤ i) : (withOpcode op w).toNat.testBit i = w.toNat.testBit i := by
  have h8 : ¬ i < 8 := by omega
  unfold withOpcode
  rw [BitVec.toNat_ofNat, Nat.testBit_mod_two_pow, putBits_testBit]
  by_cases hi : i < 256
  · simp [hi, h8]
  · have hw : w.toNat.testBit i = false :=
      Nat.testBit_lt_two_pow (Nat.lt_of_lt_of_le w.isLt (Nat.pow_le_pow_right (by decide) (by omega)))
    simp [hi, hw]

theorem cw_withOpcode (op : Nat) (w : CmdWord) {lo : Nat} (len : Nat) (h : 8 ≤ lo) : cw (withOpcode op w) lo len = cw w lo len := by
  unfold cw
  apply Nat.eq_of_testBit_eq
  intro i
  rw [bitsOf_testBit, bitsOf_testBit, testBit_withOpcode op w (Nat.le_trans h (Nat.le_add_right lo i))]

theorem dmCluster_withOpcode (op : Nat) (w : CmdWord) : dmCluster (withOpcode op w) = dmCluster w := testBit_withOpcode op w (by decide)

theorem dmRowBytes_withOpcode (op : Nat) (w : CmdWord) : dmRowBytes (withOpcode op w) = dmRowBytes w := by
  unfold dmRowBytes
  rw [cw_withOpcode op w 16 (by decide)]

theorem dmLocals_withOpcode (op : Nat) (w : CmdWord) : dmLocals (withOpcode op w) = dmLocals w := by
  unfold dmLocals dmRows dmLocal dmLocalStride
  rw [cw_withOpcode op w 16 (by decide), cw_withOpcode op w 16 (by decide), cw_withOpcode op w 16 (by decide)]

theorem dmOffsets_withOpcode (op : Nat) (x : Ctx) (w : CmdWord) : dmOffsets x (withOpcode op w) = dmOffsets x w := by
  unfold dmOffsets dmRows dmMem dmRankStride dmMemStride
  rw [cw_withOpcode op w 16 (by decide), cw_withOpcode op w 48 (by decide), cw_withOpcode op w 32 (by decide), cw_withOpcode op w 32 (by decide)]

/-! #### What taking a word leaves -/

/-- Taking a word reaches the cores and a cluster's count of long replay points. -/
theorem Package.taken_keeps (p : Package) (c k : Nat) (w : CmdWord) : (p.taken c k w).variant = p.variant ∧ (p.taken c k w).poison = p.poison
    ∧ (p.taken c k w).rd FAB_STATUS = p.rd FAB_STATUS := by
  have hwatch (q : Package) : (q.watchPoint c k).variant = q.variant ∧ (q.watchPoint c k).poison = q.poison
      ∧ (q.watchPoint c k).rd FAB_STATUS = q.rd FAB_STATUS := by
    unfold Package.watchPoint
    dsimp only
    split
    · refine ⟨rfl, rfl, Package.rd_bump64_ne _ 1 ?_⟩
      unfold CLU_RP_LONG pageCLU FAB_STATUS
      omega
    · exact ⟨rfl, rfl, rfl⟩
  exact hwatch (p.setCore c k { p.core c k with left := (p.core c k).left - 1, since := (p.core c k).since ++ [w], behind := (p.core c k).behind ++ [w] })

theorem Package.taken_rangeOk (p : Package) (c k : Nat) (w : CmdWord) (a n : Nat) : (p.taken c k w).rangeOk a n = p.rangeOk a n := by
  obtain ⟨hvariant, -, hfab⟩ := p.taken_keeps c k w
  exact Package.rangeOk_congr hvariant hfab a n

theorem Package.taken_rangePoisoned (p : Package) (c k : Nat) (w : CmdWord) (a n : Nat) :
    (p.taken c k w).rangePoisoned a n = p.rangePoisoned a n := by
  obtain ⟨-, hpoison, -⟩ := p.taken_keeps c k w
  simp only [Package.rangePoisoned, Package.poisoned, hpoison]

/-! #### Quiet cores stay quiet -/

theorem Package.still_opWrite (p : Package) (c k a : Nat) (bs : List Byte) : p.Still (p.opWrite c k a bs) := p.still_modCore c k _ fun _ h => h

theorem Package.still_locWrite (p : Package) (c k : Nat) (cl : Bool) (a : Nat) (bs : List Byte) : p.Still (p.locWrite c k cl a bs) := by
  unfold Package.locWrite
  split
  · exact Package.still_of_cores rfl
  · exact p.still_opWrite c k a bs

theorem Package.still_storeBy (p : Package) (die a : Nat) (bs : List Byte) : p.Still (p.storeBy die a bs) := by
  obtain ⟨r, h⟩ := p.storeBy_shape die a bs
  have hcores : (p.storeBy die a bs).cores = p.cores := by
    rw [h]
    rfl
  exact Package.still_of_cores hcores

theorem Package.still_countReadBy (p : Package) (die a n : Nat) : p.Still (p.countReadBy die a n) := by
  obtain ⟨r, h⟩ := p.regsOnly_countReadBy die a n
  have hcores : (p.countReadBy die a n).cores = p.cores := by rw [h]
  exact Package.still_of_cores hcores

theorem Package.still_mapLoad (p : Package) (c k : Nat) (w : CmdWord) : p.Still (p.mapLoad c k w) := by
  have hset (m : List MapEntry) : p.Still (p.setCore c k { p.core c k with opMap := m }) := p.still_setCore c k _ fun h => h
  unfold Package.mapLoad
  dsimp only
  split
  · exact hset _
  · exact (hset _).trans (Package.still_bump64 _ _ _)

theorem Package.resolve_still {p q : Package} {x : Ctx} {w scale : Nat} {quant : Option (Nat × Int × Nat)} (h : p.resolve x w none = .ok q scale quant) :
    p.Still q := by
  unfold Package.resolve at h
  split at h
  · obtain ⟨rfl, -, -⟩ := h
    exact .refl p
  · extract_lets terms plus slotOf p1 exps inExp sum e c1 p2 at h
    have h1 : p.Still p1 := p.still_each _ _ fun r t => Package.still_of_cores (r.useSlot_cores _ _)
    have h2 : p.Still p2 := by
      unfold p2
      split
      · exact h1
      · exact h1.trans (Package.still_bump64 _ _ _)
    clear_value plus
    split at h
    · cases h
    · split at h
      · cases h
      · cases plus with
        | nil => exact (RefEnd.ok.inj h).1 ▸ h2
        | cons t ts => exact (RefEnd.ok.inj h).1 ▸ h2

/-! #### The commands -/

/-- The rows that a load moves, and its entry in the operand map. -/
def Package.loadRows (p : Package) (c k : Nat) (x : Ctx) (base : Nat) (w : CmdWord) : Package :=
  (p.each ((dmLocals w).zip (dmOffsets x w)) (fun p e => (p.locWrite c k (dmCluster w) e.1 (p.bytesAt (base + e.2) (dmRowBytes w))).countReadBy (c / 72)
    (base + e.2) (dmRowBytes w))).when (!dmCluster w) (fun p => p.mapLoad c k w)

theorem Package.still_loadRows (p : Package) (c k : Nat) (x : Ctx) (base : Nat) (w : CmdWord) : p.Still (p.loadRows c k x base w) := by
  have hrows := p.still_each ((dmLocals w).zip (dmOffsets x w)) (fun p e => (p.locWrite c k (dmCluster w) e.1
    (p.bytesAt (base + e.2) (dmRowBytes w))).countReadBy (c / 72) (base + e.2) (dmRowBytes w))
    fun q e => (q.still_locWrite c k _ e.1 _).trans (Package.still_countReadBy _ _ _ _)
  unfold Package.loadRows Package.when
  split
  · exact hrows.trans (Package.still_mapLoad _ _ _ _)
  · exact hrows

theorem runCommand_dmLoad {h : Held} (hop : opcodeOf h.word = 0x80) (p : Package) (c k : Nat) (x : Ctx) : runCommand p c k x h = dmLoad p c k x h := by
  simp [runCommand, hop]

theorem runCommand_dmStore {h : Held} (hop : opcodeOf h.word = 0x81) (p : Package) (c k : Nat) (x : Ctx) : runCommand p c k x h = dmStore p c k x h := by
  simp [runCommand, hop]

theorem runCommand_dmLocal {h : Held} (hop : opcodeOf h.word = 0x82) (p : Package) (c k : Nat) (x : Ctx) : runCommand p c k x h = dmLocalCopy p c k h := by
  simp [runCommand, hop]

theorem runCommand_dmOutdesc {h : Held} (hop : opcodeOf h.word = 0x83) (p : Package) (c k : Nat) (x : Ctx) : runCommand p c k x h = dmOutdesc p c k x h := by
  simp [runCommand, hop]

theorem dmLoad_done {p : Package} {x : Ctx} {h : Held} {c base : Nat} {bound : Option Nat} (k : Nat) (hcheck : dmCheck h.word = 0)
    (hbase : p.modeBase c x true h.word = .mem base bound) (hwithin : dmWithin h.word bound (dmOffsets x h.word) = true)
    (hrows : ∀ o ∈ dmOffsets x h.word, p.rangeOk (base + o) (dmRowBytes h.word) = true ∧ p.rangePoisoned (base + o) (dmRowBytes h.word) = false) :
    dmLoad p c k x h = .done (p.loadRows c k x base h.word) := by
  have hok : (dmOffsets x h.word).any (fun o => !p.rangeOk (base + o) (dmRowBytes h.word)) = false := by
    simp only [List.any_eq_false, Bool.not_eq_true', Bool.not_eq_false]
    exact fun o ho => (hrows o ho).1
  have hclean : (dmOffsets x h.word).any (fun o => p.rangePoisoned (base + o) (dmRowBytes h.word)) = false := by
    simp only [List.any_eq_false, Bool.not_eq_true]
    exact fun o ho => (hrows o ho).2
  unfold dmLoad Package.loadRows Package.when
  simp only [hcheck, hbase, hwithin, hok, hclean, ne_eq, not_true_eq_false, Bool.not_true, Bool.or_self, Bool.false_eq_true, if_false]
  cases dmCluster h.word <;> rfl

/-- No row of a list has what no place of the list has. -/
theorem any_zip_left {α β : Type} {as : List α} {bs : List β} {f : α → Bool} (h : ∀ a ∈ as, f a = false) : (as.zip bs).any (fun e => f e.1) = false := by
  simp only [List.any_eq_false, Bool.not_eq_true]
  exact fun e he => h e.1 (List.of_mem_zip he).1

theorem any_zip_right {α β : Type} {as : List α} {bs : List β} {f : β → Bool} (h : ∀ b ∈ bs, f b = false) : (as.zip bs).any (fun e => f e.2) = false := by
  simp only [List.any_eq_false, Bool.not_eq_true]
  exact fun e he => h e.2 (List.of_mem_zip he).2

/-- A store's rows are without poison where they come from cluster SRAM that is. -/
theorem rows_clean {p : Package} {c : Nat} {x : Ctx} {w : CmdWord} (h : dmCluster w = true → ∀ a ∈ dmLocals w, p.cluPoisoned c a (dmRowBytes w) = false) :
    (dmCluster w && ((dmLocals w).zip (dmOffsets x w)).any (fun e => p.cluPoisoned c e.1 (dmRowBytes w))) = false := by
  cases hc : dmCluster w with
  | false => rfl
  | true => exact any_zip_left (f := fun a => p.cluPoisoned c a (dmRowBytes w)) (h hc)

theorem dmStore_mem {p : Package} {x : Ctx} {h : Held} {c base : Nat} {bound : Option Nat} (k : Nat) (hcheck : dmCheck h.word = 0)
    (hbase : p.modeBase c x false h.word = .mem base bound) (hwithin : dmWithin h.word bound (dmOffsets x h.word) = true)
    (hok : ∀ o ∈ dmOffsets x h.word, p.rangeOk (base + o) (dmRowBytes h.word) = true)
    (hclean : dmCluster h.word = true → ∀ a ∈ dmLocals h.word, p.cluPoisoned c a (dmRowBytes h.word) = false) :
    dmStore p c k x h = .done (p.each ((dmLocals h.word).zip (dmOffsets x h.word))
      (fun p e => p.storeBy (c / 72) (base + e.2) (p.locRead c k (dmCluster h.word) e.1 (dmRowBytes h.word)))) := by
  have hreach := any_zip_right (as := dmLocals h.word) (f := fun o => !p.rangeOk (base + o) (dmRowBytes h.word)) fun o ho => by rw [hok o ho]; rfl
  unfold dmStore
  simp only [hcheck, hbase, hwithin, hreach, rows_clean hclean, ne_eq, not_true_eq_false, Bool.not_true, Bool.or_self, Bool.false_eq_true, if_false]

theorem dmStore_out {p : Package} {x : Ctx} {h : Held} {c b : Nat} (k : Nat) (hcheck : dmCheck h.word = 0)
    (hbase : p.modeBase c x false h.word = .out b) (hwithin : dmWithin h.word (some b) (dmOffsets x h.word) = true)
    (hclean : dmCluster h.word = true → ∀ a ∈ dmLocals h.word, p.cluPoisoned c a (dmRowBytes h.word) = false) :
    dmStore p c k x h = .done (p.modStg x.stage (fun y => { y with phase := y.phase.map (fun ph =>
      { ph with outBuf := ((dmLocals h.word).zip (dmOffsets x h.word)).foldl
                            (fun m e => putOut m e.2 (p.locRead c k (dmCluster h.word) e.1 (dmRowBytes h.word))) ph.outBuf }) })) := by
  unfold dmStore
  simp only [hcheck, hbase, hwithin, rows_clean hclean, ne_eq, not_true_eq_false, Bool.not_true, Bool.false_eq_true, if_false]

theorem dmStore_nothing {p : Package} {x : Ctx} {h : Held} {c : Nat} (k : Nat) (hcheck : dmCheck h.word = 0)
    (hbase : p.modeBase c x false h.word = .nothing) : dmStore p c k x h = .done p := by
  unfold dmStore
  simp only [hcheck, hbase, ne_eq, not_true_eq_false, if_false]

/-- A copy between a core's SRAM and its cluster's, the way DST says. -/
def Package.copyRows (p : Package) (c k : Nat) (w : CmdWord) : Package :=
  if dmCluster w
  then p.each ((dmLocals w).zip (dmClusterRows w)) (fun p e => p.cluWrite c e.2 (p.opRead c k e.1 (dmRowBytes w)))
  else (p.each ((dmLocals w).zip (dmClusterRows w)) (fun p e => p.opWrite c k e.1 (p.cluRead c e.2 (dmRowBytes w)))).mapLoad c k w

theorem Package.still_copyRows (p : Package) (c k : Nat) (w : CmdWord) : p.Still (p.copyRows c k w) := by
  unfold Package.copyRows
  split
  · exact p.still_each _ _ fun q _ => Package.still_of_cores rfl
  · have hrows := p.still_each ((dmLocals w).zip (dmClusterRows w)) (fun p e => p.opWrite c k e.1 (p.cluRead c e.2 (dmRowBytes w)))
      fun q e => q.still_opWrite c k e.1 _
    exact hrows.trans (Package.still_mapLoad _ _ _ _)

theorem dmLocalCopy_done {p : Package} {h : Held} {c : Nat} (k : Nat) (hcheck : dmLocalCheck h.word = 0)
    (hclean : dmCluster h.word = true ∨ ∀ a ∈ dmClusterRows h.word, p.cluPoisoned c a (dmRowBytes h.word) = false) :
    dmLocalCopy p c k h = .done (p.copyRows c k h.word) := by
  unfold dmLocalCopy Package.copyRows
  simp only [hcheck, ne_eq, not_true_eq_false, if_false]
  cases hc : dmCluster h.word with
  | true => rfl
  | false =>
    have hrows : (dmClusterRows h.word).any (fun a => p.cluPoisoned c a (dmRowBytes h.word)) = false := by
      simp only [List.any_eq_false, Bool.not_eq_true]
      exact hclean.resolve_left (by rw [hc]; decide)
    simp only [hrows, Bool.false_eq_true, if_false]

theorem dmOutdesc_done {p q : Package} {x : Ctx} {h : Held} {c k scale : Nat} {ph : Phase} {quant : Option (Nat × Int × Nat)}
    (hbits : strayBits h.word (baseFields ++ [(128, 16), (160, 64)]) = false) (hfirst : x.recompute = false) (hph : p.phaseOf x = some ph)
    (hout : ph.out = none) (hfits : cw h.word 160 32 ≤ (p.outBound x.stage ph).getD (cw h.word 160 32))
    (hres : p.resolve x (cw h.word 192 32) none = .ok q scale quant) (hnew : (p.core c k).replaying = false) :
    dmOutdesc p c k x h = .done (q.modStg x.stage (fun y => { y with phase := y.phase.map (fun r =>
      { r with out := some { format := cw h.word 128 16, bytes := cw h.word 160 32, scale := scale } }) })) := by
  unfold dmOutdesc
  simp [hbits, hph, hfirst, hnew, hout, Nat.not_lt.mpr hfits, hres]

/-- A load, from the package as its reads have found it (R229). -/
theorem dmLoad_exec {s : State} {c k base : Nat} {bound : Option Nat} {x : Ctx} {w : CmdWord} (dt : Nat) (found : List (Nat × LineCheck))
    (htakes : CoreTakes (((s.pkg.pass dt).loadFinds c k w found).pass 0) c k x (withOpcode 0x80 w)) (hcheck : dmCheck (withOpcode 0x80 w) = 0)
    (hbase : ((((s.pkg.pass dt).loadFinds c k w found).pass 0).taken c k (withOpcode 0x80 w)).modeBase c x true (withOpcode 0x80 w) = .mem base bound)
    (hwithin : dmWithin (withOpcode 0x80 w) bound (dmOffsets x (withOpcode 0x80 w)) = true)
    (hrows : ∀ o ∈ dmOffsets x (withOpcode 0x80 w), (((s.pkg.pass dt).loadFinds c k w found).pass 0).rangeOk (base + o) (dmRowBytes w) = true
      ∧ (((s.pkg.pass dt).loadFinds c k w found).pass 0).rangePoisoned (base + o) (dmRowBytes w) = false) :
    issueLoad dt c k w found s.pkg = ((((((s.pkg.pass dt).loadFinds c k w found).pass 0).taken c k (withOpcode 0x80 w)).loadRows c k x base
      (withOpcode 0x80 w)).complete c k ((((s.pkg.pass dt).loadFinds c k w found).pass 0).heldFor c k (withOpcode 0x80 w))) := by
  have hop : opcodeOf (withOpcode 0x80 w) = 0x80 := opcodeOf_withOpcode w (by decide)
  unfold issueLoad
  generalize (s.pkg.pass dt).loadFinds c k w found = p at *
  refine issue_done htakes (by rw [hop]; rfl) ?_ ?_
  · refine (runCommand_dmLoad hop _ _ _ _).trans (dmLoad_done k hcheck hbase hwithin fun o ho => ?_)
    obtain ⟨hok, hclean⟩ := hrows o ho
    change ((p.pass 0).taken c k (withOpcode 0x80 w)).rangeOk (base + o) (dmRowBytes (withOpcode 0x80 w)) = true
      ∧ ((p.pass 0).taken c k (withOpcode 0x80 w)).rangePoisoned (base + o) (dmRowBytes (withOpcode 0x80 w)) = false
    rw [dmRowBytes_withOpcode, Package.taken_rangeOk, Package.taken_rangePoisoned]
    exact ⟨hok, hclean⟩
  · exact Package.still_complete _ _ _ _ _ _ (Package.still_loadRows _ _ _ _ _ _ _ _ htakes.quiet_taken)

/-- Settles O15, by the command. -/
theorem dataMover : Obligations.DataMover := by
  refine ⟨?_, fun base bound => ?_, fun b => ?_, ?_, ?_, fun q scale quant => ?_⟩
  · intro s dt c k base bound x w found htakes hcheck hbase hwithin hrows
    refine ⟨_, next_pkg_congr (dmLoad_exec dt found htakes hcheck hbase hwithin hrows), ?_⟩
    unfold Package.loadRows
    rw [dmCluster_withOpcode, dmRowBytes_withOpcode, dmLocals_withOpcode, dmOffsets_withOpcode]
  · refine commandRuns_of (fun _ _ _ _ _ => rfl) (by decide) rfl (fun p c k x h hop hok => ?_)
      fun p c k x h _ => p.still_each _ _ fun q _ => q.still_storeBy _ _ _
    obtain ⟨hcheck, hbase, hwithin, hreach, hclean⟩ := hok
    exact (runCommand_dmStore hop p c k x).trans (dmStore_mem k hcheck hbase hwithin hreach hclean)
  · refine commandRuns_of (fun _ _ _ _ _ => rfl) (by decide) rfl (fun p c k x h hop hok => ?_) fun p c k x h _ => Package.still_of_cores rfl
    obtain ⟨hcheck, hbase, hwithin, hclean⟩ := hok
    exact (runCommand_dmStore hop p c k x).trans (dmStore_out k hcheck hbase hwithin hclean)
  · refine commandRuns_of (fun _ _ _ _ _ => rfl) (by decide) rfl (fun p c k x h hop hok => ?_) fun p _ _ _ _ _ => Package.Still.refl p
    obtain ⟨hcheck, hbase⟩ := hok
    exact (runCommand_dmStore hop p c k x).trans (dmStore_nothing k hcheck hbase)
  · refine commandRuns_of (fun _ _ _ _ _ => rfl) (by decide) rfl (fun p c k x h hop hok => ?_) fun p c k _ h _ => p.still_copyRows c k h.word
    obtain ⟨hcheck, hclean⟩ := hok
    exact (runCommand_dmLocal hop p c k x).trans (dmLocalCopy_done k hcheck hclean)
  · refine commandRuns_of (fun _ _ _ _ _ => rfl) (by decide) rfl (fun p c k x h hop hok => ?_) fun p c k x h hok => ?_
    · obtain ⟨hbits, hfirst, ⟨ph, hph, hout, hfits⟩, hres, hnew⟩ := hok
      exact (runCommand_dmOutdesc hop p c k x).trans (dmOutdesc_done hbits hfirst hph hout hfits hres hnew)
    · obtain ⟨-, -, -, hres, -⟩ := hok
      exact (Package.resolve_still hres).trans (Package.still_of_cores rfl)

end Sys2Proof.Machine

/-! ### Command errors (R105, R121) -/

namespace Sys2Proof.Machine

/-- A phase that has begun and computes. -/
def openPhase : Phase := { dir := .fwd, step := 0, microBatch := 0, index := 0, winTag := 0, version := 0, beat := 0, tickAt := 0, startAt := 0, entry := 0 }

/-- Core 0 of cluster 0, in its second command of a list with one word left. -/
def listCore : Core := { serving := some (1, 0), layerPos := 1, left := 1, ordinal := 1 }

/-- A stage table that names stage 0 twice: the entry that a look-up by number finds has no phase and no clusters, the other has a phase on cluster 0.
Core 0 serves the second, as the stages of a cluster are searched entry by entry. -/
def doubledStage : Package := { stages := [(0, {}), (0, { phase := some openPhase, clusters := [0] })], cores := [(0, listCore)] }

/-- What core 0 of cluster 0 serves there. -/
def doubledCtx : Ctx :=
  { stage := 0, run := none, step := 0, microBatch := 0, dir := .fwd, layer := (doubledStage.layer 0 0).getD Layer.none, layerIdx := 0,
    rank := doubledStage.rankIn [] 0 0, recompute := false, inScale := openPhase.scale, version := 0 }

/-- A word of opcode 0xFF, which no row of the opcode table names. -/
def reservedWord : CmdWord := 0xFF

theorem doubledStage_takes : CoreTakes (doubledStage.pass 0) 0 0 doubledCtx reservedWord where
  ctx := rfl
  after := rfl
  serves := by decide
  left := by decide
  quiet := by decide
  filled := by decide
  live := by decide
  pred := by decide
  wait := by decide
  signal := .inl (by decide)
  gate := .inl (by decide)

/-- The error stops the cores of the entry that its stage's number finds, and core 0 of cluster 0 is not one of them. -/
theorem issueReserved_doubledStage : ((issueReserved 0 0 0 reservedWord doubledStage).core 0 0).stopped = false := by decide

/-- Refutes O16: the statement is over every state, also one whose stage table names a stage twice. There a core serves the phase of the second
entry, and a reserved opcode stops the cores of the first: the core that met the error is not stopped. -/
theorem not_commandErrors : ¬ Obligations.CommandErrors := by
  unfold Obligations.CommandErrors
  rintro ⟨hreserved, -⟩
  obtain ⟨t, ht, hstopped, -⟩ := hreserved { State.reset with pkg := doubledStage } 0 0 0 doubledCtx reservedWord doubledStage_takes rfl
    (by decide) (by decide) (by decide) (fun ph h => by cases h)
  obtain rfl : { State.reset with pkg := issueReserved 0 0 0 reservedWord doubledStage } = t := Host.Outcome.next.inj ht
  exact absurd (issueReserved_doubledStage.symm.trans hstopped) (by decide)

end Sys2Proof.Machine
